-- ==== Sys2Proof/Word.lean ====
section
/-! DEFINITION. Lists read and changed at a position. The unit numbers its paths, lanes, slots and channels
from 0 (chapter 1 of the manual); a numbered bank of like things is a list, read at a number with `nth` and
changed at a number with `upd`. A number beyond the bank reads as the default and changes nothing. -/

namespace Sys2Proof

/-- The entry of a bank at a number; the type's default where the bank has no such number. -/
def nth {α : Type} [Inhabited α] : List α → Nat → α
  | [], _ => default
  | a :: _, 0 => a
  | _ :: l, n + 1 => nth l n

/-- The bank with the entry at a number changed; unchanged where it has no such number. -/
def upd {α : Type} : List α → Nat → (α → α) → List α
  | [], _, _ => []
  | a :: l, 0, f => f a :: l
  | a :: l, n + 1, f => a :: upd l n f

/-- The bank with every entry changed, each by its own number counted from `n`. -/
def updAll {α : Type} (f : Nat → α → α) : Nat → List α → List α
  | _, [] => []
  | n, a :: l => f n a :: updAll f (n + 1) l

end Sys2Proof
end

