-- ==== Sys2Proof/Syntax.lean ====
section
/-! DEFINITION. The commands of the block: one constructor of `Instr` per row of the table of operations and
events. A row that is a Swios command of a host carries the packet's header; a row that is a happening at a pin,
a fibre, a sensor or in the unit's own hardware carries what the manual leaves to the outside world (a measured
value, a received identity, the verdict of a signature check); a row that is an instruction of a signal core
carries the number of the core that issues it. -/

namespace Sys2Proof

/-- The source address a session is bound to (R128): under EtherType encapsulation the Ethernet address, under
UDP the IP address (the 16-byte form of R677) and the UDP port. -/
structure Addr where
  isUdp : Bool
  eth : Nat
  ip : Nat
  udp : Nat
deriving DecidableEq, Repr, Inhabited

/-- How a received packet was carried (R113, R114): the number of its 802.1Q tags, whether its UDP ran over IPv6, its EtherType or its
UDP destination port, and whether its UDP checksum field is zero and whether it is correct. -/
structure Wire where
  tags : Nat := 0
  v6 : Bool := false
  key : Nat := 0x88B5
  sumZero : Bool := true
  sumOk : Bool := true
deriving DecidableEq, Repr, Inhabited

/-- Where a received packet came from: its port (a lane, or 32 for the service port), its source address and how it was carried. -/
structure PktIn where
  port : Nat
  src : Addr
  wire : Wire
deriving DecidableEq, Repr, Inhabited

/-- A received Swios packet as octets (R117, R119), its source address and how it was carried. -/
structure RawPkt where
  src : Addr
  wire : Wire
  bytes : List Nat
deriving DecidableEq, Repr, Inhabited

/-- A frame received on a direct lane, from START to TERM (R88, R90): its class and bytes, the numbers of its data blocks that came with
an invalid sync header or from an uncorrectable codeword, the CRC-32C of its TERM block, and the ticks it took to arrive. -/
structure DirectFrame where
  cls : Nat
  bytes : List Nat
  bad : List Nat
  crc : Nat
  ticks : Nat
deriving DecidableEq, Repr, Inhabited

/-- The 16-byte spread block of R138. -/
structure SpreadBlock where
  base : Nat
  spread : Nat
  key : Nat
  reserved : Nat
  slot : Nat
deriving DecidableEq, Repr, Inhabited

/-- What the header and the first words of a received CMD packet say (R117, R118, R133), and where it came from.
`port` is the lane 0 to 31, or 32 for the service port; `urgent` is the flag of that name. `lengthOk` says that the argument bytes match the opcode
(R170, ST_BAD_LENGTH). -/
structure Hdr where
  port : Nat
  src : Addr
  unit : Nat
  session : Nat
  channel : Nat
  seq : Nat
  broadcast : Bool
  thorn : Bool
  spread : Option SpreadBlock
  noRsp : Bool
  dryRun : Bool
  reservedFlags : Bool
  lengthOk : Bool
  urgent : Bool := false
  wire : Wire := {}
deriving DecidableEq, Repr, Inhabited


/-- The settings of LINK-ENCAP-SET (R168): EtherType, UDP port, VLAN identifier, IPv4 mode, address, prefix length
and gateway, and the static IPv6 address. -/
structure Encap where
  etherType : Nat
  udpPort : Nat
  vlan : Nat
  ipv4Mode : Nat
  ipv4 : Nat
  prefixLen : Nat
  gateway : Nat
  ipv6 : Nat
deriving DecidableEq, Repr, Inhabited

/-- The settings the unit starts with: EtherType 0x88B5 and UDP port 19820 (R113); no VLAN and no IP address. -/
def Encap.factory : Encap := ⟨0x88B5, 19820, 0, 0, 0, 0, 0, 0⟩

/-- A local-clock time or an epoch in its 12-byte form (R36): seconds, nanoseconds, 16-bit binary fraction. -/
structure Time12 where
  sec : Nat
  ns : Nat
  frac : Nat
deriving DecidableEq, Repr, Inhabited

/-- A stake as STAKE-SUBMIT carries it (R61). -/
structure Stake where
  position : Nat
  action : Nat
  target : Nat
  flags : Nat
  deferLimit : Nat
  repeatCount : Nat
  repeatPeriod : Nat
  tag : Nat
  argument : Nat
deriving DecidableEq, Repr, Inhabited

/-- What the configuration objects of receive and transmit sub-bands share (R193, R225); `aFactor` and `bFactor` are
D_A and D_B on receive, I_A and I_B on transmit. -/
structure ChainPar where
  rf : Nat := 0
  profile : Nat := 0
  phase : Nat := 0
  aSections : Nat := 0
  aLength : List Nat := [0, 0, 0, 0, 0]
  aFactor : Nat := 0
  aShift : Nat := 0
  bFactor : Nat := 0
  bShift : Nat := 0
  bTaps : Nat := 0
  bCoef : Nat := 0
  reserved23 : Nat := 0
  bDelay : Nat := 0
  cShift : Nat := 0
  windowMode : Nat := 0
  cRatio : Nat := 0
  cAnchor : Nat := 0
deriving DecidableEq, Repr, Inhabited

/-- The configuration object of a receive sub-band (R193). -/
structure RxCfg where
  chain : ChainPar := {}
  consumers : Nat := 0
  reserved41 : Nat := 0
deriving DecidableEq, Repr, Inhabited

/-- The configuration object of a transmit sub-band (R225). -/
structure TxCfg where
  chain : ChainPar := {}
  source : Nat := 0
  gain : Nat := 0
  reserved43 : Nat := 0
deriving DecidableEq, Repr, Inhabited

/-- The configuration object of a frequency-engine slot (R270). -/
structure FreCfg where
  mode : Nat := 0
  log2 : Nat := 0
  taps : Nat := 0
  oversample : Nat := 0
  window : Nat := 0
  mu : Nat := 0
  cpType : Nat := 0
  pfbShift : Nat := 0
  fftShift : Nat := 0
  wola : Nat := 0
  symOffset : Int := 0
  backoff : Nat := 0
  eqGroup : Nat := 0
  firstCh : Nat := 0
  nCh : Nat := 0
  eqShift : Nat := 0
  rq4 : Nat := 0
  rq8 : Nat := 0
  consumers : Nat := 0
  anchor : Nat := 0
  reserved40 : Nat := 0
deriving DecidableEq, Repr, Inhabited

/-- The configuration object of a chain node (R294). -/
structure ChainCfg where
  chainId : Nat := 0
  sb : Nat := 0
  flags : Nat := 0
  parent : Nat := 0
  childs : List Nat := [0, 0, 0]
  offset : Nat := 0
  frameCh : Nat := 0
  firstBeam : Nat := 0
  beams : Nat := 0
  expected : Nat := 0
  depth : Nat := 0
  reserved19 : Nat := 0
  stall : Nat := 0
  reserved22 : Nat := 0
deriving DecidableEq, Repr, Inhabited

/-- The coppice header (R324); `n1`, `n2` and `n3` are the dimension bytes, 0 for 256. -/
structure WeaveHdr where
  id : Nat := 0
  epoch : Nat := 0
  sb : Nat := 0
  format : Nat := 0
  mode : Nat := 0
  maxGroups : Nat := 0
  n1 : Nat := 0
  n2 : Nat := 0
  n3 : Nat := 0
  reserved11 : Nat := 0
  members : Nat := 0
  own : Nat := 0
  deadline : Nat := 0
  covGroup : Nat := 0
  covSpan : Nat := 0
  reserved24 : Nat := 0
deriving DecidableEq, Repr, Inhabited

/-- An entry of the lane map (R324): the dimension's number from 0, 0xFF for none, the partner's coordinate in it, the
position in the bundle and the zero byte. -/
structure LaneMap where
  dim : Nat := 0xFF
  partner : Nat := 0
  pos : Nat := 0
  zero : Nat := 0
deriving DecidableEq, Repr, Inhabited

structure LaneMaps where
  maps : List LaneMap
deriving DecidableEq, Repr, Inhabited

/-- An entry of the member table (R318). -/
structure Member where
  unit : Nat := 0
  flags : Nat := 0
  first : Nat := 0
  count : Nat := 0
  mask : Nat := 0
deriving DecidableEq, Repr, Inhabited

structure Members where
  list : List Member
deriving DecidableEq, Repr, Inhabited

/-- The configuration object of the correlator (R377). -/
structure XceCfg where
  mode : Nat := 0
  tiles : Nat := 0
  outMode : Nat := 0
  intOut : Nat := 0
  dramBlocks : Nat := 0
  intPasses : Nat := 0
  outRate : Nat := 0
  dest : Nat := 0
  reportLane : Nat := 0
  reserved18 : Nat := 0
  fwdLanes : Nat := 0
  anchor : Nat := 0
  reserved32 : Nat := 0
deriving DecidableEq, Repr, Inhabited

/-- The predistortion configuration object of a path (R386). -/
structure DpdCfg where
  dpdOn : Nat := 0
  order : Nat := 7
  mem : Nat := 4
  nbrMem : Nat := 2
  nbrLo : Nat := 0xFF
  nbrHi : Nat := 0xFF
  capLen : Nat := 4096
  step : Nat := 192
  reg : Nat := 20
  boundNmse : Int := -330
  boundOob : Int := -450
  hardNmse : Int := -250
  hardOob : Int := -350
  maxAge : Nat := 1000
  tempDrift : Nat := 5
  stepDrift : Nat := 20
  backoffMax : Nat := 6
  reserved23 : Nat := 0
deriving DecidableEq, Repr, Inhabited

/-- A partner of over-the-air alignment (R443): its unit, our path, its path, the flags and the two zero bytes. -/
structure Partner where
  unit : Nat := 0
  path : Nat := 0
  partnerPath : Nat := 0
  flags : Nat := 0
  zero : Nat := 0
deriving DecidableEq, Repr, Inhabited

structure Partners where
  list : List Partner
deriving DecidableEq, Repr, Inhabited

/-- The beacon configuration object (R478). -/
structure BcnCfg where
  kind : Nat := 0
  txPath : Nat := 0
  freq : Nat := 0
  level : Nat := 6
  nr : Nat := 3
  tailLen : Nat := 64
  tailBw : Nat := 100
  rxPath : Nat := 0
  captureMargin : Nat := 6
  detectMargin : Nat := 10
  rxFlags : Nat := 0
  dest : Nat := 0
  reportLane : Nat := 0
  rxFreq : Nat := 0
  reserved23 : Nat := 0
deriving DecidableEq, Repr, Inhabited

/-- A DMA descriptor (R539): strides of the source and of the destination, inner loop first. -/
structure Desc where
  src : Nat := 0
  dst : Nat := 0
  elemLen : Nat := 0
  n0 : Nat := 0
  n1 : Nat := 0
  n2 : Nat := 0
  srcS : List Int := [0, 0, 0]
  dstS : List Int := [0, 0, 0]
  link : Nat := 0
  ctl : Nat := 0
  result : Nat := 0
deriving DecidableEq, Repr, Inhabited

/-- The descriptors of DMA-RUN (R551). -/
structure Descs where
  list : List Desc
deriving DecidableEq, Repr, Inhabited

/-- What the boot ROM finds on the image in a slot (R622, R624): whether its section hashes are right, the key slots (0 and 1 V0 and V1, 2 to 5 O0 to O3) whose two hashes match the two
public keys in its signature block, and whether its ECDSA and its HSS signature verify. -/
structure SigCheck where
  hashOk : Bool
  keys : List Nat
  ecdsa : Bool
  hss : Bool
deriving DecidableEq, Repr, Inhabited

/-- The settings of a remote temperature input (R606, R614): enable, threshold in °C, B in K and R25 in Ω. -/
structure ExtSet where
  enable : Nat := 0
  start : Nat := 0
  b : Nat := 0
  r25 : Nat := 0
deriving DecidableEq, Repr, Inhabited

structure ExtInputs where
  list : List ExtSet
deriving DecidableEq, Repr, Inhabited

/-- A STREAM packet from a host: its number, sub-header and tail (R145, R148). -/
structure StreamPkt where
  num : Nat
  firstAxis : Nat
  format : Nat
  flags : Nat
  groups : Nat
  elements : Nat
  firstElement : Nat
  tail : Nat
  data : List Nat
deriving DecidableEq, Repr, Inhabited

/-- The equaliser's figures after an adaptation (R94): CTLE peaking, eye height, eye width, the five DFE taps, and
the laser monitor's transmit power in 0.1 dBm (R110). -/
structure EqState where
  peak : Nat
  eyeHeight : Nat
  eyeWidth : Nat
  dfe : List Int
  txPower : Int
deriving DecidableEq, Repr, Inhabited

def EqState.zero : EqState := ⟨0, 0, 0, [0, 0, 0, 0, 0], 0⟩

/-- A block of 16 values of a sum frame (R298): its exponent, its thorn, its mantissas, and the positions whose word
arrived thorned (R90). -/
structure SumBlock where
  exp : Nat := 0
  thorn : Bool := false
  vals : List (Int × Int) := []
  lost : List Nat := []
deriving DecidableEq, Repr, Inhabited

/-- A frame of class 0x02 or 0x03 (R297): its header and, in class 0x02, its blocks, in class 0x03 its layer values in the order of
R298 and the numbers of those whose word is thorned. -/
structure ChainFrame where
  chainId : Nat := 0
  sb : Nat := 0
  flags : Nat := 0
  axis : Nat := 0
  count : Nat := 0
  index : Nat := 0
  firstBeam : Nat := 0
  beams : Nat := 0
  channels : Nat := 0
  firstCh : Nat := 0
  shapeCrc : Nat := 0
  depth : Nat := 0
  blocks : List SumBlock := []
  layers : List (Int × Int) := []
  lost : List Nat := []
deriving DecidableEq, Repr, Inhabited

/-- A node's own values for a whole frame (R299, R303): whether they are formed, its receive window being open for the
group, and the accumulators in blocks of exponent 0. -/
structure SumRuns where
  ready : Bool
  blocks : List SumBlock
deriving DecidableEq, Repr, Inhabited

/-- A frame of class 0x01 (R326): its header, its samples in the order of R327, and the numbers of those that stand in a thorned word
(R90). -/
structure WeaveFrame where
  id : Nat := 0
  epoch : Nat := 0
  axis : Nat := 0
  source : Nat := 0
  dest : Nat := 0
  sb : Nat := 0
  f8 : Bool := false
  hops : Nat := 0
  groups : Nat := 0
  firstCh : Nat := 0
  channels : Nat := 0
  shapeCrc : Nat := 0
  flags : Nat := 0
  seq : Nat := 0
  vals : List (Int × Int) := []
  lost : List Nat := []
deriving DecidableEq, Repr, Inhabited

/-- What fails while the collector drains a block (R372, R373): the bank words whose parity fails, each with the visibility it holds and the
value as read, and the visibilities whose DRAM accumulator word reads back thorned. -/
structure TileDump where
  parity : List (Nat × Int × Int)
  thornAcc : List Nat
deriving DecidableEq, Repr, Inhabited

/-- The update of a solve (R397): per coefficient of R384, its real and imaginary parts in 2^-23. -/
structure Coefs where
  list : List (Int × Int)
deriving DecidableEq, Repr, Inhabited

/-- What a solve gives for a path in one direction (R418, R420): the delay and gain trims and the residual ripple, each
as the trim that would stand, and the residual response at 32 frequencies (R410, R441). -/
structure CalPath where
  dir : Nat := 0
  path : Nat := 0
  coarse : Nat := 0
  fine : Nat := 0
  gain : Int := 0
  ripple : Nat := 0
  resp : List (Int × Int) := []
deriving DecidableEq, Repr, Inhabited

/-- The result of a solved run (R418, R431): the paths it trims, the paths (direction, path) that gave no usable
measurement, and, where its kind yields them, the sub-converter trims (offset, gain, skew) of the 64 ADCs, the cell
trims of the 64 DACs and the gain, phase and delay of the observers. -/
structure CalResults where
  paths : List CalPath
  unusable : List (Nat × Nat)
  adc : List (Int × Int × Int)
  dac : List Int
  obs : List (Int × Int × Int)
deriving DecidableEq, Repr, Inhabited

/-- A received beacon header (R463, R464): the repetition its sync word named, whether its CRC-8 passed, and its
fields. -/
structure BcnHdr where
  nr : Nat
  crcOk : Bool
  version : Nat
  kind : Nat
  tail : Bool
  traced : Bool
  deferred : Bool
  unit : Nat
  len : Nat
  seq : Nat
deriving DecidableEq, Repr, Inhabited

/-- What ends with a received packet (R471, R435): its payload and whether its CRC-32C passed, and, at the end of a
tail, the arrival time less the tail's position in 2^-16 tick, the carrier phase in 2^-16 turn and the SNR in 0.1 dB. -/
structure BcnEnd where
  payload : List Nat
  crcOk : Bool
  arrival : Int
  phase : Nat
  snr : Int
deriving DecidableEq, Repr, Inhabited

/-- A request of a fabric master (R518 to R525): a read or a write of `len` bytes from an address, its data with the
bytes whose enables are clear and the 8-byte words that carry a thorn, whether it locks, and the holdback condition of
R530 that its ports and queues impose on it (1 to 4 and 8; 0 for none). -/
structure FabReq where
  master : Nat := 0
  addr : Nat := 0
  len : Nat := 0
  write : Bool := false
  data : List Nat := []
  off : List Nat := []
  thorn : List Nat := []
  lock : Bool := false
  hold : Nat := 0
deriving DecidableEq, Repr, Inhabited

/-- What the boot ROM finds (R624, R637, R646): the known-answer tests, BOOT_SEL asserted, the check of the image in each slot,
the matrix's self-test, and the records without a commit word that the replay discards (type and key). -/
structure BootCheck where
  kat : Bool
  bootSel : Bool
  slots : List SigCheck
  matrix : Bool
  discards : List (Nat × Nat)
deriving DecidableEq, Repr, Inhabited

/-- An ECDSA signature on P-384: its two numbers, 48 bytes each (R125). -/
structure EcdsaSig where
  r : Nat
  s : Nat
deriving DecidableEq, Repr, Inhabited

/-- The packet a stream sends next: the stream and the most groups it may hold (R145). -/
structure StreamSend where
  num : Nat
  groups : Nat
deriving DecidableEq, Repr, Inhabited

/-- What an Announce tells (R42): its grandmaster, the clockClass, and whether the alternate best-master algorithm prefers it to the
master followed so far. -/
structure Announce where
  gm : Nat
  clockClass : Nat
  better : Bool
deriving DecidableEq, Repr, Inhabited

/-- The correctionFields of an exchange in 2^-16 ns (R42): the Sync's and the Delay_Resp's. -/
structure PtpCorr where
  sync : Int
  delay : Int
deriving DecidableEq, Repr, Inhabited

/-- The quality a SyncE lane announces (R45): QL-PRC or better, and its frequency against the crystal. -/
structure SyncEQl where
  prc : Bool
  ppb : Int
deriving DecidableEq, Repr, Inhabited

/-- What the monitor of a lane's laser reads, in 0.1 dBm (R100). -/
structure LaserReading where
  lane : Nat
  power : Int
deriving DecidableEq, Repr, Inhabited

/-- Where a lane's search for block lock ended: one of the 66 offsets (R95). -/
structure LockAt where
  lane : Nat
  offset : Nat
deriving DecidableEq, Repr, Inhabited

/-- What ended block lock (R96): the invalid sync headers among 64 blocks, and the verdict of the codeword lock rules of a lane with FEC. -/
structure LockWindow where
  invalid : Nat
  codewords : Bool
deriving DecidableEq, Repr, Inhabited

/-- The run of error-free bits of a lane's checker (R107). -/
structure PrbsRun where
  lane : Nat
  run : Nat
deriving DecidableEq, Repr, Inhabited

/-- A frame of the unit's own contribution (R326): the owner it goes to, the first group's stamp, the first channel and the groups. -/
structure WeaveSend where
  dest : Nat
  axis : Nat
  first : Nat
  groups : Nat
deriving DecidableEq, Repr, Inhabited

/-- A row of a DRAM bank and its activations within the refresh window (R510). -/
structure RowHit where
  row : Nat
  count : Nat
deriving DecidableEq, Repr, Inhabited

/-- The commands, one per row of the table: each docstring names the row's rule. -/
inductive Instr where
  /-- R168. -/
  | discover (h : Hdr)
  /-- R125. -/
  | sessionOpen (h : Hdr) (role : Nat) (takeover : Nat) (keepalive : Nat) (maxPayload : Nat)
  /-- R125. -/
  | sessionAuth (h : Hdr) (key : Nat) (sig : EcdsaSig)
  /-- R127. -/
  | sessionClose (h : Hdr)
  /-- R129. -/
  | sessionKeepalive (h : Hdr)
  /-- R168. -/
  | sessionStatus (h : Hdr)
  /-- R677. -/
  | sessionList (h : Hdr)
  /-- R169. -/
  | sessionEvict (h : Hdr) (target : Nat)
  /-- R153. -/
  | eventSubscribe (h : Hdr) (mask : Nat) (minSev : Nat)
  /-- R156. -/
  | eventGet (h : Hdr) (first : Nat) (count : Nat)
  /-- R140. -/
  | bulkOpen (h : Hdr) (kind : Nat) (len : Nat) (crc : Nat)
  /-- R168. -/
  | bulkStatus (h : Hdr) (handle : Nat)
  /-- R143. -/
  | bulkClose (h : Hdr) (handle : Nat)
  /-- R143. -/
  | bulkAbort (h : Hdr) (handle : Nat)
  /-- R144. -/
  | bulkRead (h : Hdr) (handle : Nat) (offset : Nat) (len : Nat) (pace : Nat)
  /-- R144. -/
  | bulkResend (h : Hdr) (handle : Nat) (offset : Nat) (len : Nat)
  /-- R157. -/
  | destSet (h : Hdr) (index : Nat) (eth : Nat) (ipv : Nat) (ip : Nat) (udp : Nat) (maxPayload : Nat)
  /-- R159. -/
  | reportSlotSet (h : Hdr) (kind : Nat) (dest : Nat) (lane : Nat) (period : Nat) (offset : Nat) (window : Nat)
  /-- R168. -/
  | reportSlotGet (h : Hdr) (kind : Nat)
  /-- R169. -/
  | linkEncapSet (h : Hdr) (enc : Encap)
  /-- R168. -/
  | linkEncapGet (h : Hdr)
  /-- R168. -/
  | linkCounters (h : Hdr) (port : Nat) (clear : Nat)
  /-- R653. -/
  | quicksetExit (h : Hdr) (keep : Nat)
  /-- R654. -/
  | quicksetEnter (h : Hdr)
  /-- R656. -/
  | quicksetStatus (h : Hdr)
  /-- R657. -/
  | unitNumberSet (h : Hdr) (number : Nat)
  /-- R657. -/
  | sysReset (h : Hdr) (position : Nat)
  /-- R656. -/
  | sysStatus (h : Hdr)
  /-- R79. -/
  | timeGet (h : Hdr)
  /-- R51. -/
  | timeSourceSet (h : Hdr) (pa : Nat) (pb : Nat) (pl : Nat) (pp : Nat) (revertive : Nat) (qual : Nat)
  /-- R79. -/
  | ptpConfig (h : Hdr) (dom : Nat) (number : Nat) (lane : Nat) (dest : Nat)
  /-- R79. -/
  | ptpStatus (h : Hdr) (dom : Nat)
  /-- R51. -/
  | timeSwitch (h : Hdr) (source : Nat)
  /-- R39. -/
  | timeSlewSet (h : Hdr) (limit : Nat) (maxOffset : Nat)
  /-- R80. -/
  | timeStep (h : Hdr) (source : Nat) (setAxis : Nat) (epoch : Time12) (frameLen : Nat)
  /-- R47. -/
  | laneTimeConfig (h : Hdr) (lane : Nat) (role : Nat) (asym : Int)
  /-- R79. -/
  | laneTimeStatus (h : Hdr)
  /-- R49. -/
  | ppsConfig (h : Hdr) (enable : Nat) (width : Nat) (comp : Nat) (tod : Nat)
  /-- R50. -/
  | refConfig (h : Hdr) (enable : Nat)
  /-- R80. -/
  | axisSet (h : Hdr) (epoch : Time12) (frameLen : Nat)
  /-- R79. -/
  | axisGet (h : Hdr)
  /-- R62. -/
  | axisDelays (h : Hdr) (action : Nat) (target : Nat)
  /-- R65. -/
  | stakeSubmit (h : Hdr) (entries : List Stake)
  /-- R72. -/
  | stakeCancel (h : Hdr) (tag : Nat) (mask : Nat)
  /-- R79. -/
  | stakeList (h : Hdr) (first : Nat) (count : Nat)
  /-- R76. -/
  | launchQueue (h : Hdr) (lane : Nat) (position : Nat) (frame : List Nat)
  /-- R78. -/
  | launchCancel (h : Hdr) (buffer : Nat)
  /-- R111. -/
  | laneConfig (h : Hdr) (lane : Nat) (mode : Nat) (fec : Nat) (unit : Nat) (plane : Nat) (tag : Nat) (force : Nat)
  /-- R110. -/
  | laneStatus (h : Hdr) (lane : Nat)
  /-- R94. -/
  | laneEqGet (h : Hdr) (lane : Nat)
  /-- R94. -/
  | laneEqSet (h : Hdr) (lane : Nat) (freeze : Nat)
  /-- R109. -/
  | lanePrbs (h : Hdr) (lane : Nat) (pattern : Nat) (gen : Nat) (chk : Nat) (force : Nat)
  /-- R107. -/
  | lanePrbsRead (h : Hdr) (lane : Nat) (clear : Nat)
  /-- R108. -/
  | laneLoopback (h : Hdr) (lane : Nat) (kind : Nat) (force : Nat)
  /-- R102. -/
  | laneReset (h : Hdr) (lane : Nat)
  /-- R105. -/
  | quadPower (h : Hdr) (quad : Nat) (on : Nat) (force : Nat)
  /-- R110. -/
  | laneCounters (h : Hdr) (lane : Nat) (clear : Nat)
  /-- R212. -/
  | rxPathSet (h : Hdr) (mask : Nat) (band : Nat) (atten : Nat) (bias : Nat) (overload : Nat)
  /-- R209. -/
  | rxPathGet (h : Hdr) (path : Nat)
  /-- R194. -/
  | rxSubbandSet (h : Hdr) (mask : Nat) (sb : Nat) (cfg : RxCfg)
  /-- R209. -/
  | rxSubbandGet (h : Hdr) (path : Nat) (sb : Nat) (bank : Nat)
  /-- R208. -/
  | rxSubbandDisable (h : Hdr) (mask : Nat) (sbMask : Nat)
  /-- R214. -/
  | rxCoefLoad (h : Hdr) (handle : Nat) (mask : Nat) (sb : Nat)
  /-- R202. -/
  | rxStreamSet (h : Hdr) (stream : Nat) (sb : Nat) (mask : Nat) (format : Nat) (dest : Nat) (lane : Nat) (groups : Nat)
  /-- R208. -/
  | rxStreamStop (h : Hdr) (stream : Nat)
  /-- R205. -/
  | rxCutSet (h : Hdr) (path : Nat) (sb : Nat) (lane : Nat) (ctFrame : Nat) (on : Nat)
  /-- R201. -/
  | rxMeterGet (h : Hdr) (path : Nat) (meter : Nat) (clear : Nat)
  /-- R209. -/
  | rxCounters (h : Hdr) (path : Nat) (clear : Nat)
  /-- R178. -/
  | portCheck (h : Hdr) (mask : Nat) (position : Nat)
  /-- R237. -/
  | txPathSet (h : Hdr) (mask : Nat) (fsPower : Int) (dacCentre : Nat) (sumShift : Nat) (ramp : Nat) (gateMode : Nat)
  /-- R250. -/
  | txPathGet (h : Hdr) (path : Nat)
  /-- R225. -/
  | txSubbandSet (h : Hdr) (mask : Nat) (sb : Nat) (cfg : TxCfg)
  /-- R250. -/
  | txSubbandGet (h : Hdr) (path : Nat) (sb : Nat) (bank : Nat)
  /-- R236. -/
  | txSubbandDisable (h : Hdr) (mask : Nat) (sbMask : Nat)
  /-- R220. -/
  | txCoefLoad (h : Hdr) (handle : Nat) (mask : Nat) (sb : Nat)
  /-- R217. -/
  | txStreamSet (h : Hdr) (stream : Nat) (sb : Nat) (mask : Nat) (format : Nat)
  /-- R236. -/
  | txStreamStop (h : Hdr) (stream : Nat)
  /-- R251. -/
  | txCutSet (h : Hdr) (lane : Nat) (path : Nat) (sb : Nat) (on : Nat)
  /-- R236. -/
  | txMute (h : Hdr) (mask : Nat) (mute : Nat) (immediate : Nat)
  /-- R682. -/
  | txCompLoad (h : Hdr) (handle : Nat)
  /-- R235. -/
  | txProtectClear (h : Hdr) (mask : Nat)
  /-- R250. -/
  | txCounters (h : Hdr) (path : Nat) (clear : Nat)
  /-- R248. -/
  | govClassSet (h : Hdr) (group : Nat) (cls : Nat) (p : Nat) (w : Nat) (e : Nat) (margin : Nat) (soft : Nat) (release : Nat)
  /-- R250. -/
  | govStatus (h : Hdr)
  /-- R249. -/
  | govLogRead (h : Hdr) (first : Nat) (count : Nat)
  /-- R270. -/
  | freSet (h : Hdr) (dir : Nat) (sb : Nat) (cfg : FreCfg)
  /-- R290. -/
  | freGet (h : Hdr) (dir : Nat) (sb : Nat) (bank : Nat)
  /-- R289. -/
  | freDisable (h : Hdr) (dir : Nat) (sbMask : Nat)
  /-- R271. -/
  | freEqLoad (h : Hdr) (handle : Nat)
  /-- R290. -/
  | freWindowLoad (h : Hdr) (handle : Nat) (dir : Nat) (sb : Nat)
  /-- R268. -/
  | freLevelGet (h : Hdr) (dir : Nat) (sb : Nat) (path : Nat) (first : Nat) (count : Nat)
  /-- R290. -/
  | freCounters (h : Hdr) (dir : Nat) (sb : Nat) (path : Nat) (clear : Nat)
  /-- R272. -/
  | freStreamSet (h : Hdr) (base : Nat) (sb : Nat) (mask : Nat) (format : Nat) (dest : Nat) (lane : Nat)
  /-- R290. -/
  | freStreamStop (h : Hdr) (base : Nat)
  /-- R277. -/
  | topiaryAlloc (h : Hdr) (caps : List Nat)
  /-- R278. -/
  | topiaryLoad (h : Hdr) (handle : Nat)
  /-- R290. -/
  | topiaryGet (h : Hdr) (dir : Nat) (sb : Nat)
  /-- R281. -/
  | beamSet (h : Hdr) (dir : Nat) (sb : Nat) (on : Nat) (beams : Nat) (bmShift : Nat) (beamOut : Nat)
  /-- R272. -/
  | beamStreamSet (h : Hdr) (base : Nat) (sb : Nat) (firstBeam : Nat) (count : Nat) (format : Nat) (dest : Nat) (lane : Nat)
  /-- R290. -/
  | beamStreamStop (h : Hdr) (base : Nat)
  /-- R280. -/
  | layerStreamSet (h : Hdr) (base : Nat) (sb : Nat) (count : Nat) (format : Nat)
  /-- R290. -/
  | layerStreamStop (h : Hdr) (base : Nat)
  /-- R295. -/
  | chainSet (h : Hdr) (cfg : ChainCfg)
  /-- R303. -/
  | chainGet (h : Hdr) (sb : Nat) (bank : Nat)
  /-- R314. -/
  | chainLeave (h : Hdr) (sb : Nat)
  /-- R308. -/
  | chainDeliverSet (h : Hdr) (sb : Nat) (base : Nat) (format : Nat) (rootShift : Nat) (dest : Nat) (lane : Nat)
  /-- R314. -/
  | chainDeliverStop (h : Hdr) (sb : Nat)
  /-- R305. -/
  | chainStatus (h : Hdr) (sb : Nat)
  /-- R315. -/
  | chainCounters (h : Hdr) (sb : Nat) (clear : Nat)
  /-- R325. -/
  | weaveSet (h : Hdr) (hdr : WeaveHdr) (laneMap : LaneMaps)
  /-- R325. -/
  | weaveMembers (h : Hdr) (first : Nat) (entries : Members)
  /-- R346. -/
  | weaveGet (h : Hdr) (bank : Nat)
  /-- R346. -/
  | weaveMembersGet (h : Hdr) (bank : Nat) (first : Nat) (count : Nat)
  /-- R345. -/
  | weaveLeave (h : Hdr)
  /-- R346. -/
  | weaveStatus (h : Hdr) (first : Nat) (count : Nat)
  /-- R346. -/
  | weaveCounters (h : Hdr) (clear : Nat)
  /-- R378. -/
  | xceSet (h : Hdr) (cfg : XceCfg)
  /-- R379. -/
  | xceGet (h : Hdr) (bank : Nat)
  /-- R376. -/
  | xceStop (h : Hdr)
  /-- R379. -/
  | xceIntGet (h : Hdr) (number : Nat)
  /-- R374. -/
  | xceInputsGet (h : Hdr) (first : Nat) (count : Nat)
  /-- R379. -/
  | xceCounters (h : Hdr) (clear : Nat)
  /-- R386. -/
  | dpdSet (h : Hdr) (mask : Nat) (cfg : DpdCfg)
  /-- R406. -/
  | dpdGet (h : Hdr) (path : Nat)
  /-- R388. -/
  | dpdCoefLoad (h : Hdr) (handle : Nat) (apply : Nat)
  /-- R406. -/
  | dpdCoefRead (h : Hdr) (mask : Nat) (bank : Nat)
  /-- R392. -/
  | dpdRequest (h : Hdr) (mask : Nat) (overBound : Nat)
  /-- R399. -/
  | dpdMetricGet (h : Hdr) (path : Nat)
  /-- R406. -/
  | dpdObsStatus (h : Hdr)
  /-- R406. -/
  | dpdCounters (h : Hdr) (path : Nat) (clear : Nat)
  /-- R405. -/
  | dpdReset (h : Hdr) (mask : Nat)
  /-- R404. -/
  | dpdSave (h : Hdr) (mask : Nat)
  /-- R433. -/
  | calConfig (h : Hdr) (kinds : Nat) (dT : Nat) (maxInterval : Nat) (runLimit : Nat) (starveLimit : Nat)
  /-- R433. -/
  | calRun (h : Hdr) (kinds : Nat) (position : Nat)
  /-- R443. -/
  | calStatus (h : Hdr)
  /-- R442. -/
  | calAbort (h : Hdr)
  /-- R443. -/
  | calTrimGet (h : Hdr) (dir : Nat) (path : Nat)
  /-- R441. -/
  | calTableRead (h : Hdr) (profile : Nat) (band : Nat)
  /-- R444. -/
  | calTableLoad (h : Hdr) (handle : Nat)
  /-- R440. -/
  | calSave (h : Hdr)
  /-- R435. -/
  | otaSet (h : Hdr) (partners : Partners)
  /-- R443. -/
  | otaGet (h : Hdr) (index : Nat)
  /-- R443. -/
  | calCounters (h : Hdr) (clear : Nat)
  /-- R479. -/
  | synStatus (h : Hdr)
  /-- R450. -/
  | profileDefine (h : Hdr) (slot : Nat) (k : Nat)
  /-- R454. -/
  | profileSet (h : Hdr) (profile : Nat)
  /-- R455. -/
  | synPrelock (h : Hdr) (profile : Nat)
  /-- R480. -/
  | synCal (h : Hdr) (mask : Nat)
  /-- R479. -/
  | feStateGet (h : Hdr) (path : Nat)
  /-- R478. -/
  | bcnSet (h : Hdr) (cfg : BcnCfg)
  /-- R479. -/
  | bcnGet (h : Hdr)
  /-- R465. -/
  | bcnDataSet (h : Hdr) (data : List Nat)
  /-- R479. -/
  | bcnStatus (h : Hdr)
  /-- R479. -/
  | bcnCounters (h : Hdr) (clear : Nat)
  /-- R488. -/
  | memStatus (h : Hdr)
  /-- R486. -/
  | memRegionSet (h : Hdr) (region : Nat) (prot : Nat)
  /-- R513. -/
  | memRegionGet (h : Hdr)
  /-- R499. -/
  | memScrubSet (h : Hdr) (store : Nat) (period : Nat)
  /-- R502. -/
  | memScrubRange (h : Hdr) (start : Nat) (len : Nat)
  /-- R514. -/
  | memInject (h : Hdr) (addr : Nat) (kind : Nat) (bit : Nat)
  /-- R509. -/
  | memPortSet (h : Hdr) (port : Nat) (weight : Nat) (assign : Nat) (chan : Nat)
  /-- R513. -/
  | memPortStatus (h : Hdr) (port : Nat)
  /-- R512. -/
  | memFreqSet (h : Hdr) (setpoint : Nat) (position : Nat)
  /-- R511. -/
  | memSelfrefresh (h : Hdr) (enter : Nat) (autoExit : Nat)
  /-- R510. -/
  | memRowdisturbSet (h : Hdr) (limit : Nat) (gap : Nat) (cool : Nat)
  /-- R513. -/
  | memCounters (h : Hdr) (store : Nat) (clear : Nat)
  /-- R513. -/
  | memSelftestGet (h : Hdr)
  /-- R551. -/
  | fabStatus (h : Hdr)
  /-- R531. -/
  | fabHoldGet (h : Hdr)
  /-- R523. -/
  | fabPrioSet (h : Hdr) (master : Nat) (prio : Nat) (age : Nat)
  /-- R526. -/
  | fabTimingSet (h : Hdr) (target : Nat) (timeout : Nat) (drain : Nat)
  /-- R526. -/
  | fabTargetReset (h : Hdr) (target : Nat)
  /-- R532. -/
  | fabRecover (h : Hdr)
  /-- R551. -/
  | fabCounters (h : Hdr) (clear : Nat)
  /-- R552. -/
  | dmaRun (h : Hdr) (chan : Nat) (descs : Descs)
  /-- R551. -/
  | dmaChStatus (h : Hdr) (chan : Nat)
  /-- R552. -/
  | dmaChStop (h : Hdr) (chan : Nat)
  /-- R552. -/
  | dmaChAssign (h : Hdr) (chan : Nat) (core : Nat)
  /-- R581. -/
  | appletLoad (h : Hdr) (handle : Nat) (core : Nat) (bases : List Nat) (hss : Bool)
  /-- R583. -/
  | appletStart (h : Hdr) (core : Nat)
  /-- R584. -/
  | appletStop (h : Hdr) (core : Nat)
  /-- R584. -/
  | appletUnload (h : Hdr) (core : Nat)
  /-- R586. -/
  | appletStatus (h : Hdr) (core : Nat)
  /-- R586. -/
  | appletMsg (h : Hdr) (core : Nat) (msg : List Nat)
  /-- R585. -/
  | appletMemRead (h : Hdr) (core : Nat) (offset : Nat) (len : Nat)
  /-- R585. -/
  | appletMemWrite (h : Hdr) (core : Nat) (offset : Nat) (data : List Nat)
  /-- R586. -/
  | coreStatus (h : Hdr)
  /-- R586. -/
  | appletCounters (h : Hdr) (core : Nat) (clear : Nat)
  /-- R614. -/
  | pwrStatus (h : Hdr)
  /-- R596. -/
  | pwrStateSet (h : Hdr) (state : Nat) (force : Nat)
  /-- R615. -/
  | pwrCapSet (h : Hdr) (cap : Nat)
  /-- R614. -/
  | pwrRecordGet (h : Hdr)
  /-- R601. -/
  | biasSet (h : Hdr) (dac : Nat) (code : Nat) (span : Nat)
  /-- R601. -/
  | biasGet (h : Hdr) (dac : Nat)
  /-- R615. -/
  | biasRampLoad (h : Hdr) (dac : Nat) (codes : List Nat)
  /-- R615. -/
  | biasSafeSet (h : Hdr) (dac : Nat) (code : Nat)
  /-- R604. -/
  | hkRead (h : Hdr) (first : Nat) (count : Nat) (clear : Nat)
  /-- R614. -/
  | hkStatus (h : Hdr)
  /-- R606. -/
  | thermConfig (h : Hdr) (start : Nat) (inputs : ExtInputs)
  /-- R614. -/
  | thermStatus (h : Hdr)
  /-- R614. -/
  | pwrCounters (h : Hdr) (clear : Nat)
  /-- R641. -/
  | secStatus (h : Hdr)
  /-- R628. -/
  | keyChange (h : Hdr) (handle : Nat) (hss : Bool)
  /-- R641. -/
  | keyList (h : Hdr)
  /-- R642. -/
  | rollbackSet (h : Hdr) (counter : Nat) (value : Nat)
  /-- R642. -/
  | certRead (h : Hdr)
  /-- R631. -/
  | attest (h : Hdr) (nonce : Nat)
  /-- R626. -/
  | debugAuth (h : Hdr) (handle : Nat) (hss : Bool)
  /-- R639. -/
  | fwLoad (h : Hdr) (handle : Nat) (hss : Bool)
  /-- R639. -/
  | fwActivate (h : Hdr) (position : Nat)
  /-- R639. -/
  | fwCommit (h : Hdr) (raise : Nat)
  /-- R641. -/
  | fwStatus (h : Hdr)
  /-- R640. -/
  | appletStore (h : Hdr) (handle : Nat) (entry : Nat) (core : Nat) (autostart : Nat) (bases : List Nat) (hss : Bool)
  /-- R641. -/
  | appletStoreErase (h : Hdr) (entry : Nat)
  /-- R641. -/
  | nvmRead (h : Hdr) (offset : Nat) (len : Nat)
  /-- R642. -/
  | nvmWrite (h : Hdr) (offset : Nat) (data : List Nat)
  /-- R641. -/
  | nvmErase (h : Hdr) (offset : Nat)
  /-- R16. -/
  | undefinedOpcode (h : Hdr) (op : Nat)
  /-- R169. -/
  | linkEncapApply 
  /-- R657. -/
  | sysResetAfterResponse 
  /-- R178. -/
  | portMeasurement (path : Nat) (loss : Nat) (phase : Int)
  /-- R121. -/
  | swiosPacketDropped (port : Nat) (fcsOk : Bool) (pkt : RawPkt)
  /-- R142. -/
  | bulkFragment (session : Nat) (rx : PktIn) (handle : Nat) (offset : Nat) (data : List Nat) (thorn : List Nat)
  /-- R217. -/
  | hostStreamPacket (session : Nat) (rx : PktIn) (pkt : StreamPkt)
  /-- R280. -/
  | layerStreamPacket (session : Nat) (rx : PktIn) (pkt : StreamPkt)
  /-- R164. -/
  | priorityFlowControl (port : Nat) (prio : Nat) (pause : Bool)
  /-- R129. -/
  | sessionTimeout (session : Nat)
  /-- R155. -/
  | evtPacketSend (session : Nat)
  /-- R138. -/
  | spreadResponse (buffer : Nat)
  /-- R160. -/
  | reportSlot (kind : Nat)
  /-- R162. -/
  | streamPacketSend (req : StreamSend)
  /-- R144. -/
  | bulkDone (handle : Nat)
  /-- R43. -/
  | ptpAnnounce (dom : Nat) (port : Nat) (msg : Announce)
  /-- R679. -/
  | ptpSync (dom : Nat) (master : Int) (slave : Int) (corr : PtpCorr)
  /-- R42. -/
  | delayReq (dom : Nat)
  /-- R43. -/
  | announceTimeout (dom : Nat)
  /-- R43. -/
  | syncLoss (dom : Nat)
  /-- R43. -/
  | servoQualify (source : Nat)
  /-- R43. -/
  | holdoverExpiry (source : Nat)
  /-- R47. -/
  | timeBlockSend (lane : Nat)
  /-- R47. -/
  | timeBlock (lane : Nat) (code : Nat) (flags : Nat) (ps : Nat) (arrival : Nat)
  /-- R47. -/
  | timeReply (lane : Nat) (ctl : Bool) (code : Nat) (traced : Bool) (seq : Nat) (hi : Nat) (lo : Nat)
  /-- R44. -/
  | timeBlockTimeout 
  /-- R44. -/
  | laneResidualFault 
  /-- R49. -/
  | ppsInEdge (offset : Int)
  /-- R44. -/
  | ppsInTimeout 
  /-- R49. -/
  | ppsOutRise 
  /-- R49. -/
  | ppsOutFall 
  /-- R50. -/
  | refInLoss 
  /-- R45. -/
  | esmcQuality (lane : Nat) (quality : SyncEQl)
  /-- R51. -/
  | revertiveSwitch (source : Nat)
  /-- R39. -/
  | slewDone 
  /-- R69. -/
  | stakePrefetch 
  /-- R71. -/
  | stakeDeferExpiry 
  /-- R61. -/
  | mark 
  /-- R498. -/
  | bankSwap 
  /-- R78. -/
  | launchTrigger (buffer : Nat)
  /-- R75. -/
  | bankFree (cls : Nat) (inst : Nat)
  /-- R89. -/
  | identSend (lane : Nat)
  /-- R89. -/
  | fillSend (lane : Nat)
  /-- R97. -/
  | ident (lane : Nat) (code : Nat) (unit : Nat) (plane : Nat) (tag : Nat) (crc : Nat)
  /-- R92. -/
  | fill (lane : Nat)
  /-- R92. -/
  | fillInsertion (lane : Nat)
  /-- R93. -/
  | elasticSlip (lane : Nat)
  /-- R100. -/
  | laserStable (reading : LaserReading)
  /-- R100. -/
  | clockRecoveryLock (lane : Nat)
  /-- R100. -/
  | equaliserAdapted (lane : Nat) (eq : EqState)
  /-- R95. -/
  | blockLock (found : LockAt)
  /-- R95. -/
  | noAlignment (lane : Nat)
  /-- R96. -/
  | lockLost (lane : Nat) (window : LockWindow)
  /-- R101. -/
  | lossOfSignal (lane : Nat) (power : Int)
  /-- R101. -/
  | lossOfSignalClear (lane : Nat) (power : Int)
  /-- R103. -/
  | laneTakeDown (lane : Nat)
  /-- R107. -/
  | prbsLock (found : PrbsRun)
  /-- R107. -/
  | prbsLockLoss (lane : Nat) (window : Nat) (errs : Nat) (syms : Nat)
  /-- R174. -/
  | adcOverload (path : Nat) (clips : Nat)
  /-- R175. -/
  | rxProtectEntry (path : Nat)
  /-- R175. -/
  | rxProtectExit (path : Nat)
  /-- R176. -/
  | biasFoldback (path : Nat)
  /-- R176. -/
  | biasRetry (path : Nat) (held : Bool)
  /-- R208. -/
  | rxFlushDone (path : Nat) (sb : Nat) (outputs : Nat)
  /-- R195. -/
  | rxOpen 
  /-- R198. -/
  | rxClose 
  /-- R195. -/
  | rxSwap 
  /-- R186. -/
  | ncoReset 
  /-- R195. -/
  | attenStep 
  /-- R201. -/
  | meterLatch 
  /-- R218. -/
  | cutThroughFrame (lane : Nat) (frame : DirectFrame)
  /-- R227. -/
  | txOpen 
  /-- R227. -/
  | txClose 
  /-- R227. -/
  | txSwap 
  /-- R221. -/
  | txNcoReset 
  /-- R227. -/
  | txTone 
  /-- R233. -/
  | inhibitLoopOpen (ohms : Nat)
  /-- R233. -/
  | inhibitLoopClosed (ohms : Nat)
  /-- R234. -/
  | portFault (path : Nat)
  /-- R245. -/
  | governorStep (pos : Nat)
  /-- R246. -/
  | adaptationResume (path : Nat)
  /-- R247. -/
  | govMismatch (path : Nat)
  /-- R249. -/
  | govLogRecord 
  /-- R239. -/
  | compensationStep (path : Nat)
  /-- R236. -/
  | txFlushDone (path : Nat) (sb : Nat)
  /-- R286. -/
  | topSwap 
  /-- R282. -/
  | freSwap 
  /-- R289. -/
  | freFlushDone (dir : Nat) (sb : Nat) (groups : Nat)
  /-- R295. -/
  | chainSwap 
  /-- R301. -/
  | chainSumFrame (lane : Nat) (frame : DirectFrame)
  /-- R303. -/
  | chainFrameStart (sb : Nat) (group : Nat) (index : Nat)
  /-- R306. -/
  | chainStall (sb : Nat) (child : Nat) (block : Nat)
  /-- R310. -/
  | chainBroadcastFrame (lane : Nat) (frame : DirectFrame)
  /-- R309. -/
  | chainReport (sb : Nat)
  /-- R343. -/
  | weaveSwap 
  /-- R342. -/
  | covCut 
  /-- R328. -/
  | weaveFrameSend (req : WeaveSend)
  /-- R336. -/
  | weaveFrame (lane : Nat) (frame : DirectFrame)
  /-- R335. -/
  | weaveDeadline (group : Nat)
  /-- R354. -/
  | passStart 
  /-- R355. -/
  | roundEnd 
  /-- R356. -/
  | collectorDrain (dump : TileDump)
  /-- R363. -/
  | intCut 
  /-- R363. -/
  | xceSwap 
  /-- R364. -/
  | integrationClose 
  /-- R365. -/
  | integrationReadout 
  /-- R388. -/
  | dpdSwap 
  /-- R393. -/
  | dpdSlotStart 
  /-- R394. -/
  | captureComplete (obs : Nat) (nmse : Int) (oobLo : Int) (oobHi : Int) (valid : Bool)
  /-- R395. -/
  | noCapture (obs : Nat)
  /-- R398. -/
  | solveComplete (obs : Nat) (factorOk : Bool) (predicted : Int) (coefs : Coefs)
  /-- R392. -/
  | captureAgeExpiry (path : Nat)
  /-- R385. -/
  | dpdThorn (path : Nat)
  /-- R404. -/
  | dpdAutosave (path : Nat)
  /-- R433. -/
  | calInterval 
  /-- R419. -/
  | calStep 
  /-- R425. -/
  | calHold 
  /-- R431. -/
  | calSolveComplete (results : CalResults)
  /-- R430. -/
  | calTrimWrite 
  /-- R432. -/
  | calRunTimeout 
  /-- R432. -/
  | calStarved 
  /-- R452. -/
  | synLock (which : Nat)
  /-- R452. -/
  | settlingEnd 
  /-- R453. -/
  | lossOfLock (which : Nat)
  /-- R456. -/
  | synHop 
  /-- R458. -/
  | synRecalibration (tune : Nat)
  /-- R458. -/
  | synSwap 
  /-- R475. -/
  | bcnTx 
  /-- R460. -/
  | beaconEnd 
  /-- R475. -/
  | bcnListenOpen 
  /-- R475. -/
  | bcnListenClose 
  /-- R470. -/
  | preambleDetect (energy : Int) (axis : Nat)
  /-- R470. -/
  | syncWordTimeout 
  /-- R470. -/
  | beaconHeader (hdr : BcnHdr)
  /-- R471. -/
  | beaconPacketEnd (pkt : BcnEnd)
  /-- R473. -/
  | noiseFloorReport (mean : Int) (low : Int)
  /-- R499. -/
  | scrub (store : Nat) (addr : Nat)
  /-- R502. -/
  | scrubRangeDone (store : Nat)
  /-- R592. -/
  | regionInitDone (region : Nat)
  /-- R506. -/
  | refresh (ctrl : Nat) (bank : Nat) (due : Bool)
  /-- R510. -/
  | rowDisturb (ctrl : Nat) (bank : Nat) (hit : RowHit) (requester : Nat)
  /-- R510. -/
  | coolDownEnd (ctrl : Nat) (bank : Nat) (requester : Nat)
  /-- R508. -/
  | streamPortPanic (port : Nat) (filled : Nat)
  /-- R512. -/
  | memFreq 
  /-- R511. -/
  | selfRefreshExit 
  /-- R519. -/
  | fabricRequest (req : FabReq)
  /-- R523. -/
  | ageLimit (master : Nat)
  /-- R525. -/
  | lockTimeout (target : Nat)
  /-- R526. -/
  | targetTimeout (target : Nat) (master : Nat)
  /-- R532. -/
  | matrixHang 
  /-- R532. -/
  | recoveryExit (pass : Bool)
  /-- R532. -/
  | fabMode 
  /-- R533. -/
  | masterReset (master : Nat) (inProgress : Bool)
  /-- R534. -/
  | fabricDrainComplete (dom : Nat)
  /-- R534. -/
  | drainLimit (dom : Nat) (writes : Nat) (first : Nat)
  /-- R546. -/
  | dmaChDoorbell (chan : Nat)
  /-- R549. -/
  | channelEnable (chan : Nat)
  /-- R549. -/
  | channelDisable (chan : Nat)
  /-- R546. -/
  | descriptorFetch (chan : Nat)
  /-- R547. -/
  | dmaBurst (chan : Nat)
  /-- R543. -/
  | descriptorComplete (chan : Nat)
  /-- R9. -/
  | registerWrite (addr : Nat) (value : Nat)
  /-- R563. -/
  | macNop (core : Nat)
  /-- R563. -/
  | mul (core : Nat) (a : Nat) (x : Nat) (y : Nat) (cj : Nat)
  /-- R563. -/
  | mac (core : Nat) (a : Nat) (x : Nat) (y : Nat) (cj : Nat)
  /-- R563. -/
  | msu (core : Nat) (a : Nat) (x : Nat) (y : Nat) (cj : Nat)
  /-- R563. -/
  | aclr (core : Nat) (a : Nat)
  /-- R563. -/
  | amov (core : Nat) (a : Nat) (y : Nat)
  /-- R563. -/
  | aadd (core : Nat) (a : Nat) (y : Nat)
  /-- R563. -/
  | ashr (core : Nat) (a : Nat) (k : Nat)
  /-- R563. -/
  | ashl (core : Nat) (a : Nat) (k : Nat)
  /-- R563. -/
  | ald (core : Nat) (a : Nat) (x : Nat) (k : Nat)
  /-- R569. -/
  | rnd (core : Nat) (a : Nat) (x : Nat) (k : Nat)
  /-- R570. -/
  | anorm (core : Nat) (a : Nat) (x : Nat)
  /-- R563. -/
  | aexp (core : Nat) (a : Nat)
  /-- R564. -/
  | aluNop (core : Nat)
  /-- R564. -/
  | addl (core : Nat) (d : Nat) (ra : Nat) (rb : Nat)
  /-- R564. -/
  | subl (core : Nat) (d : Nat) (ra : Nat) (rb : Nat)
  /-- R564. -/
  | negl (core : Nat) (d : Nat) (ra : Nat)
  /-- R564. -/
  | conj (core : Nat) (d : Nat) (ra : Nat)
  /-- R564. -/
  | swap (core : Nat) (d : Nat) (ra : Nat)
  /-- R564. -/
  | shrl (core : Nat) (d : Nat) (ra : Nat) (k : Nat)
  /-- R564. -/
  | shll (core : Nat) (d : Nat) (ra : Nat) (k : Nat)
  /-- R564. -/
  | shrv (core : Nat) (d : Nat) (ra : Nat) (rb : Nat)
  /-- R564. -/
  | addw (core : Nat) (d : Nat) (ra : Nat) (rb : Nat)
  /-- R564. -/
  | subw (core : Nat) (d : Nat) (ra : Nat) (rb : Nat)
  /-- R564. -/
  | and (core : Nat) (d : Nat) (ra : Nat) (rb : Nat)
  /-- R564. -/
  | or (core : Nat) (d : Nat) (ra : Nat) (rb : Nat)
  /-- R564. -/
  | xor (core : Nat) (d : Nat) (ra : Nat) (rb : Nat)
  /-- R564. -/
  | mov (core : Nat) (d : Nat) (ra : Nat)
  /-- R570. -/
  | norm (core : Nat) (d : Nat) (ra : Nat)
  /-- R564. -/
  | exp (core : Nat) (ra : Nat)
  /-- R564. -/
  | expc (core : Nat)
  /-- R564. -/
  | cmplt (core : Nat) (ra : Nat) (rb : Nat)
  /-- R564. -/
  | cmpeq (core : Nat) (ra : Nat) (rb : Nat)
  /-- R564. -/
  | lil (core : Nat) (d : Nat) (imm : Int)
  /-- R564. -/
  | lis (core : Nat) (d : Nat) (imm : Int)
  /-- R564. -/
  | addi (core : Nat) (d : Nat) (imm : Int)
  /-- R564. -/
  | mvts (core : Nat) (ra : Nat) (sr : Nat)
  /-- R564. -/
  | mvfs (core : Nat) (d : Nat) (sr : Nat)
  /-- R574. -/
  | jmp (core : Nat) (tgt : Nat)
  /-- R574. -/
  | jf (core : Nat) (tgt : Nat)
  /-- R574. -/
  | jnf (core : Nat) (tgt : Nat)
  /-- R564. -/
  | call (core : Nat) (tgt : Nat)
  /-- R564. -/
  | ret (core : Nat)
  /-- R564. -/
  | reti (core : Nat)
  /-- R575. -/
  | loop (core : Nat) (level : Nat) (tgt : Nat)
  /-- R564. -/
  | loopx (core : Nat) (level : Nat)
  /-- R564. -/
  | ei (core : Nat)
  /-- R564. -/
  | di (core : Nat)
  /-- R564. -/
  | wait (core : Nat)
  /-- R560. -/
  | waitx (core : Nat)
  /-- R584. -/
  | halt (core : Nat)
  /-- R579. -/
  | trap (core : Nat) (imm : Int)
  /-- R565. -/
  | lsNop (core : Nat)
  /-- R565. -/
  | ldz (core : Nat) (z : Nat) (p : Nat) (u : Bool) (off : Int)
  /-- R565. -/
  | ldd (core : Nat) (z : Nat) (p : Nat) (u : Bool) (off : Int)
  /-- R565. -/
  | stz (core : Nat) (z : Nat) (p : Nat) (u : Bool) (off : Int)
  /-- R565. -/
  | std (core : Nat) (z : Nat) (p : Nat) (u : Bool) (off : Int)
  /-- R565. -/
  | ldh (core : Nat) (z : Nat) (p : Nat) (u : Bool) (off : Int)
  /-- R565. -/
  | sth (core : Nat) (z : Nat) (p : Nat) (u : Bool) (off : Int)
  /-- R565. -/
  | ld4 (core : Nat) (z : Nat) (p : Nat) (u : Bool) (off : Int)
  /-- R565. -/
  | ld8 (core : Nat) (z : Nat) (p : Nat) (u : Bool) (off : Int)
  /-- R565. -/
  | ld12 (core : Nat) (z : Nat) (p : Nat) (u : Bool) (off : Int)
  /-- R565. -/
  | st12 (core : Nat) (z : Nat) (p : Nat) (u : Bool) (off : Int)
  /-- R565. -/
  | iord (core : Nat) (z : Nat) (off : Int)
  /-- R565. -/
  | iowr (core : Nat) (z : Nat) (off : Int)
  /-- R560. -/
  | xrd (core : Nat) (z : Nat) (p : Nat) (u : Bool) (off : Int)
  /-- R560. -/
  | xwr (core : Nat) (z : Nat) (p : Nat) (u : Bool) (off : Int)
  /-- R560. -/
  | transferDone (core : Nat)
  /-- R579. -/
  | transferError (core : Nat) (addr : Nat)
  /-- R579. -/
  | watchdogExpiry (core : Nat)
  /-- R576. -/
  | interruptEntry (core : Nat)
  /-- R578. -/
  | wdt (core : Nat) (value : Nat)
  /-- R578. -/
  | msgSend (core : Nat) (value : Nat)
  /-- R578. -/
  | axisLo (core : Nat) (z : Nat)
  /-- R578. -/
  | cycLo (core : Nat) (z : Nat)
  /-- R578. -/
  | sportDataPop (core : Nat) (z : Nat)
  /-- R578. -/
  | sportDataPush (core : Nat) (value : Nat)
  /-- R583. -/
  | appletGo 
  /-- R583. -/
  | appletTick 
  /-- R588. -/
  | powerGood 
  /-- R588. -/
  | undervoltage (mv : Nat)
  /-- R588. -/
  | overvoltage (mv : Nat)
  /-- R588. -/
  | supplyRecovery (mv : Nat)
  /-- R589. -/
  | reversePolarity 
  /-- R591. -/
  | powerCap (mean : Nat)
  /-- R592. -/
  | domainReady (dom : Nat) (fails : List Nat)
  /-- R598. -/
  | biasQueueStep 
  /-- R598. -/
  | biasStep 
  /-- R598. -/
  | biasRamp 
  /-- R598. -/
  | hkLatch 
  /-- R607. -/
  | hkConversion (chan : Nat) (reading : Int) (openShort : Nat)
  /-- R604. -/
  | hkRound 
  /-- R603. -/
  | hkSuspectTimeout 
  /-- R606. -/
  | sensorTyping (input : Nat) (kind : Nat)
  /-- R607. -/
  | thermalRestart 
  /-- R610. -/
  | throttleRelease (chan : Nat)
  /-- R612. -/
  | throttleGapStart (part : Nat)
  /-- R612. -/
  | throttleGapEnd (part : Nat)
  /-- R613. -/
  | ppsFight 
  /-- R646. -/
  | resetPin 
  /-- R646. -/
  | resetRelease 
  /-- R624. -/
  | boot (chk : BootCheck)
  /-- R618. -/
  | lockstepMismatch 
  /-- R618. -/
  | reloadComplete 
  /-- R633. -/
  | lmsTreeReady 
  /-- R635. -/
  | nvmPageProgram (ok : Bool)
  /-- R639. -/
  | fwStaged 
  /-- R639. -/
  | fwActivationRestart 
  /-- R639. -/
  | trialLimit 
  /-- R649. -/
  | quicksetReport 
  /-- R613. -/
  | servicePortLink (up : Bool)
  /-- R115. -/
  | dhcpReply (addr : Nat)
  /-- R50. -/
  | refInReturn (ppb : Int)
  /-- R403. -/
  | observerFault (obs : Nat) (faulty : Bool)
  /-- R635. -/
  | eraseComplete (ok : Bool)
  /-- R426. -/
  | domainBorrow (on : Bool) (beacon : Bool)
  /-- R578. -/
  | sportMark (core : Nat) (port : Nat)
deriving DecidableEq, Repr

end Sys2Proof
end

