-- ==== Sys2Proof/Config.lean ====
section
/-! DEFINITION. What the manual leaves open and the model leaves free. Each constant here has no body: nothing can
be proved of its value, so a theorem about the model holds for every value. -/

namespace Sys2Proof.Config

/-- The n-th value that the unit draws where the manual gives a result no value: the nonce of SESSION-OPEN (R125),
a digest or a signature it computes under another document's rules (R631), and the results the assumption log
names. -/
opaque free : Nat → Nat

/-- The filter of a PTP or PPS_IN servo's residual (R679): from the filtered residual so far and the measured one,
in 2^-16 ns. The manual gives no filter. -/
opaque servoFilter : Int → Int → Int

/-- The sub-band phase trim, in 2^-16 turn, from a path's residual response at 32 frequencies and the sub-band's
`rf_centre` (R414). The manual gives no interpolation. -/
opaque phaseTrim : List (Int × Int) → Nat → Nat

/-- The byte that an address of a DRAM region reads while its contents are undefined (R486), by the free value drawn at
the change and the address. -/
opaque freeByte : Nat → Nat → BitVec 8

/-- The delay d of ATTEN-STEP, from the attenuator's action point to the antenna connector, in ticks (R62, R195). The
manual gives no number. -/
opaque attenDelay : Nat

/-- The delay from the antenna connector to the block that applies an action by sample stamp, in ticks, by the action, its target
and the settings in force (R62). The manual gives no number. -/
opaque stampDelay : Nat → Nat → List Nat → Nat

/-! ### The sample domain

The signal at the ports, and the tables and roundings that the manual describes only by their properties. -/

/-- The ADC code that the signal at a path's port gives (R171 to R180): by the path, the epoch of the axis in 2^-16 ns, the factor k of the
rate profile (R25), the number of the ADC sample from axis position 0, and the settings of the front-end: attenuation, band position, and
the trims of delay and gain (R412). -/
opaque adc : Nat → Nat → Nat → Nat → List Int → Int

/-- The NCO's output at a phase in 2^-48 turn, cosine and sine with amplitude 131,071 (R185); its rounding is not given. -/
opaque nco : Nat → Int × Int

/-- The standard coefficients of stage B (R188, R220): receive or transmit, the factor, the tap. -/
opaque stdB : Bool → Nat → Nat → Int

/-- The standard coefficients of stage C (R189, R220): receive or transmit, the phase, the tap. -/
opaque stdC : Bool → Nat → Nat → Int

/-- The standard prototype (R259): log2 of the channels, the taps per branch, the coefficient. -/
opaque prototype : Nat → Nat → Nat → Int

/-- The radix-2 transform (R266, R269): whether it is the inverse one, log2 of its size, `fft_shift`, and its inputs; outputs in natural
order. The manual gives the shift after each stage and the widths, not the order of the stages nor the roundings. -/
opaque fft : Bool → Nat → Nat → List (Int × Int) → List (Int × Int)

/-- A sample multiplied by e^(-j 2 pi n / N) at `n` and `N` (R262), its rounding not given. -/
opaque turn : Nat → Nat → Int × Int → Int × Int

/-- A sample weighted by the raised-cosine ramp of some length at a place in it (R228, R263, R264), its rounding not given. -/
opaque ramp : Nat → Nat → Int × Int → Int × Int

/-- The phase in 2^-48 turn at which a beacon's carrier starts, by the position at which its preamble begins (R462): the manual gives none. -/
opaque beaconPhase : Nat → Nat

/-- The half-band filter that doubles the rate before the DAC (R222): the taps on each side of its centre, and its coefficients
over 2^17. -/
opaque halfBandSpan : Nat
opaque halfBand : Nat → Int

/-- The factory table of the injection network (R410), in the factory area of NVM that no command writes: whether from the common node to the
coupler or from the coupler to the connector, the path, the band position, the frequency. -/
opaque factory : Bool → Nat → Nat → Nat → Int × Int

/-- A response at the antenna connector (R411), from the one measured through the network and the two factory responses at its frequency; the
manual gives no number format. -/
opaque atConnector : Int × Int → Int × Int → Int × Int → Int × Int

/-- What the two factory responses of a path add to a gain trim in 0.01 dB, and to a delay trim in 0.25 ps (R411). -/
opaque factoryGain : List (Int × Int) → List (Int × Int) → Int
opaque factoryDelay : List (Int × Int) → List (Int × Int) → Int

/-- A ratio of two powers in 0.01 dB (R201), its rounding not given. -/
opaque decibel : Nat → Nat → Int

/-- The hashes of a vendor key's ECDSA and HSS public keys in the boot ROM (R620). -/
opaque vendorKey : Nat → Nat × Nat

/-- The bytes of the unit's own public keys (R620), ECDSA and then HSS, as they stand in the certificate (R630) and in the signature block of a
report (R631). -/
opaque unitKey : Nat → Nat

/-- The bytes of the vendor's public keys and signatures in the identity certificate (R630), and its issue time. -/
opaque certificate : Nat → Nat
opaque issued : Nat

end Sys2Proof.Config
end

