-- ==== Sys2Proof/Machine/Codes.lean ====
section
/-! DEFINITION. The status codes and the event codes of the manual, from the tables of every chapter
(R170 and the closing table of each range). An event code carries its severity by R154: the one its table
entry gives, 3 where the entry names it an alarm, otherwise 2. -/

namespace Sys2Proof.Machine

/-- An event code and its fixed severity (R152, R154). -/
structure EvCode where
  code : Nat
  sev : Nat
deriving DecidableEq, Repr

/-- Applet ended by HALT; severity 0. -/
def EV.appletExit : EvCode := ⟨0x0E02, 0⟩
/-- Applet faulted; severity 2. -/
def EV.appletFault : EvCode := ⟨0x0E01, 2⟩
/-- Applet lost with D6. -/
def EV.appletLost : EvCode := ⟨0x0E05, 2⟩
/-- MSG_OUT sent; severity 0. -/
def EV.appletMsg : EvCode := ⟨0x0E03, 0⟩
/-- Saturation; at most once per second per core. -/
def EV.appletSat : EvCode := ⟨0x0E06, 2⟩
/-- Stop complete; severity 0. -/
def EV.appletStopped : EvCode := ⟨0x0E04, 0⟩
/-- Former bank writable. -/
def EV.bankFree : EvCode := ⟨0x0120, 2⟩
/-- Suspected collision. -/
def EV.bcnCollision : EvCode := ⟨0x0B12, 2⟩
/-- False lock. -/
def EV.bcnFalse : EvCode := ⟨0x0B10, 2⟩
/-- Beacon muted by INHIBIT, gate or governor. -/
def EV.bcnMuted : EvCode := ⟨0x0B13, 2⟩
/-- Packet pre-empted. -/
def EV.bcnPreempt : EvCode := ⟨0x0B11, 2⟩
/-- Queue entry dropped. -/
def EV.biasQueue : EvCode := ⟨0x0F06, 2⟩
/-- Safe code taken by fault. -/
def EV.biasSafe : EvCode := ⟨0x0F05, 2⟩
/-- Beam or layer saturation. -/
def EV.bmfSat : EvCode := ⟨0x0506, 2⟩
/-- Outbound transfer sent; handle. -/
def EV.bulkDone : EvCode := ⟨0x0004, 2⟩
/-- Run discarded by command. -/
def EV.calAborted : EvCode := ⟨0x0A06, 2⟩
/-- Run applied; severity 0. -/
def EV.calDone : EvCode := ⟨0x0A02, 0⟩
/-- Result rejected under R431. -/
def EV.calFail : EvCode := ⟨0x0A03, 2⟩
/-- Jump confirmed and applied. -/
def EV.calJump : EvCode := ⟨0x0A04, 2⟩
/-- No free time under R432. -/
def EV.calStarved : EvCode := ⟨0x0A05, 2⟩
/-- Run queued; reason temperature, interval, profile or host. -/
def EV.calTrigger : EvCode := ⟨0x0A01, 2⟩
/-- Broadcast not received. -/
def EV.chainBcastMiss : EvCode := ⟨0x0608, 2⟩
/-- Late child frame discarded. -/
def EV.chainLate : EvCode := ⟨0x0602, 2⟩
/-- Node left the chain. -/
def EV.chainLeft : EvCode := ⟨0x0609, 2⟩
/-- Alignment buffer overflow. -/
def EV.chainOverflow : EvCode := ⟨0x0606, 2⟩
/-- Saturation at root delivery. -/
def EV.chainSat : EvCode := ⟨0x0607, 2⟩
/-- Shape, identity or depth mismatch. -/
def EV.chainShape : EvCode := ⟨0x0604, 2⟩
/-- Group count below expected. -/
def EV.chainShort : EvCode := ⟨0x0601, 2⟩
/-- Mid-frame stall. -/
def EV.chainStall : EvCode := ⟨0x0605, 2⟩
/-- Stamp mismatch. -/
def EV.chainStamp : EvCode := ⟨0x0603, 2⟩
/-- Reload under R618; alarm. -/
def EV.ctlReload : EvCode := ⟨0x1009, 3⟩
/-- Debug authorised. -/
def EV.debug : EvCode := ⟨0x1008, 2⟩
/-- Channel stopped with code 3. -/
def EV.dmaDomain : EvCode := ⟨0x0D12, 2⟩
/-- Host chain complete; result; severity 0. -/
def EV.dmaDone : EvCode := ⟨0x0D10, 0⟩
/-- Channel stopped with code 1, 2, 5 or 6. -/
def EV.dmaError : EvCode := ⟨0x0D11, 2⟩
/-- Channel stopped by disable. -/
def EV.dmaStopped : EvCode := ⟨0x0D13, 2⟩
/-- Back-off step taken or released. -/
def EV.dpdBackoff : EvCode := ⟨0x0903, 2⟩
/-- Estimate above a bound. -/
def EV.dpdBound : EvCode := ⟨0x0902, 2⟩
/-- Observer fault. -/
def EV.dpdObsFault : EvCode := ⟨0x0908, 2⟩
/-- Rollback under R401. -/
def EV.dpdRevert : EvCode := ⟨0x0905, 2⟩
/-- Output saturation. -/
def EV.dpdSat : EvCode := ⟨0x0906, 2⟩
/-- Update discarded. -/
def EV.dpdSolveFail : EvCode := ⟨0x0904, 2⟩
/-- Thorned coefficient; identity set applied. -/
def EV.dpdThorn : EvCode := ⟨0x0907, 2⟩
/-- Update accepted; severity 0. -/
def EV.dpdUpdate : EvCode := ⟨0x0901, 0⟩
/-- Records discarded under R156; count. -/
def EV.evtLost : EvCode := ⟨0x0003, 2⟩
/-- Error response under R519 or R535. -/
def EV.fabDecode : EvCode := ⟨0x0D01, 2⟩
/-- Work forced at power-down; writes lost and first address. -/
def EV.fabDrainForced : EvCode := ⟨0x0D04, 2⟩
/-- Recovery layer entered or left. -/
def EV.fabRecovery : EvCode := ⟨0x0D03, 2⟩
/-- Master drained under R533; severity 0. -/
def EV.fabResetDrain : EvCode := ⟨0x0D05, 0⟩
/-- Target faulted under R526; alarm. -/
def EV.fabTimeout : EvCode := ⟨0x0D02, 3⟩
/-- Disable complete. -/
def EV.freFlushed : EvCode := ⟨0x0502, 2⟩
/-- Frequency-engine saturation. -/
def EV.freSat : EvCode := ⟨0x0501, 2⟩
/-- Boot source and trial state; severity 0. -/
def EV.fwBoot : EvCode := ⟨0x1002, 0⟩
/-- Trial abandoned. -/
def EV.fwReverted : EvCode := ⟨0x1003, 2⟩
/-- Image written; severity 0. -/
def EV.fwStaged : EvCode := ⟨0x1001, 0⟩
/-- Class changed. -/
def EV.govClass : EvCode := ⟨0x0414, 2⟩
/-- Hard mute; ceiling and E as for EV_GOV_SOFT. -/
def EV.govHard : EvCode := ⟨0x0411, 2⟩
/-- Mute under R247. -/
def EV.govMismatch : EvCode := ⟨0x0413, 2⟩
/-- Gain restored. -/
def EV.govRelease : EvCode := ⟨0x0412, 2⟩
/-- Soft action started; ceiling, as 0–63 for a port, 64 for AC1, 65 for AC2, 66 for the sum, .... -/
def EV.govSoft : EvCode := ⟨0x0410, 2⟩
/-- Reference cross-check failed; alarm. -/
def EV.hkSuspect : EvCode := ⟨0x0F10, 3⟩
/-- Owner slot table changed. -/
def EV.keyChange : EvCode := ⟨0x1004, 2⟩
/-- Lane left UP, or alignment failed; cause dark, lock, forced, no_alignment or miswired. -/
def EV.laneDown : EvCode := ⟨0x0202, 2⟩
/-- Uncorrectable codewords seen; raised at most once per second per lane. -/
def EV.laneFec : EvCode := ⟨0x0206, 2⟩
/-- Lane held in FAULT. -/
def EV.laneFlap : EvCode := ⟨0x0205, 2⟩
/-- Cause looped, cross-looped or crossed, with the received identity. -/
def EV.laneMiswired : EvCode := ⟨0x0203, 2⟩
/-- Elastic buffer slip. -/
def EV.laneSlip : EvCode := ⟨0x0204, 2⟩
/-- Direct-lane residual of R679 beyond ±1 ns, or partner changed. -/
def EV.laneTimeFault : EvCode := ⟨0x0140, 2⟩
/-- Lane entered UP. -/
def EV.laneUp : EvCode := ⟨0x0201, 2⟩
/-- Launch discarded. -/
def EV.launchMiss : EvCode := ⟨0x0130, 2⟩
/-- Layer stream late or missing groups. -/
def EV.layerUnderrun : EvCode := ⟨0x0507, 2⟩
/-- New bottom tree in use. -/
def EV.lmsTree : EvCode := ⟨0x1006, 2⟩
/-- Corrections in a store; at most once per second per store; severity 1. -/
def EV.memCorrected : EvCode := ⟨0x0C01, 1⟩
/-- Set-point changed, or MEM-FREQ stake dropped. -/
def EV.memFreq : EvCode := ⟨0x0C08, 2⟩
/-- Stream port entered panic. -/
def EV.memPanic : EvCode := ⟨0x0C06, 2⟩
/-- R510 acted. -/
def EV.memRowdisturb : EvCode := ⟨0x0C07, 2⟩
/-- Range pass complete; severity 0. -/
def EV.memScrubDone : EvCode := ⟨0x0C04, 0⟩
/-- Decoder failed; alarm. -/
def EV.memSelftest : EvCode := ⟨0x0C05, 3⟩
/-- Swap refused under R497. -/
def EV.memSwapRefused : EvCode := ⟨0x0C09, 2⟩
/-- Thorn not stored under R487. -/
def EV.memThornDrop : EvCode := ⟨0x0C03, 2⟩
/-- Uncorrectable word; store and address; at most once per second per store. -/
def EV.memUncorr : EvCode := ⟨0x0C02, 2⟩
/-- Uncommitted record discarded at boot. -/
def EV.nvmDiscard : EvCode := ⟨0x1007, 2⟩
/-- Program or erase failed verify. -/
def EV.nvmFault : EvCode := ⟨0x100A, 2⟩
/-- Under R439. -/
def EV.otaFault : EvCode := ⟨0x0A08, 2⟩
/-- Pair solved; severity 0. -/
def EV.otaResult : EvCode := ⟨0x0A07, 0⟩
/-- Cap level changed. -/
def EV.pwrCap : EvCode := ⟨0x0F03, 2⟩
/-- Input out of range; alarm. -/
def EV.pwrFail : EvCode := ⟨0x0F02, 3⟩
/-- PPS_OUT disabled. -/
def EV.pwrPpsFight : EvCode := ⟨0x0F04, 2⟩
/-- Power state changed; severity 0. -/
def EV.pwrState : EvCode := ⟨0x0F01, 0⟩
/-- Quickset entered or left; severity 0. -/
def EV.quickset : EvCode := ⟨0x0081, 0⟩
/-- An element could not start under R647. -/
def EV.quicksetFault : EvCode := ⟨0x0083, 2⟩
/-- Integration discarded under R650. -/
def EV.quicksetRestart : EvCode := ⟨0x0082, 2⟩
/-- Report slot missed under R160. -/
def EV.reportMiss : EvCode := ⟨0x0006, 2⟩
/-- Counter raised. -/
def EV.rollback : EvCode := ⟨0x1005, 2⟩
/-- Bias fold-back. -/
def EV.rxBias : EvCode := ⟨0x0304, 2⟩
/-- Disable flush complete. -/
def EV.rxFlushed : EvCode := ⟨0x0307, 2⟩
/-- ADC clips; path and any automatic step. -/
def EV.rxOverload : EvCode := ⟨0x0301, 2⟩
/-- Port class changed. -/
def EV.rxPort : EvCode := ⟨0x0303, 2⟩
/-- Protect entered or left. -/
def EV.rxProtect : EvCode := ⟨0x0302, 2⟩
/-- Stage saturation. -/
def EV.rxSat : EvCode := ⟨0x0305, 2⟩
/-- Samples replaced under R199. -/
def EV.rxTxOverlap : EvCode := ⟨0x0306, 2⟩
/-- Session closed; reason close, timeout, takeover, evicted, authentication or reset. -/
def EV.sessionClosed : EvCode := ⟨0x0002, 2⟩
/-- Session opened; number and role. -/
def EV.sessionOpen : EvCode := ⟨0x0001, 2⟩
/-- Stake cancelled by a step. -/
def EV.stakeCancelled : EvCode := ⟨0x0112, 2⟩
/-- Deferral limit exceeded. -/
def EV.stakeDropped : EvCode := ⟨0x0111, 2⟩
/-- Stake muted or dropped under R70. -/
def EV.stakeLate : EvCode := ⟨0x0110, 2⟩
/-- Stake with mark flag executed. -/
def EV.stakeMark : EvCode := ⟨0x0113, 2⟩
/-- Steering clamped at ±25 ppm. -/
def EV.steerClamp : EvCode := ⟨0x0104, 2⟩
/-- Stream groups discarded under R165. -/
def EV.streamDrop : EvCode := ⟨0x0005, 2⟩
/-- Standby calibrated or synthesisers swapped; severity 0. -/
def EV.synCal : EvCode := ⟨0x0B04, 0⟩
/-- Hop executed; severity 0. -/
def EV.synHop : EvCode := ⟨0x0B02, 0⟩
/-- Hop dropped under R456. -/
def EV.synHopFail : EvCode := ⟨0x0B03, 2⟩
/-- Lock lost or regained. -/
def EV.synLock : EvCode := ⟨0x0B01, 2⟩
/-- Tuning voltage outside its middle 95 %. -/
def EV.synMargin : EvCode := ⟨0x0B05, 2⟩
/-- Boot complete; cause, source and failed stores; severity 1. -/
def EV.sysBoot : EvCode := ⟨0x0080, 1⟩
/-- Sensor broken or recovered. -/
def EV.thermBroken : EvCode := ⟨0x0F22, 2⟩
/-- Remote input typed, or reversed diode found. -/
def EV.thermExt : EvCode := ⟨0x0F24, 2⟩
/-- Gap plan announced. -/
def EV.thermGap : EvCode := ⟨0x0F21, 2⟩
/-- Throttle level changed. -/
def EV.thermLevel : EvCode := ⟨0x0F20, 2⟩
/-- Raised at restart from a shutdown record; alarm. -/
def EV.thermShutdown : EvCode := ⟨0x0F23, 3⟩
/-- Active source entered or left HOLDOVER. -/
def EV.timeHoldover : EvCode := ⟨0x0102, 2⟩
/-- Active source changed. -/
def EV.timeSource : EvCode := ⟨0x0101, 2⟩
/-- Switch refused under R54. -/
def EV.timeSwitchRefused : EvCode := ⟨0x0103, 2⟩
/-- Swap refused under R286. -/
def EV.topRefused : EvCode := ⟨0x0504, 2⟩
/-- Topiary swap executed; severity 0. -/
def EV.topSwap : EvCode := ⟨0x0503, 0⟩
/-- Thorned weight applied under R287. -/
def EV.topThorn : EvCode := ⟨0x0505, 2⟩
/-- Cut-through frame CRC failure. -/
def EV.txCutCrc : EvCode := ⟨0x0406, 2⟩
/-- Sub-band disable flush complete. -/
def EV.txFlushed : EvCode := ⟨0x0409, 2⟩
/-- Window met a pinched-off gate. -/
def EV.txGateOff : EvCode := ⟨0x0407, 2⟩
/-- INHIBIT loop opened or closed. -/
def EV.txInhibit : EvCode := ⟨0x0401, 2⟩
/-- Path put in protect under R234. -/
def EV.txPortFault : EvCode := ⟨0x0402, 2⟩
/-- Compensation step applied. -/
def EV.txPowerStep : EvCode := ⟨0x0408, 2⟩
/-- Stage saturation. -/
def EV.txSat : EvCode := ⟨0x0404, 2⟩
/-- Host stream late or missing groups. -/
def EV.txUnderrun : EvCode := ⟨0x0405, 2⟩
/-- Lock lost during a window. -/
def EV.txUnlock : EvCode := ⟨0x0403, 2⟩
/-- Stream port overflow. -/
def EV.weaveDram : EvCode := ⟨0x0706, 2⟩
/-- Late frame discarded. -/
def EV.weaveLate : EvCode := ⟨0x0703, 2⟩
/-- Unit left the coppice. -/
def EV.weaveLeft : EvCode := ⟨0x0707, 2⟩
/-- Inputs zero-filled at the deadline. -/
def EV.weaveMissing : EvCode := ⟨0x0702, 2⟩
/-- Bundle down; frames discarded. -/
def EV.weaveRoute : EvCode := ⟨0x0708, 2⟩
/-- Identity, epoch or shape_crc mismatch. -/
def EV.weaveShape : EvCode := ⟨0x0705, 2⟩
/-- Stamp names no group formed. -/
def EV.weaveStamp : EvCode := ⟨0x0704, 2⟩
/-- Bank swapped; severity 0. -/
def EV.weaveSwap : EvCode := ⟨0x0701, 0⟩
/-- Integration closed under R361. -/
def EV.xceAutocut : EvCode := ⟨0x0806, 2⟩
/-- Integration closed; severity 0. -/
def EV.xceInt : EvCode := ⟨0x0803, 0⟩
/-- Integration discarded. -/
def EV.xceIntLost : EvCode := ⟨0x0804, 2⟩
/-- Accumulator parity failure. -/
def EV.xceParity : EvCode := ⟨0x0802, 2⟩
/-- Pass skipped; reason gap or unconfigured. -/
def EV.xceSkip : EvCode := ⟨0x0805, 2⟩
/-- Samples discarded under R357. -/
def EV.xceStall : EvCode := ⟨0x0801, 2⟩
/-- Stop complete. -/
def EV.xceStopped : EvCode := ⟨0x0807, 2⟩
/-- Thorned input or accumulator flagged. -/
def EV.xceThorn : EvCode := ⟨0x0808, 2⟩
/-- Core or field out of range. -/
def ST.appletArg : Nat := 0x02E0
/-- Header, length or section hash invalid. -/
def ST.appletImage : Nat := 0x02E1
/-- DMA channels or stream ports not available. -/
def ST.appletResource : Nat := 0x04E0
/-- security_version below the rollback counter. -/
def ST.appletRollback : Nat := 0x05E1
/-- A signature failed. -/
def ST.appletSignature : Nat := 0x05E0
/-- Core not in a state that allows the command. -/
def ST.appletState : Nat := 0x03E0
/-- Window fails R559. -/
def ST.appletWindow : Nat := 0x02E2
/-- Signature check failed. -/
def ST.authFail : Nat := 0x0502
/-- Command needs the FREE state. -/
def ST.axisTraced : Nat := 0x0312
/-- Unknown action, or deferrable flag on a non-deferrable action. -/
def ST.badAction : Nat := 0x0211
/-- Argument value out of range. -/
def ST.badArg : Nat := 0x0201
/-- Channel or flags invalid for the type. -/
def ST.badHeader : Nat := 0x0101
/-- Argument bytes do not match the opcode. -/
def ST.badLength : Nat := 0x0202
/-- Opcode undefined, under R16. -/
def ST.badOpcode : Nat := 0x0102
/-- Position or period outside its range. -/
def ST.badPosition : Nat := 0x0210
/-- Spread block outside R138. -/
def ST.badSpread : Nat := 0x0204
/-- Former bank still in use. -/
def ST.bankBusy : Nat := 0x0411
/-- Field outside R478, or frequency outside R467. -/
def ST.bcnArg : Nat := 0x02B1
/-- Bias queue full under R601; retry_after until its earliest entry takes effect. -/
def ST.biasFull : Nat := 0x04F1
/-- BIAS-RAMP for a DAC without a loaded ramp, under R598. -/
def ST.biasNoRamp : Nat := 0x03F1
/-- MAC cells exceeded under R281. -/
def ST.bmfBudget : Nat := 0x0254
/-- Object CRC-32C mismatch. -/
def ST.bulkCrc : Nat := 0x0203
/-- Staging limits of R140 reached. -/
def ST.bulkFull : Nat := 0x0402
/-- Handle unknown, open where closed is needed, or incomplete. -/
def ST.bulkState : Nat := 0x0303
/-- Mailbox class full; retry hint under R131. -/
def ST.busy : Nat := 0x0400
/-- Field out of range, partner equal to self, or two phase references. -/
def ST.calArg : Nat := 0x02A0
/-- Eight runs pending. -/
def ST.calQueue : Nat := 0x04A0
/-- Run in progress, or D3 or D6 off for CAL-RUN. -/
def ST.calState : Nat := 0x03A0
/-- Table header, length or thorn invalid. -/
def ST.calTable : Nat := 0x02A1
/-- Field outside R294 or R296. -/
def ST.chainArg : Nat := 0x0260
/-- Lane fails R312 or R313. -/
def ST.chainLane : Nat := 0x0261
/-- D below own_delay. -/
def ST.chainOffset : Nat := 0x0262
/-- Command or field needs the root, or forbidden at the root. -/
def ST.chainRole : Nat := 0x0361
/-- Receive slot beams off, or chain output not selected. -/
def ST.chainSlot : Nat := 0x0360
/-- Channel busy, enabled, or not owned by the host. -/
def ST.dmaChState : Nat := 0x03D1
/-- Descriptor fails R539, R540 or R537. -/
def ST.dmaDesc : Nat := 0x02D1
/-- No host channel free. -/
def ST.dmaNoChannel : Nat := 0x04D0
/-- The command's target lies in a domain that is off. -/
def ST.domainOff : Nat := 0x0302
/-- Field outside R386 or R387. -/
def ST.dpdArg : Nat := 0x0290
/-- Shadow bank being written by a solve. -/
def ST.dpdBusy : Nat := 0x0490
/-- Object header differs from the configuration. -/
def ST.dpdCoef : Nat := 0x0291
/-- Adaptation off, or predistortion not available on the variant. -/
def ST.dpdState : Nat := 0x0390
/-- Master, target, channel, core or timing out of range. -/
def ST.fabArg : Nat := 0x02D0
/-- Recovery layer in force. -/
def ST.fabRecovery : Nat := 0x03D0
/-- Change needs the slot disabled. -/
def ST.freActive : Nat := 0x0350
/-- Delivered range or equaliser groups outside R265 or R270. -/
def ST.freChannels : Nat := 0x0252
/-- Slot, consumer or beams not enabled. -/
def ST.freDisabled : Nat := 0x0351
/-- Format not allowed under R274. -/
def ST.freFormat : Nat := 0x0256
/-- Input paths fail R253, or rate fails R260. -/
def ST.freRate : Nat := 0x0251
/-- Size, taps, mu, cp_type, wola_len or fft_backoff outside its range. -/
def ST.freSize : Nat := 0x0250
/-- Stream number in use. -/
def ST.freStream : Nat := 0x0354
/-- Custom value out of range, or R > C/2. -/
def ST.govClass : Nat := 0x0245
/-- Hardware fault during execution. -/
def ST.hwFault : Nat := 0x0602
/-- Signer lacks the authority needed. -/
def ST.keyAuthority : Nat := 0x0583
/-- Key hash not in the slot, or slot empty or revoked. -/
def ST.keyUnknown : Nat := 0x0582
/-- Lane or quad carries traffic under R105. -/
def ST.laneInUse : Nat := 0x0320
/-- Mode or FEC not allowed on that lane, or DR4 not on a quad's first lane. -/
def ST.laneMode : Nat := 0x0221
/-- Command needs the lane in ACQUIRE or later. -/
def ST.laneNotUp : Nat := 0x0322
/-- Lane, quad, pattern or loopback code outside its range. -/
def ST.laneRange : Nat := 0x0220
/-- Trigger within the minimum lead, or past at execution. -/
def ST.late : Nat := 0x0310
/-- All launch buffers hold launches, under R76. -/
def ST.launchFull : Nat := 0x0412
/-- Store, region, port, kind or address out of range, or address unprotected for MEM-INJECT. -/
def ST.memArg : Nat := 0x02C0
/-- Range pass already running; words left in hint_value. -/
def ST.memBusy : Nat := 0x04C0
/-- Store failed its self-test. -/
def ST.memFailed : Nat := 0x03C2
/-- Region in use under R486. -/
def ST.memInUse : Nat := 0x03C0
/-- Stream port enabled under R511 or R512. -/
def ST.memPortsOn : Nat := 0x03C1
/-- Command needs the owner role. -/
def ST.notOwner : Nat := 0x0501
/-- No open session, or source not bound. -/
def ST.noSession : Nat := 0x0104
/-- Eight sessions already open. -/
def ST.noSessionSlot : Nat := 0x0401
/-- Program or erase failed verify; nothing written. -/
def ST.nvmFault : Nat := 0x06F8
/-- Command done. -/
def ST.ok : Nat := 0x0000
/-- Another session holds the owner role. -/
def ST.ownerPresent : Nat := 0x0301
/-- State, DAC, code, span, channel or threshold out of range, or above a gate floor. -/
def ST.pwrArg : Nat := 0x02F0
/-- State transition in progress. -/
def ST.pwrBusy : Nat := 0x04F0
/-- Domain needed by a configured role, DAC owned under gate_mode 1, or ramp queued. -/
def ST.pwrInUse : Nat := 0x03F0
/-- The lane's quad is gated. -/
def ST.quadOff : Nat := 0x0321
/-- Resource held by quickset under R652. -/
def ST.quickset : Nat := 0x0308
/-- security_version below the counter. -/
def ST.rollback : Nat := 0x0584
/-- Sub-band disabled, or consumer bit clear. -/
def ST.rxDisabled : Nat := 0x0330
/-- Format not allowed for the use. -/
def ST.rxFormat : Nat := 0x0234
/-- Lane not DIRECT, not configured, or already used. -/
def ST.rxLane : Nat := 0x0332
/-- No free gap for the port check. -/
def ST.rxNoGap : Nat := 0x0430
/-- Path in protect. -/
def ST.rxProtect : Nat := 0x0331
/-- Rate limit of R191 or R34 exceeded. -/
def ST.rxRate : Nat := 0x0230
/-- Stage argument out of range, or cut-through chain not stage A only. -/
def ST.rxStage : Nat := 0x0233
/-- Tap or coefficient count outside its limit. -/
def ST.rxTaps : Nat := 0x0231
/-- Sub-band outside R182. -/
def ST.rxZone : Nat := 0x0232
/-- Field out of range. -/
def ST.secArg : Nat := 0x02F8
/-- NVM write in progress, tree not ready, or signing rate exceeded. -/
def ST.secBusy : Nat := 0x04F8
/-- Object magic, length, section hash or size invalid. -/
def ST.secObject : Nat := 0x02F9
/-- enrol_count not above the table's. -/
def ST.secReplay : Nat := 0x0585
/-- No staged slot, trial rule, last authority key, page not erased. -/
def ST.secState : Nat := 0x03F8
/-- Sequence outside R136. -/
def ST.seqStale : Nat := 0x0103
/-- Shadow bank armed by a queued swap. -/
def ST.shadowArmed : Nat := 0x0311
/-- ECDSA signature failed. -/
def ST.sigEcdsa : Nat := 0x0580
/-- HSS signature failed. -/
def ST.sigLms : Nat := 0x0581
/-- Report window too short under R159. -/
def ST.slotShort : Nat := 0x0205
/-- Named source is not LOCKED, or offset exceeds switch_max_offset. -/
def ST.sourceNotLocked : Nat := 0x0313
/-- Limit of R67 exceeded. -/
def ST.stakeDense : Nat := 0x0212
/-- Not enough free queue entries. -/
def ST.stakeFull : Nat := 0x0410
/-- Profile, slot or k out of range, or profile undefined. -/
def ST.synArg : Nat := 0x02B0
/-- Standby calibrating. -/
def ST.synBusy : Nat := 0x04B0
/-- Standby not pre-locked to the named profile, or held by a hop. -/
def ST.synStandby : Nat := 0x03B2
/-- Profile in use, hop queued, or standby held. -/
def ST.synState : Nat := 0x03B0
/-- No usable record under R451. -/
def ST.synUncal : Nat := 0x03B1
/-- Unit number, keep mask or position out of range. -/
def ST.sysArg : Nat := 0x0208
/-- Refused under R654 or R657. -/
def ST.sysState : Nat := 0x0309
/-- Thorned data consumed by the command. -/
def ST.thorn : Nat := 0x0601
/-- No topiary loaded. -/
def ST.topEmpty : Nat := 0x0352
/-- Swap within another swap's crossfade. -/
def ST.topOverlap : Nat := 0x0353
/-- Topiary header or size fails R276 or R278. -/
def ST.topSize : Nat := 0x0253
/-- Weight store exceeded under R277. -/
def ST.topStore : Nat := 0x0255
/-- Ceiling raised while a window is open. -/
def ST.txActive : Nat := 0x0341
/-- Compensation object header, length or gate code fails R682. -/
def ST.txComp : Nat := 0x0247
/-- Sub-band disabled, or source mismatch. -/
def ST.txDisabled : Nat := 0x0340
/-- Format not allowed. -/
def ST.txFormat : Nat := 0x0244
/-- Lane not DIRECT, or already mapped. -/
def ST.txLane : Nat := 0x0343
/-- fs_power outside R237. -/
def ST.txPower : Nat := 0x0246
/-- Port class Open or Short. -/
def ST.txProtect : Nat := 0x0342
/-- Rate outside R219. -/
def ST.txRate : Nat := 0x0240
/-- Stage argument out of range. -/
def ST.txStage : Nat := 0x0243
/-- Tap or coefficient count outside its limit. -/
def ST.txTaps : Nat := 0x0241
/-- Sub-band outside R224. -/
def ST.txZone : Nat := 0x0242
/-- Field outside R318 or R324. -/
def ST.weaveArg : Nat := 0x0270
/-- Slice rate above R322. -/
def ST.weaveCapacity : Nat := 0x0273
/-- Corner-turn region does not fit; free bytes in hint_value. -/
def ST.weaveDram : Nat := 0x0470
/-- Lane fails R331 or R332. -/
def ST.weaveLane : Nat := 0x0274
/-- Shape product not U, own entry wrong, or route through an absent position. -/
def ST.weaveShape : Nat := 0x0271
/-- Slice fails R321 or R344. -/
def ST.weaveSlice : Nat := 0x0272
/-- Slot not enabled, or consumers bit [1] clear. -/
def ST.weaveSlot : Nat := 0x0371
/-- Shadow incomplete, epoch unchanged, or no coppice. -/
def ST.weaveState : Nat := 0x0370
/-- Field outside R377, R361 or R368. -/
def ST.xceArg : Nat := 0x0280
/-- DRAM load or space exceeded under R359 or R360. -/
def ST.xceDram : Nat := 0x0480
/-- Lane not ETH and UP, or load above R362. -/
def ST.xceLink : Nat := 0x0281
/-- Covariance passes exceed the tiles under R368. -/
def ST.xceRate : Nat := 0x0282
/-- Correlator not enabled, or shadow armed. -/
def ST.xceState : Nat := 0x0380

end Sys2Proof.Machine
end

