-- ==== Sys2Proof/Machine/State.lean ====
section
/-! DEFINITION. The state of the unit: every register, queue, buffer, counter, mode and pin the manual gives it,
and the queue of commands that wait. A field's default value is its value right after reset: the Reset column of
the manual's field maps (R10), the default a rule names, or the value an entry of the assumption log names (entries
1 to 3 and the entry a field's line names). Numbers are kept as numbers (`Nat`, `Int`), flags as `Bool`; a register
that a command returns whole is packed from its fields where it is read. Numbered banks are lists in the order of
their numbers; sparse banks are lists of number and entry. -/

namespace Sys2Proof.Machine

/-- A field of a response or of an event: its width in bytes and its value, sent big-endian (R8, R117). -/
abbrev Field := Nat × Nat

/-- The two banks of a block (R73 to R75): the one in force and the shadow, the index of the bank in force, the
counts of their thorned words (R497), and the axis position at which the former active bank frees (none once
EV_BANK_FREE was raised). That a queued swap arms the shadow is read off the stake queue. -/
structure Banks (α : Type) where
  cur : α
  shd : α
  index : Nat := 0
  thornCur : Nat := 0
  thornShd : Nat := 0
  freeAt : Option Nat := none
deriving DecidableEq, Repr, Inhabited

/-- Both banks holding one setting, bank 0 in force, nothing thorned. -/
def Banks.both {α : Type} (a : α) : Banks α := { cur := a, shd := a }


/-! ### Chapter 4: sessions, mailboxes, events, bulk objects -/

/-- One event record (R152): its unit-wide number, code, severity, axis position and arguments (R676). -/
structure EvRec where
  num : Nat
  code : Nat
  sev : Nat
  axis : Nat
  args : List Field
deriving DecidableEq, Repr, Inhabited

/-- A response (R134): the session, port and address it goes to, the command it answers, its status, the retry hint of class
0x04xx, its result fields, and the 8-byte words of them that are thorned, counted from the first result byte (R122). -/
structure Rsp where
  dst : Addr
  port : Nat
  session : Nat
  channel : Nat
  seq : Nat
  opcode : Nat
  status : Nat
  retry : Nat
  hint : Nat
  fields : List Field
  thorn : List Nat := []
deriving DecidableEq, Repr, Inhabited

/-- How a Swios packet travels in its frame (R113): under the Swios EtherType, or in UDP with its addresses, ports and checksum. -/
inductive Carrier where
  | ether (type : Nat)
  | udp (v6 : Bool) (src dst srcPort dstPort checksum : Nat)
deriving DecidableEq, Repr, Inhabited

/-- An Ethernet frame with a Swios packet (R113, R114): its addresses, its 802.1Q tag (priority code point and VLAN identifier),
and the octets of the packet, header and trailer included (R117, R119). -/
structure Frame where
  dst : Nat
  src : Nat
  tag : Option (Nat × Nat)
  carrier : Carrier
  data : List Nat
deriving DecidableEq, Repr, Inhabited

/-- A 64b/66b block: whether its sync header marks a control block, its eight bytes (R88), and whether its sync header is invalid, by
which its word is thorned at the receiver (R90). -/
structure Block where
  ctl : Bool
  bytes : List Nat
  bad : Bool := false
deriving DecidableEq, Repr, Inhabited

/-- What the unit sends on an ETH lane or the service port, on a direct lane, or at an antenna. -/
inductive Out where
  /-- A Swios packet in its frame (R113). -/
  | frame (port : Nat) (f : Frame)
  /-- A host's frame launched at a position (R76). -/
  | launch (lane position : Nat) (bytes : List Nat)
  /-- A PTP Delay_Req message to a destination select, with its priority tag where VLANs are used (R42, R161). -/
  | delayReq (domain port dest : Nat) (tag : Option (Nat × Nat))
  /-- A priority flow control frame for priority 3 (R164). -/
  | pfc (port : Nat) (pause : Bool)
  /-- Blocks on a direct lane: a control block, or a whole frame from START to TERM (R88). -/
  | direct (lane : Nat) (blocks : List Block)
  /-- A beacon packet radiated (R463): the path, the position of its first chip, its header bytes and its payload. -/
  | beacon (path pos : Nat) (hdr : List Nat) (payload : List Nat)
deriving DecidableEq, Repr, Inhabited

/-- A frame waiting in an egress queue (R161): its queue, 1 to 3, and 4 for BULK, which shares the service of queue 3; its length on
the wire in bits; the cycle before which it may not start (R144); and what it belongs to: the session, class and sequence of the
command a response answers, or the handle of a bulk transfer. -/
structure Waiting where
  queue : Nat
  bits : Nat
  from_ : Nat := 0
  answers : Option (Nat × Nat × Nat) := none
  handle : Nat := 0
  out : Out
deriving DecidableEq, Repr, Inhabited

/-- What a command still executing waits for before its response (R132: a command completes when its effect is
committed). -/
inductive Wait where
  /-- The flush of disabled receive sub-bands: the ones not yet drained (R213). -/
  | rxFlush (left : List Nat) (outputs : Nat)
  /-- The flush of disabled transmit sub-bands (R236). -/
  | txFlush (left : List Nat)
  /-- The flush of disabled frequency-engine slots (R289). -/
  | freFlush (left : List Nat) (groups : Nat)
  /-- A port check (R178): the paths still to measure, all its paths, and its position (0 for the next free gap). -/
  | portCheck (left paths : List Nat) (pos : Nat)
  /-- A scrub pass over a range of a store (R502). -/
  | scrubRange (store : Nat)
  /-- The lock of the standby synthesiser (R455, R480). -/
  | synLock
  /-- The calibration of the standby synthesiser for the profiles not yet done (R451). -/
  | synCal (left : List Nat)
  /-- The initialisation of a newly protected DRAM region (R486). -/
  | regionInit (region : Nat)
  /-- The matrix's self-test after FAB-RECOVER (R532). -/
  | fabRecover
  /-- The stop of the correlator (R376). -/
  | xceStop
  /-- The drain of a coppice member that leaves (R345). -/
  | weaveLeave
  /-- A program or an erase of the NVM (R635, R642). -/
  | nvm (area : Nat)
  /-- The reservation of leaves that a report's signature needs (R632): the report's nonce. -/
  | attest (nonce : Nat)
  /-- A change of power state (R593). -/
  | power
  /-- The end of the step of an aborted calibration run (R442). -/
  | calAbort
  /-- A quickset element that stops (R653). -/
  | quickset
deriving DecidableEq, Repr, Inhabited

/-- A command that waits in a mailbox class: its header and the command (R130). -/
structure MailEntry where
  hdr : Hdr
  instr : Instr
deriving DecidableEq, Repr

/-- The command a class is executing whose response is still to come (R132). `discard` says that its session has
closed and the response is discarded (R127). -/
structure Running where
  hdr : Hdr
  opcode : Nat
  fields : List Field
  wait : Wait
  started : Nat
  discard : Bool
deriving DecidableEq, Repr, Inhabited

/-- The four mailbox classes hold each its waiting entries, the command being executed and the execution times of
its last 16 commands (R131). -/
structure MailClass where
  queue : List MailEntry := []
  running : Option Running := none
  times : List Nat := []
deriving DecidableEq, Repr, Inhabited

/-- Per session and class: the highest sequence accepted and the responses of the last 64 completed commands,
`none` where the response was not sent (R136). -/
structure SeqState where
  high : Option Nat := none
  done : List (Nat × Option Rsp) := []
deriving DecidableEq, Repr, Inhabited

/-- An open session (R123 to R129, R153, R156, R168); `nonce` and `header` are the nonce that SESSION-OPEN gave and bytes 4 to 6 of its response's
header (R125). -/
structure Session where
  num : Nat
  owner : Bool
  addr : Addr
  port : Nat
  keepalive : Nat
  maxPayload : Nat
  lastHeard : Nat
  mask : Nat := 0x1FFFF
  minSev : Nat := 2
  queue : List EvRec := []
  lost : Nat := 0
  lostTotal : Nat := 0
  nonce : Option Nat := none
  header : Nat := 0
  takeover : Bool := false
  authFails : Nat := 0
  crcErrors : Nat := 0
  headerErrors : Nat := 0
  misaddressed : Nat := 0
  noSession : Nat := 0
  thorned : Nat := 0
  busyRefusals : Nat := 0
  bcastRefusals : Nat := 0
  seqs : List SeqState := List.replicate 4 {}
deriving DecidableEq, Repr, Inhabited

/-- A fragment of a staged object: its byte offset, its bytes and the numbers of its thorned 8-byte words. -/
structure Frag where
  off : Nat
  data : List Nat
  thorn : List Nat
deriving DecidableEq, Repr, Inhabited

/-- An open, staged or outbound object (R140 to R144). `frag` is the fragment data size F; `pace` is the pace of the handle's last BULK-READ;
`read` says that its last byte has been read (R365). -/
structure BulkObj where
  handle : Nat
  kind : Nat
  len : Nat
  crc : Nat
  frags : List Frag := []
  closed : Bool := false
  outbound : Bool := false
  inDram : Bool := true
  session : Nat
  frag : Nat := 0
  pace : Nat := 0
  read : Bool := false
deriving DecidableEq, Repr, Inhabited

/-- A destination entry (R157). -/
structure Dest where
  eth : Nat := 0
  ipv : Nat := 0
  ip : Nat := 0
  udp : Nat := 0
  maxPayload : Nat := 0
  set : Bool := false
deriving DecidableEq, Repr, Inhabited

/-- A report kind's timed slots (R159), and the last slot dealt with. -/
structure RepSlot where
  kind : Nat
  dest : Nat
  lane : Nat
  period : Nat
  offset : Nat
  window : Nat
  done : Option Nat := none
deriving DecidableEq, Repr, Inhabited

/-- A lane's MAC or the service port: its packet counters (R168); the pause that its partner asked for priority 3, the bytes in its
ingress buffer and whether the unit has paused its partner (R164); the frames that wait, oldest first; what is left of the frame
on the wire, in 1/6,144,000 bit; and the bits of streams sent while bulk waits (R161). -/
structure PortCtr where
  received : Nat := 0
  sent : Nat := 0
  crcErrors : Nat := 0
  headerErrors : Nat := 0
  misaddressed : Nat := 0
  noSession : Nat := 0
  fcsErrors : Nat := 0
  pauseSent : Nat := 0
  groupsDropped : Nat := 0
  paused : Bool := false
  ingress : Nat := 0
  pausing : Bool := false
  queue : List Waiting := []
  line : Nat := 0
  share : Nat := 0
deriving DecidableEq, Repr, Inhabited

/-- A report formed and waiting for its slot (R160): its kind, the position it describes, its body, the thorned 8-byte words of the
body, and the position at which it was ready. -/
structure PendReport where
  kind : Nat
  axis : Nat
  body : List Field
  thorn : List Nat
  ready : Nat
deriving DecidableEq, Repr, Inhabited

/-- What a launch buffer holds (R76): a host's frame, a spread response (R138), or a part of a report with its kind (R159). -/
inductive LaunchKind where
  | frame (bytes : List Nat)
  | response (r : Rsp)
  | report (kind dest part parts axis : Nat) (body : List Nat) (thorn : List Nat)
deriving DecidableEq, Repr, Inhabited

/-- The link's state (chapter 4). `transfers` are the outbound transfers under way (session, handle); `held` are the spread
responses that wait for a launch buffer, `timed` those of the service port with their positions, `repParts` the parts of reports that
wait for one, with their lanes and positions; `txSeq` the next sequence number per type and
channel (R117); `sent` everything the unit has begun to send, oldest first. `admitted` is the model's own: the step sets it while it starts a command that
already waits in a mailbox, so that the packet checks do not run again. -/
structure Lnk where
  sessions : List Session := []
  mail : List MailClass := List.replicate 4 {}
  admitted : Bool := false
  evNumber : Nat := 0
  history : List EvRec := []
  lastRaised : List ((Nat × Nat) × Nat) := []
  bulk : List BulkObj := []
  nextHandle : Nat := 1
  dests : List Dest := List.replicate 16 {}
  slots : List RepSlot := []
  reports : List PendReport := []
  encap : Encap := Encap.factory
  newEncap : Option (Encap × Nat × Nat × Nat) := none
  dhcpAddr : Nat := 0
  svcUp : Bool := false
  ports : List PortCtr := List.replicate 33 {}
  transfers : List (Nat × Nat) := []
  badFragments : Nat := 0
  held : List (SpreadBlock × Rsp) := []
  timed : List (Nat × Rsp) := []
  repParts : List (Nat × Nat × LaunchKind) := []
  txSeq : List ((Nat × Nat) × Nat) := []
  sent : List Out := []
deriving DecidableEq, Repr

/-! ### Chapter 2: the local clock, the axis and the stakes -/

/-- A time servo (R43, R44, R679): its state code, the PTP settings, the grandmaster, its estimate of the source
(offset from the local clock in 2^-16 ns, rate in ppb), its residual, the rates
of the last 64 s (R46), and since when it has met or missed the
bounds its state tests (in axis-clock cycles since power-on). -/
structure Servo where
  st : Nat := 0
  domain : Nat := 24
  port : Nat := 0
  dest : Nat := 0
  gm : Nat := 0
  clkClass : Nat := 0
  offset : Int := 0
  rate : Int := 0
  residual : Int := 0
  delay : Nat := 0
  measured : Option Nat := none
  goodSince : Option Nat := none
  badSince : Option Nat := none
  lockedSince : Nat := 0
  since : Nat := 0
  misses : Nat := 0
  reqAt : Nat := 0
  heldSince : Nat := 0
  rates : List (Nat × Int) := []
deriving DecidableEq, Repr, Inhabited

/-- A stake in the queue (R61, R66): the entry, its commit order, the position of its next repetition, the
repetitions still to come, and, once prefetched (R67, R69), its computed trigger and whether it lay in the past then. -/
structure QStake where
  stake : Stake
  order : Nat
  pos : Nat
  left : Nat
  trig : Option Nat := none
  late : Bool := false
deriving DecidableEq, Repr, Inhabited

/-- A held launch: its buffer, lane and position. -/
structure Launch where
  buffer : Nat
  lane : Nat
  pos : Nat
  what : LaunchKind
deriving DecidableEq, Repr, Inhabited

/-- The clock, the time sources, the axis, the stakes and the launches (chapter 2). `clock` is the local clock in
1/6,144 ns (R37); `cyc` counts axis-clock cycles since power-on and serves the durations of every rule. -/
structure Tmb where
  clock : Nat := 0
  cyc : Nat := 0
  epoch : Time12 := ⟨0, 0, 0⟩
  frameLen : Nat := 19660800
  active : Nat := 0
  srvA : Servo := {}
  srvB : Servo := {}
  srvLane : Servo := {}
  srvPps : Servo := {}
  laneRole : Nat := 0
  laneNum : Nat := 0
  laneAsym : Int := 0
  lanePartner : Nat := 0
  laneRound : Int := 0
  laneOffset : Int := 0
  laneTraced : Bool := false
  laneSeq : Nat := 0
  laneNext : Nat := 0
  laneSent : List (Nat × Nat) := []
  laneTimes : Option (Nat × Nat) := none
  laneArrival : Nat := 0
  freqSource : Nat := 0
  traced : Bool := false
  holdover : Bool := false
  slewing : Bool := false
  slewLeft : Int := 0
  slewFrom : Nat := 0
  steerClamped : Bool := false
  steer : Int := 0
  prio : List Nat := [0, 0, 0, 0]
  revertive : Bool := false
  qualTime : Nat := 60
  slewLimit : Nat := 50
  switchMax : Nat := 10000
  ppsEnable : Bool := false
  ppsWidth : Nat := 100
  ppsComp : Nat := 0
  ppsLevel : Bool := false
  ppsRose : Nat := 0
  ppsTod : Nat := 0
  ppsEdge : Option Nat := none
  refEnable : Bool := false
  refPresent : Bool := false
  refPpb : Int := 0
  syncE : List (Nat × Int) := []
  stakes : List QStake := []
  heldStakes : List QStake := []
  nextOrder : Nat := 0
  launches : List Launch := []
deriving DecidableEq, Repr

/-! ### Chapter 3: lanes and quads -/

/-- What a lane does once it has been taken down (R103): it comes up in a mode with a FEC setting (R111), or with its whole quad in
mode 2 once every lane of the quad is down, restarts its bring-up (R102), enters TEST (R109), or its quad is gated (R105). -/
inductive After where
  | mode (m fec : Nat)
  | quad (fec : Nat)
  | restart
  | test
  | gate
deriving DecidableEq, Repr, Inhabited

/-- A lane: the fields of LNK_LANE_STATUS_n (R99), LNK_RXEQ_n and LNK_DFE_n (R94), the expected and the accepted
identity (R97) with the bytes 1 to 5 of the last IDENT block and how often they came in a row, the elastic buffer (R92) and the cycles of its last slip and of the last departure from UP
(R93, R103), the block lock search (its offset, its start, whether it has been reported, R95), PRBS and loopback (R106 to R108)
with the cycle from which locked bits are counted, the departures from UP of the last second and whether the lane is held in FAULT (R102), the counters
(R110), the part of a codeword and of a block that has passed, the blocks since the last IDENT and the last FILL and those of frames still to go (R89), the laser, and the take-down pending under
R103 with the command whose response it awaits. `rxPower` is the signed code in 0.2 dB; `txPower` the laser monitor's reading in 0.1 dBm. -/
structure Lane where
  st : Nat := 0
  mode : Nat := 0
  fec : Nat := 0
  loopback : Nat := 0
  los : Bool := true
  cdr : Bool := false
  blk : Bool := false
  isMatch : Bool := false
  rxPower : Int := -128
  slip : Bool := false
  lockLost : Bool := false
  miswired : Bool := false
  expUnit : Nat := 0xFFFFF
  expLane : Nat := 0
  expTag : Nat := 0
  rxUnit : Nat := 0
  rxLane : Nat := 0
  rxTag : Nat := 0
  ident : List Nat := []
  identRun : Nat := 0
  eq : EqState := EqState.zero
  adapt : Nat := 0
  freeze : Bool := false
  elastic : Nat := 4
  slipAt : Option Nat := none
  lostAt : Option Nat := none
  offset : Nat := 0
  searchAt : Nat := 0
  noAlign : Bool := false
  departures : List Nat := []
  fault : Bool := false
  prbsPattern : Nat := 0
  prbsGen : Bool := false
  prbsChk : Bool := false
  prbsLock : Bool := false
  prbsFrom : Nat := 0
  prbsBits : Nat := 0
  prbsErrs : Nat := 0
  prbsSyms : Nat := 0
  corrected : Nat := 0
  uncorrectable : Nat := 0
  fillIn : Nat := 0
  fillOut : Nat := 0
  lockLosses : Nat := 0
  losCount : Nat := 0
  codeword : Nat := 0
  block : Nat := 0
  sinceIdent : Nat := 0
  sinceFill : Nat := 0
  frames : Nat := 0
  lit : Bool := false
  stable : Bool := false
  txPower : Int := 0
  down : Option (After × Nat × Nat × Nat) := none
deriving DecidableEq, Repr, Inhabited
/-! ### Chapter 5: receive paths -/

/-- One bank of a receive sub-band: its configuration (R193) and the coefficients loaded for stages B and C (R214). -/
structure RxBank where
  cfg : RxCfg := {}
  bCoefs : List Int := []
  cCoefs : List Int := []
deriving DecidableEq, Repr, Inhabited

/-- A cut-through sender (R205 to R208): its lane, the samples per frame, the next frame's sequence, the position it was set at, the ADC
sample that completes the next output to send, whether the next frame carries the discontinuity flag, and whether it ends with the frame in
progress. -/
structure CutOut where
  lane : Nat
  samples : Nat
  seq : Nat := 0
  since : Nat := 0
  next : Option Nat := none
  disc : Bool := false
  closing : Bool := false
deriving DecidableEq, Repr, Inhabited

/-- A receive sub-band: CHF_SB_STATUS_n, its banks, the staked window (R197), the phase reference an NCO-RESET moved
(R186), the saturation counters and sticky bits of stages A, B, C and the format conversion (R190), the replaced
samples flag (R199), the discontinuity due on its next packet or frame, and its cut-through sender. -/
structure RxSb where
  on : Bool := false
  banks : Banks RxBank := .both {}
  win : Bool := false
  flushing : Bool := false
  flushCount : Nat := 0
  ncoRef : Option (Nat × Nat) := none
  sticky : List Bool := [false, false, false, false]
  counts : List Nat := [0, 0, 0, 0]
  txZeroed : Bool := false
  disc : Bool := false
  cut : Option CutOut := none
deriving DecidableEq, Repr, Inhabited

/-- A meter's window (R201): the axis position it began at, the sum of squares, the largest square, the samples, and the clipped or
saturated ones. -/
structure MeterWin where
  start : Nat := 0
  sum : Nat := 0
  peak : Nat := 0
  count : Nat := 0
  clips : Nat := 0
deriving DecidableEq, Repr, Inhabited

/-- A power meter (R201): its window, and the one METER-LATCH ended last. -/
structure Meter where
  win : MeterWin := {}
  latched : Option MeterWin := none
deriving DecidableEq, Repr, Inhabited

/-- A receive path: FE_RX_PORT_n, the settings of RX-PATH-SET, the last port check (R178), the counters, the meters
(sub-bands 0 to 3 and the wideband meter 4), the wideband meter's running second and the last whole one (R651), and the four sub-bands. `zeroFrom` is the clock cycle since which the
path's samples are replaced (R199). -/
structure RxPath where
  band : Nat := 0
  atten : Nat := 0
  bias : Nat := 0
  overMode : Nat := 0
  portClass : Nat := 0
  returnLoss : Nat := 0
  reflPhase : Int := 0
  foldback : Bool := false
  foldAt : Nat := 0
  biasCurrent : Nat := 0
  overload : Bool := false
  protectSeen : Bool := false
  portChanged : Bool := false
  clips : Nat := 0
  protects : Nat := 0
  replaced : Nat := 0
  flushed : Nat := 0
  zeroFrom : Option Nat := none
  meters : List Meter := List.replicate 5 {}
  secNow : MeterWin := {}
  secLast : MeterWin := {}
  sbs : List RxSb := List.replicate 4 {}
deriving DecidableEq, Repr, Inhabited

/-- What a STREAM of the unit carries: one sub-band of several paths (R202), a channelised path (R272), a beam
(R272), or a beam of a chain's sum (R308). -/
inductive StreamKind where
  | raw | channel | beam | chain
deriving DecidableEq, Repr, Inhabited

/-- A STREAM the unit sends: its number and the base number of its command, what it carries, the sub-band, the paths
(or the one path or beam), the format, the destination entry and the port, the elements per group and the first
element, the groups per packet asked for, whether the next packet carries the discontinuity flag and whether it closes a
window (`last`, R198), whether the stream ends with it, the groups sent, the position it was set at, and what it sends next: of a raw stream the ADC sample that
completes the group, of another the group's stamp. -/
structure OutStream where
  num : Nat
  base : Nat
  kind : StreamKind
  sb : Nat
  paths : List Nat
  format : Nat
  dest : Nat
  port : Nat
  elements : Nat
  firstElement : Nat := 0
  perPacket : Nat := 0
  disc : Bool := false
  lastDue : Bool := false
  closing : Bool := false
  sent : Nat := 0
  since : Nat := 0
  next : Option Nat := none
deriving DecidableEq, Repr, Inhabited

/-- A group that arrived for a stream's position: its first element and its elements, each one sample or a BFP9 block of 16. -/
structure InGroup where
  pos : Nat
  first : Nat
  vals : List (List (Int × Int))
deriving DecidableEq, Repr, Inhabited

/-- A STREAM from a host that feeds transmit sub-bands or layers (R217, R280): the buffered groups not yet
played, those played, the position up to which it has been played, and its counts. -/
structure InStream where
  num : Nat
  base : Nat
  layer : Bool
  sb : Nat
  paths : List Nat
  format : Nat
  depth : Nat
  buffered : List InGroup := []
  past : List InGroup := []
  upTo : Option Nat := none
  played : Nat := 0
  late : Nat := 0
  zeroFilled : Nat := 0
deriving DecidableEq, Repr, Inhabited

/-! ### Chapter 6: transmit paths and the energy governor -/

/-- One bank of a transmit sub-band (R225): its configuration and loaded coefficients (R220). -/
structure TxBank where
  cfg : TxCfg := {}
  bCoefs : List Int := []
  cCoefs : List Int := []
deriving DecidableEq, Repr, Inhabited

/-- A test tone that radiates (R227): until when, its offset in Hz and its level in -dB. -/
structure Tone where
  start : Nat
  stop : Nat
  offset : Int
  level : Nat
deriving DecidableEq, Repr, Inhabited

/-- A transmit sub-band: its banks, the staked window, the flush after a disable (R236) with the position at which its contribution ends
and, for OFDM, the boundary of the first symbol left out, the phase reference, the tone, the cut-through lane that feeds it and the samples that came by it with their axis positions (R218), and its saturation counters
(stages C, B, A, gain and up-mix). -/
structure TxSb where
  on : Bool := false
  banks : Banks TxBank := .both {}
  win : Bool := false
  flushing : Bool := false
  stopAt : Option Nat := none
  stopFrom : Option Nat := none
  ncoRef : Option (Nat × Nat) := none
  tone : Option Tone := none
  cutLane : Option Nat := none
  cutIn : List (Nat × Int × Int) := []
  counts : List Nat := [0, 0, 0, 0]
deriving DecidableEq, Repr, Inhabited

/-- The compensation table of a path (R240): 34 rows of correction (0.01 dB) and gate on code, and the drain-voltage
coefficient in 0.001 dB/V. -/
structure CompTable where
  rows : List (Int × Nat) := List.replicate 34 (0, 32768)
  coef : Int := 0
deriving DecidableEq, Repr, Inhabited

/-- A transmit path: the settings of TX-PATH-SET, TXC_PATH_STATUS_n, the causes that mute it (host, INHIBIT loop, lack
of lock, protect, gate, a late open), the boundary of the first symbol that a host's mute leaves out (R236), the governor's gain and state, the compensation in force and pending, its counters and the
four sub-bands. `openSince` is the axis position since which its window has been open without a break. -/
structure TxPath where
  fsPower : Int := 2000
  dacCentre : Nat := 3250000000
  sumShift : Nat := 0
  ramp : Nat := 64
  gateMode : Nat := 0
  muteHost : Bool := false
  hostAsked : Bool := false
  muteFrom : Option Nat := none
  muteInhibit : Bool := false
  muteLock : Bool := false
  muteGate : Bool := false
  muteLate : Bool := false
  gateOff : Bool := false
  gain : Nat := 32768
  adaptHeld : Option Nat := none
  sticky : List Bool := [false, false, false, false]
  underrun : Bool := false
  comp : Int := 0
  compPending : Option Int := none
  compTable : CompTable := {}
  satOut : Nat := 0
  mutedWindows : Nat := 0
  windowCounted : Bool := false
  cutSymbols : Nat := 0
  cutCrc : Nat := 0
  zeroedWords : Nat := 0
  openSince : Option Nat := none
  sbs : List TxSb := List.replicate 4 {}
deriving DecidableEq, Repr, Inhabited

/-- The front-end of a path (R459 to R461), FE_PATH_STATE_n: its state code, the state to return to after a
calibration step, the causes of protect (receive overload; 2 port fault or mismatch and 3 PA diode), the time of
its last return to receive, and its entries to TX, CAL and PROTECT. -/
structure Fe where
  st : Nat := 0
  former : Nat := 0
  protRx : Bool := false
  protTx : Nat := 0
  abandoned : Bool := false
  txProtSeen : Bool := false
  validAt : Nat := 0
  entries : List Nat := [0, 0, 0]
deriving DecidableEq, Repr, Inhabited

/-- The settings of a governor group (R242, R248): class code, custom P in mW, W in us, E in uJ, and per group the
margin in 0.1 dB and `soft` and `release` in 2^-8. -/
structure GovSet where
  cls : Nat := 3
  p : Nat := 0
  w : Nat := 0
  e : Nat := 0
  margin : Nat := 10
  soft : Nat := 205
  release : Nat := 128
deriving DecidableEq, Repr, Inhabited

/-- A governor log record (R249): its axis position, the class and C of each group, the peak E of each ceiling as a
fraction of C in 2^-16, and the counts of soft steps and hard mutes. -/
structure GovRec where
  axis : Nat
  cls : List (Nat × Nat)
  peaks : List Nat
  softs : Nat
  hards : Nat
deriving DecidableEq, Repr, Inhabited

/-- An entry of the governor's journal (R249): 1 hard mute, 2 mismatch mute, 3 class change. -/
structure GovJournal where
  axis : Nat
  group : Nat
  kind : Nat
deriving DecidableEq, Repr, Inhabited

/-- One ceiling of the governor (R245): its attenuation in dB, 255 for a hard mute, its state (0 free, 1 soft, 2 hard
mute, 3 releasing), and the clock cycle of its last release step. -/
structure Ceil where
  att : Nat := 0
  st : Nat := 0
  last : Option Nat := none
deriving DecidableEq, Repr, Inhabited

/-- The governor's state: the settings of groups AC1 and AC2, the sticky bits of AC1, AC2 and the sum, the energies of
the steps within the longest window, the newest first, per port in fJ without margin (R242), the 131 ceilings (ports
0 to 63, AC1, AC2, the sum, the rated ceilings of ports 0 to 63), the peaks and counts of the present second, the axis
position of the last step and the time of the last record, and the logs with the number of journal entries so far (R249). -/
structure Gov where
  sets : List GovSet := [{}, {}]
  hardSeen : List Bool := [false, false, false]
  softSeen : List Bool := [false, false, false]
  history : List (List Nat) := []
  ceils : List Ceil := List.replicate 131 {}
  peaks : List Nat := List.replicate 131 0
  softs : Nat := 0
  hards : Nat := 0
  log : List GovRec := []
  journal : List GovJournal := []
  stepped : Option Nat := none
  logged : Nat := 0
  entries : Nat := 0
  lastJournal : List (Option Nat) := [none, none]
  loopOhms : Nat := 0
  loopOpen : Bool := false
deriving DecidableEq, Repr, Inhabited

/-! ### Chapter 7: the frequency engine and the beamformer -/

/-- The banked settings of a slot (R267, R270): shifts, the gains g per path and equaliser group (path-major; empty
for unity) and h per channel (empty for unity). -/
structure FreBank where
  eqShift : Nat := 0
  rq4 : Nat := 0
  rq8 : Nat := 0
  g : List (Int × Int) := []
  h : List Nat := []
deriving DecidableEq, Repr, Inhabited

/-- A topiary (R275): whether one is loaded, its header fields and its weights (12+12). -/
structure Topiary where
  loaded : Bool := false
  beams : Nat := 0
  mask : Nat := 0
  groups : Nat := 0
  groupSize : Nat := 0
  weights : List (Int × Int) := []
deriving DecidableEq, Repr, Inhabited

/-- A slot, direction × 4 + sub-band: FRE_SLOT_STATUS_n with its configuration, banks, loaded prototype and saturation
counters per path (window and FFT, equaliser, F12, F8, F4, overlap-add), and BMF_SLOT_STATUS_n with the topiary
banks, the capacity and the pages of the weight store that hold bank 0 and then bank 1 (R277), and the crossfade in progress (its position and length). -/
structure FreSlot where
  on : Bool := false
  flushing : Bool := false
  cfg : FreCfg := {}
  banks : Banks FreBank := .both {}
  proto : List Int := []
  sticky : List Bool := [false, false, false]
  counts : List (List Nat) := List.replicate 64 [0, 0, 0, 0, 0, 0]
  beamsOn : Bool := false
  beams : Nat := 0
  bmShift : Nat := 0
  beamOut : Nat := 0
  capacity : Nat := 0
  pages : List Nat := []
  top : Banks Topiary := .both {}
  crossfade : Option (Nat × Nat) := none
  thornApplied : Bool := false
  swapRefused : Bool := false
  satBeam : Bool := false
  zeroedLayer : Nat := 0
deriving DecidableEq, Repr, Inhabited


/-! ### Chapter 8: beam chains -/

/-- A child of a chain node (R304 to R306): the frames in its alignment buffer, the slacks of its frames 0 of the last
second (the cycle and the ticks), and the frames included, missing and late. -/
structure ChainChild where
  frames : List ChainFrame := []
  slacks : List (Nat × Int) := []
  included : Nat := 0
  missing : Nat := 0
  late : Nat := 0
deriving DecidableEq, Repr, Inhabited

/-- The frame a node sends: its configuration, its own values, the frames of its children by number, the frame, and when it began. -/
structure ChainSend where
  cfg : ChainCfg
  own : SumRuns
  kids : List (Nat × ChainFrame)
  frame : ChainFrame
  last : Bool
  begun : Nat
deriving DecidableEq, Repr, Inhabited

/-- The delivery of a root (R308). -/
structure ChainDeliver where
  base : Nat
  format : Nat
  shift : Nat
  dest : Nat
  port : Nat
deriving DecidableEq, Repr, Inhabited

/-- A chain node (chapter 8): BMF_CHAIN_STATUS_n, the configuration banks with the position of the last swap, the first
group it forms, its children, the frame it has begun last, the frames sent, the seven counters of CHAIN-COUNTERS, the
delivery and the report of a root (the groups' stamps and counts, whether delivery has closed, and the
smallest count of the group in progress, and the frames of the groups not yet delivered), and the layers taken from broadcast (R311). -/
structure ChainNode where
  on : Bool := false
  banks : Banks ChainCfg := .both {}
  swapAt : Nat := 0
  startAt : Nat := 0
  short : Bool := false
  lateSeen : Bool := false
  mismatch : Bool := false
  stallSeen : Bool := false
  sat : Bool := false
  childIn : Nat := 0
  lastCount : Nat := 0
  kids : List ChainChild := [{}, {}, {}]
  cur : Option ChainSend := none
  framesSent : Nat := 0
  counts : List Nat := [0, 0, 0, 0, 0, 0, 0]
  deliver : Option ChainDeliver := none
  reportCounts : List (Nat × Nat) := []
  reportClose : Bool := false
  groupMin : Nat := 0
  sums : List ChainFrame := []
  layers : InStream
deriving DecidableEq, Repr, Inhabited

def ChainNode.fresh (sb : Nat) : ChainNode :=
  { layers := { num := 0, base := 0, layer := true, sb := sb, paths := [], format := 2, depth := 0 } }


/-! ### Chapters 9 and 10: the weave and the correlator -/

/-- A bank of the weave (R324, R325): header, lane map, member table, whether WEAVE-SET has checked it, and its
corner-turn region in bytes. -/
structure WeaveBank where
  hdr : WeaveHdr := {}
  maps : List LaneMap := List.replicate 32 {}
  members : List Member := List.replicate 256 {}
  complete : Bool := false
  region : Nat := 0
deriving DecidableEq, Repr, Inhabited

/-- What WEAVE-STATUS tells of a position: smallest slack, samples zero-filled, frames late. -/
structure WeavePos where
  slack : Option Int := none
  zeroed : Nat := 0
  late : Nat := 0
deriving DecidableEq, Repr, Inhabited

/-- Samples of an input zero-filled, masked and thorned (R338). -/
structure InCount where
  zeroed : Nat := 0
  masked : Nat := 0
  thorned : Nat := 0
deriving DecidableEq, Repr, Inhabited

/-- The weave: XCE_WEAVE_STATUS, the banks and the position of the last swap, the frames that have arrived for groups not
yet past their deadline, the last group judged, the state of each position, the sequence number per destination, the
eight counters of WEAVE-COUNTERS and the positions of the COV-CUTs not yet applied. -/
structure Weave where
  on : Bool := false
  banks : Banks WeaveBank := .both {}
  swapAt : Nat := 0
  missing : Bool := false
  lateSeen : Bool := false
  shape : Bool := false
  stamp : Bool := false
  dram : Bool := false
  route : Bool := false
  arrived : List WeaveFrame := []
  judged : Option Nat := none
  pos : List WeavePos := List.replicate 256 {}
  seqs : List Nat := List.replicate 256 0
  counts : List Nat := [0, 0, 0, 0, 0, 0, 0, 0]
  covCuts : List Nat := []
deriving DecidableEq, Repr

/-- A pass set (R351, R368): its integration, configuration, weave bank and first stamp, the groups it holds, the counts
of its inputs, the passes of it begun or skipped, the stamps of its groups, the frames that brought its inputs (R339), and the samples
lost to an overflow: stamp, channel and input (R341). -/
structure PassSet where
  integ : Nat
  cfg : XceCfg
  bank : WeaveBank
  first : Nat
  groups : Nat := 0
  inputs : List (Nat × InCount) := []
  passed : Nat := 0
  stamps : List Nat := []
  frames : List WeaveFrame := []
  gone : List (Nat × Nat × Nat) := []
deriving DecidableEq, Repr

/-- What a tile works on (R352): the pass, its number, the segment, the block, the part of a split round, the samples and
those discarded, the round with its rotation, the first sample of its share, and of a full bank its 1,024 sums and the
visibilities into which a thorned input entered (R348 to R350). -/
structure TileJob where
  integ : Nat
  pass : Nat
  channel : Nat
  first : Nat
  epoch : Nat
  mode : Nat
  seg : Nat
  block : Nat
  parts : Nat
  samples : Nat
  stalled : Nat := 0
  partialDump : Bool := false
  filled : Bool := false
  round : Nat
  rho : Nat
  start : Nat := 0
  vals : List (Int × Int) := []
  marks : List Nat := []
deriving DecidableEq, Repr, Inhabited

/-- A tile: the job of its accumulating bank, the jobs of its full banks, and since which cycle it stalls (R357). -/
structure Tile where
  job : Option TileJob := none
  fulls : List TileJob := []
  stallFrom : Option Nat := none
deriving DecidableEq, Repr, Inhabited

/-- The pass in progress (R352): its set, its number and channel, its samples, the segment and the round in it, and the
cycles at which its round began and ends. -/
structure XcePass where
  set : PassSet
  inputs : List (Nat × InCount) := []
  num : Nat
  channel : Nat
  samples : Nat
  seg : Nat
  round : Nat
  began : Nat
  ends : Nat
deriving DecidableEq, Repr

/-- A block accumulator in DRAM (R358, R373). -/
structure AccBlock where
  integ : Nat
  channel : Nat
  block : Nat
  vals : List (Int × Int)
  flagged : List Nat := []
  thorned : List Nat := []
  samples : Nat := 0
  stalled : Nat := 0
  passes : Nat := 0
  flags : Nat := 0
deriving DecidableEq, Repr, Inhabited

/-- An integration (R364 to R366, R379): state 0 open, 1 pending, 2 delivered, 3 lost. -/
structure Integ where
  num : Nat
  st : Nat := 0
  handle : Nat := 0
  first : Nat := 0
  sets : Nat := 0
  skipped : Nat := 0
  cutShort : Bool := false
  notReached : Nat := 0
  closing : Bool := false
  closedAt : Nat := 0
  cfg : XceCfg := {}
  bank : WeaveBank := {}
  inputs : List (Nat × InCount) := []
deriving DecidableEq, Repr, Inhabited

/-- The correlator: XCE_COLLECT_STATUS, the banks with the position of the last swap, the cuts not yet reached, the pass
set that forms and those ready, the pass in progress, the input counts of the passes whose dumps still drain, the tiles, the accumulators, the integrations, the input counts of
the last closed one, the counters of XCE-COUNTERS, the dumps waiting for a forwarding lane (lane, destination and report), the dumps
delivered since a stop, the cycle since which the collector is free (R356), and the cycle from which the next record may leave (R365). `shdNew` says that the shadow bank has been written since the last swap. -/
structure Xce where
  on : Bool := false
  banks : Banks XceCfg := .both {}
  swapAt : Nat := 0
  shdNew : Bool := false
  stall : Bool := false
  parity : Bool := false
  thorn : Bool := false
  skip : Bool := false
  lost : Bool := false
  rotation : Nat := 0
  rounds : Nat := 0
  passes : Nat := 0
  cuts : List Nat := []
  forming : Option PassSet := none
  ready : List PassSet := []
  pass : Option XcePass := none
  tiles : List Tile := List.replicate 128 {}
  acc : List AccBlock := []
  integs : List Integ := []
  nextInteg : Nat := 0
  buffer : Nat := 0
  lastInputs : List (Nat × List (Nat × InCount)) := []
  inputCounts : List (Nat × InCount) := []
  counts : List Nat := [0, 0, 0, 0, 0, 0, 0, 0]
  outBuf : List (Nat × Nat × PendReport) := []
  stopping : Option Nat := none
  freeAt : Nat := 0
  readAt : Nat := 0
deriving DecidableEq, Repr


/-! ### Chapter 11: predistortion -/

/-- The structure fields in force since the path's last TX-OPEN (R386). -/
structure DpdLive where
  order : Nat := 7
  mem : Nat := 4
  nbrMem : Nat := 2
  nbrLo : Nat := 0xFF
  nbrHi : Nat := 0xFF
  on : Bool := false
deriving DecidableEq, Repr, Inhabited

/-- A coefficient set (R384, R388): the structure it was made for, the codes in the order of R384, none of them for the
identity set, and the NMSE measured at the capture before the update that made it, in 0.01 dB (R401). -/
structure DpdSet where
  shape : DpdLive := {}
  coefs : List (Int × Int) := []
  pre : Option Int := none
deriving DecidableEq, Repr, Inhabited

/-- A slot a path holds (R393, R394): its start, the observer, and the stage: 0 searching, 1 solving, 2 done;
`discard` says that adaptation was turned off meanwhile (R405). -/
structure DpdSvc where
  start : Nat
  obs : Nat
  stage : Nat := 0
  captured : Bool := false
  discard : Bool := false
deriving DecidableEq, Repr, Inhabited

/-- A set saved in NVM (R404): the bank in force, the PA-diode temperature and the metrics. -/
structure DpdSaved where
  set : DpdSet
  temp : Int
  metrics : List Int
  base : Option (Int × Int × Int)
  lastCap : Option Nat
  capAxis : Nat
deriving DecidableEq, Repr, Inhabited

/-- A path's predistortion: configuration, the structure in force, the banks, the request (since when, over a bound),
back-off, the last slot assigned, the slot held, the bank change due at a slot's end, the metrics of the last capture
(NMSE, lower and upper out-of-band ratio, predicted NMSE, in 0.01 dB), the values its estimates start from, the drift
since (temperature at the capture, sum of power steps), when and where it was captured, the sticky bits of
DPD_PATH_STATUS_n (sat, solve_fail, reverted, thorn_seen), and the eight counters of DPD-COUNTERS. -/
structure DpdPath where
  cfg : DpdCfg := {}
  live : DpdLive := {}
  banks : Banks DpdSet := .both {}
  req : Option (Nat × Bool) := none
  backoff : Nat := 0
  release : Bool := false
  lastSlot : Option Nat := none
  svc : Option DpdSvc := none
  swapAt : Option Nat := none
  metrics : List Int := [0, 0, 0, 0]
  base : Option (Int × Int × Int) := none
  temp0 : Int := 0
  steps : Nat := 0
  lastCap : Option Nat := none
  capAxis : Nat := 0
  sticky : List Bool := [false, false, false, false]
  boundSeen : Bool := false
  applyAtOpen : Bool := false
  resetAtOpen : Bool := false
  savedAt : Option Nat := none
  counts : List Nat := [0, 0, 0, 0, 0, 0, 0, 0]
deriving DecidableEq, Repr, Inhabited

/-- R386: the default neighbours of path p: p - 1 and p + 1 within its connector group. -/
def DpdPath.fresh (p : Nat) : DpdPath :=
  let lo := if p % 32 = 0 then 0xFF else p - 1
  let hi := if p % 32 = 31 then 0xFF else p + 1
  { cfg := { nbrLo := lo, nbrHi := hi }, live := { nbrLo := lo, nbrHi := hi } }

/-- An observation receiver (R389, R403): in fault, and a fault since the last clear. -/
structure Obs where
  fault : Bool := false
  faultSeen : Bool := false
deriving DecidableEq, Repr, Inhabited

/-- The predistorters: the paths, the observers, the last slot started, the slots reserved by calibration and the count
of observer-slots reserved (R391). -/
structure Dpd where
  paths : List DpdPath := (List.range 64).map DpdPath.fresh
  obs : List Obs := List.replicate 4 {}
  slot : Option Nat := none
  reserved : List Nat := []
  reservedCount : Nat := 0
deriving DecidableEq, Repr

/-! ### Chapter 12: calibration -/

/-- CAL_PATH_TRIM_n's trims (R412) with the residual ripple in 0.01 dB. -/
structure CalTrim where
  coarse : Nat := 0
  fine : Nat := 0
  gain : Int := 0
  ripple : Nat := 0
deriving DecidableEq, Repr, Inhabited

/-- A trim table of a profile and band position (R440, R441): the kinds present, the newest run's position and die
temperature, sub-converter trims (1,024), DAC cell trims (2,048), path trims (128) and responses (direction, path, 32
frequencies), and the observers' alignment; an entry not listed is 0. -/
structure CalTable where
  kinds : Nat := 0
  axis : Nat := 0
  temp : Int := 0
  adc : List (Int × Int × Int) := []
  dac : List Int := []
  trims : List CalTrim := List.replicate 128 {}
  resp : List (List (Int × Int)) := List.replicate 128 []
  obs : List (Int × Int × Int) := []
deriving DecidableEq, Repr, Inhabited

/-- A run (R418, R429 to R432, R434): its kind, when it was requested, the earliest position, the steps done, when its first step began, since when
no step of it was placed, the result a repeat is compared with, the result that waits to be written with the
outcome (1 applied, 2 failed, 3 jump) and the paths it leaves alone, whether it is queued once more when it
completes, whether CAL-ABORT ends it with its step, and the die temperature at its first step. -/
structure CalRun where
  kind : Nat
  asked : Nat := 0
  earliest : Nat := 0
  done : Nat := 0
  first : Option Nat := none
  since : Nat := 0
  starved : Bool := false
  former : Option CalResults := none
  write : Option (CalResults × Nat × List (Nat × Nat)) := none
  requeue : Bool := false
  aborting : Bool := false
  temp0 : Int := 0
deriving DecidableEq, Repr, Inhabited

/-- A partner of over-the-air alignment (R435 to R439): its own measurement of us and ours of it (arrival in 2^-16
tick, phase, SNR in 0.1 dB, and the clock cycle of the measurement), the latest solution (offset difference in 2^-16
tick, sum, rho), the asymmetry applied to it in ps, and the updates running at the step limit. -/
structure OtaPartner where
  cfg : Partner := {}
  ours : Option (Int × Nat × Int × Nat) := none
  theirs : Option (Int × Nat × Int × Nat) := none
  diff : Int := 0
  sum : Int := 0
  rho : Nat := 0
  applied : Int := 0
  limited : Nat := 0
deriving DecidableEq, Repr, Inhabited

/-- The calibration block: CAL-CONFIG's settings, the runs, the step planned or running (its position, and whether it has
begun), the spans CAL-HOLD forbids, the trim tables by profile and band position, the former trims of the transmit
paths that keep them until their TX-OPEN (R415), a loaded table that waits for a free span (R444), the rotation of the
transmit phases by the phase reference (R438) and the one each path applies, per kind the last
completion (axis, die temperature, result), the die temperature and the time of the last completion of an automatic
kind, cal_fail per direction and path, the sticky bits of CAL_STATUS (starved,
fail, jump, ota fault), the seven counters of CAL-COUNTERS and the partners. -/
structure Cal where
  auto : Nat := 0x3E
  dT : Nat := 4
  maxInterval : Nat := 600
  runLimit : Nat := 20
  starveLimit : Nat := 10
  runs : List CalRun := []
  step : Option (Nat × Bool) := none
  holds : List (Nat × Nat) := []
  tables : List ((Nat × Nat) × CalTable) := []
  txOld : List (Nat × (Nat × Nat) × CalTrim × List (Int × Int)) := []
  load : Option ((Nat × Nat) × CalTable) := none
  rotation : Nat := 0
  rotations : List Nat := List.replicate 64 0
  last : List (Nat × Int × Nat) := List.replicate 5 (0, 0, 0)
  lastTemp : Option Int := none
  lastDone : Nat := 0
  fails : List Bool := List.replicate 128 false
  sticky : List Bool := [false, false, false, false]
  counts : List Nat := [0, 0, 0, 0, 0, 0, 0]
  partners : List OtaPartner := []
deriving DecidableEq, Repr

/-! ### The settings that shape the samples

The samples of a path are functions of the axis, of the signal at the port and of the settings that each sample met. These
histories hold the settings, newest first, each with the axis position it holds from. -/

/-- What a receive sub-band's samples meet: whether it takes samples, its bank index and bank, the phase reference, whether its window
is open, whether its profile is the one in force, whether the path's samples are replaced by zeros, the phase trim, and the path's
attenuation, band position and trims (R73, R186, R197, R183, R199, R412). -/
structure RxNow where
  on : Bool := false
  index : Nat := 0
  bank : RxBank := {}
  ref : Option (Nat × Nat) := none
  win : Bool := false
  live : Bool := false
  blank : Bool := false
  turn : Nat := 0
  front : List Int := []
deriving DecidableEq, Repr, Inhabited

/-- What a slot's samples meet: its configuration, bank and prototype, the beams, the topiary in force with its bank index and whether it
holds thorned words, and the former topiary during a crossfade with its position and length (R267, R279, R284, R287). -/
structure FreNow where
  on : Bool := false
  cfg : FreCfg := {}
  index : Nat := 0
  bank : FreBank := {}
  proto : List Int := []
  beamsOn : Bool := false
  bmShift : Nat := 0
  topIndex : Nat := 0
  top : Topiary := {}
  thorn : Bool := false
  fade : Option (Nat × Nat) := none
  old : Topiary := {}
deriving DecidableEq, Repr, Inhabited

/-- What a transmit sub-band's samples meet: its bank index and bank, the phase reference, whether its window is open, and its tone
(R219 to R228), and the phase trim (R412). -/
structure TxNow where
  on : Bool := false
  index : Nat := 0
  bank : TxBank := {}
  ref : Option (Nat × Nat) := none
  win : Bool := false
  tone : Option Tone := none
  turn : Nat := 0
deriving DecidableEq, Repr, Inhabited

/-- What a path's composite meets (R222, R228, R232 to R236, R381): the DAC centre, the shift of the sum, the ramp, the fine gain of
the compensation in 0.01 dB (R238), the governor's gain, whether the path is muted with a ramp or at once, the structure and coefficients of its predistortion,
and what a capture needs besides (R395): `fs_power`, the whole correction and the gain trim (R415), the synthesiser's state, and whether adaptation is held (R246). -/
structure TxPathNow where
  dacCentre : Nat := 0
  sumShift : Nat := 0
  ramp : Nat := 0
  fine : Int := 0
  gain : Nat := 0
  soft : Bool := false
  hard : Bool := true
  live : DpdLive := {}
  bank : DpdSet := {}
  level : List Int := []
  synth : List Nat := []
  held : Bool := false
deriving DecidableEq, Repr, Inhabited

/-- The histories of every receive sub-band (path × 4 + sub-band), slot, transmit sub-band and transmit path; the streams stopped
whose buffered groups play out (R236); and, for each slot, the stamps of the next group whose saturations are counted and of the last (R266). -/
structure Sig where
  rx : List (List (Nat × RxNow)) := List.replicate 256 []
  fre : List (List (Nat × FreNow)) := List.replicate 8 []
  tx : List (List (Nat × TxNow)) := List.replicate 256 []
  paths : List (List (Nat × TxPathNow)) := List.replicate 64 []
  ended : List InStream := []
  due : List (Option Nat) := List.replicate 8 none
  counted : List (Option Nat) := List.replicate 8 none
deriving DecidableEq, Repr, Inhabited

/-! ### Chapter 13: synthesis and beacons -/

/-- A calibration record of a synthesiser and profile (R451): VCO band, VCO amplitude code, charge-pump trim, tuning
voltage at lock in 0.1 %, die temperature in 0.01 °C. -/
structure SynRec where
  band : Nat
  amp : Nat
  trim : Nat
  tune : Nat
  temp : Int
deriving DecidableEq, Repr, Inhabited

/-- The synthesisers, SYN_STATUS: which is active, the profile in force, the user slots' k, settling, the locks of SYN-A
and SYN-B, the standby's state (0 off, 1 calibrating, 2 pre-locking, 3 locked) and profile,
when its calibration should end, whether a host's pre-lock holds it, the sticky bits, and the tuning voltages in 0.1 % of
range. `recal` says that the standby is being calibrated or locked for a swap (R458). `hop` is the position P of the last hop or swap,
0 with none, and the profile in force before it (R457). -/
structure Syn where
  profile : Nat := 0
  slots : List Nat := [0, 0, 0, 0]
  settling : Bool := true
  active : Nat := 0
  lock : List Bool := [false, false]
  sbState : Nat := 0
  sbProfile : Nat := 0
  sbAt : Nat := 0
  hostHold : Bool := false
  recal : Bool := false
  unlockSeen : Bool := false
  hopFailSeen : Bool := false
  marginLow : Bool := false
  marginTold : Bool := false
  tunes : List Nat := [500, 500]
  hop : Nat × Nat := (0, 0)
deriving DecidableEq, Repr, Inhabited

/-- A lock of the beacon receiver (R470): the position its preamble began at, E in 0.1 dBm, the header once it is valid,
whether its tail is being measured, whether a detection overlapped the tail, whether its payload CRC failed, its
payload, and whether a collision is suspected. -/
structure BcnLock where
  axis : Nat
  energy : Int
  hdr : Option BcnHdr := none
  inTail : Bool := false
  overlapped : Bool := false
  crcFailed : Bool := false
  collision : Bool := false
  payload : List Nat := []
deriving DecidableEq, Repr, Inhabited

/-- A beacon that radiates (R462, R463): its path, the position at which its preamble begins, its configuration, header and payload. -/
structure BcnSent where
  path : Nat
  start : Nat
  cfg : BcnCfg
  head : List Nat
  load : List Nat
deriving DecidableEq, Repr, Inhabited

/-- The beacon modem: the configuration of TX and RX, the host's data, the sequence, whether a beacon radiates and until
which position, the last one sent, listening by stakes, the primary's lock, the detection the secondary holds (axis, E), the last packet
(E, sender, axis), the noise floor and lowest mean in 0.1 dBm (none before the first second), the sticky bits (false,
pre-empt, collision), packets of unknown kinds, and the thirteen counters of BCN-COUNTERS. -/
structure Bcn where
  cfg : BcnCfg := {}
  data : List Nat := []
  seq : Nat := 0
  txUntil : Option Nat := none
  sent : Option BcnSent := none
  listenOpen : Bool := false
  lock : Option BcnLock := none
  held : Option (Nat × Int) := none
  lastE : Int := 0
  lastSender : Nat := 0
  lastAxis : Nat := 0
  floor : Option Int := none
  low : Option Int := none
  floorAt : Nat := 0
  sticky : List Bool := [false, false, false]
  unknownKinds : Nat := 0
  counts : List Nat := [0, 0, 0, 0, 0, 0, 0, 0, 0, 0, 0, 0, 0]
deriving DecidableEq, Repr

/-! ### Chapter 14: memory -/

/-- A store of MEM_ERR_STATUS_n (R482, R499, R502 to R504): failed its self-test, with the failing pattern's index; the sticky
bits corrected, uncorrectable, thorn read, thorn dropped, late; the count of uncorrectable words; the pass period in
seconds, the address offset the background pass has reached and when the pass began; the range pass running (first
address, bytes); and the eight counters of MEM-COUNTERS. -/
structure Store where
  failed : Bool := false
  failPat : Nat := 0
  sticky : List Bool := [false, false, false, false, false]
  uncorr : Nat := 0
  period : Nat := 0
  reached : Nat := 0
  passStart : Nat := 0
  range : Option (Nat × Nat) := none
  counts : List Nat := [0, 0, 0, 0, 0, 0, 0, 0]
deriving DecidableEq, Repr, Inhabited

/-- A stream port (R507 to R509): weight, assignment, buffer fill in 1/256, panic, overflow, and its counts of panic
entries and overflows. -/
structure SPort where
  weight : Nat := 4
  assign : Nat := 0
  chan : Nat := 0
  fill : Nat := 0
  panic : Bool := false
  overflow : Bool := false
  panics : Nat := 0
  overflows : Nat := 0
  moved : Nat := 0
deriving DecidableEq, Repr, Inhabited

/-- A requester limited in a bank of a controller (R510): 0 to 7 a stream port, 16 + n master n. -/
structure RowLimit where
  ctrl : Nat
  bank : Nat
  requester : Nat
  since : Nat
deriving DecidableEq, Repr, Inhabited

/-- The stores and the DRAM controllers. `cells` lists what the stores hold where it differs from what an unlisted address
reads as (Memory.unlisted): a data byte at its 40-bit address, byte 0 of a word the least significant; the bytes of a
core's memories at `localKey`; the syndrome of a stored word, its computed check word XOR its stored one (R490), in two
bytes at `syndKey` plus its address; and its SRAM thorn bit (R494) at `thornKey` plus its address. `prot` are the protected
regions, `undef` the regions whose contents are undefined since a change (R486) with the free value they read. -/
structure Memory where
  cells : List Host.Cell := []
  prot : List Bool := List.replicate 64 true
  undef : List (Nat × Nat) := []
  initing : List Nat := []
  stores : List Store := [{ period := 60 }, { period := 10 }, {}, { period := 3600 }, { period := 10 }, {}]
  ports : List SPort := List.replicate 8 {}
  setpoint : Nat := 0
  selfRefresh : Bool := false
  autoExit : Bool := false
  postponed : List ((Nat × Nat) × Nat) := []
  rdSeen : Bool := false
  ovfSeen : Bool := false
  derated : Bool := false
  rdLimit : Nat := 4096
  coolGap : Nat := 10
  coolDown : Nat := 10
  limits : List RowLimit := []
  dropFirst : Option Nat := none
  dropLast : Nat := 0
deriving DecidableEq, Repr

/-! ### Chapter 15: the fabric and DMA -/

/-- A held request (R530): the request, its code and target, since when it is held, whether it has taken priority 3
(R523), and whether its condition lies in the ports and queues outside the model (its `hold`). -/
structure FabWait where
  req : FabReq
  code : Nat
  target : Nat
  since : Nat
  aged : Bool := false
  imposed : Bool := false
deriving DecidableEq, Repr, Inhabited

/-- An answer to a request: its bytes, the addresses of its thorned 8-byte words, and whether it is an error response. -/
structure FabResp where
  data : List Nat := []
  thorn : List Nat := []
  error : Bool := false
deriving DecidableEq, Repr, Inhabited

/-- A master (R516, R523, R531): the sticky bits reset_drained, decode_err, timeout_err, lock_lost; a drain in progress;
FAB_PRIO; the five counters of FAB-COUNTERS; the last answer it got. -/
structure Master where
  sticky : List Bool := [false, false, false, false]
  draining : Bool := false
  prio : Nat := 0x5555
  counts : List Nat := [0, 0, 0, 0, 0]
  resp : FabResp := {}
deriving DecidableEq, Repr, Inhabited

/-- A target (R517, R523, R525, R526): faulted, its timeout in us, its lock (master, 512-byte block, since), the master of the
last grant. -/
structure Target where
  faulted : Bool := false
  timeout : Nat := 10
  lock : Option (Nat × Nat × Nat) := none
  last : Nat := 14
deriving DecidableEq, Repr, Inhabited

/-- The matrix: FAB_MODE, the recovery layer in force (0 not, 1 boot, 2 recovery) and since when, recovery entries, the
erring address and master, `age_limit`, `drain_limit`, the masters and targets, the held requests oldest first, the domains
closed (R534) with the time of closing, forced drains and writes lost, the time of the last grant of any target (R532), and the DMA channel
of the last burst (R538). -/
structure Fab where
  mode : Nat := 0
  layer : Nat := 1
  layerSince : Nat := 0
  entries : Nat := 0
  errAddr : Nat := 0
  errMaster : Nat := 0
  ageLimit : Nat := 256
  drainLimit : Nat := 20
  masters : List Master := List.replicate 15 {}
  targets : List Target := [{}, {}, {}, {}, {}, { timeout := 100 }, {}, {}]
  waiting : List FabWait := []
  closing : List (Nat × Nat) := []
  forced : Nat := 0
  lost : Nat := 0
  lastGrant : Nat := 0
  granted : Nat := 31
deriving DecidableEq, Repr

/-- A DMA channel: DMA_CH_CTL_n and DMA_CH_STATUS_n (chapter 15), the descriptor address and append count, whether a
doorbell found it parked (R546), the descriptor fetched with its sample of the append count (R546), bytes left, the element and the byte in it that come next (`i2` = n2 after
the last), the running CRC-32C register and ones'-complement sum with the parity of the bytes so far, whether a byte of them
carried a thorn, and the last result. -/
structure DmaCh where
  enable : Bool := false
  prio : Nat := 1
  halt : Bool := false
  maxOut : Nat := 15
  owner : Nat := 0
  st : Nat := 0
  last : Nat := 0
  half : Bool := false
  full : Bool := false
  error : Bool := false
  stopped : Bool := false
  thornSeen : Bool := false
  descCount : Nat := 0
  desc : Nat := 0
  append : Nat := 0
  reread : Bool := false
  fetched : Option Desc := none
  sample : Nat := 0
  resid : Nat := 0
  i0 : Nat := 0
  i1 : Nat := 0
  i2 : Nat := 0
  pos : Nat := 0
  crc : Nat := 0xFFFFFFFF
  sum : Nat := 0
  odd : Bool := false
  sumThorn : Bool := false
deriving DecidableEq, Repr, Inhabited

/-- The channels at reset, each field at its Reset column (R10). -/
def dmaReset : List DmaCh := List.replicate 32 {}

/-- The channels once the engine runs: 0 to 15 Ribel's, 16 to 23 the host's, 24 to 31 unassigned (R536). -/
def dmaOwned : List DmaCh :=
  List.replicate 16 ({} : DmaCh) ++ List.replicate 8 { owner := 1 } ++ List.replicate 8 { owner := 15 }

/-! ### Chapter 16: signal cores -/

/-- A fabric window of an applet (R559, R580): its size in 64 KiB units, access (0 none, 1 read, 2 read-write), target (1 DRAM,
2 general SRAM, 3 weight store, 4 sample store) and fabric base. -/
structure Window where
  size : Nat := 0
  access : Nat := 0
  target : Nat := 0
  base : Nat := 0
deriving DecidableEq, Repr, Inhabited

/-- What a loaded image fixes (R580), with its `section_hash`. -/
structure AppletImg where
  version : Nat := 0
  entry : Nat := 0
  irqEntry : Nat := 0
  watchdog : Nat := 0
  imaskInit : Nat := 0
  sports : Nat := 0
  windows : List Window := [{}, {}, {}, {}]
  name : List Nat := List.replicate 20 0
  hash : Nat := 0
deriving DecidableEq, Repr, Inhabited

/-- A result that a bundle writes (R572): a Z register's 32-bit view, an accumulator (from MAC or MSU, whose result the next
MAC or MSU already uses, or not), BX, a bit of FLAGS, a special register by its index of R564, a post-modified Pn. -/
inductive CoreRes where
  | z (n v : Nat)
  | acc (n : Nat) (re im : Int) (fwd : Bool)
  | bx (v : Nat)
  | flag (bit : Nat) (on : Bool)
  | spec (i v : Nat)
  | post (n v : Nat)
deriving DecidableEq, Repr, Inhabited

/-- What a bundle does besides its results: a taken branch or RETI (R574), the skip of a loop whose count is 0 (R575), WAIT,
WAITX or HALT. -/
inductive CoreCtl where
  | go
  | branch (target : Nat)
  | reti
  | skip (target : Nat)
  | wait
  | waitx
  | halt
deriving DecidableEq, Repr, Inhabited

/-- A transfer outstanding (R560): its direction, fabric address, data-memory offset and, for a write, its bytes and the
numbers of its thorned 8-byte words. -/
structure Xfer where
  write : Bool
  addr : Nat
  off : Nat
  data : List Nat
  thorn : List Nat
deriving DecidableEq, Repr, Inhabited

/-- A signal core (R555, R556): its registers; CTL_CORE_STATUS_n; the bundle being issued, the slot that comes next (0 MAC, 1
ALU, 2 load/store), and what its slots have staged (results with their latencies, control, saturated
components of accumulators and of R569, lanes saturated); the results still to be written
with the bundle number they are visible to; the redirects pending, each with the bundles still to run, its target and
whether it is a RETI; whether it waits in WAITX; the image; the assigned channels; the I/O registers; the bundles and the
counters of APPLET-COUNTERS after the bundles issued; and the second of the axis clock in which the last bundle issued, with the bundles of it
and of the second before (R586). -/
structure Core where
  z : List Nat := List.replicate 32 0
  a : List (Int × Int) := List.replicate 4 (0, 0)
  p : List Nat := List.replicate 8 0
  ps : List Nat := List.replicate 8 0
  pm : List Nat := List.replicate 8 0
  pb : List Nat := List.replicate 8 0
  lb : List Nat := [0, 0]
  le : List Nat := [0, 0]
  lc : List Nat := [0, 0]
  flags : Nat := 0
  iflags : Nat := 0
  ipc : Nat := 0
  lnk : Nat := 0
  bx : Nat := 0
  pc : Nat := 0
  st : Nat := 0
  cause : Nat := 0
  asatSeen : Bool := false
  lsatSeen : Bool := false
  thornSeen : Bool := false
  bundle : Nat := 0
  slot : Nat := 0
  staged : List (Nat × CoreRes) := []
  ctl : CoreCtl := .go
  accSats : Nat := 0
  roundSats : Nat := 0
  laneSats : Nat := 0
  issued : Nat := 0
  inflight : List (Nat × CoreRes) := []
  redirects : List (Nat × Nat × Bool) := []
  waitx : Bool := false
  img : AppletImg := {}
  chans : List Nat := []
  istat : Nat := 0
  imask : Nat := 0
  axisHi : Nat := 0
  cycHi : Nat := 0
  satcnt : Nat := 0
  msgIn : List Nat := List.replicate 12 0
  msgOut : List Nat := List.replicate 12 0
  lastSend : Option Nat := none
  mark : List Nat := [0, 0]
  ring : List Nat := [0, 0]
  ringPos : List Nat := [0, 0]
  startAt : Nat := 0
  ran : Nat := 0
  wdtAt : Nat := 0
  xfers : List Xfer := []
  faultPc : Nat := 0
  faultAddr : Nat := 0
  faultAxis : Nat := 0
  trap : Nat := 0
  bundles : Nat := 0
  counts : List Nat := [0, 0, 0, 0, 0, 0]
  loadSec : Nat := 0
  loadNow : Nat := 0
  loadPrev : Nat := 0
deriving DecidableEq, Repr, Inhabited

/-- The cores at reset: C0 to C3 FIRMWARE, C4 to C7 EMPTY (R582). -/
def coresReset : List Core := List.replicate 4 ({ st := 7 } : Core) ++ List.replicate 4 ({} : Core)
/-! ### Chapter 17: power, heat, housekeeping -/

/-- A bias DAC (R597 to R601), PWR_BIAS_n: span, code in force, safe code, gate floor (BD), the queued entries (queue
step and code), the loaded ramp, and the sticky bits. -/
structure Dac where
  span : Nat := 0
  code : Nat := 0
  safe : Nat := 0
  floor : Nat := 0
  queue : List (Nat × Nat) := []
  ramp : List Nat := []
  overflow : Bool := false
  safeSeen : Bool := false
deriving DecidableEq, Repr, Inhabited

/-- The DACs at reset, at their factory safe codes: 0 to 63 BD with the factory gate floor, 64 to 127 BL, 128 to 135
BM. -/
def dacsReset : List Dac :=
  List.replicate 64 { span := 1, code := 54613, safe := 54613, floor := 10923 } ++ List.replicate 72 ({} : Dac)

/-- A housekeeping channel (R602 to R604, R608 to R610): the last reading and its fault code (1 open, 2 short), the
host window's sum, count, minimum and maximum, the run of counted conversions at 125 °C, the runs of bad and good
rounds, whether the sensor is broken, its throttle level, since when its lower level has held, and since when it has
read below 105 °C. -/
structure Chan where
  last : Int := 0
  fault : Nat := 0
  sum : Int := 0
  count : Nat := 0
  lo : Int := 0
  hi : Int := 0
  hotRun : Nat := 0
  bad : Nat := 0
  good : Nat := 0
  broken : Bool := false
  level : Nat := 0
  coolSince : Option Nat := none
  below105 : Option Nat := none
deriving DecidableEq, Repr, Inhabited

/-- A remote temperature input T1 to T4 (R606): enabled, threshold in °C, B and R25, the detected type: 0 none,
1 diode, 2 reversed diode, 3 thermistor, and when it was typed. -/
structure ExtIn where
  enabled : Bool := false
  start : Nat := 85
  b : Nat := 3435
  r25 : Nat := 10000
  kind : Nat := 0
  typedAt : Nat := 0
deriving DecidableEq, Repr, Inhabited

/-- A gap plan (R611): the frame it holds from, the unit level and the levels of the paths. -/
structure GapPlan where
  frame : Nat := 0
  unit : Nat := 0
  paths : List Nat := List.replicate 64 0
deriving DecidableEq, Repr, Inhabited

/-- The shutdown record (R607): cause (1 temperature, 2 broken die diode, 3 supply), channel, reading, position. -/
structure ShutRec where
  cause : Nat := 0
  channel : Nat := 0
  reading : Int := 0
  axis : Nat := 0
deriving DecidableEq, Repr, Inhabited

/-- The power controller: PWR_STATUS, the steps of the transition in progress (domain and direction, R593), the supply,
the cap, the bias DACs, housekeeping, and the thermal logic with PWR_THERM_STATUS and the gap plans announced, in the order of their frames (R611). `down` says that D0 waits for a
restart after a shutdown (R607) or a power fail, `failed` that the input is out of range, `failAt` since when, `due` that the record is to be
told at the next boot; `borrowed` holds the domains calibration or a beacon turned on; `hkAt` is when HKA and HKB last ended a conversion and
`roundAt` when the last round ended (R602), `capAt` the frame end last judged (R591). -/
structure Pwr where
  state : Nat := 1
  domains : List Bool := [true, false, false, false, false, false, false, false, false, false]
  target : Nat := 1
  steps : List (Nat × Bool) := []
  transEnd : Nat := 0
  borrowed : List Nat := []
  failSeen : Bool := false
  ovSeen : Bool := false
  uvSeen : Bool := false
  ppsFight : Bool := false
  down : Bool := false
  failed : Bool := false
  failAt : Nat := 0
  due : Bool := false
  powered : Bool := false
  record : ShutRec := {}
  cap : Nat := 290
  capLevel : Nat := 0
  dacs : List Dac := dacsReset
  chans : List Chan := List.replicate 256 {}
  rounds : Nat := 0
  hkAt : List (Option Nat) := [none, none]
  roundAt : Option Nat := none
  capAt : Option Nat := none
  disagree : Nat := 0
  agree : Nat := 0
  suspect : Bool := false
  suspectSince : Nat := 0
  suspectAll : Bool := false
  suspects : Nat := 0
  start : Nat := 110
  exts : List ExtIn := List.replicate 4 {}
  brokenSeen : Bool := false
  unitLevel : Nat := 0
  pathLevels : List Nat := List.replicate 64 0
  plan : GapPlan := {}
  plans : List GapPlan := []
  counts : List Nat := [0, 0, 0, 0, 0, 0, 0]
deriving DecidableEq, Repr, Inhabited



/-! ### Chapters 18 and 19: the control complex, NVM -/

/-- What runs on the control processors: nothing while the unit is held in HOLD, the boot ROM (R624), its recovery
loader (R625), Ribel, or Ribel's reload (R618). -/
inductive Phase where
  | held | rom | loader | running | reload
deriving DecidableEq, Repr, Inhabited

/-- The control complex: CTL_BOOT_STATUS's boot source, trial and debug bits, the cause of the last boot (R656) and whether a
trial was abandoned before it, whether the boot has been stopped once (R647), the running image's versions and hash, when Ribel
started, the last reload, the position at which FW-ACTIVATE or SYS-RESET restarts the unit, the first four bytes of
the last ATTEST's nonce, the signatures of the last second, and the next leaf (R632) with the tree being generated. -/
structure Ctl where
  phase : Phase := .rom
  imageVersion : Nat := 0
  secVersion : Nat := 0
  imageHash : Nat := 0
  source : Nat := 0
  trial : Bool := false
  trialSince : Nat := 0
  reverted : Bool := false
  debug : Bool := false
  reloadSeen : Bool := false
  lastReload : Option Nat := none
  cause : Nat := 0
  bootedAt : Nat := 0
  stopped : Bool := false
  activateAt : Option Nat := none
  resetAt : Option (Nat × Nat × Nat × Nat) := none
  nonce : Option Nat := none
  signed : List Nat := []
  leaf : Nat := 0
  treeGen : Option Nat := none
deriving DecidableEq, Repr, Inhabited

/-- An owner key slot O0 to O3 (R620): the hashes of its two keys, its authority bits, and the point of its ECDSA key, which SESSION-AUTH needs
(R125). -/
structure OwnerSlot where
  enrolled : Bool := false
  ecdsa : Nat := 0
  hss : Nat := 0
  authority : Nat := 0
  pub : List Nat := []
deriving DecidableEq, Repr, Inhabited

/-- An image slot (R627, R639): whether its slot-valid record stands, the image's versions, hash, signing vendor slot and
revoke flags, and its length in the slot. -/
structure ImageSlot where
  valid : Bool := false
  version : Nat := 0
  security : Nat := 0
  hash : Nat := 0
  signer : Nat := 0
  length : Nat := 0
  revoke : Nat := 0
deriving DecidableEq, Repr, Inhabited

/-- An entry of the applet store (R640), with the verdict on its HSS signature. -/
structure StoreEntry where
  core : Nat := 4
  autostart : Bool := false
  bases : List Nat := []
  image : List Nat := []
  hss : Bool := false
deriving DecidableEq, Repr, Inhabited

/-- What an NVM record replaces (R638): the value that prevails again when the record is left without its commit word. -/
inductive NvmOld where
  | none
  | unit (n : Nat)
  | cal (key : Nat × Nat) (t : Option CalTable)
  | dpd (path : Nat) (s : Option DpdSaved)
  | syn (which profile : Nat) (r : Option SynRec)
  | safe (dac code : Nat)
  | govClass (group : Nat) (g : GovSet)
  | govEntry (dropped : Option GovJournal)
  | comp (path : Nat) (t : CompTable)
  | image (slot : Nat) (i : ImageSlot)
  | store (entry : Nat) (e : Option StoreEntry)
  | owners (l : List OwnerSlot) (count : Nat)
  | leaf (n : Nat)
  | boot (active : Nat) (trial : Option Nat) (attempts : Nat)
deriving DecidableEq, Repr, Inhabited

/-- A record of the security or the journal area (R636): type, key, sequence number and data, the block and the page where it begins, and
whether it waits for its commit word (0), is committed (1) or was left without it (2). -/
structure NvmRec where
  type : Nat
  key : Nat
  seq : Nat
  data : List Nat
  block : Nat
  page : Nat
  st : Nat := 0
deriving DecidableEq, Repr, Inhabited

/-- A journaled area (R637): the block that records go to and its next page, the erased block kept for reclaiming, and the records that stand
in the area. -/
structure NvmLog where
  cur : Nat := 0
  next : Nat := 0
  spare : Nat := 1
  recs : List NvmRec := []
deriving DecidableEq, Repr, Inhabited

/-- What a waiting or running piece of NVM work brings about when it is done (R635 to R637, R639, R640, R642): data or an erase of the
host area for a host, an image staged into a slot, an applet stored in or taken from an entry, a record committed (its sequence number and
type, what it replaces, and whether a command waits for it), a block reclaimed. -/
inductive NvmGoal where
  | host
  | stage (slot : Nat) (img : ImageSlot)
  | store (entry core autostart : Nat) (bases : List Nat) (image : List Nat) (hss : Bool)
  | unstore (entry : Nat)
  | record (seq type : Nat) (old : NvmOld) (answers : Bool)
  | reclaim (block : Nat)
deriving DecidableEq, Repr, Inhabited

/-- A piece of NVM work: its area in the order of service (0 security, 1 journal, 2 image slots and applet store, 3 host),
the blocks still to erase, the pages still to program (offset in the NVM and bytes), the pages programmed, and its goal. -/
structure NvmJob where
  area : Nat := 3
  erases : List Nat := []
  pages : List (Nat × List Nat) := []
  done : Nat := 0
  goal : NvmGoal := .host
deriving DecidableEq, Repr, Inhabited

/-- What lies in NVM and in the fuses: owner slots with their enrol count (R620, R628), the unit number (R27), predistortion saves,
calibration tables, synthesiser records and bias safe codes, the two rollback counters (R623), the revoked vendor keys, the image
slots and the boot record (R639), the first leaf not reserved (R632), the applet store (R640), the work of the
controller (R635), the records of the security and the journal area with the next sequence number (R636), and the records left without their
commit word that the next boot discards (R637). The values above the jobs are those of the newest record, committed or on its way. -/
structure Nvm where
  owners : List OwnerSlot := List.replicate 4 {}
  enrolCount : Nat := 0
  unitNumber : Nat := 262143
  dpd : List (Option DpdSaved) := List.replicate 64 none
  calTables : List ((Nat × Nat) × CalTable) := []
  calSaved : List ((Nat × Nat) × Nat) := []
  synRecs : List (List (Option SynRec)) := List.replicate 2 (List.replicate 8 none)
  safe : List Nat := List.replicate 64 54613 ++ List.replicate 72 0
  fwCounter : Nat := 0
  appletCounter : Nat := 0
  revoked : List Bool := [false, false]
  images : List ImageSlot := [{ valid := true, version := 1 }, {}]
  active : Nat := 0
  trial : Option Nat := none
  attempts : Nat := 0
  trialLimit : Nat := 600
  leafReserved : Nat := 0
  store : List (Option StoreEntry) := List.replicate 8 none
  jobs : List NvmJob := []
  logs : List NvmLog := [{}, {}]
  seq : Nat := 0
  lost : List (Nat × Nat) := []
deriving DecidableEq, Repr, Inhabited

/-- Quickset (R649 to R656): state 0 off, 1 starting, 2 running; the elements running in the bits of the keep mask;
integrations closed; the axis of the last REPORT; whether the integration in progress is restarted or partial
(report flag [7]); `stopping` while an exit waits for its last stop, with the elements it keeps; the number of the last
integration reported, when the last closed, and the beacons heard in the present second with their number. -/
structure Qs where
  state : Nat := 0
  elements : Nat := 0
  integrations : Nat := 0
  lastReport : Nat := 0
  restarted : Bool := false
  stopping : Bool := false
  keep : Nat := 0
  reported : Option Nat := none
  closedAt : Nat := 0
  heard : List (List Field) := []
  heardNow : Nat := 0
deriving DecidableEq, Repr, Inhabited

/-! ### The whole unit -/

/-- What is fixed per specimen: the variant (R3), the serial number and the Ethernet address (R115, R168), and the hashes of the vendor's keys
V0 and V1 in the boot ROM (R620). -/
inductive Variant where
  | l | m | h | a
deriving DecidableEq, Repr, Inhabited

structure Ident where
  variant : Variant := .m
  serial : Nat := 1
  mac : Nat := 1
  vendor : List (Nat × Nat) := [Config.vendorKey 0, Config.vendorKey 1]
deriving DecidableEq, Repr, Inhabited

/-- The unit. `free` is the model's own: how many free values it has drawn (Config.free). -/
structure Dev where
  ident : Ident := {}
  lnk : Lnk := {}
  tmb : Tmb := {}
  lanes : List Lane := List.replicate 32 {}
  quads : List Bool := List.replicate 8 false
  rx : List RxPath := List.replicate 64 {}
  outs : List OutStream := []
  ins : List InStream := []
  tx : List TxPath := List.replicate 64 {}
  fe : List Fe := List.replicate 64 {}
  gov : Gov := {}
  fre : List FreSlot := List.replicate 8 {}
  sig : Sig := {}
  chains : List ChainNode := [.fresh 0, .fresh 1, .fresh 2, .fresh 3]
  weave : Weave := {}
  xce : Xce := {}
  mem : Memory := {}
  fab : Fab := {}
  dma : List DmaCh := dmaReset
  cores : List Core := coresReset
  dpd : Dpd := {}
  cal : Cal := {}
  syn : Syn := {}
  bcn : Bcn := {}
  ctl : Ctl := {}
  nvm : Nvm := {}
  pwr : Pwr := {}
  qs : Qs := {}
  free : Nat := 0
deriving DecidableEq, Repr

/-- The model's state: the commands that wait, first in first out, and the unit. -/
structure State where
  pending : List Instr
  dev : Dev
deriving DecidableEq, Repr

/-- Why a step could fault. No meaning raises one: for every command the manual gives the unit an outcome. -/
inductive Fault where
  /-- Raised by no meaning; the type needs a constructor. Safe. -/
  | none
deriving DecidableEq, Repr

/-- Why a step could refuse. -/
inductive Refusal where
  /-- Raised by the dispatch alone, for a command without a meaning yet. Safe: the model stops. -/
  | notModelled (mnemonic : String)
deriving DecidableEq, Repr

/-- The unit right after power-on reset, nothing waiting. -/
def State.reset : State := { pending := [], dev := {} }

end Sys2Proof.Machine
end

