-- ==== Sys2Proof/Machine/Ops.lean ====
section
/-! DEFINITION. The operations the meanings share: numbers and fields, the local clock and the axis (R36, R37,
R56), raising an event (R152 to R156), sessions (R123 to R129), and the whole way of a host's command from the
packet checks of R121 through the mailbox (R130 to R132, R136) to its response (R133 to R139, R678). -/

namespace Sys2Proof.Machine

/-! ### Numbers and fields -/

/-- A field of `w` bytes holding a number, cut to its width. -/
def fld (w n : Nat) : Field := (w, n % 256 ^ w)

/-- A field of `w` bytes holding a signed number in two's complement. -/
def sfld (w : Nat) (z : Int) : Field := (w, (z % (256 ^ w : Nat)).toNat)

/-- A field of `w` bytes holding a signed number that saturates at the field's ends (R79). -/
def satfld (w : Nat) (z : Int) : Field :=
  let m : Int := 2 ^ (8 * w - 1)
  sfld w (max (-m) (min (m - 1) z))

/-- A flag as a number. -/
def b2n (b : Bool) : Nat := if b then 1 else 0

/-- Fields of the given widths, all zero (R134). -/
def zeroFields (ws : List Nat) : List Field := ws.map fun w => (w, 0)

/-- Bytes as fields. -/
def byteFields (l : List Nat) : List Field := l.map fun b => fld 1 b

/-- The bits [hi:lo] of a word. -/
def bitsOf (w hi lo : Nat) : Nat := w / 2 ^ lo % 2 ^ (hi - lo + 1)

/-- The number a big-endian byte list spells (R8). -/
def be (l : List Nat) : Nat := l.foldl (fun a b => 256 * a + b) 0

/-- The bytes of a list of fields, big-endian. -/
def bytesOf (fs : List Field) : List Nat := fs.flatMap fun f => (List.range f.1).map fun k => f.2 / 256 ^ (f.1 - 1 - k) % 256

/-- Bytes [k, k + n) of a byte list as a big-endian number. -/
def beAt (l : List Nat) (k n : Nat) : Nat := be ((l.drop k).take n)

/-- One step of the reflected CRC-32C over the bits of a byte (R119). -/
def crcStep (c : Nat) : Nat := if c % 2 = 1 then Nat.xor (c / 2) 0x82F63B78 else c / 2

/-- CRC-32C of R119: polynomial 0x1EDC_6F41 reflected, initial value and final XOR 0xFFFF_FFFF. -/
def crc32c (l : List Nat) : Nat :=
  let step8 (c : Nat) : Nat := crcStep (crcStep (crcStep (crcStep (crcStep (crcStep (crcStep (crcStep c)))))))
  Nat.xor (l.foldl (fun c b => step8 (Nat.xor c b)) 0xFFFFFFFF) 0xFFFFFFFF

/-- The signed number a word of `n` bits spells in two's complement. -/
def toSigned (n w : Nat) : Int := if w % 2 ^ n < 2 ^ (n - 1) then (w % 2 ^ n : Nat) else (w % 2 ^ n : Nat) - (2 ^ n : Nat)

/-- The word of `n` bits that holds a signed number in two's complement. -/
def ofSigned (n : Nat) (z : Int) : Nat := (z % (2 ^ n : Nat)).toNat

/-- A signed number brought within -m .. m, as the symmetric formats of R150 do. -/
def satSym (m : Int) (z : Int) : Int := max (-m) (min m z)

/-- The numbers of the set bits among bits 0 .. n-1 of a mask, in rising order. -/
def maskList (n mask : Nat) : List Nat := (List.range n).filter mask.testBit

/-- A quotient rounded to the nearest whole number, a tie to the even one (half to even). -/
def divHalfEven (a b : Int) : Int :=
  let q := a / b
  let r := a - q * b
  if 2 * r < b then q else if 2 * r > b then q + 1 else if q % 2 = 0 then q else q + 1

/-- A quotient rounded up. -/
def ceilDiv (a b : Nat) : Nat := (a + b - 1) / b

/-- A counter of 32 bits that saturates. -/
def sat32 (n : Nat) : Nat := min n 0xFFFFFFFF

/-- Axis-clock cycles in one second (R22). -/
def tickHz : Nat := 1966080000

/-- The minimum lead of a stake, in ticks (R64). -/
def minLead : Nat := 7865

/-- The prefetch distance of the stake queue, in ticks (R67). -/
def prefetchLead : Nat := 2048

/-! ### Changing one part of the unit -/

/-- The unit with its link's state changed. -/
def Dev.onLnk (d : Dev) (f : Lnk → Lnk) : Dev := { d with lnk := f d.lnk }

/-- The unit with its time state changed. -/
def Dev.onTmb (d : Dev) (f : Tmb → Tmb) : Dev := { d with tmb := f d.tmb }

/-- An element put into a list before the first it does not come after, and a list sorted so, equal elements in their order. -/
def insertBy {α : Type} (le : α → α → Bool) (x : α) : List α → List α
  | [] => [x]
  | y :: l => if le x y then x :: y :: l else y :: insertBy le x l

def sortBy {α : Type} (le : α → α → Bool) (l : List α) : List α := l.foldr (insertBy le) []

/-! ### The clock and the axis -/

/-- A clock reading of 12 bytes in units of 1/6,144 ns, rounded down (R36, R37). -/
def timeClk (t : Time12) : Nat := (t.sec * 1000000000 + t.ns) * 6144 + t.frac * 6144 / 65536

/-- The 12-byte form of a clock value: seconds, nanoseconds and the remainder in 2^-16 ns rounded down (R36, R37). -/
def clkTime (c : Nat) : Time12 :=
  let n := c / 6144
  ⟨n / 1000000000, n % 1000000000, c % 6144 * 65536 / 6144⟩

/-- The fields of a 12-byte time. -/
def timeFields (t : Time12) : List Field := [fld 6 t.sec, fld 4 t.ns, fld 2 t.frac]

/-- The epoch in 2^-16 ns. -/
def timeN16 (t : Time12) : Nat := (t.sec * 1000000000 + t.ns) * 65536 + t.frac

/-- R56: the axis position at a clock value, exact in integers and rounded down; 0 before the epoch, which R681
keeps from happening. -/
def axisAt (epoch : Time12) (c : Nat) : Nat := (c * 65536 - timeN16 epoch * 6144) / (3125 * 65536)

/-- The axis position now. -/
def Dev.axis (d : Dev) : Nat := axisAt d.tmb.epoch d.tmb.clock

/-- The frame number at an axis position (R58). -/
def frameNo (d : Dev) (a : Nat) : Nat := a / d.tmb.frameLen

/-- Axis-clock cycles since power-on. -/
def Dev.now (d : Dev) : Nat := d.tmb.cyc

/-- A span of ticks in microseconds, rounded up (R66, R131). -/
def ticksUs (t : Nat) : Nat := ceilDiv (t * 1000000) tickHz

/-- A fresh free value, cut to `w` bytes, and the unit with its counter advanced: for a value the manual leaves
open (Config.free). -/
def Dev.fresh (d : Dev) (w : Nat) : Nat × Dev := (Config.free d.free % 256 ^ w, { d with free := d.free + 1 })

/-! ### Sessions and events -/

/-- The open session with a number. -/
def Dev.session? (d : Dev) (n : Nat) : Option Session := d.lnk.sessions.find? (·.num == n)

/-- The owner session, when one is open (R123). -/
def Dev.owner? (d : Dev) : Option Session := d.lnk.sessions.find? (·.owner)

/-- The link with one session changed. -/
def Lnk.onSession (l : Lnk) (n : Nat) (f : Session → Session) : Lnk :=
  { l with sessions := l.sessions.map fun s => if s.num == n then f s else s }

/-- R153: whether a session receives an event. -/
def Session.wants (s : Session) (e : EvCode) : Bool :=
  (s.mask.testBit (e.code / 256) && decide (s.minSev ≤ e.sev)) || (s.owner && e.sev == 3)

/-- The oldest record of the lowest severity taken out of a queue (R156). -/
def dropLowest (q : List EvRec) : List EvRec :=
  match (q.map (·.sev)).min? with
  | none => q
  | some m => q.eraseIdx (q.findIdx fun r => r.sev == m)

/-- R156: a record put into a session's queue of 256; when the queue is full the oldest record of the lowest
severity is discarded and counted. DESIGN CHOICE (log entry 111): the arriving record counts among those present, so that it is itself
discarded when all others are more severe. -/
def Session.enqueue (r : EvRec) (s : Session) : Session :=
  if s.queue.length < 256 then { s with queue := s.queue ++ [r] }
  else { s with queue := dropLowest (s.queue ++ [r]), lost := s.lost + 1, lostTotal := s.lostTotal + 1 }

/-- R156: the history ring keeps the last 1,024 records. -/
def pushRing (h : List EvRec) (r : EvRec) : List EvRec := (h ++ [r]).drop (h.length + 1 - 1024)

/-- R152, R153, R156: an event is raised: it takes the next unit-wide number, enters the history ring and the
queues of the sessions that receive it. `only` restricts it to one session (EV_EVT_LOST). -/
def raiseTo (only : Option Nat) (d : Dev) (e : EvCode) (args : List Field) : Dev :=
  let n := (d.lnk.evNumber + 1) % 2 ^ 32
  let r : EvRec := ⟨n, e.code, e.sev, d.axis, args⟩
  let put (s : Session) : Session :=
    match only with
    | some k => if s.num == k then s.enqueue r else s
    | none => if s.wants e then s.enqueue r else s
  d.onLnk fun l => { l with evNumber := n, history := pushRing l.history r, sessions := l.sessions.map put }

/-- An event raised to every session that receives it. -/
def raiseEv (d : Dev) (e : EvCode) (args : List Field) : Dev := raiseTo none d e args

/-- An event that rises at most once per second per source (`key`). -/
def raiseLimited (d : Dev) (e : EvCode) (key : Nat) (args : List Field) : Dev :=
  match d.lnk.lastRaised.lookup (e.code, key) with
  | some t =>
    if d.now < t + tickHz then d
    else raiseEv (d.onLnk fun l => { l with lastRaised := ((e.code, key), d.now) :: l.lastRaised.filter (·.1 != (e.code, key)) }) e args
  | none => raiseEv (d.onLnk fun l => { l with lastRaised := ((e.code, key), d.now) :: l.lastRaised }) e args

/-- R676: an argument of 4 bytes. -/
def a4 (n : Nat) : Field := fld 4 n

/-- R676: an argument of 8 bytes: an axis position, frame number, address, serial number, path mask or count. -/
def a8 (n : Nat) : Field := fld 8 n

/-- R676: a signed argument of 4 bytes. -/
def as4 (z : Int) : Field := sfld 4 z

/-- R127: a session closes: its queued commands go unanswered, its executing command's response will be discarded,
its objects are freed and event delivery stops. EV_SESSION_CLOSED names the reason: 1 close, 2
timeout, 3 takeover, 4 evicted, 5 authentication, 6 reset. -/
def closeSession (d : Dev) (n reason : Nat) : Dev :=
  match d.session? n with
  | none => d
  | some _ =>
    let d := d.onLnk fun l =>
      { l with
        sessions := l.sessions.filter fun s => s.num != n
        mail := l.mail.map fun c =>
          { c with
            queue := c.queue.filter fun e => e.hdr.session != n
            running := c.running.map fun r => if r.hdr.session == n then { r with discard := true } else r }
        bulk := l.bulk.filter fun b => b.session != n }
    raiseEv d EV.sessionClosed [a4 n, a4 reason]

/-! ### Lanes -/

/-- The unit with one lane changed. -/
def Dev.onLane (d : Dev) (n : Nat) (f : Lane → Lane) : Dev := { d with lanes := upd d.lanes n f }

/-- Whether a lane is UP (R99). -/
def laneUp (d : Dev) (n : Nat) : Bool := decide (n < 32) && (nth d.lanes n).st == 5

/-- Whether a lane's mode is an ETH mode (R84). -/
def laneEth (d : Dev) (n : Nat) : Bool := decide (1 ≤ (nth d.lanes n).mode) && decide ((nth d.lanes n).mode ≤ 3)

/-- Whether a lane's mode is a DIRECT mode (R84). -/
def laneDirect (d : Dev) (n : Nat) : Bool := decide (4 ≤ (nth d.lanes n).mode) && decide ((nth d.lanes n).mode ≤ 5)

/-- The first lane of a lane's quad. -/
def quadFirst (n : Nat) : Nat := n / 4 * 4

/-- A port that can send: the service port with its link up, a lane that is UP in ETH-FR1 or ETH-25, or the first lane of a quad whose
four lanes are UP in ETH-DR4 (R83). -/
def portUp (d : Dev) (p : Nat) : Bool :=
  if p < 32 then
    (if (nth d.lanes p).mode = 2 then p % 4 == 0 && [0, 1, 2, 3].all fun k => (nth d.lanes (p + k)).mode == 2 && laneUp d (p + k)
    else laneUp d p && laneEth d p)
  else d.lnk.svcUp

/-- The payload rate of a port in Mb/s (R84); a DR4 port is its quad. -/
def portRate (d : Dev) (p : Nat) : Nat :=
  if p < 32 then
    match (nth d.lanes p).mode with
    | 1 => 100000
    | 2 => 400000
    | 3 => 25000
    | _ => 0
  else 1000

/-- R62, R55: the delay d of a timed launch, the transmit correction of the lane's mode in ticks, rounded up: 38.4
ns, 41.0 ns and 24.3 ns. -/
def launchDelay (d : Dev) (lane : Nat) : Nat :=
  match (nth d.lanes lane).mode with
  | 1 => 76
  | 2 => 81
  | 3 => 48
  | _ => 0

/-! ### Packets (R113 to R122, R161) -/

/-- R116: the `max_payload` of a port: 8,960 bytes on an ETH lane, 1,408 bytes on the service port. -/
def portPayload (port : Nat) : Nat := if port < 32 then 8960 else 1408

/-- R116: the `max_payload` that applies to a session on a port. -/
def payloadFor (d : Dev) (session port : Nat) : Nat :=
  match d.session? session with
  | some s => if s.maxPayload = 0 then portPayload port else s.maxPayload
  | none => portPayload port

/-- The IPv4 address the unit holds, 0 while IPv4 is off or no address is held (R115, R168). -/
def ipv4Now (d : Dev) : Nat :=
  match d.lnk.encap.ipv4Mode with
  | 1 => d.lnk.encap.ipv4
  | 2 => d.lnk.dhcpAddr
  | _ => 0

/-- R115: the IPv6 link-local address that SLAAC forms from an Ethernet address: fe80::/64 with the modified EUI-64
identifier. -/
def linkLocal (mac : Nat) : Nat :=
  0xFE80 * 2 ^ 112 + Nat.xor (mac / 2 ^ 24) 0x020000 * 2 ^ 40 + 0xFFFE * 2 ^ 24 + mac % 2 ^ 24

/-- R113, R114: whether a received packet is Swios in one of the two encapsulations: at most one 802.1Q tag, the EtherType or UDP port in
force, and a UDP checksum that is zero or correct over IPv4 and correct over IPv6. -/
def carried (d : Dev) (src : Addr) (w : Wire) : Bool :=
  decide (w.tags ≤ 1) && w.key == (if src.isUdp then d.lnk.encap.udpPort else d.lnk.encap.etherType)
    && (!src.isUdp || w.sumOk || (w.sumZero && !w.v6))

/-- R114, R161: the 802.1Q tag of an egress queue, where a VLAN identifier is configured. -/
def tagOf (d : Dev) (queue : Nat) : Option (Nat × Nat) :=
  if d.lnk.encap.vlan = 0 then none else some (nth [6, 7, 5, 3, 3] queue, d.lnk.encap.vlan)

/-- R117, R119: the octets of a Swios packet of the unit: the header, with its own unit number and the axis position, the payload, and
the CRC-32C over both. -/
def swios (d : Dev) (type flags session channel seq axis : Nat) (payload : List Nat) : List Nat :=
  let l := bytesOf [fld 1 (16 + type), fld 1 flags, fld 2 payload.length, fld 3 (session * 2 ^ 18 + d.nvm.unitNumber), fld 1 channel, fld 4 seq, fld 4 axis]
    ++ payload
  l ++ bytesOf [fld 4 (crc32c l)]

/-- The one's complement sum of a byte list as 16-bit words. -/
def sum16 : List Nat → Nat
  | a :: b :: l => a * 256 + b + sum16 l
  | [a] => a * 256
  | [] => 0

/-- R114: the UDP checksum over IPv6, with the pseudo-header of its addresses; 0 is sent as 0xFFFF. -/
def udpSum (src dst srcPort dstPort : Nat) (data : List Nat) : Nat :=
  let n := data.length + 8
  let s := sum16 (bytesOf [fld 16 src, fld 16 dst, fld 4 n, fld 4 17, fld 2 srcPort, fld 2 dstPort, fld 2 n, fld 2 0] ++ data)
  let c := 65535 - (if s % 65535 = 0 ∧ s ≠ 0 then 65535 else s % 65535)
  if c = 0 then 65535 else c

/-- Whether a 16-byte IP address is an IPv4-mapped one (R677). -/
def isV4 (ip : Nat) : Bool := ip / 2 ^ 32 == 0xFFFF

/-- R113, R114: how a packet for an address is carried: under the EtherType, or in UDP from the port in force, over IPv4 with a zero
checksum and over IPv6 from the static address, where one is set, else the link-local one. -/
def carrierTo (d : Dev) (dst : Addr) (data : List Nat) : Carrier :=
  if !dst.isUdp then .ether d.lnk.encap.etherType
  else if isV4 dst.ip then .udp false (0xFFFF * 2 ^ 32 + ipv4Now d) dst.ip d.lnk.encap.udpPort dst.udp 0
  else
    let src := if d.lnk.encap.ipv6 = 0 then linkLocal d.ident.mac else d.lnk.encap.ipv6
    .udp true src dst.ip d.lnk.encap.udpPort dst.udp (udpSum src dst.ip d.lnk.encap.udpPort dst.udp data)

/-- The frame of a packet. -/
def frameTo (d : Dev) (dst : Addr) (queue : Nat) (data : List Nat) : Frame :=
  { dst := dst.eth, src := d.ident.mac, tag := tagOf d queue, carrier := carrierTo d dst data, data := data }

/-- The bits of a frame of `n` octets without FCS on the wire: at least 64 octets with its FCS, preamble and inter-frame gap. -/
def wireBits (n : Nat) : Nat := 8 * (20 + max 64 (n + 4))

/-- The octets of a frame without FCS. -/
def Frame.size (f : Frame) : Nat :=
  14 + (if f.tag.isSome then 4 else 0) + (match f.carrier with
    | .ether _ => 0
    | .udp v6 _ _ _ _ _ => if v6 then 48 else 28) + f.data.length

/-- A frame put behind the others of its port; one for a port that is down is lost. -/
def Dev.post (d : Dev) (port : Nat) (w : Waiting) : Dev :=
  if portUp d port then d.onLnk fun l => { l with ports := upd l.ports port fun c => { c with queue := c.queue ++ [w] } } else d

/-- R117: the next sequence number of a type and channel, and the unit with its counter advanced. -/
def Dev.nextSeq (d : Dev) (type channel : Nat) : Nat × Dev :=
  let n := (d.lnk.txSeq.lookup (type, channel)).getD 0
  (n, d.onLnk fun l => { l with txSeq := ((type, channel), (n + 1) % 2 ^ 32) :: l.txSeq.filter (·.1 != (type, channel)) })

/-- A packet other than a response handed to an egress queue of a port. -/
def Dev.sendPkt (d : Dev) (port queue : Nat) (dst : Addr) (type flags session channel : Nat) (payload : List Nat) (from_ handle : Nat := 0) : Dev :=
  let (n, d) := d.nextSeq type channel
  let f := frameTo d dst queue (swios d type flags session channel n d.axis payload)
  d.post port { queue := queue, bits := wireBits f.size, from_ := from_, handle := handle, out := .frame port f }

/-- R122: the thorn trailer of `n` data bytes whose 8-byte words `bad` are thorned: the map, padded to 32 bits, and the count. -/
def thornTrailer (n : Nat) (bad : List Nat) : List Nat :=
  let words := ceilDiv n 8
  (List.range (ceilDiv words 32 * 4)).map (fun k => ((List.range 8).map fun b => if bad.contains (8 * k + b) && decide (8 * k + b < words) then 2 ^ (7 - b) else 0).sum)
    ++ bytesOf [fld 4 n]

/-- R122: a payload of fixed fields and data, with the thorn trailer and the flag where a word of the data is thorned. -/
def withThorn (head data : List Nat) (bad : List Nat) : List Nat × Nat :=
  let bad := bad.filter fun w => decide (w < ceilDiv data.length 8)
  if bad.isEmpty then (head ++ data, 0) else (head ++ data ++ thornTrailer data.length bad, 0x20)

/-- The most bytes of a payload of `mp` that fixed fields of `head` bytes leave for data with its thorn trailer. -/
def thornRoom (mp head : Nat) (thorned : Bool) : Nat := if thorned then (mp - head - 8) * 64 / 65 / 8 * 8 else mp - head

/-- R134: the payload of a response up to its result fields, and the results. -/
def Rsp.head (r : Rsp) : List Nat :=
  bytesOf ([fld 2 r.opcode, fld 2 r.status] ++ (if r.status / 256 = 4 then [fld 4 r.retry, fld 8 r.hint] else []))
def Rsp.body (r : Rsp) : List Nat := bytesOf r.fields

/-- R135: how a payload of `n` bytes is cut: offset and length of each part, of at most `room` bytes. -/
def cutParts (room n : Nat) : List (Nat × Nat) :=
  (List.range (ceilDiv n (max 1 room))).map fun k => (k * room, min room (n - k * room))

/-- R122, R134, R135: the packets of a response: payload and flags of each. A response longer than `mp` goes out in parts, each with its
offset, every one but the last with `more`. -/
def Rsp.packets (r : Rsp) (mp : Nat) : List (List Nat × Nat) :=
  let whole := withThorn r.head r.body r.thorn
  if whole.1.length ≤ mp then [whole]
  else
    let l := r.head ++ r.body
    let k := r.head.length
    (cutParts (thornRoom mp 4 (!r.thorn.isEmpty)) l.length).map fun (o, n) =>
      let part := (l.drop o).take n
      let cut := k - o
      let first := o + cut - k
      let bad := (List.range (ceilDiv (n - cut) 8)).filter fun w => r.thorn.any fun t => decide (t * 8 < first + 8 * w + 8) && decide (first + 8 * w < t * 8 + 8)
      let (p, f) := withThorn (bytesOf [fld 4 o] ++ part.take cut) (part.drop cut) bad
      (p, f + 0x40 + (if o + n < l.length then 0x08 else 0))

/-- The frames of a response, its header formed at an axis position. -/
def Rsp.frames (d : Dev) (r : Rsp) (queue axis : Nat) : List Frame :=
  (r.packets (payloadFor d r.session r.port)).map fun (p, f) => frameTo d r.dst queue (swios d 1 f r.session r.channel r.seq axis p)

/-- A response handed to the egress queue of its port. -/
def Dev.sendRsp (d : Dev) (r : Rsp) : Dev :=
  (r.frames d 2 d.axis).foldl (fun d f =>
    d.post r.port { queue := 2, bits := wireBits f.size, answers := some (r.session, r.channel, r.seq), out := .frame r.port f }) d

/-- Something done in turn for those of the first `n` numbers that have anything to do in it. -/
def Dev.each (d : Dev) (n : Nat) (busy : Dev → Nat → Bool) (f : Dev → Nat → Dev) : Dev := ((List.range n).filter (busy d)).foldl f d

/-- Something sent outside the egress queues: a launch, a block of a direct lane, a beacon. -/
def Dev.send (d : Dev) (o : Out) : Dev := d.onLnk fun l => { l with sent := l.sent ++ [o] }

/-- A frame that a MAC starts: it occupies its line and is counted (R168). -/
def Dev.start (d : Dev) (port bits : Nat) (o : Out) : Dev :=
  (d.send o).onLnk fun l => { l with ports := upd l.ports port fun c => { c with sent := c.sent + 1, line := c.line + bits * 6144000 } }

/-- R103, R169: whether the response to a command has left: it waits in no egress queue, launch buffer or for one. -/
def answered (d : Dev) (session channel seq : Nat) : Bool :=
  let is (r : Rsp) : Bool := r.session == session && r.channel == channel && r.seq == seq
  !(d.lnk.ports.any fun c => c.queue.any fun w => w.answers == some (session, channel, seq))
    && !d.lnk.held.any (fun e => is e.2) && !d.lnk.timed.any (fun e => is e.2)
    && !d.tmb.launches.any fun l => match l.what with
      | .response r => is r
      | _ => false

/-! ### A host's command -/

/-- What the dispatch needs to know of an opcode: its number, whether an observer may issue it (R124), whether it
opens without a session (R121 step 7), whether the recovery loader answers it (R625), and the widths of its result
fields (R134). -/
structure CmdInfo where
  opcode : Nat
  observer : Bool := false
  opens : Bool := false
  loader : Bool := false
  unknown : Bool := false
  widths : List Nat := []
deriving DecidableEq, Repr, Inhabited

/-- A status with its retry hint and result fields (R134); no fields stands for zero fields at full length.
`thorn` are the thorned 8-byte words of the result fields (R122); `session` is the session number of the response header, where it
differs from the command's. -/
structure Reply where
  status : Nat := 0
  retry : Nat := 0
  hint : Nat := 0
  fields : List Field := []
  thorn : List Nat := []
  session : Option Nat := none
deriving DecidableEq, Repr, Inhabited

/-- A refusal with a bare status. -/
def refusal (st : Nat) : Option Reply := some { status := st }

/-- R678: the first check that fails decides the status. -/
def firstBad : List (Bool × Nat) → Option Reply
  | [] => none
  | (bad, st) :: l => if bad then refusal st else firstBad l

/-- Checks in order, the first refusal deciding. -/
def Checks.orElse (a b : Option Reply) : Option Reply :=
  match a with
  | some r => some r
  | none => b

/-- What a command does once every check has passed: the unit after it, its reply, and what its response waits
for when it does not complete at once (R132). -/
structure Eff where
  dev : Dev
  reply : Reply := {}
  wait : Option Wait := none

/-- The unit with one mailbox class changed. -/
def Dev.onMail (d : Dev) (c : Nat) (f : MailClass → MailClass) : Dev :=
  d.onLnk fun l => { l with mail := upd l.mail c f }

/-- Bytes of a list of fields. -/
def fieldBytes (fs : List Field) : Nat := (fs.map (·.1)).sum

/-- The response to a command (R134): result fields at their full length, zero unless given. -/
def mkRsp (h : Hdr) (info : CmdInfo) (r : Reply) : Rsp :=
  { dst := h.src, port := h.port, session := r.session.getD h.session, channel := h.channel, seq := h.seq, opcode := info.opcode,
    status := r.status, retry := r.retry, hint := r.hint, fields := if r.fields.isEmpty then zeroFields info.widths else r.fields, thorn := r.thorn }

/-- R138: the spread position: the smallest base + ((u mod S) + k S) slot at least 7,865 ticks after `t`. -/
def spreadPos (u : Nat) (b : SpreadBlock) (t : Nat) : Nat :=
  let p := b.base + u % b.spread * b.slot
  let per := b.spread * b.slot
  if t + minLead ≤ p then p else p + ceilDiv (t + minLead - p) per * per

/-- R138: whether a spread block is valid. -/
def spreadOk (b : SpreadBlock) : Bool :=
  decide (1 ≤ b.spread) && decide (b.key ≤ 1) && b.reserved == 0 && decide (512 ≤ b.slot) && decide (b.slot ≤ 1048576)

/-- The lowest free launch buffer, when one is free (R76). -/
def freeBuffer (l : List Launch) : Option Nat := (List.range 256).find? fun b => !l.any (·.buffer == b)

/-- R138: the spread position of a response that is ready now. -/
def spreadNow (d : Dev) (b : SpreadBlock) : Nat := spreadPos (if b.key = 0 then d.nvm.unitNumber else d.ident.serial) b d.axis

/-- R138: a spread response takes a launch buffer on an ETH lane; while none is free it waits for one. On the service port it is held
for its position. -/
def sendSpread (d : Dev) (b : SpreadBlock) (r : Rsp) : Dev :=
  if r.port < 32 then
    match freeBuffer d.tmb.launches with
    | some n => d.onTmb fun t => { t with launches := t.launches ++ [⟨n, r.port, spreadNow d b, .response r⟩] }
    | none => d.onLnk fun l => { l with held := l.held ++ [(b, r)] }
  else d.onLnk fun l => { l with timed := l.timed ++ [(spreadNow d b, r)] }

/-- R138, R139: a response leaves at its spread position under a valid spread block, at once otherwise. -/
def Dev.answer (d : Dev) (h : Hdr) (p : Rsp) : Dev :=
  match h.spread with
  | some b => if spreadOk b then sendSpread d b p else d.sendRsp p
  | none => d.sendRsp p

/-- R133, R138, R139: a response leaves: none to a broadcast without a valid spread block, whose refusal is
counted; none under `no_rsp` with status 0; at its spread position under a spread block; at once otherwise. The
answer's second part is the response kept for R136. -/
def respond (d : Dev) (h : Hdr) (info : CmdInfo) (r : Reply) : Dev × Option Rsp :=
  let p := mkRsp h info r
  if h.broadcast && !h.spread.any spreadOk then
    (if r.status = 0 then d else d.onLnk (·.onSession h.session fun s => { s with bcastRefusals := sat32 (s.bcastRefusals + 1) }), none)
  else if h.noRsp && r.status = 0 then (d, none)
  else (d.answer h p, some p)

/-- R136: a completed command's response is kept, the last 64 of its session and class. -/
def keepDone (d : Dev) (h : Hdr) (r : Option Rsp) : Dev :=
  d.onLnk (·.onSession h.session fun s =>
    { s with seqs := upd s.seqs h.channel fun q => { q with done := (q.done ++ [(h.seq, r)]).drop (q.done.length + 1 - 64) } })

/-- R131, R134: a command completes: its response leaves and its execution time is kept. -/
def finish (d : Dev) (h : Hdr) (info : CmdInfo) (r : Reply) (started : Nat) : Dev :=
  let (d, p) := respond d h info r
  (keepDone d h p).onMail h.channel fun c =>
    { c with times := (c.times ++ [d.now - started]).drop (c.times.length + 1 - 16) }

/-- R123, R124: whether the session of a command holds the owner role. -/
def isOwner (d : Dev) (h : Hdr) : Bool :=
  match d.session? h.session with
  | some s => s.owner
  | none => false

/-- R132: the effect of a command committed: it completes, or its class goes on with what the response waits for. -/
def conclude (h : Hdr) (info : CmdInfo) (started : Nat) (e : Eff) : Dev :=
  match e.wait with
  | none => finish e.dev h info e.reply started
  | some w => e.dev.onMail h.channel fun c =>
      { c with running := some ⟨h, info.opcode, if e.reply.fields.isEmpty then zeroFields info.widths else e.reply.fields, w, started, false⟩ }

/-- R678 steps 2 to 6 and R133: a command that its class starts: the flags and the length, the role, the spread
block, the command's own checks (`dry_run` passes over the classes 0x04xx and 0x06xx), then its effect. -/
def hostRun (d : Dev) (info : CmdInfo) (h : Hdr) (check : Dev → Option Reply) (eff : Dev → Eff) : Dev :=
  let no (st : Nat) : Dev := finish d h info { status := st } d.now
  if info.unknown then no ST.badOpcode
  else if d.ctl.phase = .loader && !info.loader then no ST.secState
  else if h.reservedFlags then no ST.badArg
  else if !h.lengthOk then no ST.badLength
  else if !isOwner d h && !info.observer && !(info.opens && h.session == 0) then no ST.notOwner
  else if h.spread.any (fun b => !spreadOk b) then no ST.badSpread
  else match check d with
    | some r => if h.dryRun && (r.status / 256 == 4 || r.status / 256 == 6) then finish d h info {} d.now else finish d h info r d.now
    | none =>
      if h.dryRun then finish d h info {} d.now
      else conclude h info d.now (eff d)

/-- R128: whether two source addresses are the same: the Ethernet address under EtherType encapsulation, the IP address and the UDP
port under UDP. -/
def Addr.same (a b : Addr) : Bool := a.isUdp == b.isUdp && (if a.isUdp then a.ip == b.ip && a.udp == b.udp else a.eth == b.eth)

/-- R128: whether a packet comes from the bound address of the session it names. -/
def bound (d : Dev) (h : Hdr) : Bool :=
  match d.session? h.session with
  | some s => Addr.same s.addr h.src
  | none => false

/-- R136: what a sequence number is. -/
inductive SeqCase where
  | fresh
  | queued
  | kept (r : Option Rsp)
  | stale
deriving DecidableEq, Repr

/-- R136: the case of an arriving command's sequence number. -/
def seqCase (d : Dev) (h : Hdr) : SeqCase :=
  match d.session? h.session with
  | none => .fresh
  | some s =>
    let q := nth s.seqs h.channel
    let m := nth d.lnk.mail h.channel
    match q.high with
    | none => .fresh
    | some hi =>
      let k := (h.seq + 2 ^ 32 - hi) % 2 ^ 32
      if 1 ≤ k ∧ k < 2 ^ 31 then .fresh
      else if m.queue.any (fun e => e.hdr.session == h.session && e.hdr.seq == h.seq)
          || m.running.any (fun r => r.hdr.session == h.session && r.hdr.seq == h.seq) then .queued
      else match q.done.lookup h.seq with
        | some r => .kept r
        | none => .stale

/-- R136: an accepted sequence number becomes the highest. -/
def takeSeq (d : Dev) (h : Hdr) : Dev :=
  d.onLnk (·.onSession h.session fun s => { s with seqs := upd s.seqs h.channel fun q => { q with high := some h.seq } })

/-- Entries of a class that a session has queued. -/
def MailClass.queuedBy (c : MailClass) (n : Nat) : Nat := (c.queue.filter fun e => e.hdr.session == n).length

/-- R131: whether a class has an entry, reserved or shared, for a session's command. -/
def entryFree (d : Dev) (h : Hdr) : Bool :=
  let c := nth d.lnk.mail h.channel
  let shared := 64 - 4 * d.lnk.sessions.length
  let overs := ((d.lnk.sessions.map fun s => c.queuedBy s.num - 4).sum) + c.queuedBy 0
  (h.session != 0 && decide (c.queuedBy h.session < 4)) || decide (overs < shared)

/-- R131: the retry hint of ST_BUSY: the mean execution time of the last 16 commands multiplied by the entries
ahead, at least 10 us, and the free entries with the session's queued entries. -/
def busyReply (d : Dev) (h : Hdr) : Reply :=
  let c := nth d.lnk.mail h.channel
  let mean := c.times.sum / max 1 c.times.length
  { status := ST.busy, retry := max 10 (ticksUs (mean * c.queue.length)),
    hint := (64 - c.queue.length) * 2 ^ 32 + c.queuedBy h.session }

/-- R129: a packet of a session restarts its keepalive timer; R128 sends to the port it came by. -/
def heard (d : Dev) (h : Hdr) : Dev :=
  d.onLnk (·.onSession h.session fun s => { s with lastHeard := d.now, port := h.port })

/-- R113, R114, R121 steps 4 and 7 to 9, R136, R131, R132: a CMD packet that passed steps 1 to 3 arrives on a port that is up. -/
def hostArrive (d : Dev) (info : CmdInfo) (h : Hdr) (i : Instr) (check : Dev → Option Reply) (eff : Dev → Eff) : Dev :=
  let opening := info.opens && h.session == 0
  let bnd := bound d h
  let early (d : Dev) (st : Nat) : Dev :=
    (respond d { h with spread := if h.broadcast then none else h.spread } info { status := st }).1
  let refuse (d : Dev) (r : Reply) : Dev := (respond d h info r).1
  if d.ctl.phase ≠ .running ∧ d.ctl.phase ≠ .loader ∧ d.ctl.phase ≠ .reload then d
  else if d.ctl.phase = .loader ∧ h.port < 32 then d
  else if !portUp d h.port || !carried d h.src h.wire then d
  else if (if h.broadcast then !(bnd || (info.opcode == 0 && h.session == 0)) else h.unit != d.nvm.unitNumber) then
    d.onLnk fun l =>
      { l.onSession h.session (fun s => { s with misaddressed := sat32 (s.misaddressed + 1) }) with
        ports := upd l.ports h.port fun c => { c with received := c.received + 1, misaddressed := c.misaddressed + 1 } }
  else
    let d := d.onLnk fun l => { l with ports := upd l.ports h.port fun c => { c with received := c.received + 1 } }
    if !bnd && !opening then refuse d { status := ST.noSession }
    else
      let d := if bnd then heard d h else d
      if 3 < h.channel then early d ST.badHeader
      else if h.thorn then early (d.onLnk (·.onSession h.session fun s => { s with thorned := sat32 (s.thorned + 1) })) ST.thorn
      else match seqCase d h with
        | .queued => d
        | .kept none => d
        | .kept (some r) => d.answer h { r with port := h.port }
        | .stale => refuse d { status := ST.seqStale }
        | .fresh =>
          let c := nth d.lnk.mail h.channel
          if d.ctl.phase = .reload || !entryFree d h then
            refuse (d.onLnk (·.onSession h.session fun s => { s with busyRefusals := sat32 (s.busyRefusals + 1) })) (busyReply d h)
          else if c.running.isNone && c.queue.isEmpty then hostRun (takeSeq d h) info h check eff
          else (takeSeq d h).onMail h.channel fun c => { c with queue := c.queue ++ [⟨h, i⟩] }

/-- The unit changed, the queue of waiting commands as it is. -/
def onDev (f : Dev → Dev) (s : State) : Host.Outcome State Fault Refusal := .next { s with dev := f s.dev }

/-- A host's command: it arrives as a packet, or its class starts it from the mailbox (`admitted`, set by the
step). -/
def hostCmd (info : CmdInfo) (h : Hdr) (i : Instr) (check : Dev → Option Reply) (eff : Dev → Eff) :
    State → Host.Outcome State Fault Refusal :=
  onDev fun d =>
    if d.lnk.admitted then hostRun (d.onLnk fun l => { l with admitted := false }) info h check eff
    else hostArrive d info h i check eff

/-- A query: no check of its own and no effect but its reply (R124). -/
def query (info : CmdInfo) (h : Hdr) (i : Instr) (check : Dev → Option Reply) (reply : Dev → List Field) :
    State → Host.Outcome State Fault Refusal :=
  hostCmd { info with observer := true } h i check fun d => { dev := d, reply := { fields := reply d } }

/-- R132: the commands whose response waits for something complete with a reply: each class whose running command
`sel` names answers and is free again; a closed session's response is discarded (R127). -/
def complete (d : Dev) (sel : Running → Bool) (reply : Running → Reply) : Dev :=
  (List.range 4).foldl (fun d c =>
    match (nth d.lnk.mail c).running with
    | some r =>
      if sel r then
        let d := d.onMail c fun m => { m with running := none }
        if r.discard then d
        else
          let q := reply r
          finish d r.hdr { opcode := r.opcode }
            (if q.fields.isEmpty then { q with fields := if q.status = 0 then r.fields else zeroFields (r.fields.map (·.1)) } else q) r.started
      else d
    | none => d) d

/-- The waits of the running commands changed. -/
def onWaits (d : Dev) (f : Wait → Wait) : Dev :=
  d.onLnk fun l => { l with mail := l.mail.map fun m => { m with running := m.running.map fun r => { r with wait := f r.wait } } }

/-! ### Bulk objects -/

/-- A staged, open or outbound object by its handle. -/
def Dev.obj? (d : Dev) (handle : Nat) : Option BulkObj := d.lnk.bulk.find? (·.handle == handle)

/-- The bytes of an object from an offset on, one fragment after another. -/
def gather : List Frag → Nat → Nat → List Nat
  | _, _, 0 => []
  | fs, off, n + 1 =>
    match fs.find? fun f => decide (f.off = off) with
    | none => []
    | some f => f.data ++ gather fs (off + f.data.length) n

/-- The bytes of an object, in order. -/
def BulkObj.bytes (o : BulkObj) : List Nat := gather o.frags 0 (o.frags.length + 1)

/-- The numbers of the thorned 8-byte words of an object. -/
def BulkObj.thorns (o : BulkObj) : List Nat := o.frags.flatMap fun f => f.thorn.map fun w => f.off / 8 + w

/-- R143: the checks of a command that consumes an object: its handle is closed, its kind is right, and a thorned
word ends it with ST_THORN (class 0x06xx, last). -/
def objCheck (d : Dev) (handle kind : Nat) : Option Reply :=
  match d.obj? handle with
  | none => refusal ST.bulkState
  | some o => if o.closed = false then refusal ST.bulkState else if o.kind ≠ kind then refusal ST.badArg else none

/-- The bytes of an object by its handle; none where no such object is staged. -/
def objBytes (d : Dev) (handle : Nat) : List Nat :=
  match d.obj? handle with
  | some o => o.bytes
  | none => []

/-- R143: a consumed object leaves the staging. -/
def consume (d : Dev) (handle : Nat) : Dev := d.onLnk fun l => { l with bulk := l.bulk.filter fun o => o.handle != handle }

/-- A handle the next object may take: the next number from 1 to 65,535 not in use. -/
def newHandle (d : Dev) : Nat :=
  (((List.range 64).map fun k => (d.lnk.nextHandle + k - 1) % 65535 + 1).find? fun n => (d.obj? n).isNone).getD 0

/-- An outbound object of the unit's own bytes, closed and ready to read (R144): its handle and the unit holding it. -/
def addOut (d : Dev) (session kind : Nat) (bytes thorn : List Nat) (dram : Bool) : Nat × Dev :=
  let n := newHandle d
  let o : BulkObj := { handle := n, kind := kind, len := bytes.length, crc := crc32c bytes, frags := [⟨0, bytes, thorn⟩], closed := true,
                       outbound := true, inDram := dram, session := session }
  (n, d.onLnk fun l => { l with bulk := l.bulk ++ [o], nextHandle := n % 65535 + 1 })

/-! ### Short forms of the meanings -/

/-- The type of a meaning. -/
abbrev Meaning := State → Host.Outcome State Fault Refusal

/-- An opcode of the owner, and the widths of its result fields. -/
def cmd (op : Nat) (ws : List Nat := []) : CmdInfo := { opcode := op, widths := ws }

/-- An opcode an observer may issue too (R124). -/
def ask (op : Nat) (ws : List Nat := []) : CmdInfo := { opcode := op, widths := ws, observer := true }

/-- A query with a clear argument, which an observer may issue when it is zero (R124). -/
def askClear (op clear : Nat) (ws : List Nat) : CmdInfo := { opcode := op, widths := ws, observer := clear == 0 }

/-- R134: the widths of a result of `n` entries of some fields each; none for a count above the limit, whose full length the spec does not
give. -/
def spanWidths (limit n : Nat) (entry : List Nat) : List Nat := if limit < n then [] else (List.replicate n entry).flatten

/-- No checks of its own. -/
def noCheck : Dev → Option Reply := fun _ => none

/-- An effect that answers nothing but its status. -/
def just (f : Dev → Dev) : Dev → Eff := fun d => { dev := f d }

/-- MEM-PORT-STATUS: a DRAM stream port moves bytes. -/
def Dev.portMoves (d : Dev) (n bytes : Nat) : Dev :=
  { d with mem := { d.mem with ports := upd d.mem.ports n fun p => { p with moved := (p.moved + bytes) % 2 ^ 64 } } }

/-- R652: a resource that quickset holds while it runs. -/
def qsHeld (d : Dev) : Bool := d.qs.state != 0

/-- Whether a store has failed its self-test (R504). -/
def storeFailed (d : Dev) (n : Nat) : Bool := (nth d.mem.stores n).failed

/-- Whether a power domain is on (R32). -/
def domOn (d : Dev) (n : Nat) : Bool := nth d.pwr.domains n

/-- Free values of two bytes each (measured values). -/
def freshMany : Nat → Dev → List Nat × Dev
  | 0, d => ([], d)
  | n + 1, d => let (x, d) := d.fresh 2; let (l, d) := freshMany n d; (x :: l, d)

end Sys2Proof.Machine
end

