-- ==== Sys2Proof/Machine/Crypto.lean ====
section
/-! DEFINITION. Chapter 18, what the security unit computes over bytes: SHA-384, and the check of an ECDSA signature on P-384 (R622, FIPS 186-5),
with SHA-384 as FIPS 180-4 gives it. -/

namespace Sys2Proof.Machine

/-! ### SHA-384 -/

/-- The round constants of SHA-384 and its initial hash value. -/
def shaConst : List Nat :=
  [0x428a2f98d728ae22, 0x7137449123ef65cd, 0xb5c0fbcfec4d3b2f, 0xe9b5dba58189dbbc,
   0x3956c25bf348b538, 0x59f111f1b605d019, 0x923f82a4af194f9b, 0xab1c5ed5da6d8118,
   0xd807aa98a3030242, 0x12835b0145706fbe, 0x243185be4ee4b28c, 0x550c7dc3d5ffb4e2,
   0x72be5d74f27b896f, 0x80deb1fe3b1696b1, 0x9bdc06a725c71235, 0xc19bf174cf692694,
   0xe49b69c19ef14ad2, 0xefbe4786384f25e3, 0x0fc19dc68b8cd5b5, 0x240ca1cc77ac9c65] ++
  [0x2de92c6f592b0275, 0x4a7484aa6ea6e483, 0x5cb0a9dcbd41fbd4, 0x76f988da831153b5,
   0x983e5152ee66dfab, 0xa831c66d2db43210, 0xb00327c898fb213f, 0xbf597fc7beef0ee4,
   0xc6e00bf33da88fc2, 0xd5a79147930aa725, 0x06ca6351e003826f, 0x142929670a0e6e70,
   0x27b70a8546d22ffc, 0x2e1b21385c26c926, 0x4d2c6dfc5ac42aed, 0x53380d139d95b3df,
   0x650a73548baf63de, 0x766a0abb3c77b2a8, 0x81c2c92e47edaee6, 0x92722c851482353b] ++
  [0xa2bfe8a14cf10364, 0xa81a664bbc423001, 0xc24b8b70d0f89791, 0xc76c51a30654be30,
   0xd192e819d6ef5218, 0xd69906245565a910, 0xf40e35855771202a, 0x106aa07032bbd1b8,
   0x19a4c116b8d2d0c8, 0x1e376c085141ab53, 0x2748774cdf8eeb99, 0x34b0bcb5e19b48a8,
   0x391c0cb3c5c95a63, 0x4ed8aa4ae3418acb, 0x5b9cca4f7763e373, 0x682e6ff3d6b2b8a3,
   0x748f82ee5defb2fc, 0x78a5636f43172f60, 0x84c87814a1f0ab72, 0x8cc702081a6439ec] ++
  [0x90befffa23631e28, 0xa4506cebde82bde9, 0xbef9a3f7b2c67915, 0xc67178f2e372532b,
   0xca273eceea26619c, 0xd186b8c721c0c207, 0xeada7dd6cde0eb1e, 0xf57d4f7fee6ed178,
   0x06f067aa72176fba, 0x0a637dc5a2c898a6, 0x113f9804bef90dae, 0x1b710b35131c471b,
   0x28db77f523047d84, 0x32caab7b40c72493, 0x3c9ebe0a15c9bebc, 0x431d67c49c100d4c,
   0x4cc5d4becb3e42b6, 0x597f299cfc657e2a, 0x5fcb6fab3ad6faec, 0x6c44198c4a475817]
def shaInit : List Nat :=
  [0xcbbb9d5dc1059ed8, 0x629a292a367cd507, 0x9159015a3070dd17, 0x152fecd8f70e5939,
   0x67332667ffc00b31, 0x8eb44a8768581511, 0xdb0c2e0d64f98fa7, 0x47b5481dbefa4fa4]

/-- The eight working words. -/
structure ShaWords where
  a : Nat
  b : Nat
  c : Nat
  d : Nat
  e : Nat
  f : Nat
  g : Nat
  h : Nat

/-- A 64-bit word rotated right, and the mixing functions of the algorithm. -/
def rotr (n x : Nat) : Nat := x / 2 ^ n + x % 2 ^ n * 2 ^ (64 - n)
def shaSmall0 (x : Nat) : Nat := Nat.xor (Nat.xor (rotr 1 x) (rotr 8 x)) (x / 2 ^ 7)
def shaSmall1 (x : Nat) : Nat := Nat.xor (Nat.xor (rotr 19 x) (rotr 61 x)) (x / 2 ^ 6)
def shaBig0 (x : Nat) : Nat := Nat.xor (Nat.xor (rotr 28 x) (rotr 34 x)) (rotr 39 x)
def shaBig1 (x : Nat) : Nat := Nat.xor (Nat.xor (rotr 14 x) (rotr 18 x)) (rotr 41 x)
def shaCh (x y z : Nat) : Nat := Nat.xor (Nat.land x y) (Nat.land (2 ^ 64 - 1 - x) z)
def shaMaj (x y z : Nat) : Nat := Nat.xor (Nat.xor (Nat.land x y) (Nat.land x z)) (Nat.land y z)

/-- The rounds over the constants left, with the next 16 words of the message schedule. -/
def shaRounds : List Nat → List Nat → ShaWords → ShaWords
  | [], _, w => w
  | _, [], w => w
  | k :: ks, x :: m, w =>
    let t1 := w.h + shaBig1 w.e + shaCh w.e w.f w.g + k + x
    let t2 := shaBig0 w.a + shaMaj w.a w.b w.c
    shaRounds ks (m ++ [(shaSmall1 (nth m 13) + nth m 8 + shaSmall0 (nth m 0) + x) % 2 ^ 64])
      ⟨(t1 + t2) % 2 ^ 64, w.a, w.b, w.c, (w.d + t1) % 2 ^ 64, w.e, w.f, w.g⟩

/-- The hash after one more block of 128 bytes. -/
def shaBlock (h : ShaWords) (b : List Nat) : ShaWords :=
  let r := shaRounds shaConst ((List.range 16).map fun k => beAt b (8 * k) 8) h
  ⟨(h.a + r.a) % 2 ^ 64, (h.b + r.b) % 2 ^ 64, (h.c + r.c) % 2 ^ 64, (h.d + r.d) % 2 ^ 64, (h.e + r.e) % 2 ^ 64, (h.f + r.f) % 2 ^ 64,
    (h.g + r.g) % 2 ^ 64, (h.h + r.h) % 2 ^ 64⟩

/-- The hash over `n` blocks. -/
def shaBlocks : Nat → List Nat → ShaWords → ShaWords
  | 0, _, h => h
  | n + 1, l, h => shaBlocks n (l.drop 128) (shaBlock h (l.take 128))

/-- SHA-384 of a byte string, as a 48-byte big-endian number. -/
def sha384 (l : List Nat) : Nat :=
  let p := l ++ [128] ++ List.replicate ((239 - l.length % 128) % 128) 0 ++ bytesOf [(16, 8 * l.length)]
  let h := shaBlocks (p.length / 128) p ⟨nth shaInit 0, nth shaInit 1, nth shaInit 2, nth shaInit 3, nth shaInit 4, nth shaInit 5, nth shaInit 6, nth shaInit 7⟩
  [h.b, h.c, h.d, h.e, h.f].foldl (fun v w => v * 2 ^ 64 + w) h.a

/-! ### ECDSA on P-384 -/

/-- The field's prime, the order of the group, the curve's coefficient b and its base point in projective coordinates. -/
def ecPrime : Nat := 2 ^ 384 - 2 ^ 128 - 2 ^ 96 + 2 ^ 32 - 1
def ecOrder : Nat := 0xffffffffffffffffffffffffffffffffffffffffffffffffc7634d81f4372ddf581a0db248b0a77aecec196accc52973
def ecB : Nat := 0xb3312fa7e23ee7e4988e056be3f82d19181d9c6efe8141120314088f5013875ac656398d8a2ed19d2a85c8edd3ec2aef
def ecBase : Nat × Nat × Nat :=
  (0xaa87ca22be8b05378eb1c71ef320ad746e1d3b628ba79b9859f741e082542a385502f25dbf55296c3a545e3872760ab7,
   0x3617de4a96262c6f5d9e98bf9292dc29f8f41dbd289a147ce9da3113b5f0b8c00a60b1ce1d7e819d7a431d7c90ea0e5f, 1)

/-- A point (X / Z², Y / Z³) doubled; the point at infinity has Z = 0. -/
def ecDouble (q : Nat × Nat × Nat) : Nat × Nat × Nat :=
  match q with
  | (x, y, z) =>
    let p := ecPrime
    let d := z * z % p
    let g := y * y % p
    let b := x * g % p
    let a := 3 * ((x + p - d) * (x + d) % p) % p
    let x3 := (a * a + 8 * p - 8 * b) % p
    (x3, (a * (4 * b + p - x3) + 8 * p * p - 8 * (g * g)) % p, ((y + z) * (y + z) + 2 * p - g - d) % p)

/-- The sum of two points. -/
def ecAdd (q r : Nat × Nat × Nat) : Nat × Nat × Nat :=
  match q, r with
  | (x1, y1, z1), (x2, y2, z2) =>
    if z1 = 0 then r
    else if z2 = 0 then q
    else
      let p := ecPrime
      let zz1 := z1 * z1 % p
      let zz2 := z2 * z2 % p
      let u1 := x1 * zz2 % p
      let s1 := y1 * z2 * zz2 % p
      let s2 := y2 * z1 * zz1 % p
      let h := (x2 * zz1 + p - u1) % p
      if h = 0 then (if s1 = s2 then ecDouble q else (1, 1, 0))
      else
        let i := 4 * h * h % p
        let j := h * i % p
        let t := 2 * (s2 + p - s1) % p
        let v := u1 * i % p
        let x3 := (t * t + 3 * p - j - 2 * v) % p
        (x3, (t * (v + p - x3) + 2 * p * p - 2 * s1 * j) % p, 2 * z1 * z2 * h % p)

/-- A multiple of a point, by a number of at most `n` bits. -/
def ecMul : Nat → Nat → Nat × Nat × Nat → Nat × Nat × Nat
  | 0, _, _ => (1, 1, 0)
  | n + 1, k, q =>
    let t := ecDouble (ecMul n (k / 2) q)
    if k % 2 = 1 then ecAdd t q else t

/-- A power modulo `m`, by an exponent of at most `n` bits. -/
def powMod (m : Nat) : Nat → Nat → Nat → Nat
  | 0, _, _ => 1
  | n + 1, b, k =>
    let h := powMod m n b (k / 2)
    if k % 2 = 1 then h * h % m * b % m else h * h % m

/-- Whether a public key is an uncompressed point of the curve (R621). -/
def ecPoint (pub : List Nat) : Bool :=
  let x := beAt pub 1 48
  let y := beAt pub 49 48
  beAt pub 0 1 == 4 && decide (x < ecPrime) && decide (y < ecPrime) && y * y % ecPrime == (x * x * x + 3 * (ecPrime - x) + ecB) % ecPrime

/-- Whether the signature r, s of a message whose SHA-384 is `e` verifies under a public key. -/
def ecdsaVerify (pub : List Nat) (e r s : Nat) : Bool :=
  if r = 0 ∨ ecOrder ≤ r ∨ s = 0 ∨ ecOrder ≤ s ∨ !ecPoint pub then false
  else
    let w := powMod ecOrder 384 s (ecOrder - 2)
    match ecAdd (ecMul 384 (e * w % ecOrder) ecBase) (ecMul 384 (r * w % ecOrder) (beAt pub 1 48, beAt pub 49 48, 1)) with
    | (x, _, z) =>
      let i := powMod ecPrime 384 z (ecPrime - 2)
      z != 0 && x * (i * i % ecPrime) % ecPrime % ecOrder == r

/-! ### Signed objects (R621, R622) -/

/-- The key slot that an object's signature block names: 0 and 1 the vendor's, 2 to 5 the owner's; none where the block is not
well formed or covers another length. -/
def signSlot (b : List Nat) : Option Nat :=
  let s := b.drop (b.length - 3876)
  if b.length < 3876 ∨ beAt s 0 2 ≠ 0x5347 ∨ beAt s 2 1 ≠ 1 ∨ beAt s 5 3 ≠ 0 ∨ beAt s 8 8 ≠ b.length - 3876 ∨ beAt s 173 3 ≠ 0 then none
  else match beAt s 3 1, beAt s 4 1 with
    | 0, k => if k < 2 then some k else none
    | 1, k => if k < 4 then some (2 + k) else none
    | _, _ => none

/-- R620: whether a key slot is filled and not revoked, and the two hashes it holds. -/
def slotFilled (d : Dev) (k : Nat) : Bool := if k < 2 then !nth d.nvm.revoked k else (nth d.nvm.owners (k - 2)).enrolled
def slotHashes (d : Dev) (k : Nat) : Nat × Nat :=
  if k < 2 then nth d.ident.vendor k else ((nth d.nvm.owners (k - 2)).ecdsa, (nth d.nvm.owners (k - 2)).hss)

/-- R622: whether the named slot is filled, not revoked, and holds the hashes of the block's two public keys. -/
def keysMatch (d : Dev) (b : List Nat) : Bool :=
  let s := b.drop (b.length - 3876)
  (signSlot b).any fun k => slotFilled d k && slotHashes d k == (sha384 ((s.drop 16).take 97), sha384 ((s.drop 113).take 60))

/-- R622: whether the ECDSA signature verifies over the covered bytes and bytes 0 to 175 of the block. -/
def ecdsaOk (b : List Nat) : Bool :=
  let s := b.drop (b.length - 3876)
  ecdsaVerify ((s.drop 16).take 97) (sha384 (b.take (b.length - 3700))) (beAt s 176 48) (beAt s 224 48)

/-- R629: whether a key slot may sign applets. -/
def mayApplet (d : Dev) (k : Nat) : Bool := k < 2 || (nth d.nvm.owners (k - 2)).authority.testBit 1

end Sys2Proof.Machine
end

