-- ==== Sys2Proof/Machine/Journal.lean ====
section
/-! DEFINITION. Chapter 18, the records of the NVM: their format and places (R634, R636), reclaiming (R637), and what a shutdown leaves of
the work under way (R638). -/

namespace Sys2Proof.Machine

/-! ### The controller's work (R635) -/

/-- The NVM window in the address map (R483). -/
def nvmBase : Nat := 0x0C00000000
def nvmSize : Nat := 0x20000000

def Dev.onNvm (d : Dev) (f : Nvm → Nvm) : Dev := { d with nvm := f d.nvm }

/-- The bytes of a span in pages. -/
def pagesOf (off : Nat) (b : List Nat) : List (Nat × List Nat) :=
  (List.range (ceilDiv b.length 4096)).map fun k => (off + 4096 * k, (b.drop (4096 * k)).take 4096)

/-- Whether a piece of work still has an erase or a page to do. -/
def NvmJob.busy (j : NvmJob) : Bool := !j.erases.isEmpty || !j.pages.isEmpty

/-- R635: the piece of work served next: the first of the most urgent area. -/
def nvmNext (d : Dev) : Option Nat :=
  (List.range 4).findSome? fun a => d.nvm.jobs.findIdx? fun j => j.area == a && j.busy

/-! ### Records (R636) -/

/-- R634: where the security area (0) and the journal area (1) begin, and their blocks of 64 pages. -/
def areaStart (a : Nat) : Nat := if a = 0 then 0x00400000 else 0x0A800000
def areaBlocks (a : Nat) : Nat := if a = 0 then 16 else 512

/-- The pages a record takes: header, data and trailer. -/
def NvmRec.pages (r : NvmRec) : Nat := ceilDiv (48 + r.data.length) 4096

/-- R636: the bytes of a record: the header, the data, and the trailer with the commit word. The first eight bytes of the trailer are zero and
it stands next to the data: DESIGN CHOICE (log entry 120). -/
def NvmRec.bytes (r : NvmRec) : List Nat :=
  let l := bytesOf [fld 2 0x4A52, fld 2 r.type, fld 4 r.key, fld 8 r.seq, fld 4 r.data.length, fld 2 r.pages, fld 10 0] ++ r.data
  l ++ bytesOf [fld 8 0, fld 4 (crc32c l), fld 4 0x5A5AC3C3]

/-- R636: the programs of a record, the page with the commit word last. -/
def NvmRec.programs (r : NvmRec) (a : Nat) : List (Nat × List Nat) := pagesOf (areaStart a + (r.block * 64 + r.page) * 4096) r.bytes

/-- The records of some sequence numbers marked committed or lost. -/
def NvmLog.mark (g : NvmLog) (st : Nat) (seqs : List Nat) : NvmLog :=
  { g with recs := g.recs.map fun r => if seqs.contains r.seq then { r with st := st } else r }

/-- R637: whether a committed record prevails among those of its type and key. -/
def NvmLog.live (g : NvmLog) (r : NvmRec) : Bool :=
  r.st == 1 && g.recs.all fun x => !(x.st == 1 && x.type == r.type && x.key == r.key && decide (r.seq < x.seq))

/-- A record put at the next page of its area, with the piece of work that writes it. -/
def Nvm.append (n : Nvm) (a type key : Nat) (data : List Nat) (old : NvmOld) (answers : Bool) : Nvm :=
  let g := nth n.logs a
  let r : NvmRec := { type := type, key := key, seq := n.seq, data := data, block := g.cur, page := g.next }
  { n with
    seq := n.seq + 1, logs := upd n.logs a fun g => { g with next := g.next + r.pages, recs := g.recs ++ [r] }
    jobs := n.jobs ++ [{ area := a, pages := r.programs a, goal := .record r.seq type old answers }] }

/-- The blocks of an area that may be reclaimed: those with records, none of them on its way. -/
def NvmLog.full (g : NvmLog) (a : Nat) : List Nat :=
  (List.range (areaBlocks a)).filter fun b =>
    b != g.cur && b != g.spare && (g.recs.any fun r => r.block == b) && g.recs.all fun r => r.block != b || r.st != 0

/-- The pages of the live records of a block. -/
def NvmLog.livePages (g : NvmLog) (b : Nat) : Nat := ((g.recs.filter fun r => r.block == b && g.live r).map (·.pages)).sum

/-- R637: room for a record of `k` pages: in the block at work, in an erased one, or by reclaiming the block with the fewest live pages, whose
live records are copied into the spare block before it is erased. When and which block is reclaimed is a DESIGN CHOICE (log entry 120). -/
def Nvm.room (n : Nvm) (a k : Nat) : Nvm :=
  let g := nth n.logs a
  if g.next + k ≤ 64 then n
  else match (List.range (areaBlocks a)).find? fun b => b != g.cur && b != g.spare && g.recs.all fun r => r.block != b with
    | some b => { n with logs := upd n.logs a fun g => { g with cur := b, next := 0 } }
    | none =>
      match (g.full a).foldl (fun (o : Option Nat) b => match o with
          | none => some b
          | some c => if g.livePages b < g.livePages c then some b else some c) none with
      | none => n
      | some v =>
        let n := { n with logs := upd n.logs a fun g => { g with cur := g.spare, next := 0, spare := v } }
        let n := (g.recs.filter fun r => r.block == v && g.live r).foldl (fun n r => n.append a r.type r.key r.data .none false) n
        { n with jobs := n.jobs ++ [{ area := a, erases := [areaStart a + v * 0x40000], goal := .reclaim v }] }

/-- R636: a record is written in an area (0 security, 1 journal); `old` is what prevails again if it stays without its commit word, `answers`
says that a command waits for it. -/
def journal (d : Dev) (a type key : Nat) (data : List Nat) (old : NvmOld) (answers : Bool := false) : Dev :=
  d.onNvm fun n => (n.room a (ceilDiv (48 + data.length) 4096)).append a type key data old answers

/-! ### What a shutdown leaves (R638) -/

/-- R638: what a record that was lost had replaced prevails again. -/
def NvmOld.restore (d : Dev) (o : NvmOld) : Dev :=
  match o with
  | .none => d
  | .unit x => d.onNvm fun n => { n with unitNumber := x }
  | .cal key t => d.onNvm fun n => { n with calTables := (t.map fun t => (key, t)).toList ++ n.calTables.filter fun e => e.1 != key }
  | .dpd p s => d.onNvm fun n => { n with dpd := upd n.dpd p fun _ => s }
  | .syn k p r => d.onNvm fun n => { n with synRecs := upd n.synRecs k fun l => upd l p fun _ => r }
  | .safe k x => d.onNvm fun n => { n with safe := upd n.safe k fun _ => x }
  | .govClass k s => { d with gov := { d.gov with sets := upd d.gov.sets k fun _ => s } }
  | .govEntry x => { d with gov := { d.gov with journal := x.toList ++ d.gov.journal.dropLast } }
  | .comp p t => { d with tx := upd d.tx p fun x => { x with compTable := t } }
  | .image s i => d.onNvm fun n => { n with images := upd n.images s fun _ => i }
  | .store k e => d.onNvm fun n => { n with store := upd n.store k fun _ => e }
  | .owners l c => d.onNvm fun n => { n with owners := l, enrolCount := c }
  | .leaf x => d.onNvm fun n => { n with leafReserved := x }
  | .boot x t k => d.onNvm fun n => { n with active := x, trial := t, attempts := k }

/-- Whether a piece of work's next page is its last. -/
def NvmJob.lastPage (j : NvmJob) : Bool := j.erases.isEmpty && j.pages.length == 1

/-- R638: the page in progress completes and no other starts: a record it does not complete is lost, newest first, and is discarded at the next
boot if a page of it stands; a spare block that was to be erased will be. -/
def nvmStop (d : Dev) : Dev :=
  let jobs := d.nvm.jobs
  let k := nvmNext d
  let cut := (jobs.zipIdx.filter fun x => !(some x.2 == k && x.1.lastPage)).map (·.1)
  let d := cut.reverse.foldl (fun d j => match j.goal with
    | .record _ _ old _ => NvmOld.restore d old
    | _ => d) d
  let seqs := cut.filterMap fun j => match j.goal with
    | .record s _ _ _ => some s
    | _ => none
  let begun := jobs.zipIdx.filterMap fun (j, i) => match j.goal with
    | .record s _ _ _ => if seqs.contains s && (decide (0 < j.done) || (some i == k && j.erases.isEmpty)) then some s else none
    | _ => none
  let found (s : Nat) : Option NvmRec := (d.nvm.logs.flatMap (·.recs)).find? (·.seq == s)
  let running : List NvmJob := match k with
    | some k =>
      let j := nth jobs k
      if !j.erases.isEmpty then []
      else if j.lastPage then [match j.goal with
        | .record _ _ _ _ => j
        | _ => { j with goal := .host }]
      else [{ j with pages := j.pages.take 1, goal := .host }]
    | none => []
  d.onNvm fun n =>
    let logs := n.logs.map (·.mark 2 seqs)
    { n with
      logs := logs, lost := n.lost ++ (begun.filterMap found).map fun r => (r.type, r.key)
      jobs := running ++ logs.zipIdx.filterMap fun (g, a) =>
        if g.recs.any fun r => r.block == g.spare then some { area := a, erases := [areaStart a + g.spare * 0x40000], goal := .reclaim g.spare } else none }

end Sys2Proof.Machine
end

