-- ==== Sys2Proof/Machine/Link.lean ====
section
/-! DEFINITION. Chapter 4: sessions (R123 to R129), the mailbox queries, events (R152 to R156), bulk objects (R140 to
R144), destinations, reports and timed slots (R157 to R160), the encapsulation and the counters (R168, R169). -/

namespace Sys2Proof.Machine

/-! ### Sessions -/

/-- R125: whether any owner key is enrolled. -/
def keysEnrolled (d : Dev) : Bool := d.nvm.owners.any (·.enrolled)

/-- The variant's ASCII letter (R168). -/
def variantCode : Variant → Nat
  | .l => 0x4C
  | .m => 0x4D
  | .h => 0x48
  | .a => 0x41

/-- DISCOVER (R168): the unit's identity. -/
def execDiscover (h : Hdr) : Meaning :=
  query { opcode := 0x0000, opens := true, loader := true, widths := [3, 1, 8, 4, 1, 1, 1, 6, 4] } h (.discover h) noCheck fun d =>
    [fld 3 d.nvm.unitNumber, fld 1 (variantCode d.ident.variant), fld 8 d.ident.serial,
      fld 4 (if d.ctl.phase = .loader then 0 else d.ctl.imageVersion), fld 1 d.pwr.state, fld 1 (b2n d.owner?.isSome),
      fld 1 (8 - d.lnk.sessions.length), fld 6 d.ident.mac, fld 4 (ipv4Now d)]

/-- The lowest session number not open (R123). DESIGN CHOICE (log entry 111): the spec does not say which number a new session gets. -/
def freeSession (d : Dev) : Nat := (((List.range 8).map (· + 1)).find? fun n => (d.session? n).isNone).getD 0

/-- SESSION-OPEN (R123, R125, R126, R128): an observer session opens at once; the owner role is granted at once
while no owner key is enrolled, and otherwise a nonce is returned and the session stays an observer. With takeover
the former owner's session closes when the role is granted. -/
def execSessionOpen (h : Hdr) (role takeover keepalive maxPayload : Nat) : Meaning :=
  hostCmd { opcode := 0x0001, opens := true, loader := true, widths := [1, 1, 32] } h (.sessionOpen h role takeover keepalive maxPayload)
    (fun d => firstBad [
      (decide (1 < role) || decide (1 < takeover) || decide (600 < keepalive)
        || (maxPayload != 0 && (decide (maxPayload < 512) || decide (8960 < maxPayload) || maxPayload % 64 != 0)), ST.badArg),
      (role == 1 && takeover == 0 && d.owner?.isSome, ST.ownerPresent),
      (decide (8 ≤ d.lnk.sessions.length), ST.noSessionSlot)])
    fun d =>
      let n := freeSession d
      let auth := role == 1 && keysEnrolled d
      let (v, d) := if auth then d.fresh 32 else (0, d)
      let d := if role = 1 ∧ auth = false then (match d.owner? with
        | some o => closeSession d o.num 3
        | none => d) else d
      let own := role == 1 && !auth
      let s : Session := { num := n, owner := own, addr := h.src, port := h.port, keepalive := if keepalive = 0 then 10 else keepalive,
                           maxPayload := maxPayload, lastHeard := d.now, nonce := if auth then some v else none, takeover := takeover == 1,
                           header := n * 2 ^ 18 + d.nvm.unitNumber }
      let d := d.onLnk fun l => { l with sessions := l.sessions ++ [s] }
      { dev := raiseEv d EV.sessionOpen [a4 n, a4 (b2n own)],
        reply := { fields := [fld 1 n, fld 1 (b2n auth), fld 32 v], session := some n } }

/-- SESSION-AUTH (R125): the signature over the nonce and bytes 4 to 6 of SESSION-OPEN's response, made with the enrolled key the index names,
grants the owner role; the third failure on a session closes it. A key that is not enrolled, and an answer to no nonce, count as
failures: DESIGN CHOICE (log entry 111). -/
def execSessionAuth (h : Hdr) (key : Nat) (sig : EcdsaSig) : Meaning :=
  let good (d : Dev) : Bool := (nth d.nvm.owners key).enrolled && (match d.session? h.session with
    | some x => x.nonce.any fun v => ecdsaVerify (nth d.nvm.owners key).pub (sha384 (bytesOf [fld 32 v, fld 3 x.header])) sig.r sig.s
    | none => false)
  hostCmd { opcode := 0x0002, observer := true } h (.sessionAuth h key sig)
    (fun d => firstBad [(decide (3 < key), ST.badArg), (h.dryRun && !good d, ST.authFail),
      (good d && d.owner?.isSome && !isOwner d h && (match d.session? h.session with
        | some s => !s.takeover
        | none => false), ST.ownerPresent)])
    fun d =>
      if good d then
        let d := match d.owner? with
          | some o => if o.num = h.session then d else closeSession d o.num 3
          | none => d
        { dev := d.onLnk (·.onSession h.session fun s => { s with owner := true, nonce := none, authFails := 0 }) }
      else
        let fails := match d.session? h.session with
          | some s => s.authFails + 1
          | none => 0
        let d := d.onLnk (·.onSession h.session fun s => { s with authFails := fails })
        { dev := if 3 ≤ fails then closeSession d h.session 5 else d, reply := { status := ST.authFail } }

/-- SESSION-CLOSE (R127). -/
def execSessionClose (h : Hdr) : Meaning :=
  hostCmd (ask 0x0003) h (.sessionClose h) noCheck (just fun d => closeSession d h.session 1)

/-- SESSION-KEEPALIVE (R129): any packet restarts the timer; the answer is the axis. -/
def execSessionKeepalive (h : Hdr) : Meaning :=
  query (ask 0x0004 [8]) h (.sessionKeepalive h) noCheck fun d => [fld 8 d.axis]

/-- SESSION-STATUS (R168). -/
def execSessionStatus (h : Hdr) : Meaning :=
  query (ask 0x0005 [1, 1, 1, 1, 1, 4, 4, 4, 4, 4, 4, 4, 4]) h (.sessionStatus h) noCheck fun d =>
    match d.session? h.session with
    | none => []
    | some s => [fld 1 (b2n s.owner)] ++ d.lnk.mail.map (fun c => fld 1 (c.queuedBy s.num))
        ++ [fld 4 s.lostTotal, fld 4 s.crcErrors, fld 4 s.headerErrors, fld 4 s.misaddressed, fld 4 s.noSession, fld 4 s.thorned,
          fld 4 s.busyRefusals, fld 4 s.bcastRefusals]

/-- SESSION-LIST (R168, R677). -/
def execSessionList (h : Hdr) : Meaning :=
  query (ask 0x0006 [1]) h (.sessionList h) noCheck fun d =>
    fld 1 d.lnk.sessions.length :: d.lnk.sessions.flatMap fun s =>
      [fld 1 s.num, fld 1 (b2n s.owner), fld 6 (if s.addr.isUdp then 0 else s.addr.eth), fld 16 (if s.addr.isUdp then s.addr.ip else 0),
        fld 2 (if s.addr.isUdp then s.addr.udp else 0)]

/-- SESSION-EVICT (R169): against an open observer session only. -/
def execSessionEvict (h : Hdr) (target : Nat) : Meaning :=
  hostCmd (cmd 0x0007) h (.sessionEvict h target)
    (fun d => match d.session? target with
      | none => refusal ST.badArg
      | some s => if s.owner then refusal ST.badArg else none)
    (just fun d => closeSession d target 4)

/-! ### Events -/

/-- EVENT-SUBSCRIBE (R153). -/
def execEventSubscribe (h : Hdr) (mask minSev : Nat) : Meaning :=
  hostCmd (ask 0x0010) h (.eventSubscribe h mask minSev)
    (fun _ => firstBad [(decide (2 ^ 17 ≤ mask) || decide (3 < minSev), ST.badArg)])
    (just fun d => d.onLnk (·.onSession h.session fun s => { s with mask := mask, minSev := minSev }))

/-- R152: the bytes of an event record. -/
def recFields (r : EvRec) : List Field :=
  [fld 2 r.code, fld 1 r.sev, fld 1 (fieldBytes r.args), fld 4 r.num, fld 8 r.axis] ++ r.args

/-- R156: when a session's queue has space again and records were lost, EV_EVT_LOST with the count goes to that
session alone. -/
def noteLost (d : Dev) (n : Nat) : Dev :=
  match d.session? n with
  | none => d
  | some s =>
    if s.lost = 0 ∨ 256 ≤ s.queue.length then d
    else raiseTo (some n) (d.onLnk (·.onSession n fun s => { s with lost := 0 })) EV.evtLost [a4 s.lost]

/-- EVENT-GET (R156): records of the history ring from an event number on. -/
def execEventGet (h : Hdr) (first count : Nat) : Meaning :=
  hostCmd (ask 0x0011 [2]) h (.eventGet h first count)
    (fun _ => firstBad [(decide (count < 1) || decide (64 < count), ST.badArg)])
    fun d =>
      let rs := (d.lnk.history.filter fun r => decide ((r.num + 2 ^ 32 - first) % 2 ^ 32 < 2 ^ 31)).take count
      { dev := noteLost d h.session, reply := { fields := fld 2 rs.length :: rs.flatMap recFields } }

/-- The records of a queue that one EVT packet of at most `mp` bytes holds (R155). -/
def packetRecs : Nat → List EvRec → List EvRec
  | _, [] => []
  | mp, r :: l => let n := 16 + fieldBytes r.args; if n ≤ mp then r :: packetRecs (mp - n) l else []

/-- R155, R156: a session's waiting records leave in one EVT packet, in the urgent queue when it holds an alarm; its channel is the
highest severity; lost records are then reported. -/
def sendEvt (d : Dev) (s : Session) : Dev :=
  let rs := packetRecs (payloadFor d s.num s.port) s.queue
  if rs.isEmpty || !portUp d s.port then d
  else
    let urgent := rs.any (·.sev == 3)
    let d := d.onLnk (·.onSession s.num fun s => { s with queue := s.queue.drop rs.length })
    noteLost (d.sendPkt s.port (if urgent then 1 else 2) s.addr 2 (if urgent then 0x10 else 0) s.num ((rs.map (·.sev)).foldl max 0)
      (bytesOf (rs.flatMap recFields))) s.num

/-- EVT_PACKET_SEND (R155): an EVT packet leaves before its time is up. -/
def execEvtPacketSend (session : Nat) : Meaning := onDev fun d =>
  match d.session? session with
  | none => d
  | some s => sendEvt d s

/-- R155: whether a session's EVT packet must leave: 100 us (196,608 ticks) after its first record was queued, 20 us (39,321 ticks)
after an alarm was, or once it is full. -/
def evtDue (d : Dev) (s : Session) : Bool :=
  let rs := packetRecs (payloadFor d s.num s.port) s.queue
  let old (r : EvRec) (t : Nat) : Bool := decide (r.axis + t ≤ d.axis) || decide (d.axis < r.axis)
  decide (rs.length < s.queue.length) || rs.any fun r => old r (if r.sev = 3 then 39321 else 196608)

/-- R155: at a tick the EVT packets whose time is up leave. -/
def evtTick (d : Dev) : Dev := d.lnk.sessions.foldl (fun d s => if evtDue d s then sendEvt d s else d) d

/-- SESSION_TIMEOUT (R129): the session's keepalive timer has reached its timeout. -/
def execSessionTimeout (session : Nat) : Meaning := onDev fun d =>
  match d.session? session with
  | none => d
  | some s => if s.lastHeard + s.keepalive * tickHz ≤ d.now then closeSession d session 2 else d

/-- R121, R137: the step from 2 to 6 at which a received packet fails, none for a packet that passes. -/
def dropStep (d : Dev) (p : RawPkt) : Option Nat :=
  let b := p.bytes
  let n := beAt b 2 2
  let whole := decide (20 + n ≤ b.length)
  let session := beAt b 4 3 / 2 ^ 18 % 16
  let flags := beAt b 1 1
  let type := beAt b 0 1 % 16
  let own := match d.session? session with
    | some s => Addr.same s.addr p.src
    | none => false
  if whole && crc32c (b.take (16 + n)) != beAt b (16 + n) 4 then some 2
  else if beAt b 0 1 / 16 != 1 || flags % 4 != 0 || !whole then some 3
  else if (if flags.testBit 7 then type != 0 || !(own || (session == 0 && beAt b 16 2 == 0)) else beAt b 4 3 % 2 ^ 18 != d.nvm.unitNumber) then some 4
  else if !(type == 0 || type == 3 || type == 4) then some 5
  else if type != 0 && !own then some 6
  else none

/-- R121, R168: a packet dropped at a step is counted on its port and on the session it names. -/
def countDrop (l : Lnk) (port session step : Nat) : Lnk :=
  let l := { l with ports := upd l.ports port fun c =>
    let c := { c with received := c.received + 1 }
    match step with
    | 2 => { c with crcErrors := c.crcErrors + 1 }
    | 4 => { c with misaddressed := c.misaddressed + 1 }
    | 6 => { c with noSession := c.noSession + 1 }
    | _ => { c with headerErrors := c.headerErrors + 1 } }
  l.onSession session fun s =>
    match step with
    | 2 => { s with crcErrors := sat32 (s.crcErrors + 1) }
    | 4 => { s with misaddressed := sat32 (s.misaddressed + 1) }
    | 6 => { s with noSession := sat32 (s.noSession + 1) }
    | _ => { s with headerErrors := sat32 (s.headerErrors + 1) }

/-- SWIOS_PACKET_DROPPED (R121): a packet on a port, with the verdict of its Ethernet FCS, is held to steps 1 to 6; one that fails is
dropped and counted. -/
def execSwiosPacketDropped (port : Nat) (fcsOk : Bool) (pkt : RawPkt) : Meaning := onDev fun d =>
  if !portUp d port then d
  else if !fcsOk then d.onLnk fun l => { l with ports := upd l.ports port fun c => { c with fcsErrors := c.fcsErrors + 1 } }
  else if !carried d pkt.src pkt.wire then d
  else match dropStep d pkt with
    | some k => d.onLnk fun l => countDrop l port (beAt pkt.bytes 4 3 / 2 ^ 18 % 16) k
    | none => d

/-- R121 step 6, R129, R164: a BULK or STREAM packet of the unit's own number, of `n` payload bytes, arrives: none when it is
dropped for want of its session; otherwise the session is heard and the bytes enter the ingress buffer. The first part is the unit in
either case. -/
def dataIn (d : Dev) (session : Nat) (rx : PktIn) (n : Nat) : Dev × Bool :=
  if d.ctl.phase ≠ .running && d.ctl.phase ≠ .loader || !portUp d rx.port || !carried d rx.src rx.wire then (d, false)
  else match d.session? session with
    | none => (d.onLnk fun l => countDrop l rx.port session 6, false)
    | some s =>
      if !Addr.same s.addr rx.src then (d.onLnk fun l => countDrop l rx.port session 6, false)
      else
        (d.onLnk fun l => { l.onSession session (fun s => { s with lastHeard := d.now, port := rx.port }) with
          ports := upd l.ports rx.port fun c => { c with received := c.received + 1, ingress := if rx.port < 32 then c.ingress + n else 0 } }, true)

/-! ### Bulk objects -/

/-- R141: the kinds that are inbound. -/
def kindIn (k : Nat) : Bool := (decide (1 ≤ k) && decide (k ≤ 7)) || k == 0x0F

/-- R140: the fragment data size: the largest multiple F of 256 with F + 12 + F/64 + 4 at most `max_payload`. -/
def fragSize (mp : Nat) : Nat :=
  ((List.range 36).map (· * 256)).foldl (fun m f => if f + 12 + f / 64 + 4 ≤ mp then f else m) 0

/-- Inbound objects staged in DRAM or in general SRAM (R140). -/
def staged (d : Dev) (dram : Bool) : List BulkObj := d.lnk.bulk.filter fun o => !o.outbound && o.inDram == dram

/-- R140: whether an object of a length fits the staging limits. -/
def stageFits (d : Dev) (len : Nat) : Bool :=
  let dram := domOn d 9
  let used := ((staged d dram).map (·.len)).sum
  decide ((d.lnk.bulk.filter fun o => !o.outbound).length < 16)
    && decide (used + len ≤ (if dram then 268435456 else 8388608))

/-- The object a session may name: its own (R140, R144), or one the unit produced for no session. -/
def heldObj (d : Dev) (h : Hdr) (handle : Nat) : Option BulkObj :=
  match d.obj? handle with
  | some o => if o.session = h.session ∨ o.session = 0 then some o else none
  | none => none

/-- BULK-OPEN (R140, R141): in the recovery loader of kind 0x05 only (R625). -/
def execBulkOpen (h : Hdr) (kind len crc : Nat) : Meaning :=
  hostCmd { opcode := 0x0020, loader := true, widths := [2, 2] } h (.bulkOpen h kind len crc)
    (fun d => firstBad [(!kindIn kind || len == 0, ST.badArg), (d.ctl.phase == .loader && kind != 0x05, ST.secState),
      (!stageFits d len, ST.bulkFull)])
    fun d =>
      let n := newHandle d
      let f := fragSize (payloadFor d h.session h.port)
      let o : BulkObj := { handle := n, kind := kind, len := len, crc := crc, inDram := domOn d 9, session := h.session, frag := f }
      { dev := d.onLnk fun l => { l with bulk := l.bulk ++ [o], nextHandle := n % 65535 + 1 }, reply := { fields := [fld 2 n, fld 2 f] } }

/-- Bytes of an object that have arrived. -/
def BulkObj.received (o : BulkObj) : Nat := (o.frags.map fun f => f.data.length).sum

/-- The first missing offset of an object, its length when none is missing (R168). -/
def BulkObj.firstMissing (o : BulkObj) : Nat := min o.len o.bytes.length

/-- BULK-STATUS (R168). -/
def execBulkStatus (h : Hdr) (handle : Nat) : Meaning :=
  query { opcode := 0x0021, loader := true, widths := [8, 8, 8] } h (.bulkStatus h handle)
    (fun d => if (heldObj d h handle).isNone then refusal ST.bulkState else none)
    fun d => match d.obj? handle with
      | none => []
      | some o => [fld 8 o.received, fld 8 o.firstMissing, fld 8 (o.len - o.received)]

/-- BULK-CLOSE (R143): every byte has arrived and the CRC-32C equals the declared one; a closed handle closes again
without effect. -/
def execBulkClose (h : Hdr) (handle : Nat) : Meaning :=
  hostCmd { opcode := 0x0022, loader := true } h (.bulkClose h handle)
    (fun d => match heldObj d h handle with
      | none => refusal ST.bulkState
      | some o =>
        if o.closed then none
        else if o.received < o.len then refusal ST.bulkState
        else if crc32c o.bytes = o.crc then none else refusal ST.bulkCrc)
    (just fun d => d.onLnk fun l => { l with bulk := l.bulk.map fun o => if o.handle == handle then { o with closed := true } else o })

/-- BULK-ABORT (R143, R365): the object is freed, and with it what it held; its transfers end. -/
def execBulkAbort (h : Hdr) (handle : Nat) : Meaning :=
  hostCmd { opcode := 0x0023, loader := true } h (.bulkAbort h handle)
    (fun d => if (heldObj d h handle).isNone then refusal ST.bulkState else none)
    (just fun d => (consume d handle).onLnk fun l => { l with transfers := l.transfers.filter fun t => t.2 != handle })

/-- BULK-READ and BULK-RESEND (R144): the object is closed and the range lies inside it. -/
def readCheck (d : Dev) (h : Hdr) (handle offset len : Nat) : Option Reply :=
  if len = 0 then refusal ST.badArg
  else match heldObj d h handle with
    | none => refusal ST.bulkState
    | some o =>
      if o.len < offset + len then refusal ST.badArg
      else if o.closed = false then refusal ST.bulkState else none

/-- R142, R144: the packets of a range, each of at most F bytes, the last with `more` clear: payload and flags of each. Thorned words
keep their mark (R122). -/
def bulkPackets (d : Dev) (h : Hdr) (handle offset len : Nat) : List (List Nat × Nat) :=
  let f := max 1 (fragSize (payloadFor d h.session h.port))
  let (bytes, th) := match d.obj? handle with
    | some o => (o.bytes, o.thorns)
    | none => ([], [])
  (cutParts f len).map fun (k, n) =>
    let o := offset + k
    let bad := (List.range (ceilDiv n 8)).filter fun w => th.any fun t => decide (t * 8 < o + 8 * w + 8) && decide (o + 8 * w < t * 8 + 8)
    let (p, fl) := withThorn (bytesOf [fld 2 handle, fld 2 0, fld 8 o]) ((bytes.drop o).take n) bad
    (p, fl + (if k + n < len then 0x08 else 0))

/-- R144: the cycle at which a packet may start behind `bits` already sent at a pace in Mb/s; 0 is the full rate. -/
def paced (d : Dev) (pace bits : Nat) : Nat := if pace = 0 then 0 else d.now + ceilDiv (bits * tickHz) (pace * 1000000)

/-- R144, R507: the packets of a range handed to the egress queue of bulk, the pace counting every byte on the wire; the transfer is under
way until BULK_DONE. An object in DRAM is read through stream port 5. -/
def startTransfer (d : Dev) (h : Hdr) (handle offset len pace : Nat) : Dev :=
  match d.session? h.session with
  | none => d
  | some s =>
    let d := if (d.obj? handle).any (·.inDram) then d.portMoves 5 len else d
    ((bulkPackets d h handle offset len).foldl (fun (e, bits) (p, fl) =>
      (e.sendPkt h.port 4 s.addr 3 fl h.session 2 p (paced d pace bits) handle, bits + wireBits (frameTo d s.addr 4 (swios d 3 fl h.session 2 0 0 p)).size))
      (d, 0)).1.onLnk fun l => { l with transfers := l.transfers ++ [(h.session, handle)] }

/-- BULK-READ (R144). -/
def execBulkRead (h : Hdr) (handle offset len pace : Nat) : Meaning :=
  hostCmd (ask 0x0024) h (.bulkRead h handle offset len pace) (fun d => readCheck d h handle offset len)
    (just fun d => startTransfer (d.onLnk fun l =>
      { l with bulk := l.bulk.map fun o => if o.handle == handle then { o with pace := pace, read := o.read || o.len == offset + len } else o }) h handle offset len pace)

/-- BULK-RESEND (R144): at the pace of the handle's last read. -/
def execBulkResend (h : Hdr) (handle offset len : Nat) : Meaning :=
  hostCmd (ask 0x0025) h (.bulkResend h handle offset len) (fun d => readCheck d h handle offset len)
    (just fun d => startTransfer d h handle offset len (match d.obj? handle with
      | some o => o.pace
      | none => 0))

/-- BULK_DONE (R144): the last packet of a transfer has left. -/
def execBulkDone (handle : Nat) : Meaning := onDev fun d =>
  match d.lnk.transfers.find? (·.2 == handle) with
  | none => d
  | some t =>
    if d.lnk.ports.any fun c => c.queue.any fun w => w.handle == handle then d
    else raiseEv (d.onLnk fun l => { l with transfers := l.transfers.erase t }) EV.bulkDone [a4 handle]

/-- R142: whether a fragment keeps the rules: its offset is a multiple of F inside the object, and its data are F
bytes long, the last's as many as remain. -/
def fragOk (o : BulkObj) (offset n : Nat) : Bool :=
  decide (0 < o.frag) && offset % o.frag == 0 && decide (offset < o.len) && n == min o.frag (o.len - offset)

/-- BULK_FRAGMENT (R121 step 6, R129, R142): a fragment from a bound source is stored in any order; a repeated one is
ignored; one that breaks the rules is dropped and counted. -/
def execBulkFragment (session : Nat) (rx : PktIn) (handle offset : Nat) (data thorn : List Nat) : Meaning := onDev fun d =>
  let (d, ok) := dataIn d session rx (12 + data.length)
  if !ok then d
  else
    let drop := d.onLnk fun l => { l with badFragments := l.badFragments + 1 }
    match d.obj? handle with
    | none => drop
    | some o =>
      if o.session ≠ session ∨ o.outbound ∨ fragOk o offset data.length = false then drop
      else if o.closed ∨ o.frags.any (·.off == offset) then d
      else
        let th := thorn.filter fun w => decide (w < ceilDiv data.length 8)
        d.onLnk fun l => { l with bulk := l.bulk.map fun b => if b.handle == handle then { b with frags := b.frags ++ [⟨offset, data, th⟩] } else b }

/-! ### Destinations and reports -/

/-- DEST-SET (R157, R168, R677): an IP version of 0 leaves the IP address and the UDP port unused. -/
def execDestSet (h : Hdr) (index eth ipv ip udp maxPayload : Nat) : Meaning :=
  hostCmd (cmd 0x0030) h (.destSet h index eth ipv ip udp maxPayload)
    (fun _ => firstBad [(decide (15 < index) || !(ipv == 0 || ipv == 4 || ipv == 6)
      || (maxPayload != 0 && (decide (maxPayload < 512) || decide (8960 < maxPayload) || maxPayload % 64 != 0)), ST.badArg)])
    (just fun d => d.onLnk fun l =>
      { l with dests := upd l.dests index fun _ =>
          ⟨eth, ipv, if ipv = 0 then 0 else ip, if ipv = 0 then 0 else udp, maxPayload, true⟩ })

/-- The body length of a kind's largest report: the quickset report (R651), the chain report of 1,024 groups (R309),
block records and input counts (R369), the noise floors (R473) and a received packet (R474); none for a kind no
chapter defines. -/
def reportBody (kind : Nat) : Option Nat :=
  if kind = 0x0080 then some 4293928
  else if kind = 0x0600 then some 2060
  else if kind = 0x0801 ∨ kind = 0x0803 then some 6320
  else if kind = 0x0802 then some 8368
  else if kind = 0x0804 then some 6160
  else if kind = 0x0B01 then some 4
  else if kind = 0x0B02 then some 148
  else none

/-- The `max_payload` of a destination entry on a port (R157). -/
def destPayload (d : Dev) (dest port : Nat) : Nat :=
  let m := (nth d.lnk.dests dest).maxPayload
  if m = 0 then portPayload port else m

/-- The parts of a report whose body has `n` bytes (R158, R651). -/
def reportParts (d : Dev) (dest port n : Nat) : Nat := max 1 (ceilDiv n (destPayload d dest port - 16))

/-- R159: the wire time of a report in ticks: every part with its report header, Swios header and trailer, Ethernet
header, FCS, preamble and gap, at the port's rate. -/
def reportTicks (d : Dev) (dest port n : Nat) : Nat :=
  ceilDiv ((n + reportParts d dest port n * (16 + 20 + 38)) * 8 * tickHz) (max 1 (portRate d port) * 1000000)

/-- REPORT-SLOT-SET (R159): a window shorter than the wire time of the kind's largest report is refused. A period of 0 and an offset not
below the period, which no position meets, draw ST_BAD_ARG: DESIGN CHOICE (log entry 111). -/
def execReportSlotSet (h : Hdr) (kind dest lane period offset window : Nat) : Meaning :=
  hostCmd (cmd 0x0031) h (.reportSlotSet h kind dest lane period offset window)
    (fun d => firstBad [((reportBody kind).isNone || decide (15 < dest) || decide (31 < lane) || period == 0 || decide (period ≤ offset), ST.badArg),
      (decide (window < reportTicks d dest lane ((reportBody kind).getD 0)), ST.slotShort)])
    (just fun d => d.onLnk fun l =>
      { l with slots := l.slots.filter (·.kind != kind) ++ [⟨kind, dest, lane, period, offset, window, none⟩] })

/-- REPORT-SLOT-GET (R168): zeros for a kind without a slot. -/
def execReportSlotGet (h : Hdr) (kind : Nat) : Meaning :=
  query (ask 0x0032 [2, 1, 1, 4, 4, 4]) h (.reportSlotGet h kind) (fun _ => firstBad [((reportBody kind).isNone, ST.badArg)]) fun d =>
    match d.lnk.slots.find? (·.kind == kind) with
    | some s => [fld 2 kind, fld 1 s.dest, fld 1 s.lane, fld 4 s.period, fld 4 s.offset, fld 4 s.window]
    | none => []

/-- R158: the bytes of a part of a report: kind, part, parts, two zero bytes, the position, then the part of the body; and the flags,
with thorn where words of it are thorned (R122). -/
def reportPart (kind part parts axis : Nat) (body thorn : List Nat) : List Nat × Nat :=
  withThorn (bytesOf [fld 2 kind, fld 2 part, fld 2 parts, fld 2 0, fld 8 axis]) body thorn

/-- R157, R158: the parts of a report for a destination on a port: each part's bytes of the body and its thorned words. -/
def bodyParts (d : Dev) (dest port : Nat) (body : List Nat) (thorn : List Nat) : List (List Nat × List Nat) :=
  let room := thornRoom (destPayload d dest port) 16 (!thorn.isEmpty)
  if body.isEmpty then [([], [])]
  else (cutParts room body.length).map fun (o, n) =>
    ((body.drop o).take n, (thorn.filter fun w => decide (o / 8 ≤ w) && decide (8 * w < o + n)).map (· - o / 8))

/-- R157: the address of a destination entry. -/
def Dest.addr (x : Dest) : Addr := ⟨x.ipv != 0, x.eth, x.ip, x.udp⟩

/-- R160: a report sent when it is ready, in egress queue 2, on a port that is up. -/
def reportNow (d : Dev) (kind axis dest port : Nat) (body thorn : List Nat) : Dev :=
  let l := bodyParts d dest port body thorn
  l.zipIdx.foldl (fun d (p, k) =>
    let (b, fl) := reportPart kind k l.length axis p.1 p.2
    d.sendPkt port 2 (nth d.lnk.dests dest).addr 5 fl 0 (kind % 256) b) d

/-- R158, R160: a report formed: it waits for its kind's timed slot; without one, and on the service port, it is sent when ready. -/
def sendReport (d : Dev) (kind axis dest port : Nat) (body : List Field) (thorn : List Nat := []) : Dev :=
  if port < 32 ∧ d.lnk.slots.any (·.kind == kind) then d.onLnk fun l => { l with reports := l.reports ++ [⟨kind, axis, body, thorn, d.axis⟩] }
  else reportNow d kind axis dest port (bytesOf body) thorn

/-- R76: the launch buffers that reports hold. -/
def reportLaunches (d : Dev) : Nat :=
  (d.tmb.launches.filter fun l => match l.what with
    | .report .. => true
    | _ => false).length

/-- R76, R138, R159: a launch buffer that frees goes to the next part of a report, while reports hold fewer than 64, and else to the
first response that waits for one, whose position is chosen then. -/
def giveBuffer (d : Dev) (buffer : Nat) : Dev :=
  let put (d : Dev) (lane pos : Nat) (w : LaunchKind) : Dev := d.onTmb fun t => { t with launches := t.launches ++ [⟨buffer, lane, pos, w⟩] }
  match d.lnk.repParts with
  | (lane, pos, w) :: rest =>
    if reportLaunches d < 64 then put (d.onLnk fun k => { k with repParts := rest }) lane pos w
    else match d.lnk.held with
      | (b, r) :: l => put (d.onLnk fun k => { k with held := l }) r.port (spreadNow d b) (.response r)
      | [] => d
  | [] =>
    match d.lnk.held with
    | (b, r) :: l => put (d.onLnk fun k => { k with held := l }) r.port (spreadNow d b) (.response r)
    | [] => d

/-- Every free launch buffer given to a part of a report, as far as the limit of 64 goes. -/
def placeParts (d : Dev) : Dev :=
  (List.range 64).foldl (fun d _ =>
    match freeBuffer d.tmb.launches with
    | some b => if d.lnk.repParts.isEmpty ∨ 64 ≤ reportLaunches d then d else giveBuffer d b
    | none => d) d

/-- R159: the parts of a report laid back to back on a lane from a slot's start. -/
def slotParts (d : Dev) (s : RepSlot) (start : Nat) (r : PendReport) : List (Nat × Nat × LaunchKind) :=
  let l := bodyParts d s.dest s.lane (bytesOf r.body) r.thorn
  let rate := max 1 (portRate d s.lane) * 1000000
  (l.zipIdx.foldl (fun (out, bits) (p, k) =>
    let (b, fl) := reportPart r.kind k l.length r.axis p.1 p.2
    let w := wireBits (frameTo d (nth d.lnk.dests s.dest).addr 0 (swios d 5 fl 0 (r.kind % 256) 0 0 b)).size
    (out ++ [(s.lane, start + ceilDiv (bits * tickHz) rate, LaunchKind.report r.kind s.dest k l.length r.axis p.1 p.2)], bits + w)) ([], 0)).1

/-- R159: the first slot start at or after the axis position. -/
def nextSlot (d : Dev) (s : RepSlot) : Nat := d.axis + (s.offset + s.period - d.axis % s.period) % s.period

/-- REPORT_SLOT (R159, R160): 7,865 ticks before a slot's start, the report that is ready takes the slot and its parts go into launch
buffers back to back; without a ready report, or with none of the 64 buffers free, the slot is missed. -/
def execReportSlot (kind : Nat) : Meaning := onDev fun d =>
  match d.lnk.slots.find? (·.kind == kind) with
  | none => d
  | some s =>
    let start := nextSlot d s
    if d.axis + minLead < start ∨ s.done = some start then d
    else
      let miss (d : Dev) : Dev := raiseEv d EV.reportMiss [a4 kind]
      let d := d.onLnk fun l => { l with slots := l.slots.map fun x => if x.kind == kind then { x with done := some start } else x }
      match d.lnk.reports.find? (fun r => r.kind == kind && decide (r.ready + minLead ≤ start)) with
      | some r =>
        if 64 ≤ reportLaunches d ∨ (freeBuffer d.tmb.launches).isNone then miss d
        else placeParts (d.onLnk fun l => { l with reports := l.reports.erase r, repParts := l.repParts ++ slotParts d s start r })
      | none => miss d

/-! ### The encapsulation, counters and ports -/

/-- LINK-ENCAP-SET (R169): the settings wait until the response has left. -/
def execLinkEncapSet (h : Hdr) (enc : Encap) : Meaning :=
  hostCmd (cmd 0x0040) h (.linkEncapSet h enc)
    (fun _ => firstBad [(decide (4094 < enc.vlan) || decide (2 < enc.ipv4Mode) || decide (32 < enc.prefixLen), ST.badArg)])
    (just fun d => d.onLnk fun l => { l with newEncap := some (enc, h.session, h.channel, h.seq) })

/-- LINK_ENCAP_APPLY (R169): the waiting settings take effect once the response has left. -/
def execLinkEncapApply : Meaning := onDev fun d =>
  match d.lnk.newEncap with
  | none => d
  | some (e, session, channel, seq) =>
    if answered d session channel seq then
      d.onLnk fun l => { l with encap := e, newEncap := none, dhcpAddr := if e.ipv4Mode = 2 then l.dhcpAddr else 0 }
    else d

/-- LINK-ENCAP-GET (R168). -/
def execLinkEncapGet (h : Hdr) : Meaning :=
  query (ask 0x0041 [2, 2, 2, 1, 4, 1, 4, 16, 16]) h (.linkEncapGet h) noCheck fun d =>
    let e := d.lnk.encap
    [fld 2 e.etherType, fld 2 e.udpPort, fld 2 e.vlan, fld 1 e.ipv4Mode, fld 4 e.ipv4, fld 1 e.prefixLen, fld 4 e.gateway, fld 16 e.ipv6,
      fld 16 (linkLocal d.ident.mac)]

/-- The port a lane argument names: 0xFF is the service port (R168). -/
def portOf (n : Nat) : Nat := if n = 0xFF then 32 else n

/-- LINK-COUNTERS (R168): the clear leaves the pauses of R164, the buffers and the queues as they are. -/
def execLinkCounters (h : Hdr) (port clear : Nat) : Meaning :=
  hostCmd (askClear 0x0042 clear [8, 8, 8, 8, 8, 8, 8]) h (.linkCounters h port clear)
    (fun _ => firstBad [((decide (31 < port) && port != 0xFF) || decide (1 < clear), ST.badArg)])
    fun d =>
      let c := nth d.lnk.ports (portOf port)
      { dev := if clear = 1 then d.onLnk fun l => { l with
        ports := upd l.ports (portOf port) fun c => 
          { paused := c.paused, ingress := c.ingress, pausing := c.pausing, queue := c.queue, line := c.line, share := c.share } } else d,
        reply := { fields := [fld 8 c.received, fld 8 c.sent, fld 8 c.crcErrors, fld 8 c.headerErrors, fld 8 c.misaddressed,
          fld 8 c.pauseSent, fld 8 c.groupsDropped] } }

/-- PRIORITY_FLOW_CONTROL (R164): a pause or resume request is honoured for priority 3 alone. -/
def execPriorityFlowControl (port prio : Nat) (pause : Bool) : Meaning := onDev fun d =>
  if prio = 3 then d.onLnk fun l => { l with ports := upd l.ports port fun c => { c with paused := pause } } else d

/-- R77, R78: a launch leaves at its trigger, P - d: it is sent when its lane is up at that tick and never later; otherwise it is
discarded with EV_LAUNCH_MISS. The buffer it frees is given on. -/
def launchNow (d : Dev) (l : Launch) (send : Dev → Dev) : Dev :=
  let trig := l.pos - launchDelay d l.lane
  if d.axis < trig then d
  else
    let d := d.onTmb fun t => { t with launches := t.launches.erase l }
    giveBuffer (if d.axis = trig ∧ portUp d l.lane then send d else raiseEv d EV.launchMiss [a4 l.buffer, a4 l.lane, a8 l.pos]) l.buffer

/-- SPREAD_RESPONSE (R138, R78): a spread response leaves as a timed launch at its position. -/
def execSpreadResponse (buffer : Nat) : Meaning := onDev fun d =>
  match d.tmb.launches.find? (·.buffer == buffer) with
  | none => d
  | some l =>
    match l.what with
    | .response r => launchNow d l fun d => (r.frames d 0 l.pos).foldl (fun d f => d.start l.lane (wireBits f.size) (.frame l.lane f)) d
    | _ => d

/-- LAUNCH_TRIGGER (R76 to R78, R159): a host's frame, or a part of a report, leaves at its trigger. -/
def execLaunchTrigger (buffer : Nat) : Meaning := onDev fun d =>
  match d.tmb.launches.find? (·.buffer == buffer) with
  | none => d
  | some l =>
    match l.what with
    | .frame b => launchNow d l fun d => d.start l.lane (wireBits b.length) (.launch l.lane l.pos b)
    | .report kind dest part parts axis body thorn => launchNow d l fun d =>
        let (n, d) := d.nextSeq 5 (kind % 256)
        let (b, fl) := reportPart kind part parts axis body thorn
        let f := frameTo d (nth d.lnk.dests dest).addr 0 (swios d 5 fl 0 (kind % 256) n l.pos b)
        d.start l.lane (wireBits f.size) (.frame l.lane f)
    | .response _ => d

/-! ### The ports' MACs -/

/-- R77: whether a frame of `bits` started now would end before every launch held for its port leaves. -/
def beforeLaunches (d : Dev) (port bits : Nat) : Bool :=
  d.tmb.launches.all fun l => l.lane != port ||
    (let t := l.pos - launchDelay d l.lane
     decide (t < d.axis) || decide (bits * tickHz ≤ (t - d.axis) * (portRate d port * 1000000)))

/-- R161, R164: the frame a port would send next: the first of queue 1, else of queue 2, else, unless its partner has paused priority
3, of the streams and bulk, where bulk that waits for its share of 1/16 comes first. -/
def nextFrame (d : Dev) (c : PortCtr) : Option Waiting :=
  let first (q : Nat) : Option Waiting := c.queue.find? fun w => w.queue == q && decide (w.from_ ≤ d.now)
  match first 1, first 2 with
  | some w, _ => some w
  | none, some w => some w
  | none, none =>
    if c.paused then none
    else match first 3, first 4 with
      | some s, some b => if 15 * b.bits ≤ c.share then some b else some s
      | some s, none => some s
      | none, b => b

/-- R161: the bits of streams sent while bulk waits. -/
def shareAfter (c : PortCtr) (w : Waiting) : Nat :=
  if w.queue = 4 then c.share - 15 * w.bits
  else if w.queue = 3 ∧ c.queue.any (·.queue == 4) then c.share + w.bits
  else if c.queue.any (·.queue == 4) then c.share else 0

/-- R103: whether a lane is being taken down and only that is waited for, so that its MAC starts nothing more. -/
def closing (d : Dev) (port : Nat) : Bool :=
  match (nth d.lanes port).down with
  | some (_, session, channel, seq) => decide (port < 32) && answered d session channel seq
  | none => false

/-- R77, R161: a tick of a port's MAC: the frame on the line moves on, and when it has left, the next one starts that ends before the
launches held. A port that is down loses what waits. -/
def egress (d : Dev) (port : Nat) : Dev :=
  let c := nth d.lnk.ports port
  let put (f : PortCtr → PortCtr) (d : Dev) : Dev := d.onLnk fun l => { l with ports := upd l.ports port f }
  if !portUp d port then put (fun c => { c with queue := [], line := 0, share := 0 }) d
  else
    let line := c.line - portRate d port * 3125
    let d := put (fun c => { c with line := line }) d
    if line ≠ 0 ∨ closing d port then d
    else match nextFrame d c with
      | none => d
      | some w =>
        if beforeLaunches d port w.bits then
          put (fun c => { c with queue := c.queue.erase w, share := shareAfter c w }) (d.start port w.bits w.out)
        else d

/-- R164: the unit pauses or resumes a lane's partner: a priority flow control frame goes ahead of what waits. -/
def sendPfc (d : Dev) (port : Nat) (pause : Bool) : Dev :=
  d.onLnk fun l => { l with ports := upd l.ports port fun c =>
    { c with pausing := pause, pauseSent := c.pauseSent + 1, queue := ⟨1, wireBits 60, 0, none, 0, .pfc port pause⟩ :: c.queue } }

/-- R164: a tick of a lane's ingress buffer of 1 MiB: its consumers take bytes out, a free value per tick; with VLAN tagging the
partner is paused above 75 % and resumed below 50 %. -/
def ingressTick (d : Dev) (port : Nat) : Dev :=
  let c := nth d.lnk.ports port
  let (n, d) := d.fresh 4
  let left := c.ingress - n
  let d := d.onLnk fun l => { l with ports := upd l.ports port fun c => { c with ingress := left } }
  if d.lnk.encap.vlan = 0 then d
  else if !c.pausing && decide (786432 < left) then sendPfc d port true
  else if c.pausing && decide (left < 524288) then sendPfc d port false
  else d

/-- R138: spread responses of the service port leave at their positions. -/
def timedLeave (d : Dev) : Dev :=
  let due (e : Nat × Rsp) : Bool := decide (e.1 ≤ d.axis)
  (d.lnk.timed.filter due).foldl (fun d e => d.sendRsp e.2) (d.onLnk fun l => { l with timed := l.timed.filter fun e => !due e })

/-- What a tick does on the link: EVT packets and timed responses that are due, the ingress buffers, and every port's MAC. -/
def linkTick (d : Dev) : Dev :=
  ((evtTick (timedLeave d)).each 32 (fun d p => let c := nth d.lnk.ports p; c.ingress != 0 || c.pausing) ingressTick).each 33
    (fun d p => let c := nth d.lnk.ports p; !c.queue.isEmpty || c.line != 0) egress

/-- DHCP_REPLY (R115). -/
def execDhcpReply (addr : Nat) : Meaning := onDev fun d =>
  if d.lnk.encap.ipv4Mode = 2 then d.onLnk fun l => { l with dhcpAddr := addr } else d

/-- SERVICE_PORT_LINK (R613). -/
def execServicePortLink (up : Bool) : Meaning := onDev fun d => d.onLnk fun l => { l with svcUp := up }

/-- UNDEFINED_OPCODE (R16, R170): refused with ST_BAD_OPCODE. -/
def execUndefinedOpcode (h : Hdr) (op : Nat) : Meaning :=
  hostCmd { opcode := op, unknown := true } h (.undefinedOpcode h op) noCheck (just id)

end Sys2Proof.Machine
end

