-- ==== Sys2Proof/Machine/Formats.lean ====
section
/-! DEFINITION. Complex samples: rounding shifts and symmetric saturation (R150, R190), the sample formats (R149) and
the block format BFP9 (R151), as numbers and as the bytes of a packet (R146). -/

namespace Sys2Proof.Machine

/-- A complex sample, I and Q. -/
abbrev Cx := Int × Int

/-- Sums and products of samples. -/
def Cx.add (a b : Cx) : Cx := (a.1 + b.1, a.2 + b.2)
def Cx.mul (a b : Cx) : Cx := (a.1 * b.1 - a.2 * b.2, a.1 * b.2 + a.2 * b.1)
def Cx.scale (k : Int) (a : Cx) : Cx := (k * a.1, k * a.2)
def Cx.sum (l : List Cx) : Cx := l.foldl Cx.add (0, 0)
def Cx.norm (a : Cx) : Nat := (a.1 * a.1 + a.2 * a.2).toNat

/-- R190: a component shifted right, rounded half to even, and saturated to ±m; with it, whether it saturated. -/
def shrSat (m : Int) (sh : Nat) (z : Int) : Int × Bool :=
  let v := divHalfEven z (2 ^ sh)
  (satSym m v, satSym m v != v)

/-- A sample so shifted; it saturates when one of its components does. -/
def Cx.shrSat (m : Int) (sh : Nat) (a : Cx) : Cx × Bool :=
  let x := Machine.shrSat m sh a.1
  let y := Machine.shrSat m sh a.2
  ((x.1, y.1), x.2 || y.2)

/-- A sample so shifted, and how many of its components saturate (R223). -/
def Cx.shrCount (m : Int) (sh : Nat) (a : Cx) : Cx × Nat :=
  let x := Machine.shrSat m sh a.1
  let y := Machine.shrSat m sh a.2
  ((x.1, y.1), b2n x.2 + b2n y.2)

/-- R149: the bits of a component of a format, and the largest magnitude it produces (R150). -/
def formatWidth (format : Nat) : Nat := nth [0, 12, 16, 9, 4, 8, 24, 32] format
def formatMax (format : Nat) : Int := 2 ^ (formatWidth format - 1) - 1

/-- R150: a component read from its bits, the most negative code as the most negative value produced. -/
def readSym (w n : Nat) : Int := max (-(2 ^ (w - 1) - 1)) (toSigned w n)

/-- R149: a sample in a format other than BFP9: its two components as one big-endian number. -/
def sampleField (format : Nat) (a : Cx) : Field :=
  let w := formatWidth format
  fld (w / 4) (ofSigned w a.1 * 2 ^ w + ofSigned w a.2)
def readSample (format n : Nat) : Cx :=
  let w := formatWidth format
  (readSym w (n / 2 ^ w), readSym w n)

/-- R151: the exponent of a block of 16 samples: the smallest for which every component, divided and rounded half to even, lies
within ±255, at most 15. -/
def bfpExp (l : List Cx) : Nat :=
  let ok (e : Nat) : Bool := l.all fun a => decide (|divHalfEven a.1 (2 ^ e)| ≤ 255) && decide (|divHalfEven a.2 (2 ^ e)| ≤ 255)
  ((List.range 16).find? ok).getD 15

/-- R151: the mantissas of a block, and the number of its components that saturate. -/
def bfpBlock (l : List Cx) : Nat × List Cx × Nat :=
  let e := bfpExp l
  let m := l.map fun a => (Machine.shrSat 255 e a.1, Machine.shrSat 255 e a.2)
  (e, m.map fun x => (x.1.1, x.2.1), (m.map fun x => b2n x.1.2 + b2n x.2.2).sum)

/-- R149: the bytes of a block: the exponent, then the mantissas packed most significant bit first; and the samples that such
bytes hold. -/
def bfpFields (e : Nat) (l : List Cx) : List Field :=
  [fld 1 (e * 16), fld 36 (l.foldl (fun n a => (n * 512 + ofSigned 9 a.1) * 512 + ofSigned 9 a.2) 0)]
def readBfp (l : List Nat) : List Cx :=
  let n := beAt l 1 36
  (List.range 16).map fun k =>
    let a := n / 2 ^ (18 * (15 - k))
    (readSym 9 (a / 512) * 2 ^ (beAt l 0 1 / 16), readSym 9 a * 2 ^ (beAt l 0 1 / 16))

/-- R203, R149: an element of a 16-bit source put into a format, one sample or a block of 16: its fields, and the samples that
saturate. F16 takes it as it is; F12 divides it by 16. -/
def elementFields (format : Nat) (l : List Cx) : List Field × Nat :=
  if format = 3 then
    let (e, m, n) := bfpBlock l
    (bfpFields e m, n)
  else
    let x := l.map fun a => Cx.shrSat (formatMax format) (if format = 1 then 4 else 0) a
    (x.map fun v => sampleField format v.1, (x.map fun v => b2n v.2).sum)

/-- The 16-bit samples that an element of a packet gives its consumer: F12 multiplied by 16 (R217). -/
def readElement (format : Nat) (l : List Nat) : List Cx :=
  if format = 3 then readBfp l
  else
    let v := readSample format (be l)
    [if format = 1 then Cx.scale 16 v else v]

/-- R146: the bytes of the groups of a packet: group after group, and in each its elements in turn. -/
def groupsBytes (format : Nat) (groups : List (List (List Cx))) : List Nat :=
  bytesOf (groups.flatMap fun g => g.flatMap fun e => (elementFields format e).1)

/-! ### Histories -/

/-- The settings in force at a position: the newest entry not after it. -/
def valAt {α : Type} [Inhabited α] (h : List (Nat × α)) (pos : Nat) : α := ((h.find? fun e => decide (e.1 ≤ pos)).map (·.2)).getD default

/-- A history with the settings that hold from a position on, unless they are the ones in force. -/
def noted {α : Type} [Inhabited α] [DecidableEq α] (h : List (Nat × α)) (pos : Nat) (v : α) : List (Nat × α) :=
  if valAt h pos = v then h else (pos, v) :: h.filter fun e => decide (e.1 < pos)

end Sys2Proof.Machine
end

