-- ==== Sys2Proof/Machine/Stores.lean ====
section
/-! DEFINITION. The stores and what they hold (R482 to R485), the row/column code and the thorns of words (R489 to R495): the reads and
writes of words that serve the fabric, the DMA channels, the signal cores and the blocks that read the weight store. -/

namespace Sys2Proof.Machine

/-! ### Cells -/

/-- Where the cells of a core's memories, of the syndromes and of the SRAM thorn bits lie. -/
def localKey : Nat := 2 ^ 42
def syndKey : Nat := 2 ^ 44
def thornKey : Nat := 2 ^ 45

/-- The DRAM region of an address (R483). -/
def regionOf (a : Nat) : Nat := (a - 0x1000000000) / 0x40000000

/-- What a cell not listed reads as: the NVM window erased bytes, a region whose contents are undefined its free value,
everything else zero. -/
def Memory.unlisted (m : Memory) (a : Nat) : BitVec 8 :=
  if 0x0C00000000 ≤ a ∧ a < 0x0C20000000 then 0xFF#8
  else if 0x1000000000 ≤ a ∧ a < 0x2000000000 then
    match m.undef.lookup (regionOf a) with
    | some n => Config.freeByte n a
    | none => 0#8
  else 0#8

/-- The byte at a key. -/
def Memory.byte (m : Memory) (a : Nat) : BitVec 8 := (m.cells.lookup a).getD (m.unlisted a)

/-- A cell set in a rising list, taken out where it holds the unlisted byte `u`. -/
def putCell : List Host.Cell → Nat → BitVec 8 → BitVec 8 → List Host.Cell
  | [], a, b, u => if b = u then [] else [(a, b)]
  | (x, y) :: l, a, b, u =>
    if a < x then (if b = u then (x, y) :: l else (a, b) :: (x, y) :: l)
    else if a = x then (if b = u then l else (a, b) :: l)
    else (x, y) :: putCell l a b u

/-- A byte written. -/
def Memory.put (m : Memory) (a : Nat) (b : BitVec 8) : Memory := { m with cells := putCell m.cells a b (m.unlisted a) }

/-- The canonical form: keys strictly rising, no cell listed that holds the unlisted byte. -/
def Memory.wf (m : Memory) : Bool :=
  decide (m.cells.Pairwise fun x y => x.1 < y.1) && m.cells.all fun c => decide (c.2 ≠ m.unlisted c.1)

/-- The keys of a span and those of its syndromes and thorns cleared to what they read as unlisted. -/
def Memory.forget (m : Memory) (lo hi : Nat) : Memory :=
  { m with cells := m.cells.filter fun c =>
      !((decide (lo ≤ c.1) && decide (c.1 < hi)) || (decide (syndKey + lo ≤ c.1) && decide (c.1 < syndKey + hi))
        || (decide (thornKey + lo ≤ c.1) && decide (c.1 < thornKey + hi))) }

/-- `n` bytes from a key on, byte 0 the least significant. -/
def Memory.bytesAt (m : Memory) (a : Nat) : Nat → Nat
  | 0 => 0
  | n + 1 => (m.byte a).toNat + 256 * m.bytesAt (a + 1) n

/-- `n` bytes written from a key on. -/
def Memory.putBytes (m : Memory) (a v : Nat) : Nat → Memory
  | 0 => m
  | n + 1 => (m.put a (BitVec.ofNat 8 v)).putBytes (a + 1) (v / 256) n

/-! ### The row/column code (R489, R490) -/

/-- The set bits among the low `n` of a number. -/
def weight (n x : Nat) : Nat := ((List.range n).filter x.testBit).length

/-- R489: row parities and column parities of a word. -/
def rowBits (w : Nat) : Nat := ((List.range 8).map fun i => weight 8 (w / 256 ^ i % 256) % 2 * 2 ^ i).sum
def colBits (w : Nat) : Nat := ((List.range 8).map fun j => ((List.range 8).filter fun i => w.testBit (8 * i + j)).length % 2 * 2 ^ j).sum
def checkWord (w : Nat) : Nat := rowBits w + 256 * colBits w

/-- The bit numbers a parity byte names. -/
def oneBit (x : Nat) : Nat := ((List.range 8).find? x.testBit).getD 0

/-- What the decoder finds (R490). -/
inductive Decoded where
  | clean
  | carried
  | dataBit (n : Nat)
  | checkBit
  | uncorrectable
deriving DecidableEq, Repr

/-- R490: the outcome of a syndrome. -/
def decodeSynd (s : Nat) : Decoded :=
  let r := s % 256
  let c := s / 256 % 256
  if r = 0 ∧ c = 0 then .clean
  else if 14 ≤ weight 16 s then .carried
  else if weight 8 r = 1 ∧ weight 8 c = 1 then .dataBit (8 * oneBit r + oneBit c)
  else if (weight 8 r = 1 ∧ c = 0) ∨ (r = 0 ∧ weight 8 c = 1) then .checkBit
  else .uncorrectable

/-! ### Stores (R482, R483) -/

/-- The store of an address: 0 general SRAM, 1 weight store, 2 sample store, 3 DRAM, 4 a core's memories, 5 boot ROM. -/
def storeOf (a : Nat) : Option Nat :=
  if a < 0x40000 then some 5
  else if 0x100000000 ≤ a ∧ a < 0x102000000 then some 0
  else if 0x200000000 ≤ a ∧ a < 0x201000000 then some 1
  else if 0x300000000 ≤ a ∧ a < 0x308000000 then some 2
  else if 0x1000000000 ≤ a ∧ a < 0x2000000000 then some 3
  else if localKey ≤ a ∧ a < localKey + 0x800000 then some 4
  else none

/-- The first address and the bytes of a store. -/
def storeSpan (n : Nat) : Nat × Nat :=
  match n with
  | 0 => (0x100000000, 0x2000000)
  | 1 => (0x200000000, 0x1000000)
  | 2 => (0x300000000, 0x8000000)
  | 3 => (0x1000000000, 0x1000000000)
  | 4 => (localKey, 0x800000)
  | _ => (0, 0x40000)

/-- The domain of a store (R482). -/
def storeDomain (n : Nat) : Nat := nth [1, 6, 7, 9, 6, 1] n

/-- R485: whether an address of a store can be addressed: a protected region presents its first 819 MiB. -/
def addressable (m : Memory) (a : Nat) : Bool :=
  match storeOf a with
  | none => false
  | some 3 => !nth m.prot (regionOf a) || decide ((a - 0x1000000000) % 0x40000000 < 0x33300000)
  | some _ => true

/-- Whether a word lies under the row/column code (R485). -/
def coded (m : Memory) (a : Nat) : Bool := storeOf a != some 3 || nth m.prot (regionOf a)

def Dev.onMem (d : Dev) (f : Memory → Memory) : Dev := { d with mem := f d.mem }
def Memory.onStore (m : Memory) (n : Nat) (f : Store → Store) : Memory := { m with stores := upd m.stores n f }
def Store.stick (s : Store) (k : Nat) : Store := { s with sticky := upd s.sticky k fun _ => true }
def Store.count (s : Store) (k n : Nat) : Store := { s with counts := upd s.counts k (· + n) }

/-- The syndrome and the thorn bit stored for the word at a key. -/
def Memory.synd (m : Memory) (a : Nat) : Nat := m.bytesAt (syndKey + a) 2
def Memory.tbit (m : Memory) (a : Nat) : Bool := m.byte (thornKey + a) != 0#8

/-- R491, R494: a word stored clean, or thorned: in DRAM by the check pattern, in SRAM by the thorn bit. -/
def Memory.store (m : Memory) (a w : Nat) (thorn : Bool) : Memory :=
  let m := m.putBytes a w 8
  if storeOf a = some 3 then m.putBytes (syndKey + a) (if thorn then 0xFFFF else 0) 2
  else (m.putBytes (syndKey + a) 0 2).put (thornKey + a) (if thorn then 1#8 else 0#8)

/-- R490: what the word at an 8-byte boundary reads as, and whether it reads thorned. -/
def Memory.decoded (m : Memory) (a : Nat) : Nat × Bool :=
  let w := m.bytesAt a 8
  match decodeSynd (m.synd a) with
  | .dataBit b => (Nat.xor w (2 ^ b), m.tbit a)
  | .clean => (w, m.tbit a)
  | .checkBit => (w, m.tbit a)
  | .carried => (w, true)
  | .uncorrectable => (w, true)

/-- R490, R494: whether a word is stored thorned. -/
def Memory.thorned (m : Memory) (a : Nat) : Bool := m.tbit a || decodeSynd (m.synd a) == .carried

/-- What a decoder does to the counts and events of a store (R490, R515). -/
def noteDecoded (d : Dev) (n a : Nat) (r : Decoded) (thornBit : Bool) : Dev :=
  match r with
  | .clean => if thornBit then d.onMem (·.onStore n fun s => (s.stick 2).count 3 1) else d
  | .carried => d.onMem (·.onStore n fun s => (s.stick 2).count 3 1)
  | .dataBit _ => raiseLimited (d.onMem (·.onStore n fun s => (s.stick 0).count 0 1)) EV.memCorrected n [a4 n]
  | .checkBit => raiseLimited (d.onMem (·.onStore n fun s => (s.stick 0).count 1 1)) EV.memCorrected n [a4 n]
  | .uncorrectable =>
    raiseLimited (d.onMem (·.onStore n fun s => { (s.stick 1).count 2 1 with uncorr := min 65535 (s.uncorr + 1) })) EV.memUncorr n [a4 n, a8 a]

/-- R490, R504: the word at an 8-byte boundary of a store as a reader gets it, its thorn, and the unit after the read. -/
def readWord (d : Dev) (a : Nat) : Nat × Bool × Dev :=
  let w := d.mem.bytesAt a 8
  match storeOf a with
  | none => (w, true, d)
  | some n =>
    if (nth d.mem.stores n).failed then (w, true, d)
    else if !coded d.mem a then (w, false, d)
    else
      let r := decodeSynd (d.mem.synd a)
      let t := d.mem.tbit a
      let d := noteDecoded d n a r t
      match r with
      | .dataBit b => (Nat.xor w (2 ^ b), t, d)
      | .clean => (w, t, d)
      | .checkBit => (w, t, d)
      | .carried => (w, true, d)
      | .uncorrectable => (w, true, d)

/-- A word with the bytes of `mask` (bit k byte k) taken from another. -/
def mergeWord (old new mask : Nat) : Nat :=
  ((List.range 8).map fun k => (if mask.testBit k then new else old) / 256 ^ k % 256 * 256 ^ k).sum

/-- R487: a thorn dropped at an unprotected region. -/
def thornDropped (d : Dev) (a : Nat) : Dev :=
  raiseLimited (d.onMem fun m => { m.onStore 3 fun s => (s.stick 3).count 4 1 with dropFirst := some (m.dropFirst.getD a), dropLast := a }) EV.memThornDrop 0 [a8 a]

/-- R487, R493, R504: the bytes of `mask` written to the word at an 8-byte boundary, with the write's thorn. -/
def writeWord (d : Dev) (a w mask : Nat) (thorn : Bool) : Dev :=
  match storeOf a with
  | none => d
  | some n =>
    if (nth d.mem.stores n).failed || mask % 256 == 0 then d
    else if !coded d.mem a then
      let d := if thorn then thornDropped d a else d
      d.onMem fun m => m.putBytes a (mergeWord (m.bytesAt a 8) w mask) 8
    else if mask % 256 = 255 then d.onMem fun m => m.store a w thorn
    else
      let (old, t, d) := readWord d a
      d.onMem fun m => m.store a (mergeWord old w mask) (t || thorn)

/-- A span of bytes of a store read in words: per byte, its value; and the thorned words, numbered by their address. -/
def readSpan (d : Dev) (a n : Nat) : List Nat × List Nat × Dev :=
  let first := a / 8 * 8
  let (ws, th, d) := (List.range (ceilDiv (a - first + n) 8)).foldl (fun (x : List Nat × List Nat × Dev) k =>
    let (v, t, d) := readWord x.2.2 (first + 8 * k)
    (x.1 ++ (List.range 8).map (fun i => v / 256 ^ i % 256), (if t then x.2.1 ++ [first + 8 * k] else x.2.1), d)) ([], [], d)
  ((ws.drop (a - first)).take n, th, d)

/-- A span of bytes written in words; `th` lists the addresses of the words that carry a thorn, `off` the bytes (from 0) whose
enables are clear. -/
def writeSpan (d : Dev) (a : Nat) (bytes th off : List Nat) : Dev :=
  let first := a / 8 * 8
  (List.range (ceilDiv (a - first + bytes.length) 8)).foldl (fun d k =>
    let w := first + 8 * k
    let byte (i : Nat) : Nat := if a ≤ w + i ∧ w + i - a < bytes.length ∧ !off.contains (w + i - a) then nth bytes (w + i - a) % 256 else 0
    let on (i : Nat) : Bool := decide (a ≤ w + i) && decide (w + i - a < bytes.length) && !off.contains (w + i - a)
    writeWord d w ((List.range 8).map fun i => byte i * 256 ^ i).sum ((List.range 8).map fun i => if on i then 2 ^ i else 0).sum (th.contains w)) d

/-- R503, R595: what a store holds is gone with its domain. -/
def storeLost (d : Dev) (n : Nat) : Dev := d.onMem (·.forget (storeSpan n).1 ((storeSpan n).1 + (storeSpan n).2))

end Sys2Proof.Machine
end

