-- ==== Sys2Proof/Machine/Roles.lean ====
section
/-! DEFINITION. Which lanes the groupings use (R30, R105), and what a lost lane means for them (R101, R311, R334). -/

namespace Sys2Proof.Machine

/-- Whether a coppice member or a chain link uses a lane. -/
def laneGrouped (d : Dev) (n : Nat) : Bool :=
  (d.weave.on && (nth d.weave.banks.cur.maps n).dim != 0xFF)
    || d.chains.any fun c => c.on && (c.banks.cur.parent == n || c.banks.cur.childs.contains n)

/-- R312, R331: whether a chain of the unit uses a lane, in either bank of its node. -/
def laneChained (d : Dev) (lane : Nat) : Bool :=
  lane != 0xFF && d.chains.any fun n => n.on && [n.banks.cur, n.banks.shd].any fun c => c.parent == lane || c.childs.contains lane

/-- R331: whether the weave's lane map names a lane, in the bank in force or in a complete shadow. -/
def laneWoven (d : Dev) (lane : Nat) : Bool :=
  let names (b : WeaveBank) : Bool := b.hdr.members != 0 && (nth b.maps lane).dim != 0xFF
  (d.weave.on && names d.weave.banks.cur) || (d.weave.banks.shd.complete && names d.weave.banks.shd)

/-- R30, R205: whether a lane's frames are another grouping's, in force or to come. -/
def laneHeld (d : Dev) (lane : Nat) : Bool := laneChained d lane || laneWoven d lane

/-- R101: a lane is lost to the groupings that use it. A chain node that takes broadcasts from it zero-fills and says so
(R311); a child on it goes missing as no frame of it begins (R304), and a weave bundle routes by the lanes that are up
(R334). -/
def laneLost (d : Dev) (n : Nat) : Dev :=
  (List.range 4).foldl (fun d sb =>
    let c := nth d.chains sb
    if c.on && c.banks.cur.flags.testBit 5 && !c.banks.cur.flags.testBit 7 && c.banks.cur.parent == n then
      raiseEv { d with chains := upd d.chains sb fun x => { x with counts := upd x.counts 6 fun k => sat32 (k + 1) } } EV.chainBcastMiss [a4 sb]
    else d) d

end Sys2Proof.Machine
end

