-- ==== Sys2Proof/Machine/Queue.lean ====
section
/-! DEFINITION. What every block does at a stake (R61 to R75): taking the next due stake in trigger order, its late
and deferred cases, its repetition and its mark; the swap of two banks and the checks of a write to a shadow bank
(R497, R498); the rate profiles (R25, R450); and the free stretches of the axis (R424, R425). -/

namespace Sys2Proof.Machine

/-! ### Stakes -/

end Sys2Proof.Machine

namespace Sys2Proof

open Machine

/-- The flags of a stake (R61). -/
def Stake.deferrable (k : Stake) : Bool := k.flags.testBit 7
def Stake.repeats (k : Stake) : Bool := k.flags.testBit 6
def Stake.marked (k : Stake) : Bool := k.flags.testBit 5

end Sys2Proof

namespace Sys2Proof.Machine

/-- A prefetched stake whose trigger has come. -/
def QStake.ready (q : QStake) (axis : Nat) : Bool :=
  match q.trig with
  | some t => decide (t ≤ axis)
  | none => false

/-- R68: trigger order, then commit order. -/
def QStake.before (a b : QStake) : Bool :=
  let x := a.trig.getD 0
  let y := b.trig.getD 0
  decide (x < y) || (x == y && decide (a.order < b.order))

/-- The prefetched stake that executes next, when its trigger has come (R68). -/
def firstDue (d : Dev) : Option QStake :=
  (d.tmb.stakes.filter fun q => q.ready d.axis).foldl (fun m q =>
    match m with
    | none => some q
    | some x => if q.before x then some q else m) none

/-- R61, R66: a stake that has executed leaves the queue or stands for its next repetition. -/
def QStake.next (q : QStake) : Option QStake :=
  if q.stake.repeats && (q.stake.repeatCount == 0 || decide (0 < q.left)) then
    some { q with pos := q.pos + q.stake.repeatPeriod, left := q.left - 1, trig := none, late := false }
  else none

/-- The queue after a stake has executed once. -/
def Tmb.advance (t : Tmb) (q : QStake) : Tmb :=
  { t with stakes := t.stakes.filterMap fun x => if x.order == q.order then x.next else some x }

/-- R61: the mark of a stake that executed. -/
def markDone (d : Dev) (q : QStake) : Dev :=
  if q.stake.marked && q.stake.action != 0x0100 then raiseEv d EV.stakeMark [a4 q.stake.tag, a8 q.pos] else d

/-- R70: EV_STAKE_LATE with the stake's tag, position and ST_LATE. -/
def raiseLate (d : Dev) (q : QStake) : Dev := raiseEv d EV.stakeLate [a4 q.stake.tag, a8 q.pos, a4 ST.late]

/-- R71: the last tick at which a held stake may still execute. -/
def QStake.limit (q : QStake) : Nat := q.trig.getD q.pos + q.stake.deferLimit * 65536

/-- R71: a stake dropped past its deferral limit: EV_STAKE_DROPPED. -/
def raiseDropped (d : Dev) (q : QStake) : Dev := raiseEv d EV.stakeDropped [a4 q.stake.tag, a8 q.pos]

/-- R69, R71: a deferrable stake that cannot act is held, or dropped when its limit has passed already. -/
def hold (d : Dev) (q : QStake) : Dev :=
  if q.limit < d.axis then raiseDropped d q else d.onTmb fun t => { t with heldStakes := t.heldStakes ++ [q] }

/-- A stake taken from the queue executes: it acts, is held, or takes R70. `able` says whether the target can act, `late`
what R70 does to it besides EV_STAKE_LATE. -/
def stakeRun (able : Dev → QStake → Bool) (late act : Dev → QStake → Dev) (d : Dev) (q : QStake) : Dev :=
  let d := d.onTmb (·.advance q)
  if !q.late && able d q then markDone (act d q) q
  else if q.stake.deferrable then hold d q
  else late (raiseLate d q) q

/-- A stake action comes about: a held deferrable stake of the action whose target can act now (R71), else the next
due stake when it is of this action (R68). -/
def stakeAct (code : Nat) (able : Dev → QStake → Bool) (late act : Dev → QStake → Dev) (d : Dev) : Dev :=
  match d.tmb.heldStakes.find? (fun q => q.stake.action == code && decide (d.axis ≤ q.limit) && able d q) with
  | some q => markDone (act (d.onTmb fun t => { t with heldStakes := t.heldStakes.filter fun x => !(x.order == q.order && x.pos == q.pos) }) q) q
  | none =>
    match firstDue d with
    | none => d
    | some q => if q.stake.action ≠ code then d else stakeRun able late act d q

/-- The repetitions a queued stake still has, the one at hand included; none for one that repeats until cancelled. -/
def QStake.times (q : QStake) : Option Nat := if !q.stake.repeats then some 1 else if q.stake.repeatCount = 0 then none else some (q.left + 1)

/-- The position of a queued stake's first repetition at or after `lo`. -/
def QStake.nextAt (q : QStake) (lo : Nat) : Option Nat :=
  let k := if lo ≤ q.pos then 0 else ceilDiv (lo - q.pos) (max 1 q.stake.repeatPeriod)
  if q.times.all fun n => decide (k < n) then some (q.pos + k * q.stake.repeatPeriod) else none

/-- The positions of a queued stake's repetitions before `hi`. -/
def QStake.upto (q : QStake) (hi : Nat) : List Nat :=
  let n := ceilDiv (hi - q.pos) (max 1 q.stake.repeatPeriod)
  (List.range (match q.times with
    | some m => min m n
    | none => n)).map fun k => q.pos + k * q.stake.repeatPeriod

/-- The entries the queue holds: a held stake without a later repetition still has its own (R66). -/
def queued (d : Dev) : List QStake :=
  d.tmb.stakes ++ d.tmb.heldStakes.filter fun q => !d.tmb.stakes.any fun x => x.order == q.order

/-! ### Banks -/

/-- R73, R75: the shadow comes into force; the former bank frees at an axis position. -/
def Banks.swap {α : Type} (b : Banks α) (freeAt : Nat) : Banks α :=
  { cur := b.shd, shd := b.cur, index := 1 - b.index, thornCur := b.thornShd, thornShd := b.thornCur, freeAt := some freeAt }

/-- A whole write of the shadow bank; `th` counts its thorned words (R497). -/
def Banks.write {α : Type} (b : Banks α) (a : α) (th : Nat := 0) : Banks α := { b with shd := a, thornShd := th }

/-- R74: whether a queued stake arms the shadow of a block: a swap of its own action that names it, or a BANK-SWAP of
its class and instance. -/
def armed (d : Dev) (code cls inst : Nat) (names : Nat → Bool) : Bool :=
  d.tmb.stakes.any fun q =>
    (q.stake.action == code && names q.stake.target) || (q.stake.action == 0x0110 && q.stake.target == cls * 4096 + inst)

/-- R75: the position at which a former bank frees, while it is not yet writable. -/
def Banks.busy {α : Type} (b : Banks α) (axis : Nat) : Option Nat :=
  match b.freeAt with
  | some t => if axis < t then some t else none
  | none => none

/-- R75: ST_BANK_BUSY with the position at which the bank frees. -/
def bankBusyReply (d : Dev) (t : Nat) : Reply := { status := ST.bankBusy, retry := ticksUs (t - d.axis), hint := t }

/-- R74, R75: the checks of a write to shadow banks: `arm` says that one is armed, `busy` lists the positions of those
not yet free. -/
def bankCheck (d : Dev) (arm : Bool) (busy : List Nat) : Option Reply :=
  if arm then refusal ST.shadowArmed else busy.head?.map (bankBusyReply d)

/-- R75: a former bank that has freed: EV_BANK_FREE, and nothing more to wait for. -/
def Banks.freed {α : Type} (b : Banks α) (axis : Nat) : Bool :=
  match b.freeAt with
  | some t => decide (t ≤ axis)
  | none => false

/-- R497: a swap refused for a thorn in the incoming bank. -/
def swapRefused (d : Dev) (e : EvCode) (q : QStake) : Dev := raiseEv d e [a4 q.stake.tag]

/-! ### Profiles -/

/-- The factor k of a rate profile (R25, R450), 0 for a user slot not defined. -/
def profileK (d : Dev) (p : Nat) : Nat :=
  match p with
  | 0 => 8
  | 1 => 6
  | 2 => 4
  | 3 => 3
  | _ => if p < 8 then nth d.syn.slots (p - 4) else 0

/-- The ADC rate of a profile in samples per second (R25). -/
def adcRate (d : Dev) (p : Nat) : Nat := profileK d p * 983040000

/-! ### Changing paths -/

def Dev.onRx (d : Dev) (p : Nat) (f : RxPath → RxPath) : Dev := { d with rx := upd d.rx p f }
def Dev.onTx (d : Dev) (p : Nat) (f : TxPath → TxPath) : Dev := { d with tx := upd d.tx p f }
def Dev.onFe (d : Dev) (p : Nat) (f : Fe → Fe) : Dev := { d with fe := upd d.fe p f }
def Dev.rxPath (d : Dev) (p : Nat) : RxPath := nth d.rx p
def Dev.txPath (d : Dev) (p : Nat) : TxPath := nth d.tx p
def RxPath.sb (p : RxPath) (s : Nat) : RxSb := nth p.sbs s
def TxPath.sb (p : TxPath) (s : Nat) : TxSb := nth p.sbs s
def Dev.onRxSb (d : Dev) (p s : Nat) (f : RxSb → RxSb) : Dev := d.onRx p fun x => { x with sbs := upd x.sbs s f }
def Dev.onTxSb (d : Dev) (p s : Nat) (f : TxSb → TxSb) : Dev := d.onTx p fun x => { x with sbs := upd x.sbs s f }

/-- The paths of a mask, and all pairs of them with the sub-bands of a mask. -/
def pathsOf (mask : Nat) : List Nat := maskList 64 mask
def pathSbs (mask sbs : Nat) : List (Nat × Nat) := (pathsOf mask).flatMap fun p => (maskList 4 sbs).map fun s => (p, s)

/-- R196: the paths and sub-bands a receive or transmit stake names. -/
def named (target : Nat) : List (Nat × Nat) :=
  let ps := if target.testBit 15 then List.range 64 else [target % 64]
  let ss := if target.testBit 14 then List.range 4 else [target / 64 % 4]
  ps.flatMap fun p => ss.map fun s => (p, s)

/-- Whether a stake's target names a path and sub-band (R196). -/
def namesSb (p s target : Nat) : Bool := (target.testBit 15 || target % 64 == p) && (target.testBit 14 || target / 64 % 4 == s)

/-- The paths a stake's target names. -/
def namedPaths (target : Nat) : List Nat := if target.testBit 15 then List.range 64 else [target % 64]

/-- The unit with one frequency-engine slot changed. -/
def Dev.onFre (d : Dev) (n : Nat) (f : FreSlot → FreSlot) : Dev := { d with fre := upd d.fre n f }

end Sys2Proof.Machine

namespace Sys2Proof

open Machine

/-- A slot's size M or N (R255), 1 in mode 0. -/
def FreCfg.size (c : FreCfg) : Nat := if c.mode = 0 then 1 else 2 ^ c.log2

/-- The hop H of mode 1 in input samples (R256). -/
def FreCfg.hop (c : FreCfg) : Nat := if c.oversample = 1 then 3 * c.size / 4 else c.size

/-- The ticks of a normal and of a long symbol (R60). -/
def FreCfg.symbol (c : FreCfg) : Nat := if c.cpType = 1 then 40960 else 140288 / 2 ^ c.mu
def FreCfg.longSymbol (c : FreCfg) : Nat := if c.cpType = 1 then 40960 else 140288 / 2 ^ c.mu + 1024

end Sys2Proof

namespace Sys2Proof.Machine

/-- Nanoseconds in ticks, rounded up. -/
def nsTicks (ns : Nat) : Nat := ceilDiv (ns * 196608) 100000

/-- R288, R226: the part of a transmit slot in d: the size in sixteenths of fabric cycles, 700 ns, and the length of a
symbol (the longest) or of a spectrum's hop, `r` being the input rate in 1 / (768 × 2^32) samples per second. -/
def freDelayOf (c : FreCfg) (r : Nat) : Nat :=
  (if c.mode = 0 then 0 else c.size / 8) + nsTicks 700 +
    (if c.mode = 2 then c.longSymbol else if c.mode = 1 ∧ r ≠ 0 then ceilDiv (c.hop * tickHz * (768 * 2 ^ 32)) r else 0)

end Sys2Proof.Machine

namespace Sys2Proof

open Machine

/-- R60, R261: whether an axis position is a symbol boundary of a mode 2 slot. -/
def FreCfg.atBoundary (c : FreCfg) (a : Int) : Bool :=
  let x := ((a - c.symOffset) % 983040).toNat
  x == 0 || (decide (c.longSymbol ≤ x) && (x - c.longSymbol) % c.symbol == 0)

end Sys2Proof

namespace Sys2Proof.Machine

/-- R229: whether a close of a sub-band's window at an axis position cuts an OFDM symbol: the host places it L_w/2 after
a symbol boundary. -/
def cutsSymbol (d : Dev) (p s a : Nat) : Bool :=
  let f := nth d.fre (4 + s)
  let c := f.cfg
  ((d.txPath p).sb s).banks.cur.cfg.source == 1 && f.on && c.mode == 2 &&
    !c.atBoundary ((a : Int) - (c.wola * tickHz / (c.size * 15000 * 2 ^ c.mu) / 2 : Nat))

/-! ### Bias codes and throttle gaps -/

/-- The unit with one bias DAC changed. -/
def Dev.onDac (d : Dev) (n : Nat) (f : Dac → Dac) : Dev := { d with pwr := { d.pwr with dacs := upd d.pwr.dacs n f } }

/-- One of the seven power counters raised (PWR-COUNTERS order). -/
def Dev.pwrCount (d : Dev) (k n : Nat) : Dev := { d with pwr := { d.pwr with counts := upd d.pwr.counts k fun x => sat32 (x + n) } }

/-- A queue entry in the order of the queue steps, behind those of its own step. -/
def biasInsert (e : Nat × Nat) : List (Nat × Nat) → List (Nat × Nat)
  | [] => [e]
  | x :: l => if e.1 < x.1 then e :: x :: l else x :: biasInsert e l

/-- R598, R599: an entry placed in a DAC's queue for a queue step; one that finds the queue full is dropped. -/
def biasPlace (d : Dev) (dac step code : Nat) : Dev :=
  if 32 ≤ (nth d.pwr.dacs dac).queue.length then
    raiseEv ((d.onDac dac fun x => { x with overflow := true }).pwrCount 4 1) EV.biasQueue [a4 dac]
  else d.onDac dac fun x => { x with queue := biasInsert (step, code) x.queue }

/-- R600: a DAC takes its safe code by fault at the next queue step (`now` false) or at once; its queue is discarded
unless its stakes keep their timing (R233). -/
def biasSafe (d : Dev) (dac : Nat) (now keep : Bool) : Dev :=
  let step := d.axis / 512 * 512 + 512
  let d := d.onDac dac fun x =>
    { x with
      safeSeen := true, code := if now then x.safe else x.code,
      queue := (if now then [] else [(step, x.safe)]) ++ (if keep then x.queue else []) }
  raiseEv (d.pwrCount 5 1) EV.biasSafe [a4 dac]

/-- R231: whether a path's gate is at pinch-off. -/
def gatePinched (d : Dev) (p : Nat) : Bool := let x := nth d.pwr.dacs p; decide (x.safe ≤ x.code)

/-- The order in which levels take the sixteenths of a frame (R611). -/
def gapParts : List Nat := [0, 8, 4, 12, 2, 10, 6, 14, 1, 9, 5, 13, 3, 11, 7, 15]

/-- The part mask of a level (R611). -/
def partMask (level : Nat) : Nat := ((gapParts.take level).map fun k => 2 ^ k).sum

/-- The plan that holds for a frame: the last announced whose frame has come (R611). -/
def planAt (d : Dev) (frame : Nat) : GapPlan := ((d.pwr.plans.filter fun p => decide (p.frame ≤ frame)).getLast?).getD d.pwr.plan

/-- The part of its frame an axis position lies in (R611). -/
def partOf (d : Dev) (a : Nat) : Nat := a % d.tmb.frameLen / max 1 (d.tmb.frameLen / 16)

/-- R611, R612: whether an axis position lies in a gap of the unit, or of a path. -/
def unitGap (d : Dev) (a : Nat) : Bool := (gapParts.take (planAt d (frameNo d a)).unit).contains (partOf d a)
def gapAt (d : Dev) (p a : Nat) : Bool :=
  let pl := planAt d (frameNo d a)
  (gapParts.take (max pl.unit (nth pl.paths p))).contains (partOf d a)

/-- R612: the end of the gap an axis position lies in; the position itself outside gaps. -/
def gapEnd (d : Dev) (p a : Nat) : Nat :=
  let len := max 1 (d.tmb.frameLen / 16)
  (List.range 16).foldl (fun x _ => if gapAt d p x then x / d.tmb.frameLen * d.tmb.frameLen + (partOf d x + 1) * len else x) a

/-! ### Free axis time (R424, R425) -/

/-- R197, R228: whether a staked receive window, a transmit window or a tone is open on a path now. -/
def rxStaked (d : Dev) (p : Nat) : Bool := (d.rxPath p).sbs.any fun s => s.on && s.win && s.banks.cur.cfg.chain.windowMode == 1
def txOpenNow (d : Dev) (p : Nat) : Bool :=
  (d.txPath p).sbs.any fun s => s.on && !s.flushing && (s.win || s.tone.isSome || (s.banks.cur.cfg.chain.windowMode == 0 && s.banks.cur.cfg.source != 0))

/-- R457: the profile in force for an antenna instant: the one before a hop until its position. -/
def profileAt (d : Dev) (pos : Nat) : Nat := if pos < d.syn.hop.1 then d.syn.hop.2 else d.syn.profile

/-- R457: whether a position lies in the 100 ns after a hop. -/
def hopSpan (d : Dev) (pos : Nat) : Bool := d.syn.hop.1 != 0 && decide (d.syn.hop.1 ≤ pos) && decide (pos < d.syn.hop.1 + 197)

/-- R463, R465: the payload bytes of a beacon as configured: identity, sounding with the measurements held, host data. -/
def bcnLen (d : Dev) : Nat :=
  match d.bcn.cfg.kind with
  | 0 => 24
  | 1 => 12 + 12 * (d.cal.partners.filter fun p => p.ours.isSome).length
  | _ => d.bcn.data.length

/-- R463: the chips of a beacon; one chip is 512 ticks (R462). -/
def bcnChipsOf (c : BcnCfg) (len : Nat) : Nat :=
  128 + 128 * c.nr + (if len = 0 then 0 else 16 * c.nr * (len + 4)) + (if c.tailLen = 0 then 0 else 16 + c.tailLen)
def bcnChips (d : Dev) : Nat := bcnChipsOf d.bcn.cfg (bcnLen d)

/-- R475: the spread a BCN-TX adds to its position. -/
def bcnSpread (d : Dev) (argument : Nat) : Nat :=
  let u := if argument.testBit 31 then d.ident.serial else d.nvm.unitNumber
  u % max 1 (bitsOf argument 63 48) * bitsOf argument 47 32 * 512

/-- The first position after `a` at which a queued stake of an action names a path and sub-band. -/
def nextNaming (d : Dev) (action p s a : Nat) : Option Nat :=
  ((d.tmb.stakes.filter fun q => q.stake.action == action && namesSb p s q.stake.target).filterMap fun q => q.nextAt (a + 1)).min?

/-- The last of some ends; none where one of them has none. -/
def lastEnd (l : List (Option Nat)) : Option Nat :=
  if l.any (·.isNone) then none else some ((l.filterMap id).foldl max 0)

/-- The spans of axis time that stakes queued before `hi` claim, and the windows, tones and beacon open now (R424, R425, R477):
the first tick claimed with its guard before it, and the first tick after the claim, none while no close is queued. -/
def claims (d : Dev) (hi : Nat) : List (Nat × Option Nat) :=
  let txOn (t : Nat) := (named t).filter fun (p, s) => ((d.txPath p).sb s).on
  let rxOn (t : Nat) := (named t).filter fun (p, s) => ((d.rxPath p).sb s).on
  let queued := d.tmb.stakes.flatMap fun q =>
    (q.upto hi).filterMap fun p =>
      match q.stake.action with
      | 0x0401 => if (txOn q.stake.target).isEmpty then none else some (p - 1024, lastEnd ((txOn q.stake.target).map fun (x, s) => nextNaming d 0x0402 x s p))
      | 0x0301 => if (rxOn q.stake.target).isEmpty then none else some (p - 512, lastEnd ((rxOn q.stake.target).map fun (x, s) => nextNaming d 0x0302 x s p))
      | 0x0405 => some (p - 1024, some (p + bitsOf q.stake.argument 23 8 * 512))
      | 0x0B20 => let b := p + bcnSpread d q.stake.argument; some (b - 1536, some (b + bcnChips d * 512))
      | _ => none
  let now := (List.range 64).flatMap fun p => (List.range 4).flatMap fun s =>
    let t := (d.txPath p).sb s
    let r := (d.rxPath p).sb s
    (if t.on && t.win then [((0 : Nat), nextNaming d 0x0402 p s d.axis)] else [])
      ++ (match t.tone with
        | some x => [(0, some x.stop)]
        | none => [])
      ++ (if r.on && r.win && r.banks.cur.cfg.chain.windowMode == 1 then [((0 : Nat), nextNaming d 0x0302 p s d.axis)] else [])
  queued ++ now ++ (match d.bcn.txUntil with
    | some t => [(0, some t)]
    | none => [])

/-- R425: the spans CAL-HOLD forbids: those in force and those queued before `hi`. -/
def holdSpans (d : Dev) (hi : Nat) : List (Nat × Nat) :=
  d.cal.holds ++ ((d.tmb.stakes.filter fun q => q.stake.action == 0x0A01).flatMap fun q =>
    (q.upto hi).map fun p => (p, p + q.stake.argument % 2 ^ 32))

/-- R424: whether the span [a, b) is free of every claim queued, its guards included. -/
def spanFree (d : Dev) (a b : Nat) : Bool :=
  (claims d (b + 1536)).all fun (s, e) =>
    decide (b ≤ s) || (match e with
      | some t => decide (t + 512 ≤ a)
      | none => false)

/-- R424: whether no staked window, tone or beacon is open now. -/
def axisIdle (d : Dev) : Bool :=
  ((List.range 64).all fun p => !rxStaked d p && !((d.txPath p).sbs.any fun s => s.on && (s.win || s.tone.isSome))) && d.bcn.txUntil.isNone

/-- The first position from `a` within `lim` at which a span of `n` ticks is free. -/
def nextFree (d : Dev) (a n lim : Nat) : Option Nat :=
  let ends := (claims d (a + lim + 1536)).filterMap fun (_, e) => e.map (· + 512)
  ((a :: ends).filter fun c => decide (a ≤ c) && decide (c + n ≤ a + lim) && spanFree d c (c + n)).min?

/-! ### Quickset's stakes and stops (R649, R650, R653) -/

/-- The axis position of the first whole second of the local clock that leaves a stake its lead, with `extra` ticks. -/
def wholeSecond (d : Dev) (extra : Nat) : Nat :=
  let s := d.tmb.clock / 6144000000000
  let at_ (k : Nat) : Nat := axisAt d.tmb.epoch ((s + k) * 6144000000000)
  (([1, 2, 3].map at_).find? fun p => decide (d.axis + minLead + extra ≤ p)).getD (at_ 4)

/-- R649: quickset's stakes from a whole second on: an INT-CUT and a BCN-TX in every second. -/
def qsStakes (p : Nat) : List Stake :=
  let k (action argument tag : Nat) : Stake :=
    { (default : Stake) with position := p, action := action, flags := 64, repeatPeriod := tickHz, tag := 0x51530000 + tag, argument := argument }
  [k 0x0801 0 0, k 0x0B20 (1024 * 2 ^ 48 + 2048 * 2 ^ 32 + 2 ^ 31) 1]

/-- The stakes committed from the first whole second that can hold them; the correlator's first group stands there too. -/
def qsPlace (d : Dev) : Dev :=
  let p := wholeSecond d 512
  let l := if d.xce.on then qsStakes p else (qsStakes p).drop 1
  { d with
    xce := { d.xce with banks := { d.xce.banks with cur := { d.xce.banks.cur with anchor := p } } }
    tmb := { d.tmb with
      stakes := d.tmb.stakes ++ l.zipIdx.map fun (k, i) => { stake := k, order := d.tmb.nextOrder + i, pos := p, left := 0 }
      nextOrder := d.tmb.nextOrder + l.length } }

/-- R650, R653: the open integration is discarded with everything gathered for it. -/
def qsDiscard (d : Dev) : Dev :=
  let keep := d.xce.integs.filter fun i => i.st != 0
  { d with xce := { d.xce with
      integs := keep, acc := d.xce.acc.filter fun a => keep.any fun i => i.num == a.integ
      forming := none, ready := [], pass := none, cuts := [], tiles := List.replicate 128 {} } }

/-- R653: whether every element that stops has stopped, and quickset off. -/
def qsStopped (d : Dev) : Bool := d.xce.stopping.isNone && !(d.rx.any fun x => (x.sb 0).flushing) && !(nth d.fre 0).flushing
def qsOff (d : Dev) : Dev := raiseEv { qsDiscard d with qs := { d.qs with state := 0, elements := 0, stopping := false } } EV.quickset [a4 2]

/-- R653: once the last element has stopped, QUICKSET-EXIT answers and quickset is off. -/
def qsExitCheck (d : Dev) : Dev :=
  if d.qs.stopping && qsStopped d then complete (qsOff d) (fun r => r.wait == .quickset) fun _ => {} else d

end Sys2Proof.Machine
end

