-- ==== Sys2Proof/Machine/Time.lean ====
section
/-! DEFINITION. Chapter 2, the time half: the servos and the active source (R41 to R54, R679), the axis commands
(R57, R79 to R81, R681), and the happenings at the time inputs. -/

namespace Sys2Proof.Machine

/-! ### Servos and sources -/

/-- The servo of a source code: 1 PTP domain A, 2 PTP domain B, 3 direct lane, 4 PPS_IN (R40). -/
def Tmb.srv (t : Tmb) (c : Nat) : Servo :=
  match c with
  | 1 => t.srvA
  | 2 => t.srvB
  | 3 => t.srvLane
  | _ => t.srvPps

/-- The time state with one servo changed. -/
def Tmb.setSrv (t : Tmb) (c : Nat) (f : Servo → Servo) : Tmb :=
  match c with
  | 1 => { t with srvA := f t.srvA }
  | 2 => { t with srvB := f t.srvB }
  | 3 => { t with srvLane := f t.srvLane }
  | 4 => { t with srvPps := f t.srvPps }
  | _ => t

/-- The host's priority of a source, 0 disabled (R51, R79). -/
def Tmb.prioOf (t : Tmb) (c : Nat) : Nat := nth t.prio (c - 1)

/-- R51: the LOCKED source of highest priority: the lowest non-zero value, among equals the lowest code. -/
def bestLocked (t : Tmb) : Option Nat :=
  let l := [1, 2, 3, 4].filter fun c => (t.srv c).st == 3 && t.prioOf c != 0
  l.find? fun c => l.all fun k => decide (t.prioOf c < t.prioOf k) || (t.prioOf c == t.prioOf k && decide (c ≤ k))

/-- R45: the frequency source: SyncE while its quality is accepted on the lane of the active PTP port, else REF_IN
when enabled and present, else the servo alone. -/
def freqOf (t : Tmb) : Nat :=
  if (t.active == 1 || t.active == 2) && (t.syncE.lookup (t.srv t.active).port).isSome then 1
  else if t.refEnable && t.refPresent then 2 else 0

/-- The frequency source brought up to date. -/
def Tmb.refreq (t : Tmb) : Tmb := { t with freqSource := freqOf t }

/-- R46: the mean of the rates of the last 64 s, the frequency HOLDOVER keeps. -/
def meanRate (l : List (Nat × Int)) : Int := (l.map (·.2)).sum / (max 1 l.length : Nat)

/-- R24, R45, R46: the frequency that the steering follows, in ppb: the mean of the last 64 s of lock while the active source is
out of LOCKED, else SyncE or REF_IN as the frequency source, else the rate of the active servo. -/
def steerBase (t : Tmb) : Int :=
  if t.active = 0 then (if t.freqSource = 2 then t.refPpb else 0)
  else if (t.srv t.active).st ≠ 3 then meanRate (t.srv t.active).rates
  else match t.freqSource with
    | 1 => (t.syncE.lookup (t.srv t.active).port).getD 0
    | 2 => t.refPpb
    | _ => (t.srv t.active).rate

/-- R23, R39: the steering demanded: the frequency of R45 and, while a phase offset is slewed out, the slew limit towards it. -/
def steerDemand (t : Tmb) : Int :=
  steerBase t + (if t.slewing then (if t.slewLeft < 0 then -(t.slewLimit : Int) else t.slewLimit) else 0)

/-- R23: the correction is clamped to ±25 ppm; a demand beyond it is reported. -/
def steerNow (d : Dev) : Dev :=
  let w := steerDemand d.tmb
  let c := max (-25000) (min 25000 w)
  let d1 := d.onTmb fun t => { t with steer := c, steerClamped := t.steerClamped || w != c }
  if w = c then d1 else raiseLimited d1 EV.steerClamp 0 []

/-- R52, R80: a step cancels every queued stake, each entry reported once (R66), and every launch. -/
def cancelAll (d : Dev) : Dev :=
  (queued d).foldl (fun d q => raiseEv d EV.stakeCancelled [a4 q.stake.tag, a8 q.pos, a4 1])
    (d.onTmb fun t => { t with stakes := [], heldStakes := [], launches := [] })

/-- R650: quickset's answer to a step: its open integration is discarded, its stakes are submitted again and its next report
is marked. -/
def quicksetRestart (d : Dev) : Dev :=
  if d.qs.state = 2 then
    raiseEv (qsPlace (qsDiscard { d with qs := { d.qs with restarted := true } })) EV.quicksetRestart []
  else d

/-- A clock value moved by an offset in 2^-16 ns (R36, R37). -/
def shiftClock (c : Nat) (off : Int) : Nat := ((c : Int) + off * 6144 / 65536).toNat

/-- R52, R80: the local clock steps by an offset in 2^-16 ns and `axis` sets what the new axis starts with: every servo's
estimate of its source moves with the clock, the histories of the samples start anew on the new axis, stakes and launches are cancelled, and quickset restarts its integration. -/
def clockStep (d : Dev) (off : Int) (axis : Tmb → Tmb := id) : Dev :=
  quicksetRestart ({ cancelAll d with sig := {}, syn := { d.syn with hop := (0, 0) } }.onTmb fun t =>
    let mv (s : Servo) : Servo := { s with offset := s.offset - off }
    axis { t with
             clock := shiftClock t.clock off, srvA := mv t.srvA, srvB := mv t.srvB, srvLane := mv t.srvLane, srvPps := mv t.srvPps,
             slewing := false, slewLeft := 0 })

/-- R39: the phase offset of a source begins to be slewed out. -/
def Tmb.slew (t : Tmb) (off : Int) (now : Nat) : Tmb := { t with slewing := off != 0, slewLeft := off, slewFrom := now }

/-- R39: how much of a phase offset, in 2^-16 ns, the slew limit takes out in a span of ticks. -/
def slewed (t : Tmb) (now : Nat) : Nat := t.slewLimit * 65536 * (now - t.slewFrom) / tickHz

/-- R39: the slew brought up to date, what it has taken out being no longer to do. -/
def Tmb.slewOn (t : Tmb) (now : Nat) : Tmb :=
  if t.slewing then
    let n : Int := (min (slewed t now) t.slewLeft.natAbs : Nat)
    { t with slewLeft := if t.slewLeft < 0 then t.slewLeft + n else t.slewLeft - n, slewFrom := now }
  else t

/-- R53: a source becomes active; its phase offset is slewed out. -/
def follow (d : Dev) (c : Nat) : Dev :=
  steerNow (raiseEv (d.onTmb fun t =>
    ({ t with active := c, holdover := false }.slew (t.srv c).offset d.now).refreq) EV.timeSource [a4 c])

/-- R52: a first qualification: an offset beyond ±1 us steps the clock, a smaller one is slewed; the time state
becomes TRACED. -/
def firstQualify (d : Dev) (c : Nat) : Dev :=
  let off := (d.tmb.srv c).offset
  let d := if 65536000 < off.natAbs then clockStep d off else d
  (follow d c).onTmb fun t => { t with traced := true }

/-- R54: whether a switch to a source in TRACED is refused: the offset between the active and the candidate source
exceeds `switch_max_offset`. -/
def switchTooFar (t : Tmb) (c : Nat) : Bool :=
  t.traced && decide (t.switchMax * 65536 < ((t.srv c).offset - (if t.active = 0 then 0 else (t.srv t.active).offset)).natAbs)

/-- R51 to R54: an automatic switch to a source: a first qualification in FREE, refused when too far in TRACED. -/
def switchTo (d : Dev) (c : Nat) : Dev :=
  if !d.tmb.traced then firstQualify d c
  else if switchTooFar d.tmb c then raiseEv d EV.timeSwitchRefused [a4 c]
  else follow d c

/-- R51, loss: while the active source is out of LOCKED and another enabled source is LOCKED, the LOCKED source of
highest priority is selected. -/
def reselect (d : Dev) : Dev :=
  if d.tmb.active = 0 || (d.tmb.srv d.tmb.active).st == 3 then d
  else match bestLocked d.tmb with
    | some c => switchTo d c
    | none => d

/-- The `holdover` flag after a servo changed its state, with EV_TIME_HOLDOVER where it changed (R40): 1 entered,
2 left. In HOLDOVER the steering keeps the mean frequency of R46; a source that locks again has its offset slewed out
(R39). -/
def noteHoldover (d : Dev) : Dev :=
  let h := d.tmb.active != 0 && (d.tmb.srv d.tmb.active).st == 4
  if h = d.tmb.holdover then d
  else
    let back := (d.tmb.srv d.tmb.active).st == 3
    steerNow (raiseEv (d.onTmb fun t =>
      let t := { t with holdover := h }
      if back then t.slew (t.srv t.active).offset d.now else t) EV.timeHoldover [a4 d.tmb.active, a4 (if h then 1 else 2)])

/-- R43, R44: a servo changes its state, and what follows for the active source. -/
def servoTo (d : Dev) (c st : Nat) : Dev :=
  reselect (noteHoldover (d.onTmb (·.setSrv c fun s =>
    { s with
             st := st, since := d.now, goodSince := if st = 3 then s.goodSince else none, badSince := none,
             lockedSince := if st = 3 then d.now else s.lockedSince, heldSince := if st = 4 then d.now else s.heldSince })))

/-- R43, R44, R79: whether a source is enabled: its priority is not zero, and for the direct lane its role is child,
for PPS_IN a time of day has been given. -/
def srcEnabled (t : Tmb) (c : Nat) : Bool :=
  t.prioOf c != 0 && (c != 3 || t.laneRole == 2) && (c != 4 || t.ppsTod != 0)

/-- Servos enabled enter LISTENING, servos disabled enter DISABLED (R43, R44). -/
def reEnable (d : Dev) : Dev :=
  [1, 2, 3, 4].foldl (fun d c =>
    if srcEnabled d.tmb c then (if (d.tmb.srv c).st = 0 then servoTo d c 1 else d)
    else if (d.tmb.srv c).st = 0 then d else servoTo d c 0) d

/-- R649: quickset's PTP domains use the lowest-numbered ETH lane that is UP. -/
def qsPorts (d : Dev) : Dev :=
  match (List.range 32).find? (portUp d) with
  | none => d
  | some n =>
    if d.qs.state = 0 then d
    else [1, 2].foldl (fun d c =>
      if (d.tmb.srv c).port = n then d
      else servoTo (d.onTmb (·.setSrv c fun s => { s with port := n, gm := 0, measured := none, residual := 0, goodSince := none, rates := [] })) c 1) d

/-- R679: the offset a servo's estimate predicts now, from its last estimate and its rate against the local clock, which runs at
`steer`. -/
def predicted (s : Servo) (steer : Int) (now : Nat) : Int :=
  match s.measured with
  | none => s.offset
  | some t => s.offset + (s.rate - steer) * 65536 * ((now - t : Nat) : Int) / (tickHz : Nat)

/-- R679: the rate, in ppb against the crystal, that a measured offset gives after the estimate before it: what the local clock
runs at and the drift of the offset. -/
def rateOf (s : Servo) (steer : Int) (now : Nat) (off : Int) : Int :=
  match s.measured with
  | none => steer
  | some t => steer + (off - s.offset) * (tickHz : Nat) / (65536 * (max 1 (now - t) : Nat))

/-- R679: a measurement of a source: the residual is the measured offset less the predicted one (none before the
first), filtered for PTP and PPS_IN; the estimate takes the measured offset and rate. `bound` is the bound of the
residual in 2^-16 ns, `ok` whatever else the state needs of the measurement. The rates of the last 64 s of lock are kept for
HOLDOVER (R46). -/
def measure (s : Servo) (steer : Int) (now : Nat) (off bound : Int) (filtered ok : Bool) : Servo :=
  let raw := if s.measured.isNone then 0 else off - predicted s steer now
  let r := if filtered then Config.servoFilter s.residual raw else raw
  let good := decide (r.natAbs ≤ bound.natAbs) && ok
  let rate := rateOf s steer now off
  { s with
           offset := off, rate := rate, residual := r, measured := some now,
           goodSince := if good then some (s.goodSince.getD now) else none,
           badSince := if decide (r.natAbs ≤ bound.natAbs) then none else some (s.badSince.getD now),
           rates := if s.st = 3 then (s.rates.filter fun p => decide (now < p.1 + 64 * tickHz)) ++ [(now, rate)] else s.rates }

/-- R51, loss: while the active source stays out of LOCKED, a LOCKED source that has come within `switch_max_offset` is taken. -/
def retake (d : Dev) : Dev :=
  if d.tmb.active = 0 || (d.tmb.srv d.tmb.active).st == 3 || !d.tmb.traced then d
  else match bestLocked d.tmb with
    | some c => if switchTooFar d.tmb c then d else follow d c
    | none => d

/-- A measurement taken by a source's servo; the active source's steers the clock (R38, R39), and another's may bring it
within reach (R51, R54). -/
def measured (d : Dev) (c : Nat) (off bound : Int) (filtered ok : Bool) : Dev :=
  let d := d.onTmb fun t => t.setSrv c fun s => measure s t.steer d.now off bound filtered ok
  if d.tmb.active = c then steerNow d else retake d

/-! ### Registers and checks -/

/-- TMB_TIME_STATUS (R40). -/
def timeStatus (t : Tmb) : Nat :=
  t.active * 2 ^ 24 + t.srvA.st * 2 ^ 20 + t.srvB.st * 2 ^ 16 + t.srvLane.st * 2 ^ 12 + t.freqSource * 2 ^ 10
    + b2n t.traced * 2 ^ 9 + b2n t.holdover * 2 ^ 8 + b2n t.slewing * 2 ^ 7 + b2n t.steerClamped * 2 ^ 6

/-- R36: whether an argument is a valid 12-byte time. -/
def timeOk (t : Time12) : Bool := decide (t.ns < 1000000000)

/-- R58: whether a `frame_len` is a multiple of 983,040 from 983,040 to 1,966,080,000. -/
def frameLenOk (n : Nat) : Bool := n % 983040 == 0 && decide (983040 ≤ n) && decide (n ≤ 1966080000)

/-- R681: whether an axis from this epoch is possible at a clock value: the epoch does not lie after it, and the
axis fits 64 bits. -/
def epochOk (e : Time12) (c : Nat) : Bool := decide (timeN16 e * 6144 ≤ c * 65536) && decide (axisAt e c < 2 ^ 64)

/-- A source code, 1 to 4. -/
def srcOk (c : Nat) : Bool := decide (1 ≤ c) && decide (c ≤ 4)

/-! ### Commands of range 0x0100 -/

/-- TIME-GET (R79). -/
def execTimeGet (h : Hdr) : Meaning :=
  query (ask 0x0100 [6, 4, 2, 8, 4, 8, 8, 8, 8]) h (.timeGet h) noCheck fun d =>
    timeFields (clkTime d.tmb.clock) ++ [fld 8 d.axis, fld 4 (timeStatus d.tmb)]
      ++ [1, 2, 3, 4].map fun c => satfld 8 (if (d.tmb.srv c).st = 0 then 0 else (d.tmb.srv c).offset)

/-- TIME-SOURCE-SET (R51, R79): priorities, revertive switching, the qualification time. -/
def execTimeSourceSet (h : Hdr) (pa pb pl pp revertive qual : Nat) : Meaning :=
  hostCmd (cmd 0x0101) h (.timeSourceSet h pa pb pl pp revertive qual)
    (fun d => firstBad [(decide (1 < revertive) || decide (qual < 1) || decide (3600 < qual), ST.badArg), (qsHeld d, ST.quickset)])
    (just fun d => reEnable (d.onTmb fun t => { t with prio := [pa, pb, pl, pp], revertive := revertive == 1, qualTime := qual }))

/-- PTP-CONFIG (R42, R79): on an enabled servo it restarts it in LISTENING with its new settings. -/
def execPtpConfig (h : Hdr) (dom number lane dest : Nat) : Meaning :=
  hostCmd (cmd 0x0102) h (.ptpConfig h dom number lane dest)
    (fun d => firstBad [(decide (1 < dom) || decide (number < 24) || decide (43 < number) || (decide (31 < lane) && lane != 0xFF) || decide (1 < dest), ST.badArg),
      (qsHeld d, ST.quickset)])
    (just fun d =>
      let c := dom + 1
      let on := (d.tmb.srv c).st != 0
      let d := d.onTmb (·.setSrv c fun s =>
        { s with
          domain := number, port := if lane = 0xFF then 32 else lane, dest := dest
          gm := if on then 0 else s.gm, measured := none, residual := 0, goodSince := none, rates := [] })
      if on then (servoTo d c 1).onTmb Tmb.refreq else d)

/-- PTP-STATUS (R79). -/
def execPtpStatus (h : Hdr) (dom : Nat) : Meaning :=
  query (ask 0x0103 [1, 8, 1, 8, 8, 8]) h (.ptpStatus h dom) (fun _ => firstBad [(decide (1 < dom), ST.badArg)]) fun d =>
    let s := d.tmb.srv (dom + 1)
    [fld 1 s.st, fld 8 s.gm, fld 1 s.clkClass, satfld 8 s.offset, satfld 8 s.residual, fld 8 s.delay]

/-- TIME-SWITCH (R51, R54): the target is LOCKED; a switch in TRACED beyond `switch_max_offset` is refused with
EV_TIME_SWITCH_REFUSED; in FREE it acts as a first qualification. -/
def execTimeSwitch (h : Hdr) (source : Nat) : Meaning :=
  hostCmd (cmd 0x0104) h (.timeSwitch h source)
    (fun d => firstBad [(!srcOk source, ST.badArg), ((d.tmb.srv source).st != 3, ST.sourceNotLocked),
      (h.dryRun && d.tmb.active != source && switchTooFar d.tmb source, ST.sourceNotLocked)])
    (fun d =>
      if d.tmb.active = source then { dev := d }
      else if switchTooFar d.tmb source then { dev := raiseEv d EV.timeSwitchRefused [a4 source], reply := { status := ST.sourceNotLocked } }
      else { dev := switchTo d source })

/-- TIME-SLEW-SET (R39, R54). -/
def execTimeSlewSet (h : Hdr) (limit maxOffset : Nat) : Meaning :=
  hostCmd (cmd 0x0105) h (.timeSlewSet h limit maxOffset)
    (fun _ => firstBad [(decide (limit < 1) || decide (500 < limit) || decide (maxOffset < 100) || decide (1000000 < maxOffset), ST.badArg)])
    (just fun d => steerNow (d.onTmb fun t => { t.slewOn d.now with slewLimit := limit, switchMax := maxOffset }))

/-- TIME-STEP (R80, R681): a step to the named LOCKED source, with a new epoch and `frame_len` where asked. -/
def execTimeStep (h : Hdr) (source setAxis : Nat) (epoch : Time12) (frameLen : Nat) : Meaning :=
  hostCmd (cmd 0x0106 [8, 2]) h (.timeStep h source setAxis epoch frameLen)
    (fun d =>
      let c := shiftClock d.tmb.clock (d.tmb.srv source).offset
      let e := if setAxis = 1 then epoch else d.tmb.epoch
      firstBad [(!srcOk source || decide (1 < setAxis), ST.badArg), (!timeOk epoch, ST.badPosition),
        (setAxis == 1 && !frameLenOk frameLen, ST.badPosition), (!epochOk e c, ST.badPosition),
        ((d.tmb.srv source).st != 3, ST.sourceNotLocked)])
    (fun d =>
      let off := (d.tmb.srv source).offset
      let n := (queued d).length
      let d := clockStep (d.onTmb fun t => { t with traced := false }) off
        fun t => if setAxis = 1 then { t with epoch := epoch, frameLen := frameLen } else t
      let d := (follow d source).onTmb fun t => { t with traced := true }
      { dev := d, reply := { fields := [satfld 8 off, fld 2 (min n 0xFFFF)] } })

/-- LANE-TIME-CONFIG (R47, R79). A servo already enabled starts anew, through DISABLED into LISTENING (DESIGN CHOICE, log
entry 106: the manual is silent). -/
def execLaneTimeConfig (h : Hdr) (lane role : Nat) (asym : Int) : Meaning :=
  hostCmd (cmd 0x0107) h (.laneTimeConfig h lane role asym)
    (fun _ => firstBad [(decide (31 < lane), ST.laneRange), (decide (2 < role), ST.badArg)])
    (just fun d =>
      let d := d.onTmb fun t => { t with laneNum := lane, laneRole := role, laneAsym := asym, laneTraced := false, laneArrival := d.now, laneSent := [], laneTimes := none }
      let d := if d.tmb.srvLane.st = 0 then d else servoTo d 3 0
      reEnable d)

/-- LANE-TIME-STATUS (R79). -/
def execLaneTimeStatus (h : Hdr) : Meaning :=
  query (ask 0x0108 [1, 3, 4, 4]) h (.laneTimeStatus h) noCheck fun d =>
    [fld 1 d.tmb.srvLane.st, fld 3 d.tmb.lanePartner, satfld 4 d.tmb.laneOffset, satfld 4 d.tmb.laneRound]

/-- PPS-CONFIG (R49, R44). -/
def execPpsConfig (h : Hdr) (enable width comp tod : Nat) : Meaning :=
  hostCmd (cmd 0x0109) h (.ppsConfig h enable width comp tod)
    (fun _ => firstBad [(decide (1 < enable) || decide (width < 1) || decide (500 < width), ST.badArg)])
    (just fun d => reEnable (d.onTmb fun t =>
      { t with ppsEnable := enable == 1, ppsWidth := width, ppsComp := comp, ppsTod := tod, ppsLevel := t.ppsLevel && enable == 1 }))

/-- REF-CONFIG (R50): the measured offset of the reference in ppb. -/
def execRefConfig (h : Hdr) (enable : Nat) : Meaning :=
  hostCmd (cmd 0x010A [4]) h (.refConfig h enable)
    (fun _ => firstBad [(decide (1 < enable), ST.badArg)])
    (fun d => { dev := steerNow (d.onTmb fun t => { t with refEnable := enable == 1 }.refreq), reply := { fields := [sfld 4 d.tmb.refPpb] } })

/-- AXIS-SET (R57, R80, R681): only in FREE. Stakes and launches already queued keep their positions, now read on the new
axis (DESIGN CHOICE, log entry 107: the manual is silent). -/
def execAxisSet (h : Hdr) (epoch : Time12) (frameLen : Nat) : Meaning :=
  hostCmd (cmd 0x0110) h (.axisSet h epoch frameLen)
    (fun d => firstBad [(!timeOk epoch || !frameLenOk frameLen || !epochOk epoch d.tmb.clock, ST.badPosition), (d.tmb.traced, ST.axisTraced)])
    (just fun d => { d with sig := {}, syn := { d.syn with hop := (0, 0) } }.onTmb fun t => { t with epoch := epoch, frameLen := frameLen })

/-- AXIS-GET (R79). -/
def execAxisGet (h : Hdr) : Meaning :=
  query (ask 0x0111 [8, 8, 6, 4, 2, 4]) h (.axisGet h) noCheck fun d =>
    [fld 8 d.axis, fld 8 (frameNo d d.axis)] ++ timeFields d.tmb.epoch ++ [fld 4 d.tmb.frameLen]

/-! ### Happenings at the time inputs -/

/-- PTP-ANNOUNCE (R42, R43): an Announce on the port of a domain. `msg.better` is the verdict of the profile's alternate
best-master algorithm against the master followed so far; an Announce that is neither that master's nor better is not
followed. It qualifies a grandmaster in LISTENING; a clockClass above 7 takes a LOCKED servo back to ACQUIRING. -/
def execPtpAnnounce (dom port : Nat) (msg : Announce) : Meaning := onDev fun d =>
  let c := dom + 1
  let s := d.tmb.srv c
  if 1 < dom || s.st == 0 || s.port != port || !(s.st == 1 || msg.gm == s.gm || msg.better) then d
  else
    let d := d.onTmb (·.setSrv c fun s => { s with gm := msg.gm, clkClass := msg.clockClass, misses := 0 })
    if s.st = 1 then servoTo d c 2
    else if s.st = 3 && decide (7 < msg.clockClass) then servoTo d c 2 else d

/-- R55: the corrections of a PTP timestamp of a port, transmit and receive, in tenths of a nanosecond: they refer a stamp taken
at the MAC to the optical port. -/
def stampCorr (d : Dev) (port : Nat) : Nat × Nat :=
  if port < 32 then
    match (nth d.lanes port).mode, (nth d.lanes port).fec with
    | 1, _ => (384, 1427)
    | 2, _ => (410, 1512)
    | 3, 0 => (243, 416)
    | 3, _ => (243, 968)
    | _, _ => (0, 0)
  else (1760, 3120)

/-- Tenths of a nanosecond in 2^-16 ns. -/
def tenthN16 (n : Nat) : Int := (n * 65536 / 10 : Nat)

/-- PTP-SYNC (R42, R43, R55, R679): a timestamp exchange on a domain's port, in 2^-16 ns: `master` is t2 - t1, from the Sync's
origin time to its stamp at the MAC, `slave` is t4 - t3, from the last Delay_Req's stamp at the MAC to its arrival at the
master, `corr` the two correctionFields. The stamps are referred to the optical port and the corrections
applied; the bound of the residual is ±100 ns, with a clockClass of 6 or 7 and an Announce heard. -/
def execPtpSync (dom : Nat) (master slave : Int) (corr : PtpCorr) : Meaning := onDev fun d =>
  let c := dom + 1
  let s := d.tmb.srv c
  if 1 < dom || decide (s.st < 2) then d
  else
    let k := stampCorr d s.port
    let a := master - tenthN16 k.2 - corr.sync
    let b := slave - tenthN16 k.1 - corr.delay
    measured (d.onTmb (·.setSrv c fun s => { s with delay := ((a + b) / 2).toNat })) c ((b - a) / 2) 6553600 true
      ((s.clkClass == 6 || s.clkClass == 7) && decide (s.misses < 3))

/-- R42, R161: a Delay_Req message of 44 octets, in queue 1. -/
def delayReq (d : Dev) (s : Servo) : Dev :=
  d.post s.port { queue := 1, bits := wireBits (58 + if (tagOf d 1).isSome then 4 else 0), out := .delayReq s.domain s.port s.dest (tagOf d 1) }

/-- DELAY_REQ (R42): a servo that tracks a grandmaster sends its Delay_Req, 16 per second. -/
def execDelayReq (dom : Nat) : Meaning := onDev fun d =>
  let s := d.tmb.srv (dom + 1)
  if 1 < dom || decide (s.st < 2) || decide (d.now < s.reqAt) then d
  else delayReq (d.onTmb (·.setSrv (dom + 1) fun s => { s with reqAt := d.now + tickHz / 16 })) s

/-- A PTP or other servo that lost its source: ACQUIRING to LISTENING, LOCKED to HOLDOVER (R43, R44). -/
def sourceLost (d : Dev) (c : Nat) : Dev :=
  if (d.tmb.srv c).st = 2 then servoTo d c 1 else if (d.tmb.srv c).st = 3 then servoTo d c 4 else d

/-- ANNOUNCE_TIMEOUT (R42, R43): three Announce messages missed. -/
def execAnnounceTimeout (dom : Nat) : Meaning := onDev fun d =>
  if 1 < dom then d else sourceLost (d.onTmb (·.setSrv (dom + 1) fun s => { s with misses := 3 })) (dom + 1)

/-- SYNC_LOSS (R43): no Sync for 2 s, counted from the servo's entry into its state where there has been none since. -/
def execSyncLoss (dom : Nat) : Meaning := onDev fun d =>
  let s := d.tmb.srv (dom + 1)
  if 1 < dom then d
  else if max (s.measured.getD 0) (if s.st = 2 then s.since else 0) + 2 * tickHz ≤ d.now then sourceLost d (dom + 1) else d

/-- How long the residual has to stay in bounds: 16 s, for the direct lane 1 s (R43, R44). -/
def qualifySpan (c : Nat) : Nat := if c = 3 then tickHz else 16 * tickHz

/-- R43, R44: whether a servo that is ACQUIRING, or in HOLDOVER while its source qualifies again, enters LOCKED now: its residual
has stayed in bounds for its time, a PTP servo hears its Announce and its Sync, and the direct lane is UP with a TRACED
partner. -/
def qualifies (d : Dev) (c : Nat) : Bool :=
  let s := d.tmb.srv c
  (s.st == 2 || s.st == 4) && s.goodSince.any (fun t => decide (t + qualifySpan c ≤ d.now))
    && (2 < c || decide (s.misses < 3) && s.measured.any fun t => decide (d.now < t + 2 * tickHz))
    && (c != 3 || laneUp d d.tmb.laneNum && d.tmb.laneTraced)

/-- SERVO_QUALIFY (R43, R44, R51, R52): the servo enters LOCKED, with it every other that qualifies at the same instant. In
FREE this is the first qualification, of the source of highest priority; with the active source out of LOCKED it is a
selection under R51. -/
def execServoQualify (source : Nat) : Meaning := onDev fun d =>
  if srcOk source && qualifies d source then
    let d := [1, 2, 3, 4].foldl (fun e c => if qualifies d c then servoTo e c 3 else e) d
    if d.tmb.traced then d else match bestLocked d.tmb with
      | some c => firstQualify d c
      | none => d
  else d

/-- HOLDOVER_EXPIRY (R43): 3,600 s in HOLDOVER end in LISTENING. -/
def execHoldoverExpiry (source : Nat) : Meaning := onDev fun d =>
  let s := d.tmb.srv source
  if srcOk source && s.st == 4 && decide (s.heldSince + 3600 * tickHz ≤ d.now) then servoTo d source 1 else d

/-- The local clock in ps, modulo 2^48, as TIME blocks carry it (R88). -/
def clockPs (d : Dev) : Nat := d.tmb.clock * 1000 / 6144 % 2 ^ 48

/-- R88: a TIME (0xB4) or TIME-REPLY (0xB5) block: the sender's TRACED flag, a sequence and a time in ps. -/
def timeBlock (type : Nat) (traced : Bool) (seq ps : Nat) : Block :=
  { ctl := true, bytes := bytesOf [fld 1 type, fld 1 (b2n traced * 128 + seq % 128), fld 6 ps] }

/-- Whether time transfer runs on a lane: it is the lane chosen, UP in a DIRECT mode. -/
def timeLane (d : Dev) (lane : Nat) : Bool := d.tmb.laneRole != 0 && d.tmb.laneNum == lane && laneUp d lane && laneDirect d lane

/-- TIME_BLOCK_SEND (R47): each end of the lane sends a TIME block with its departure time every 1 ms. -/
def execTimeBlockSend (lane : Nat) : Meaning := onDev fun d =>
  if timeLane d lane && decide (d.tmb.laneNext ≤ d.now) then
    (d.onTmb fun t => { t with
      laneSeq := (t.laneSeq + 1) % 128, laneNext := d.now + tickHz / 1000, laneSent := ((t.laneSeq, clockPs d) :: t.laneSent).take 128 }).send
      (.direct lane [timeBlock 0xB4 d.tmb.traced d.tmb.laneSeq (clockPs d)])
  else d

/-- R44: the partner's TRACED flag in the child role: LISTENING to ACQUIRING when it is TRACED, out of ACQUIRING or
LOCKED when it stops being TRACED, and no qualifying in HOLDOVER meanwhile. -/
def partnerTraced (d : Dev) (traced : Bool) : Dev :=
  let d := d.onTmb fun t => { t with laneTraced := traced }
  if traced then (if d.tmb.srvLane.st = 1 then servoTo d 3 2 else d)
  else sourceLost (d.onTmb fun t => { t with srvLane := { t.srvLane with goodSince := none } }) 3

/-- TIME_BLOCK (R47, R44, R91): the partner's TIME block, by its code, its TRACED and sequence byte and its time (R88), is
timestamped, in ps of the local clock, and answered. -/
def execTimeBlock (lane code flags ps arrival : Nat) : Meaning := onDev fun d =>
  if timeLane d lane && code == 0xB4 then
    partnerTraced ((d.onTmb fun t => { t with laneArrival := d.now, laneTimes := some (ps, arrival) }).send
      (.direct lane [timeBlock 0xB5 d.tmb.traced (flags % 128) arrival])) (flags.testBit 7)
  else d

/-- R47: the child's offset in ps: ((t2 - t1) - (t4 - t3)) / 2 - a / 2, the differences of 48-bit times. -/
def childOffset (t1 t2 t3 t4 : Nat) (a : Int) : Int :=
  let dif (x y : Nat) : Int := toSigned 48 (x + 2 ^ 48 - y % 2 ^ 48)
  (dif t2 t1 - dif t4 t3 - a) / 2

/-- TIME_REPLY (R47, R679): the child takes its offset measurement: t1 and t2 of the TIME block the partner answers, t3 and t4 of the
partner's own last TIME block. The source's offset from the local clock is its negative. The bound is ±1 ns, unfiltered. The block is
a control block (`ctl`), its time in a high and a low half of three bytes (R88). -/
def execTimeReply (lane : Nat) (ctl : Bool) (code : Nat) (traced : Bool) (seq hi lo : Nat) : Meaning := onDev fun d =>
  if timeLane d lane && d.tmb.laneRole == 2 && d.tmb.srvLane.st != 0 && ctl && code == 0xB5 then
    let d := partnerTraced d traced
    match d.tmb.laneSent.lookup (seq % 128), d.tmb.laneTimes with
    | some t1, some (t3, t4) =>
      let t2 := hi * 2 ^ 24 + lo
      let o := childOffset t1 t2 t3 t4 d.tmb.laneAsym
      let rt : Int := toSigned 48 (t2 + 2 ^ 48 - t1) + toSigned 48 (t4 + 2 ^ 48 - t3)
      measured (d.onTmb fun t => { t with laneOffset := o, laneRound := rt }) 3 (-o * 65536 / 1000) 65536 false traced
    | _, _ => d
  else d

/-- TIME_BLOCK_TIMEOUT (R44): no TIME block for 10 ms. -/
def execTimeBlockTimeout : Meaning := onDev fun d =>
  if d.tmb.laneArrival + tickHz / 100 ≤ d.now then sourceLost d 3 else d

/-- LANE_RESIDUAL_FAULT (R44): the residual has stayed beyond ±1 ns for 100 ms: LOCKED to ACQUIRING. -/
def execLaneResidualFault : Meaning := onDev fun d =>
  match d.tmb.srvLane.badSince with
  | some t =>
    if d.tmb.srvLane.st = 3 ∧ t + tickHz / 10 ≤ d.now then servoTo (raiseEv d EV.laneTimeFault [a4 d.tmb.laneNum]) 3 2 else d
  | none => d

/-- PPS_IN_EDGE (R44, R49): a rising edge. In LISTENING an edge 1 s (±1 us) after the one before leads to ACQUIRING;
in LOCKED an edge more than ±1 us from its expected instant leads to HOLDOVER. -/
def execPpsInEdge (offset : Int) : Meaning := onDev fun d =>
  let s := d.tmb.srvPps
  let gap := d.now - d.tmb.ppsEdge.getD 0
  let near := d.tmb.ppsEdge.isSome && decide (tickHz ≤ gap + 1966) && decide (gap ≤ tickHz + 1966)
  if s.st = 0 then d.onTmb fun t => { t with ppsEdge := some d.now }
  else
    let far := decide (65536000 < (offset - predicted s d.tmb.steer d.now).natAbs) && s.measured.isSome
    let d := measured (d.onTmb fun t => { t with ppsEdge := some d.now, ppsTod := t.ppsTod + 1 }) 4 offset 6553600 true true
    if s.st = 1 && near then servoTo d 4 2
    else if s.st = 3 && far then servoTo d 4 4 else d

/-- PPS_IN_TIMEOUT (R44): 2 s without a rising edge. -/
def execPpsInTimeout : Meaning := onDev fun d =>
  match d.tmb.ppsEdge with
  | some t => if t + 2 * tickHz ≤ d.now then sourceLost d 4 else d
  | none => sourceLost d 4

/-- R49: whether the local clock's nanoseconds, advanced by the cable compensation, have crossed zero with this tick. -/
def ppsDue (t : Tmb) : Bool := decide ((t.clock + t.ppsComp * 6144) % (1000000000 * 6144) < 3125)

/-- PPS_OUT_RISE (R49): at the crossing of zero. -/
def execPpsOutRise : Meaning := onDev fun d =>
  if d.tmb.ppsEnable && ppsDue d.tmb then d.onTmb fun t => { t with ppsLevel := true, ppsRose := d.now } else d

/-- PPS_OUT_FALL (R49): after its width. -/
def execPpsOutFall : Meaning := onDev fun d =>
  if d.tmb.ppsLevel && decide (d.tmb.ppsRose + d.tmb.ppsWidth * (tickHz / 1000) ≤ d.now) then d.onTmb fun t => { t with ppsLevel := false } else d

/-- REF_IN_LOSS (R50, R45): the reference is lost; frequency comes from the next source of R45. -/
def execRefInLoss : Meaning := onDev fun d => steerNow (d.onTmb fun t => { t with refPresent := false }.refreq)

/-- REF_IN_RETURN (R50): a reference within ±25 ppm serves while enabled; one beyond it is refused. -/
def execRefInReturn (ppb : Int) : Meaning := onDev fun d =>
  steerNow (d.onTmb fun t => { t with refPpb := ppb, refPresent := decide (ppb.natAbs ≤ 25000) }.refreq)

/-- ESMC_QUALITY (R45): SyncE on a lane is accepted only at QL-PRC or better. -/
def execEsmcQuality (lane : Nat) (quality : SyncEQl) : Meaning := onDev fun d =>
  steerNow (d.onTmb fun t =>
    let l := t.syncE.filter fun x => x.1 != lane
    { t with syncE := if quality.prc then l ++ [(lane, quality.ppb)] else l }.refreq)

/-- REVERTIVE_SWITCH (R51, R54): with revertive switching enabled, a LOCKED source of higher priority than the active
one that has stayed LOCKED for the qualification time becomes active. -/
def execRevertiveSwitch (source : Nat) : Meaning := onDev fun d =>
  let t := d.tmb
  let higher := decide (t.prioOf source < t.prioOf t.active) || (t.prioOf source == t.prioOf t.active && decide (source < t.active))
  if srcOk source && t.revertive && t.traced && t.active != 0 && t.active != source && (t.srv source).st == 3
      && t.prioOf source != 0 && higher && decide ((t.srv source).lockedSince + t.qualTime * tickHz ≤ d.now) then
    switchTo d source
  else d

/-- SLEW_DONE (R39): the slew limit has taken the whole phase offset out. An estimate not measured since the slew began moves with
the clock. -/
def execSlewDone : Meaning := onDev fun d =>
  let t := d.tmb
  if t.slewing && decide (t.slewLeft.natAbs ≤ slewed t d.now) then
    let mv (s : Servo) : Servo := if s.measured.all fun m => decide (m < t.slewFrom) then { s with offset := s.offset - t.slewLeft } else s
    steerNow (d.onTmb fun t =>
      { t with slewing := false, slewLeft := 0, srvA := mv t.srvA, srvB := mv t.srvB, srvLane := mv t.srvLane, srvPps := mv t.srvPps })
  else d

end Sys2Proof.Machine
end

