-- ==== Sys2Proof/Machine/Lanes.lean ====
section
/-! DEFINITION. Chapter 3: lanes and quads: the block layer of direct lanes (R88 to R90), configuration and power (R105, R111),
bring-up and loss (R99 to R103), identity (R97, R98), equalisation (R94), the elastic buffer (R92, R93), PRBS and loopbacks (R106 to
R109), and the lane queries (R110). -/

namespace Sys2Proof.Machine

/-! ### Registers and use -/

/-- LNK_LANE_STATUS_n. -/
def laneStatus (l : Lane) : Nat :=
  l.st * 2 ^ 28 + l.mode * 2 ^ 25 + l.fec * 2 ^ 24 + l.loopback * 2 ^ 22 + b2n l.los * 2 ^ 21 + b2n l.cdr * 2 ^ 20 + b2n l.blk * 2 ^ 19
    + b2n l.isMatch * 2 ^ 18 + ofSigned 8 l.rxPower * 2 ^ 10 + b2n l.slip * 2 ^ 9 + b2n l.lockLost * 2 ^ 8 + b2n l.miswired * 2 ^ 7

/-- LNK_RXEQ_n (R94). -/
def laneRxeq (l : Lane) : Nat :=
  l.eq.peak * 2 ^ 28 + l.eq.eyeHeight * 2 ^ 20 + l.eq.eyeWidth * 2 ^ 12 + l.adapt * 2 ^ 10 + b2n l.freeze * 2 ^ 9

/-- LNK_DFE_n (R94). -/
def laneDfe (l : Lane) : Nat := l.eq.dfe.foldl (fun a t => a * 64 + ofSigned 6 t) 0

/-- R105: whether a lane carries the active time source, a coppice member, a chain link or an owning host session. -/
def laneInUse (d : Dev) (n : Nat) : Bool :=
  (match d.tmb.active with
    | 1 => d.tmb.srvA.port == n
    | 2 => d.tmb.srvB.port == n
    | 3 => d.tmb.laneNum == n
    | _ => false)
    || d.lnk.sessions.any (fun s => s.owner && s.port == n) || laneGrouped d n

/-- R109: whether a grouping or a time source is configured to use a lane. -/
def laneConfigured (d : Dev) (n : Nat) : Bool :=
  laneGrouped d n || (d.tmb.srvA.st != 0 && d.tmb.srvA.port == n) || (d.tmb.srvB.st != 0 && d.tmb.srvB.port == n)
    || (d.tmb.laneRole != 0 && d.tmb.laneNum == n)

/-! ### The DIRECT block layer (R84, R88 to R90) -/

/-- R84: the line rate of a lane's mode in bits per second. -/
def lineRate (d : Dev) (n : Nat) : Nat := nth [0, 106250000000, 106250000000, 25781250000, 25781250000, 53125000000] (nth d.lanes n).mode

/-- R84: 66 times the blocks per second of a direct lane: its line rate, and with FEC in DIRECT-53 50.0 Gb/s of block capacity. -/
def directRate (d : Dev) (lane : Nat) : Nat :=
  if (nth d.lanes lane).mode = 5 ∧ (nth d.lanes lane).fec = 1 then 51562500000 else lineRate d lane

/-- R88: CRC-8 with x^8 + x^2 + x + 1 and initial value 0. -/
def crc8 (l : List Nat) : Nat :=
  let step (c : Nat) : Nat := if 128 ≤ c then Nat.xor (c * 2 % 256) 7 else c * 2
  l.foldl (fun c b => step (step (step (step (step (step (step (step (Nat.xor c (b % 256)))))))))) 0

/-- R88: an IDENT block. -/
def identBlock (unit lane tag : Nat) (locked : Bool) : Block :=
  let l := [0xD2] ++ bytesOf [fld 3 unit, fld 1 (lane % 32 + b2n locked * 32), fld 1 tag]
  { ctl := true, bytes := l ++ [crc8 l, 0] }

/-- R88: a FILL block. -/
def fillBlock : Block := { ctl := true, bytes := 0xE1 :: List.replicate 7 0 }

/-- Bytes filled up with zeros to `n`. -/
def padTo (n : Nat) (l : List Nat) : List Nat := l ++ List.replicate (n - l.length) 0

/-- R88: the blocks of a frame: START with its class and first six bytes, data blocks of eight, and TERM with the CRC-32C over all its
bytes and the valid bytes of its last data block. The data blocks `bad` go out with an invalid sync header. -/
def directBlocks (cls : Nat) (bytes : List Nat) (bad : List Nat := []) : List Block :=
  let rest := bytes.drop 6
  let n := ceilDiv rest.length 8
  [{ ctl := true, bytes := 0x78 :: cls :: padTo 6 (bytes.take 6) }]
    ++ (List.range n).map (fun k => { ctl := false, bytes := padTo 8 ((rest.drop (8 * k)).take 8), bad := bad.contains k })
    ++ [{ ctl := true, bytes := 0x87 :: bytesOf [fld 4 (crc32c bytes), fld 1 (rest.length - 8 * (n - 1)), fld 2 0] }]

/-- A frame sent on a direct lane that is UP and is not being taken down (R103). -/
def Dev.sendFrame (d : Dev) (lane cls : Nat) (bytes : List Nat) (bad : List Nat := []) : Dev :=
  if laneUp d lane && laneDirect d lane && (nth d.lanes lane).down.isNone then
    let b := directBlocks cls bytes bad
    (d.onLane lane fun l => { l with frames := l.frames + b.length }).send (.direct lane b)
  else d

/-- A frame as the receiver delivers it: its bytes, whether every word is thorned, and the data blocks whose words are (R90). -/
structure Delivered where
  bytes : List Nat
  all : Bool
  bad : List Nat
deriving DecidableEq, Repr

/-- R90: whether a byte of a delivered frame stands in a thorned word. -/
def Delivered.thorned (f : Delivered) (k : Nat) : Bool := f.all || (decide (6 ≤ k) && f.bad.contains ((k - 6) / 8))

/-- R90, R93, R98, R101, R103: what a lane that is UP in a DIRECT mode delivers of a frame: with every word thorned when its CRC-32C fails or the
buffer slipped while it came. A frame in progress when the lane left UP is closed with every word thorned; a lane that is not UP
delivers nothing else. -/
def deliver (d : Dev) (lane : Nat) (f : DirectFrame) : Option Delivered :=
  let l := nth d.lanes lane
  let since (t : Option Nat) : Bool := t.any fun t => decide (d.now ≤ t + f.ticks)
  if !laneDirect d lane then none
  else if laneUp d lane then some ⟨f.bytes, crc32c f.bytes != f.crc || since l.slipAt || since l.lostAt, f.bad⟩
  else if since l.lostAt then some ⟨f.bytes, true, []⟩ else none

/-! ### Leaving UP, bring-up, taking down -/

/-- The frames that wait on a lane's port are lost with it (the first lane's port in ETH-DR4). -/
def clearPort (d : Dev) (n : Nat) : Dev :=
  let p := if (nth d.lanes n).mode = 2 then quadFirst n else n
  d.onLnk fun l => { l with ports := upd l.ports p fun c => { c with queue := [], line := 0, share := 0, paused := false } }

/-- R101, R102: an UP lane leaves UP for a state, with EV_LANE_DOWN and its cause (1 dark, 2 lock, 3 forced, 4
no_alignment, 5 miswired); a counted departure that is the eighth within 1 s holds it in FAULT. Its consumers lose
it: direct-lane time transfer leaves LOCKED (R44), SyncE is no longer taken from it (R45), the groupings act under their chapters. -/
def leaveUp (d : Dev) (n st cause : Nat) (counted : Bool) : Dev :=
  let d := raiseEv (clearPort d n) EV.laneDown [a4 n, a4 cause]
  let recent := ((nth d.lanes n).departures.filter fun t => decide (d.now < t + tickHz)) ++ (if counted then [d.now] else [])
  let flap := counted && decide (8 ≤ recent.length)
  let d := d.onLane n fun l => { l with
    st := if flap then 8 else st, fault := l.fault || flap, departures := recent, isMatch := false, identRun := 0, frames := 0, lostAt := some d.now }
  let d := if flap then raiseEv d EV.laneFlap [a4 n] else d
  let d := if d.tmb.laneRole = 2 ∧ d.tmb.laneNum = n then sourceLost d 3 else d
  let d := if d.tmb.syncE.any (·.1 == n) then steerNow (d.onTmb fun t => { t with syncE := t.syncE.filter fun x => x.1 != n }.refreq) else d
  laneLost d n

/-- R100: a lane's bring-up starts in a mode: its laser starts and the lane is DARK; mode OFF leaves it OFF, and a lane held in FAULT stays
there (R102). It needs its quad powered and D8 on. RS FEC is always on in modes 1 and 2 (R84). The monitor's first reading of the
laser is a free value. -/
def startLane (d : Dev) (n m f : Nat) : Dev :=
  let power := nth d.quads (n / 4) && domOn d 8
  let lit := power && m != 0
  let (v, d) := if lit then d.fresh 2 else (0, d)
  d.onLane n fun l =>
    { l with
      mode := m, fec := if m = 0 then 0 else if m ≤ 2 then 1 else f, los := true, cdr := false, blk := false, isMatch := false, identRun := 0, adapt := 0,
      down := none, stable := false, lit := lit, st := if !power then 0 else if l.fault then 8 else if m = 0 then 0 else 1
      txPower := if lit then (v % 65535 : Nat) - 32767 else l.txPower }

/-- Whether every lane of a lane's quad is down: OFF, or held in FAULT, with nothing pending. -/
def quadDown (d : Dev) (n : Nat) : Bool :=
  [0, 1, 2, 3].all fun k => let l := nth d.lanes (quadFirst n + k); (l.st == 0 || l.fault) && l.down.isNone

/-- R103: what a lane taken down does next. -/
def afterDown (d : Dev) (n : Nat) (a : After) : Dev :=
  match a with
  | .mode m f => startLane d n m f
  | .quad f => if quadDown d n then [0, 1, 2, 3].foldl (fun d k => startLane d (quadFirst n + k) 2 f) d else d
  | .restart => startLane (d.onLane n fun l => { l with departures := [], fault := false }) n (nth d.lanes n).mode (nth d.lanes n).fec
  | .test => d.onLane n fun l => { l with st := if l.fault then 8 else 7, lit := !(l.loopback == 1 || l.loopback == 2) }
  | .gate => if quadDown d n then { d with quads := upd d.quads (n / 4) fun _ => false } else d

/-- R103: a lane is taken down: it accepts no new frame, sends 64 IDENT blocks with `rx_locked` clear, its laser goes dark, its receiver
closes its frame with every word thorned, and it reports OFF. For TEST the receiver stays as it is, but in a near-end loopback it
locks on its own data (R108); otherwise a loopback or pattern in force ends (DESIGN CHOICE, log entry 108: the manual is silent). -/
def takeDown (d : Dev) (n : Nat) (a : After) : Dev :=
  let l := nth d.lanes n
  let test := a == .test
  let near := l.loopback == 1 || l.loopback == 2
  let d := if l.st = 5 then leaveUp d n 0 3 false else d
  let d := if laneDirect d n then d.send (.direct n (List.replicate 64 (identBlock d.nvm.unitNumber n l.expTag false))) else d
  let d := d.onLane n fun l =>
    { l with
      st := 0, lit := false, stable := false, isMatch := false, identRun := 0, down := none, frames := 0
      los := l.los || !test, cdr := l.cdr && test && !near, blk := l.blk && test && !near
      loopback := if test then l.loopback else 0, prbsGen := l.prbsGen && test, prbsChk := l.prbsChk && test, prbsLock := false }
  afterDown d n a

/-- R105, R534: whether the link packet engine (M11) has no transfer held, or none within `drain_limit`. -/
def linkDrained (d : Dev) : Bool := d.fab.waiting.all fun w => w.req.master != 11 || decide (w.since + nsTicks (1000 * d.fab.drainLimit) ≤ d.now)

/-- R103: whether a lane marked to be taken down may stop: the command's response has left, the frame in progress is complete, and for
gating the link packet engine has drained (R105). -/
def mayStop (d : Dev) (n : Nat) (x : After × Nat × Nat × Nat) : Bool :=
  answered d x.2.1 x.2.2.1 x.2.2.2 && (nth d.lanes n).frames == 0
    && (nth d.lnk.ports (if (nth d.lanes n).mode = 2 then quadFirst n else n)).line == 0 && (x.1 != .gate || linkDrained d)

/-- LANE_TAKE_DOWN (R103): after the command's response has left and the frame in progress is complete. -/
def execLaneTakeDown (lane : Nat) : Meaning := onDev fun d =>
  match (nth d.lanes lane).down with
  | none => d
  | some x => if mayStop d lane x then takeDown d lane x.1 else d

/-! ### Commands of range 0x0200 -/

/-- The lanes LANE-CONFIG takes down: the whole quad into or out of mode 2 (R111). -/
def configLanes (d : Dev) (lane mode : Nat) : List Nat :=
  let f := quadFirst lane
  if mode = 2 ∨ (nth d.lanes f).mode = 2 then [f, f + 1, f + 2, f + 3] else [lane]

/-- A lane marked to be taken down once the response to a command has left. -/
def markDown (d : Dev) (h : Hdr) (n : Nat) (a : After) : Dev := d.onLane n fun l => { l with down := some (a, h.session, h.channel, h.seq) }

/-- LANE-CONFIG (R111): the lane goes down under R103 and comes up in the new mode; one that is OFF comes up at once. A quad comes up
in mode 2 once each of its lanes is down; out of mode 2 its other lanes stay OFF. -/
def execLaneConfig (h : Hdr) (lane mode fec unit plane tag force : Nat) : Meaning :=
  hostCmd (cmd 0x0200) h (.laneConfig h lane mode fec unit plane tag force)
    (fun d => firstBad [
      (decide (31 < lane) || decide (31 < plane), ST.laneRange),
      (decide (5 < mode) || decide (1 < fec) || ((mode == 1 || mode == 2) && fec == 0) || (mode == 2 && lane != quadFirst lane)
        || (lane != quadFirst lane && (nth d.lanes (quadFirst lane)).mode == 2), ST.laneMode),
      ((decide (262143 < unit) && unit != 0xFFFFF) || decide (1 < force), ST.badArg),
      (force == 0 && (configLanes d lane mode).any (laneInUse d), ST.laneInUse),
      (!nth d.quads (lane / 4), ST.quadOff)])
    (just fun d =>
      let ls := configLanes d lane mode
      let d := ls.foldl (fun d t => d.onLane t fun l => { l with expUnit := unit, expLane := plane, expTag := tag }) d
      if mode = 2 then
        (if ls.all fun t => (nth d.lanes t).st == 0 then ls.foldl (fun d t => startLane d t 2 fec) d
        else ls.foldl (fun d t => if (nth d.lanes t).st = 0 then d else markDown d h t (.quad fec)) d)
      else ls.foldl (fun d t =>
        let m := if t = lane then mode else 0
        if (nth d.lanes t).st = 0 then startLane d t m fec else markDown d h t (.mode m fec)) d)

/-- LANE-STATUS (R110). -/
def execLaneStatus (h : Hdr) (lane : Nat) : Meaning :=
  query (ask 0x0201 [4, 3, 1, 2]) h (.laneStatus h lane) (fun _ => firstBad [(decide (31 < lane), ST.laneRange)]) fun d =>
    let l := nth d.lanes lane
    [fld 4 (laneStatus l), fld 3 l.rxUnit, fld 1 l.rxLane, if l.lit then satfld 2 l.txPower else fld 2 0x8000]

/-- LANE-EQ-GET (R94, R110). -/
def execLaneEqGet (h : Hdr) (lane : Nat) : Meaning :=
  query (ask 0x0202 [4, 4]) h (.laneEqGet h lane) (fun _ => firstBad [(decide (31 < lane), ST.laneRange)]) fun d =>
    [fld 4 (laneRxeq (nth d.lanes lane)), fld 4 (laneDfe (nth d.lanes lane))]

/-- R94: `eq_freeze` holds the equalisers at their present values until it is cleared; then adaptation goes on where it stood. -/
def Lane.setFreeze (l : Lane) (on : Bool) : Lane :=
  { l with
    freeze := on
    adapt := if l.adapt = 0 then 0 else if on then 3 else if l.adapt = 3 then (if l.st = 2 then 1 else 2) else l.adapt }

/-- LANE-EQ-SET (R94). -/
def execLaneEqSet (h : Hdr) (lane freeze : Nat) : Meaning :=
  hostCmd (cmd 0x0203) h (.laneEqSet h lane freeze)
    (fun d => firstBad [(decide (31 < lane), ST.laneRange), (decide (1 < freeze), ST.badArg), (!nth d.quads (lane / 4), ST.quadOff),
      (decide ((nth d.lanes lane).st < 2), ST.laneNotUp)])
    (just fun d => d.onLane lane (·.setFreeze (freeze == 1)))

/-- R106: whether a pattern suits a mode's modulation: PRBS7, 9, 15, 23 and 31 (codes 0 to 4) on NRZ, PRBS13Q and
PRBS31Q (5 and 6) on PAM4. -/
def patternOk (mode pattern : Nat) : Bool :=
  if mode = 3 ∨ mode = 4 then decide (pattern ≤ 4) else pattern == 5 || pattern == 6

/-- R109: a test begins: a lane that is UP or configured for use goes down under R103 first; TEST otherwise at once. A lane held in FAULT stays
there (R102). -/
def enterTest (d : Dev) (h : Hdr) (n : Nat) : Dev :=
  if (nth d.lanes n).st = 5 ∨ laneConfigured d n then markDown d h n .test else afterDown d n .test

/-- R109: leaving TEST restarts bring-up at ACQUIRE. -/
def leaveTest (d : Dev) (n : Nat) : Dev :=
  if (nth d.lanes n).st = 7 then
    d.onLane n fun l => { l with st := 2, lit := true, stable := true, cdr := false, blk := false, adapt := 0, isMatch := false, identRun := 0 }
  else d

/-- R107: a counter of 48 bits that saturates. -/
def sat48 (n : Nat) : Nat := min n (2 ^ 48 - 1)

/-- R107: the bits and errors that a locked checker has seen since it was last read; symbol errors on PAM4 lanes. -/
def prbsAdd (d : Dev) (n errs syms : Nat) : Dev :=
  let bits := (d.now - (nth d.lanes n).prbsFrom) * lineRate d n / tickHz
  d.onLane n fun l => { l with
    prbsBits := min (2 ^ 64 - 1) (l.prbsBits + bits), prbsErrs := sat48 (l.prbsErrs + min errs bits), prbsFrom := d.now
    prbsSyms := if l.mode = 3 ∨ l.mode = 4 then l.prbsSyms else sat48 (l.prbsSyms + min syms (bits / 2)) }

/-- R107: a checker brought up to date while it is locked: the errors it has counted since are free values. -/
def prbsCatch (d : Dev) (n : Nat) : Dev :=
  if (nth d.lanes n).prbsLock then
    let (e, d) := d.fresh 6
    let (s, d) := d.fresh 6
    prbsAdd d n e s
  else d

/-- LANE-PRBS (R106, R109). -/
def execLanePrbs (h : Hdr) (lane pattern gen chk force : Nat) : Meaning :=
  hostCmd (cmd 0x0204) h (.lanePrbs h lane pattern gen chk force)
    (fun d =>
      let l := nth d.lanes lane
      firstBad [(decide (31 < lane) || decide (6 < pattern), ST.laneRange), (decide (1 < gen) || decide (1 < chk) || decide (1 < force), ST.badArg),
        (l.mode != 0 && !patternOk l.mode pattern, ST.laneMode), (!nth d.quads (lane / 4), ST.quadOff), (l.st == 0, ST.laneNotUp),
        (force == 0 && (l.st == 5 || laneConfigured d lane), ST.laneInUse)])
    (just fun d =>
      let d := (prbsCatch d lane).onLane lane fun l => { l with prbsPattern := pattern, prbsGen := gen == 1, prbsChk := chk == 1, prbsLock := false }
      if gen = 0 ∧ chk = 0 then (if (nth d.lanes lane).loopback = 0 then leaveTest d lane else d) else enterTest d h lane)

/-- LANE-PRBS-READ (R107). -/
def execLanePrbsRead (h : Hdr) (lane clear : Nat) : Meaning :=
  hostCmd (askClear 0x0205 clear [1, 8, 8, 8]) h (.lanePrbsRead h lane clear)
    (fun _ => firstBad [(decide (31 < lane), ST.laneRange), (decide (1 < clear), ST.badArg)])
    fun d =>
      let d := prbsCatch d lane
      let l := nth d.lanes lane
      { dev := if clear = 1 then d.onLane lane fun l => { l with
        prbsBits := 0, prbsErrs := 0, prbsSyms := 0 } else d,
        reply := { fields := [fld 1 (b2n l.prbsLock), fld 8 l.prbsBits, fld 8 l.prbsErrs, fld 8 l.prbsSyms] } }

/-- LANE-LOOPBACK (R108, R109). -/
def execLaneLoopback (h : Hdr) (lane kind force : Nat) : Meaning :=
  hostCmd (cmd 0x0206) h (.laneLoopback h lane kind force)
    (fun d =>
      let l := nth d.lanes lane
      firstBad [(decide (31 < lane) || decide (3 < kind), ST.laneRange), (decide (1 < force), ST.badArg), (!nth d.quads (lane / 4), ST.quadOff),
        (l.st == 0, ST.laneNotUp), (force == 0 && (l.st == 5 || laneConfigured d lane), ST.laneInUse)])
    (just fun d =>
      let d := d.onLane lane fun l => { l with loopback := kind }
      if kind = 0 then
        (if (nth d.lanes lane).prbsGen || (nth d.lanes lane).prbsChk then d.onLane lane fun l => { l with lit := true } else leaveTest d lane)
      else enterTest d h lane)

/-- LANE-RESET (R102). -/
def execLaneReset (h : Hdr) (lane : Nat) : Meaning :=
  hostCmd (cmd 0x0207) h (.laneReset h lane)
    (fun d => firstBad [(decide (31 < lane), ST.laneRange), (!nth d.quads (lane / 4), ST.quadOff)])
    (just fun d => (markDown d h lane .restart).onLane lane fun l => { l with departures := [] })

/-- QUAD-POWER (R105): off takes each lane down under R103 and then gates the quad; on starts its lanes. -/
def execQuadPower (h : Hdr) (quad on force : Nat) : Meaning :=
  let lanes := [4 * quad, 4 * quad + 1, 4 * quad + 2, 4 * quad + 3]
  hostCmd (cmd 0x0208) h (.quadPower h quad on force)
    (fun d => firstBad [(decide (7 < quad), ST.laneRange), (decide (1 < on) || decide (1 < force), ST.badArg),
      (on == 0 && force == 0 && lanes.any (laneInUse d), ST.laneInUse)])
    (just fun d =>
      if on = 1 then
        (if nth d.quads quad then d
        else lanes.foldl (fun d n => startLane d n (nth d.lanes n).mode (nth d.lanes n).fec) { d with quads := upd d.quads quad fun _ => true })
      else if lanes.all fun n => (nth d.lanes n).st == 0 then { d with quads := upd d.quads quad fun _ => false }
      else lanes.foldl (fun d n => if (nth d.lanes n).st = 0 then d else markDown d h n .gate) d)

/-- LANE-COUNTERS (R110). -/
def execLaneCounters (h : Hdr) (lane clear : Nat) : Meaning :=
  hostCmd (askClear 0x0209 clear [8, 8, 8, 8, 4, 4]) h (.laneCounters h lane clear)
    (fun _ => firstBad [(decide (31 < lane), ST.laneRange), (decide (1 < clear), ST.badArg)])
    fun d =>
      let l := nth d.lanes lane
      { dev := if clear = 1 then d.onLane lane fun l =>
          { l with
        corrected := 0, uncorrectable := 0, fillIn := 0, fillOut := 0, lockLosses := 0, losCount := 0 } else d,
        reply := { fields := [fld 8 l.corrected, fld 8 l.uncorrectable, fld 8 l.fillIn, fld 8 l.fillOut, fld 4 l.lockLosses, fld 4 l.losCount] } }

/-! ### Blocks of a direct lane (R88, R89, R92, R93) -/

/-- R89, R106, R108: whether a lane's transmitter sends its own blocks: a DIRECT mode, the laser lit, neither a pattern nor the partner's
data in their place. -/
def sendsBlocks (d : Dev) (n : Nat) : Bool := let l := nth d.lanes n; laneDirect d n && l.lit && !l.prbsGen && l.loopback == 0

/-- R89: an IDENT, and a FILL block leaves. -/
def sendIdent (d : Dev) (n : Nat) : Dev :=
  (d.onLane n fun l => { l with sinceIdent := 0 }).send (.direct n [identBlock d.nvm.unitNumber n (nth d.lanes n).expTag (nth d.lanes n).blk])
def sendFill (d : Dev) (n : Nat) : Dev := (d.onLane n fun l => { l with sinceFill := 0 }).send (.direct n [fillBlock])

/-- IDENT_SEND (R89): a DIRECT transmitter inserts an IDENT block. -/
def execIdentSend (lane : Nat) : Meaning := onDev fun d => if sendsBlocks d lane then sendIdent d lane else d

/-- FILL_SEND (R89). -/
def execFillSend (lane : Nat) : Meaning := onDev fun d => if sendsBlocks d lane then sendFill d lane else d

/-- R89: the block that a transmitter's turn has come for: the IDENT that completes 1,024 blocks, the FILL that completes 8,192, or one of a
frame. -/
def blockTurn (d : Dev) (n : Nat) : Dev :=
  let l := nth d.lanes n
  if 1023 ≤ l.sinceIdent then sendIdent (d.onLane n fun l => { l with sinceFill := l.sinceFill + 1 }) n
  else if 8191 ≤ l.sinceFill then sendFill (d.onLane n fun l => { l with sinceIdent := l.sinceIdent + 1 }) n
  else d.onLane n fun l => { l with sinceIdent := l.sinceIdent + 1, sinceFill := l.sinceFill + 1, frames := l.frames - 1 }

/-- The blocks of one tick of the axis clock; at most one per lane, a lane sending fewer than `tickHz` blocks per second. -/
def blockTick (d : Dev) (n : Nat) : Dev :=
  if sendsBlocks d n then
    let b := (nth d.lanes n).block + directRate d n
    if b < 66 * tickHz then d.onLane n fun l => { l with block := b }
    else blockTurn (d.onLane n fun l => { l with block := b - 66 * tickHz }) n
  else d

/-- The bits of an RS codeword of a mode: RS(544,514) and RS(528,514) of 10-bit symbols. -/
def codewordBits (mode : Nat) : Nat := if mode = 3 ∨ mode = 4 then 5280 else 5440

/-- R110, R112: the codewords of one tick on a lane with FEC that has lock. Whether a codeword comes clean, corrected or uncorrectable is
a free value; an uncorrectable one raises EV_LANE_FEC at most once per second. -/
def codewordTick (d : Dev) (n : Nat) : Dev :=
  let l := nth d.lanes n
  if l.fec = 0 ∨ l.blk = false then d
  else
    let b := l.codeword + lineRate d n
    if b < codewordBits l.mode * tickHz then d.onLane n fun l => { l with codeword := b }
    else
      let (v, d) := d.fresh 1
      let d := d.onLane n fun l => { l with
        codeword := b - codewordBits l.mode * tickHz
        corrected := l.corrected + (if v % 3 = 1 then 1 else 0), uncorrectable := l.uncorrectable + (if v % 3 = 2 then 1 else 0) }
      if v % 3 = 2 then raiseLimited d EV.laneFec n [a4 n] else d

/-- One tick of a lane. -/
def laneBusy (d : Dev) (n : Nat) : Bool := (nth d.lanes n).lit || (nth d.lanes n).blk
def laneTick (d : Dev) (n : Nat) : Dev := codewordTick (blockTick d n) n

/-- An identity accepted on a lane of time transfer: a partner that changed raises EV_LANE_TIME_FAULT (R81). -/
def timePartner (d : Dev) (n unit : Nat) : Dev :=
  if d.tmb.laneRole = 0 ∨ d.tmb.laneNum ≠ n ∨ d.tmb.lanePartner = unit then d
  else
    let d := if d.tmb.lanePartner = 0 then d else raiseEv d EV.laneTimeFault [a4 n]
    d.onTmb fun t => { t with lanePartner := unit }

/-- R97: what an accepted identity makes of a lane, the table's rows in order: none for UP, or the cause of MISWIRED: 1 looped, 2
cross-looped, 3 crossed. The expected partner is self when it is this unit and this lane. -/
def classify (own n : Nat) (l : Lane) : Option Nat :=
  let self := l.expUnit == own && l.expLane == n
  if l.expUnit = l.rxUnit ∧ l.expLane = l.rxLane ∧ l.expTag = l.rxTag then none
  else if l.rxUnit = own then
    (if l.rxLane = n then (if self then none else some 1) else if self then some 3 else some 2)
  else if l.expUnit = 0xFFFFF then none else some 3

/-- R97, R98: an accepted identity classifies a lane in IDENTIFY, UP or MISWIRED. An eighth departure from UP within 1 s that a wrong identity
causes holds the lane in FAULT, and no EV_LANE_MISWIRED follows (DESIGN CHOICE, log entry 109: R98 and R102 do not say which
prevails). -/
def identify (d : Dev) (n : Nat) : Dev :=
  let l := nth d.lanes n
  match classify d.nvm.unitNumber n l with
  | none =>
    if l.st = 5 then timePartner d n l.rxUnit
    else timePartner (raiseEv (d.onLane n fun l => { l with st := 5, isMatch := true }) EV.laneUp [a4 n, a4 l.rxUnit, a4 l.rxLane, a4 l.rxTag]) n l.rxUnit
  | some c =>
    if l.st = 6 then d
    else
      let d := if l.st = 5 then leaveUp d n 6 5 true else d.onLane n fun l => { l with st := 6 }
      if (nth d.lanes n).st = 8 then d
      else raiseEv (d.onLane n fun l => { l with miswired := true, isMatch := false }) EV.laneMiswired [a4 n, a4 c, a4 l.rxUnit, a4 l.rxLane, a4 l.rxTag]

/-- R88, R97: the identity that an IDENT block carries becomes the one reported. -/
def Lane.accept (l : Lane) : Lane :=
  { l with rxUnit := beAt l.ident 0 3 % 2 ^ 18, rxLane := nth l.ident 3 % 32, rxTag := nth l.ident 4 }

/-- IDENT (R88, R97, R98): the fourth consecutive IDENT block with a valid CRC-8 and the same bytes 1 to 5 is accepted;
`plane` is its byte 4, the lane with the receive-locked bit. -/
def execIdent (lane code unit plane tag crc : Nat) : Meaning := onDev fun d =>
  let l := nth d.lanes lane
  let body := bytesOf [fld 3 unit, fld 1 plane, fld 1 tag]
  if !laneDirect d lane || !l.blk || !(l.st == 4 || l.st == 5 || l.st == 6) || code != 0xD2 then d
  else if crc8 (code :: body) ≠ crc then d.onLane lane fun l => { l with identRun := 0 }
  else
    let run := if l.ident = body ∧ l.identRun ≠ 0 then min 4 (l.identRun + 1) else 1
    let d := d.onLane lane fun l => { l with ident := body, identRun := run }
    if run = 4 then identify (d.onLane lane (·.accept)) lane else d

/-- FILL (R92): with the buffer above 6 blocks the arriving FILL block is deleted. The fill, which depends on the
difference of two units' references, is a free value at each FILL block. -/
def execFill (lane : Nat) : Meaning := onDev fun d =>
  if laneDirect d lane && (nth d.lanes lane).blk then
    let (v, d) := d.fresh 4
    let e := v % 17
    d.onLane lane fun l => if 6 < e then { l with elastic := e - 1, fillOut := l.fillOut + 1 } else { l with elastic := e }
  else d

/-- FILL_INSERTION (R92): the buffer has drained to a fill, a free value no higher than before; below 2 blocks a FILL block is
inserted. -/
def execFillInsertion (lane : Nat) : Meaning := onDev fun d =>
  if laneDirect d lane && (nth d.lanes lane).blk then
    let (v, d) := d.fresh 4
    d.onLane lane fun l =>
      let e := v % (l.elastic + 1)
      if e < 2 then { l with elastic := e + 1, fillIn := l.fillIn + 1 } else { l with elastic := e }
  else d

/-- ELASTIC_SLIP (R93): the buffer is recentred and the frame in progress closes with every word thorned. -/
def execElasticSlip (lane : Nat) : Meaning := onDev fun d =>
  if laneDirect d lane && (nth d.lanes lane).blk then
    raiseEv (d.onLane lane fun l => { l with slip := true, elastic := 4, slipAt := some d.now }) EV.laneSlip [a4 lane]
  else d

/-! ### Bring-up, loss and patterns -/

/-- LASER_STABLE (R100, R110): the first step of bring-up; the monitor reads the laser's power in 0.1 dBm. -/
def execLaserStable (reading : LaserReading) : Meaning := onDev fun d =>
  d.onLane reading.lane fun l =>
    if l.lit && !l.stable then { l with stable := true, txPower := reading.power, st := if l.st = 1 ∧ l.los = false then 2 else l.st } else l

/-- LOSS_OF_SIGNAL_CLEAR (R101, R100): the power has stayed above -12 dBm for 1 ms; bring-up continues. The power is
in steps of 0.2 dB. -/
def execLossOfSignalClear (lane : Nat) (power : Int) : Meaning := onDev fun d =>
  d.onLane lane fun l =>
    if l.st != 0 && l.los && decide (-60 < power) then
      { l with los := false, rxPower := power, st := if l.st = 1 ∧ l.stable then 2 else l.st }
    else { l with rxPower := power }

/-- LOSS_OF_SIGNAL (R101): below -14 dBm the lane enters DARK, with EV_LANE_DOWN, cause dark; a loopback or pattern in force ends then. A
lane held in FAULT stays there (R102). -/
def execLossOfSignal (lane : Nat) (power : Int) : Meaning := onDev fun d =>
  let l := nth d.lanes lane
  if l.st = 0 ∨ l.los ∨ decide (-70 ≤ power) then d.onLane lane fun l => { l with rxPower := power }
  else
    let d := if l.st = 5 then leaveUp d lane 1 1 true
      else raiseEv (d.onLane lane fun l =>
        { l with st := if l.st = 8 then 8 else 1, loopback := 0, prbsGen := false, prbsChk := false, prbsLock := false }) EV.laneDown [a4 lane, a4 1]
    d.onLane lane fun l => { l with
      los := true, cdr := false, blk := false, adapt := 0, rxPower := power, losCount := sat32 (l.losCount + 1), identRun := 0 }

/-- CLOCK_RECOVERY_LOCK (R100): equaliser adaptation begins. -/
def execClockRecoveryLock (lane : Nat) : Meaning := onDev fun d =>
  d.onLane lane fun l =>
    if (l.st == 2 || l.st == 7) && !l.cdr then { l with cdr := true, adapt := if l.freeze then 3 else 1 } else l

/-- R95: the search for block lock begins now. -/
def Lane.search (l : Lane) (now : Nat) : Lane := { l with searchAt := now, noAlign := false }

/-- EQUALISER_ADAPTED (R94, R100): initial adaptation completes and the lane enters ALIGN; afterwards the equaliser tracks while there is
signal. A frozen equaliser keeps its values. -/
def execEqualiserAdapted (lane : Nat) (eq : EqState) : Meaning := onDev fun d =>
  d.onLane lane fun l =>
    if decide (2 ≤ l.st) && l.cdr then
      let l' := { l with eq := if l.freeze then l.eq else eq, txPower := eq.txPower, adapt := if l.freeze then 3 else 2 }
      if l.st = 2 then { l' with st := 3 }.search d.now else l'
    else l

/-- BLOCK_LOCK (R95, R99): 64 valid headers at an offset, or the lock of the FEC: a DIRECT lane goes on to IDENTIFY, an ETH lane is UP. -/
def execBlockLock (found : LockAt) : Meaning := onDev fun d =>
  let lane := found.lane
  let offset := found.offset
  let l := nth d.lanes lane
  if l.st = 3 then
    let d := d.onLane lane fun l => { l with blk := true, offset := offset % 66, identRun := 0 }
    if laneDirect d lane then d.onLane lane fun l => { l with st := 4 }
    else qsPorts (raiseEv (d.onLane lane fun l => { l with st := 5 }) EV.laneUp [a4 lane, a4 0, a4 0, a4 0])
  else if (l.st = 7 ∨ l.st = 8) ∧ l.cdr then d.onLane lane fun l => { l with blk := true, offset := offset % 66 } else d

/-- NO_ALIGNMENT (R86, R95): the search of a DIRECT lane, or of ETH-25 without FEC, has exceeded 100 ms; reported once per search. -/
def execNoAlignment (lane : Nat) : Meaning := onDev fun d =>
  let l := nth d.lanes lane
  if l.st = 3 ∧ (laneDirect d lane ∨ (l.mode = 3 ∧ l.fec = 0)) ∧ l.noAlign = false ∧ l.searchAt + tickHz / 10 < d.now then
    raiseEv (d.onLane lane fun l => { l with noAlign := true }) EV.laneDown [a4 lane, a4 4]
  else d

/-- LOCK_LOST (R96): 16 or more invalid sync headers in a window of 64 blocks drop block lock, with FEC the codeword lock rules of
IEEE 802.3 (`window.codewords`); the search resumes at its current offset, equaliser and clock stay. -/
def execLockLost (lane : Nat) (window : LockWindow) : Meaning := onDev fun d =>
  let l := nth d.lanes lane
  if l.blk = false ∨ (if l.fec = 0 then decide (window.invalid < 16) else !window.codewords) then d
  else
    let d := d.onLane lane fun l => { l with blk := false, lockLost := true, lockLosses := sat32 (l.lockLosses + 1), identRun := 0 }.search d.now
    if l.st = 5 then leaveUp d lane 3 2 true
    else if l.st = 4 ∨ l.st = 6 then d.onLane lane fun l => { l with st := 3 } else d

/-- PRBS_LOCK (R107): after 1,024 consecutive error-free bits; counting begins. -/
def execPrbsLock (found : PrbsRun) : Meaning := onDev fun d =>
  d.onLane found.lane fun l => if l.st == 7 && l.prbsChk && !l.prbsLock && decide (1024 ≤ found.run) then { l with prbsLock := true, prbsFrom := d.now } else l

/-- PRBS_LOCK_LOSS (R107): more than 256 errors in 1,024 bits (`window`) end the lock; `errs` and `syms` are what the checker counted
since it was last read. -/
def execPrbsLockLoss (lane window errs syms : Nat) : Meaning := onDev fun d =>
  if (nth d.lanes lane).prbsLock && decide (256 < window) then
    (prbsAdd d lane errs syms).onLane lane fun l => { l with prbsLock := false }
  else d

end Sys2Proof.Machine
end

