-- ==== Sys2Proof/Machine/Service.lean ====
section
/-! DEFINITION. What other chapters need of predistortion and calibration: a path's estimates and requests (R392, R399),
what a change of output power and a TX-OPEN bring about (R386, R388, R399, R405, R415), the trims in force (R412 to R415)
and the triggers of calibration (R433, R434). -/

namespace Sys2Proof.Machine

/-! ### Predistortion -/

def Dev.onDpd (d : Dev) (f : Dpd → Dpd) : Dev := { d with dpd := f d.dpd }
def Dev.onDpdPath (d : Dev) (p : Nat) (f : DpdPath → DpdPath) : Dev := d.onDpd fun x => { x with paths := upd x.paths p f }
def Dev.dpdPath (d : Dev) (p : Nat) : DpdPath := nth d.dpd.paths p

/-- The number of a slot that an axis position lies in (R390). -/
def slotOf (a : Nat) : Nat := a / 983040

/-- R391, R428: the observer slots that a span of `n` ticks overlaps are reserved, all four observers; a search in one of them ends. -/
def reserveSlots (d : Dev) (a n : Nat) : Dev :=
  let slots := (List.range (slotOf (a + n - 1) + 1 - slotOf a)).map (· + slotOf a)
  let new := slots.filter fun n => !d.dpd.reserved.contains n
  let d := d.onDpd fun x => { x with reserved := x.reserved ++ new, reservedCount := x.reservedCount + 4 * new.length }
  (List.range 64).foldl (fun d p => d.onDpdPath p fun x => { x with
    svc := x.svc.map fun s => if new.contains (slotOf s.start) && s.stage == 0 then { s with stage := 2 } else s }) d

/-- One of a path's eight counters raised (DPD-COUNTERS order). -/
def dpdCount (d : Dev) (p k : Nat) : Dev := d.onDpdPath p fun x => { x with counts := upd x.counts k (· + 1) }

/-- The last housekeeping mean of a path's PA diode, in 0.01 °C (R399, R602). -/
def paTemp (d : Dev) (p : Nat) : Int := (nth d.pwr.chans (p + 1)).last

/-- The mean of the four die diodes, in 0.01 °C (R433, R602). -/
def dieMean (d : Dev) : Int := divHalfEven (([65, 66, 67, 68].map fun c => (nth d.pwr.chans c).last).sum) 4

/-- R405: adaptation runs while `dpd_on` [7] and [6] are both set. -/
def DpdPath.adapts (x : DpdPath) : Bool := x.cfg.dpdOn.testBit 7 && x.cfg.dpdOn.testBit 6

/-- R399: the drift since the last capture, in 0.001 dB. -/
def dpdDrift (d : Dev) (p : Nat) : Int :=
  let x := d.dpdPath p
  x.cfg.tempDrift * (paTemp d p - x.temp0).natAbs + x.cfg.stepDrift * x.steps

/-- R399: the estimates of NMSE and of the two out-of-band ratios, in 0.001 dB; none before the first metrics. -/
def dpdEstimate (d : Dev) (p : Nat) : Option (Int × Int × Int) :=
  (d.dpdPath p).base.map fun (a, b, c) => (10 * a + dpdDrift d p, 10 * b + dpdDrift d p, 10 * c + dpdDrift d p)

/-- R392, R400: whether an estimate exceeds its bound, or its hard bound. -/
def dpdOver (d : Dev) (p : Nat) (hard : Bool) : Bool :=
  let c := (d.dpdPath p).cfg
  let n := if hard then c.hardNmse else c.boundNmse
  let o := if hard then c.hardOob else c.boundOob
  match dpdEstimate d p with
  | none => false
  | some (a, b, e) => decide (100 * n < a) || decide (100 * o < max b e)

/-- R392: a path requests service; it holds at most one request, whose age counts from the first. -/
def dpdRequest (d : Dev) (p : Nat) (ov : Bool) : Dev :=
  d.onDpdPath p fun x => { x with req := match x.req with
    | none => some (d.now, ov)
    | some (t, o) => some (t, o || ov) }

/-- R392, R399: the estimates of a path are compared with their bounds: EV_DPD_BOUND as they rise above one, and a request.
While a solve of the path runs its outcome is awaited. -/
def dpdJudge (d : Dev) (p : Nat) : Dev :=
  let x := d.dpdPath p
  if !x.adapts || !domOn d 6 || (x.svc.any fun s => s.stage == 1) then d
  else
    let ov := dpdOver d p false
    let d := if ov && !x.boundSeen then raiseEv d EV.dpdBound [a4 p] else d
    let d := d.onDpdPath p fun x => { x with boundSeen := ov }
    if ov then dpdRequest d p true else d

/-- R399: a change of a path's output power by a number of 0.01 dB adds to its drift. -/
def dpdPowerStep (d : Dev) (p : Nat) (delta : Int) : Dev :=
  dpdJudge (d.onDpdPath p fun x => { x with steps := x.steps + delta.natAbs }) p

/-- R384: the a terms and the coefficients of a path. -/
def DpdLive.na (l : DpdLive) : Nat := (l.order + 1) / 2 * l.mem
def DpdLive.nc (l : DpdLive) : Nat := l.na + 4 * l.nbrMem

/-- The structure a configuration asks for. -/
def liveOf (c : DpdCfg) : DpdLive := ⟨c.order, c.mem, c.nbrMem, c.nbrLo, c.nbrHi, c.dpdOn.testBit 7⟩

/-- R386: a set in full under a structure: the identity set written out; added terms zero and removed ones dropped, the
terms of a neighbour that changes being added ones. -/
def fullSet (m : DpdLive) (s : DpdSet) : List (Int × Int) :=
  let l := s.shape
  (List.range m.nc).map fun j =>
    if s.coefs.isEmpty then (if j = 0 then (32768, 0) else (0, 0))
    else if j < m.na then
      if j / m.mem < (l.order + 1) / 2 ∧ j % m.mem < l.mem then nth s.coefs (j / m.mem * l.mem + j % m.mem) else (0, 0)
    else
      let r := j - m.na
      let same := if r / m.nbrMem < 2 then l.nbrLo == m.nbrLo else l.nbrHi == m.nbrHi
      if same ∧ r % m.nbrMem < l.nbrMem then nth s.coefs (l.na + r / m.nbrMem * l.nbrMem + r % m.nbrMem) else (0, 0)

/-- A set taken over to a structure. -/
def reshape (m : DpdLive) (s : DpdSet) : DpdSet :=
  if s.coefs.isEmpty ∨ s.shape = m then s else { s with shape := m, coefs := fullSet m s }

/-- R62, R75, R226: the ticks from the predistorter to the antenna (16, 8, 32 and 8 ns), and those a former bank drains
in (R383). -/
def dpdDelay : Nat := 126
def dpdDrain : Nat := 32

/-- R385, R497: a swap of a path's banks, refused for a thorn in the incoming one. -/
def dpdSwapOne (pos tag : Nat) (d : Dev) (p : Nat) : Dev :=
  if (d.dpdPath p).banks.thornShd ≠ 0 then raiseEv d EV.memSwapRefused [a4 tag]
  else d.onDpdPath p fun x => { x with banks := x.banks.swap (pos + dpdDrain), swapAt := none }

/-- R386, R388, R405: a TX-OPEN of the path brings its structure, a reset or a loaded set into force. -/
def dpdTxOpen (d : Dev) (p : Nat) : Dev :=
  let m := liveOf (d.dpdPath p).cfg
  let d := d.onDpdPath p fun x => { x with
    live := m, banks := { x.banks with cur := reshape m x.banks.cur, shd := reshape m x.banks.shd } }
  if (d.dpdPath p).resetAtOpen then
    d.onDpdPath p fun x => { x with
                                    resetAtOpen := false, applyAtOpen := false, swapAt := none,
                                    banks := { x.banks with cur := {}, shd := {}, thornCur := 0, thornShd := 0 } }
  else if (d.dpdPath p).applyAtOpen then dpdSwapOne d.axis 0 (d.onDpdPath p fun x => { x with applyAtOpen := false }) p
  else d

/-! ### Trims -/

def Dev.onCal (d : Dev) (f : Cal → Cal) : Dev := { d with cal := f d.cal }
def calCount (d : Dev) (k : Nat) : Dev := d.onCal fun c => { c with counts := upd c.counts k (· + 1) }
def calStick (d : Dev) (k : Nat) : Dev := d.onCal fun c => { c with sticky := upd c.sticky k fun _ => true }

/-- The trim table of a profile and band position: the one at work, else the one stored, else the factory set (R440). -/
def calTable? (d : Dev) (key : Nat × Nat) : Option CalTable :=
  match d.cal.tables.lookup key with
  | some t => some t
  | none => d.nvm.calTables.lookup key
def calTable (d : Dev) (key : Nat × Nat) : CalTable := (calTable? d key).getD {}

/-- The profile and band position of a path. -/
def calKey (d : Dev) (p : Nat) : Nat × Nat := (d.syn.profile, (d.rxPath p).band)

/-- R412, R415: the trims and the response in force on a path in a direction; a transmit path keeps the former ones until
its TX-OPEN. -/
def trimOf (d : Dev) (dir p : Nat) : CalTrim × List (Int × Int) :=
  let key := calKey d p
  let t := calTable d key
  let new := (nth t.trims (dir * 64 + p), nth t.resp (dir * 64 + p))
  if dir = 1 then
    match d.cal.txOld.find? fun e => e.1 == p && e.2.1 == key with
    | some e => e.2.2
    | none => new
  else new

/-- R414, R438: the phase trim of a sub-band, from the response at its `rf_centre`; 0 while it is not configured. -/
def subPhase (d : Dev) (dir p s : Nat) : Nat :=
  let r := (trimOf d dir p).2
  if dir = 0 then (if ((d.rxPath p).sb s).on then Config.phaseTrim r ((d.rxPath p).sb s).banks.cur.cfg.chain.rf % 65536 else 0)
  else if ((d.txPath p).sb s).on then (Config.phaseTrim r ((d.txPath p).sb s).banks.cur.cfg.chain.rf + nth d.cal.rotations p) % 65536
  else 0

/-- R239, R415, R438: a TX-OPEN of the path puts the written transmit trims in force, their gain as a compensation step. -/
def calTxOpen (d : Dev) (p : Nat) : Dev :=
  let old := (trimOf d 1 p).1.gain
  let d := d.onCal fun c => { c with txOld := c.txOld.filter fun e => e.1 != p, rotations := upd c.rotations p fun _ => c.rotation }
  let new := (trimOf d 1 p).1.gain
  if new = old then d else dpdPowerStep (raiseEv d EV.txPowerStep [a4 p, as4 (new - old)]) p (new - old)

/-- What a TX-OPEN brings into force on a path besides its window. -/
def atTxOpen (d : Dev) (p : Nat) : Dev := calTxOpen (dpdTxOpen d p) p

/-! ### Triggers of calibration -/

/-- The kinds of a mask in their order (R418, R429). -/
def kindsOf (mask : Nat) : List Nat := [1, 2, 3, 4, 5].filter mask.testBit

/-- The kinds of a mask that are not pending (R434). -/
def newKinds (d : Dev) (mask : Nat) : List Nat := (kindsOf mask).filter fun k => !d.cal.runs.any fun r => r.kind == k

/-- R429, R433, R434: kinds are queued, at most eight runs pending, and EV_CAL_TRIGGER names the reason: 1 temperature, 2
interval, 3 profile, 4 host. -/
def calTrigger (d : Dev) (mask reason earliest : Nat) : Dev :=
  let ks := (newKinds d mask).take (8 - d.cal.runs.length)
  if ks.isEmpty ∧ reason ≠ 4 then d
  else raiseEv (d.onCal fun c => { c with runs := c.runs ++ ks.map fun k => ({ kind := k, earliest := earliest, since := d.now, asked := d.now } : CalRun) })
    EV.calTrigger [a4 reason, a4 mask]

/-- R433: a profile or band position that has taken effect is compared with its stored table. -/
def calNotice (d : Dev) : Dev :=
  if (List.range 64).any (fun p =>
      match calTable? d (calKey d p) with
      | none => true
      | some t => decide (100 * d.cal.dT ≤ (dieMean d - t.temp).natAbs)) then calTrigger d d.cal.auto 3 0
  else d

/-- R433, R434: a housekeeping round's die mean is compared with that of the last completion, and of the run in progress. -/
def calTemperature (d : Dev) : Dev :=
  let moved (t : Int) : Bool := decide (100 * d.cal.dT ≤ (dieMean d - t).natAbs)
  let d := d.onCal fun c => { c with runs := c.runs.map fun r => if r.first.isSome && moved r.temp0 then { r with requeue := true } else r }
  match d.cal.lastTemp with
  | some t => if moved t then calTrigger d d.cal.auto 1 0 else d
  | none => d

/-! ### Front-end states (R459, R460) -/

/-- A front-end takes a state; its entries to TX, CAL and PROTECT are counted (R479). -/
def Fe.enter (f : Fe) (st : Nat) : Fe :=
  { f with st := st, entries := if f.st ≠ st ∧ 2 ≤ st then upd f.entries (st - 2) (· + 1) else f.entries }

/-! ### A step given up (R427) -/

/-- A front-end returns from a calibration step to its former state (R419, R460). -/
def feFromCal (d : Dev) (p : Nat) : Dev :=
  if (nth d.fe p).st = 3 then
    d.onFe p fun f => f.enter (if f.protTx ≠ 0 then 4 else if f.former = 1 ∧ f.protRx then 4 else f.former)
  else d

/-- The step planned or running is given up: the front-ends return, its measurements are discarded, and it is counted. -/
def calAbandon (d : Dev) : Dev :=
  match d.cal.step with
  | none => d
  | some (_, begun) =>
    let d := calCount (d.onCal fun c => { c with step := none }) 1
    if begun then (List.range 64).foldl (fun d p =>
      if (nth d.fe p).st = 3 then (feFromCal d p).onFe p fun f => { f with abandoned := true } else d) d
    else d

end Sys2Proof.Machine
end

