-- ==== Sys2Proof/Machine/Receive.lean ====
section
/-! DEFINITION. Chapter 5: receive paths and sub-bands: the configuration checks and figures (R181 to R193), path
settings and protect (R172 to R176), replaced samples (R199), port checks (R178, R179), windows, swaps and the other
receive stakes (R195 to R198, R201), raw streams and cut-through (R202 to R207, R210), and disabling (R208). -/

namespace Sys2Proof.Machine

/-! ### The figures of a chain -/

/-- The bytes 0 to 39 of a configuration object (R193, R225). -/
def chainFields (c : ChainPar) : List Field :=
  [fld 5 c.rf, fld 1 c.profile, fld 4 c.phase, fld 1 c.aSections] ++ byteFields c.aLength ++
    [fld 1 c.aFactor, fld 1 c.aShift, fld 1 c.bFactor, fld 1 c.bShift, fld 2 c.bTaps, fld 1 c.bCoef, fld 1 c.reserved23, fld 2 c.bDelay,
     fld 1 c.cShift, fld 1 c.windowMode, fld 4 c.cRatio, fld 8 c.cAnchor]

/-- The configuration object of a receive sub-band (R193). -/
def rxCfgFields (c : RxCfg) : List Field := chainFields c.chain ++ [fld 1 c.consumers, fld 7 c.reserved41]

/-- The factors a stage A or B may take (R187, R188, R219). -/
def aFactors : List Nat := [1, 2, 4, 8, 16, 32]
def bFactors : List Nat := [1, 2, 3, 4, 6, 8]

/-- R184, R187 to R189, R193, R219: the stage arguments are inside their ranges. -/
def stageOk (c : ChainPar) : Bool :=
  decide (1 ≤ c.aSections) && decide (c.aSections ≤ 5) && (c.aLength.take c.aSections).all (fun n => decide (1 ≤ n) && decide (n ≤ 64))
    && aFactors.contains c.aFactor && bFactors.contains c.bFactor && decide (c.profile ≤ 7) && decide (c.bCoef ≤ 1) && decide (c.bDelay ≤ 767)
    && decide (c.windowMode ≤ 1) && (c.cRatio == 0 || decide (0x80000000 ≤ c.cRatio)) && decide (c.aShift ≤ 31) && decide (c.bShift ≤ 31)
    && decide (c.cShift ≤ 31) && (c.bTaps != 0 || c.bFactor == 1)

/-- R188, R219: the tap budget of stage B. -/
def tapsOk (c : ChainPar) : Bool := decide (c.bTaps ≤ min 384 (48 * c.bFactor))

/-- The unit of `rate768`: 768 × 2^32 per sample per second, which every rate of R189 and R219 divides. -/
def rateUnit : Nat := 768 * 2 ^ 32

/-- The rate at the sub-band's far end: the output on receive, the stage C input on transmit, in 1 / `rateUnit` samples
per second, exact (R189, R219). -/
def rate768 (d : Dev) (c : ChainPar) : Nat :=
  adcRate d c.profile * (if c.cRatio = 0 then 2 ^ 32 else c.cRatio) * (768 / (c.aFactor * c.bFactor))

/-- R191, R219: the rate limits of the active stages B and C. -/
def stageRatesOk (d : Dev) (c : ChainPar) : Bool :=
  (c.bTaps == 0 || decide (adcRate d c.profile ≤ 3932160000 * c.aFactor))
    && (c.cRatio == 0 || decide (adcRate d c.profile ≤ 1966080000 * (c.aFactor * c.bFactor)))

/-- The stage B delay in half stage B samples (R192). -/
def bTerm (c : ChainPar) : Nat := if c.bCoef = 1 then c.bDelay else c.bTaps - 1

/-- The sum of (length - 1) over the stage A sections. -/
def aSpan (c : ChainPar) : Nat := ((c.aLength.take c.aSections).map fun n => n - 1).sum

/-- R192: the group delay in half ADC samples. -/
def groupHalves (c : ChainPar) : Nat :=
  aSpan c + (if c.bTaps = 0 then 0 else c.aFactor * bTerm c) + (if c.cRatio = 0 then 0 else c.aFactor * c.bFactor * 15)

/-- R192: g in 2^-16 ticks, k/2 ADC samples standing in one tick (R25); half to even. -/
def groupDelay16 (d : Dev) (c : ChainPar) : Nat :=
  if profileK d c.profile = 0 then 0 else (divHalfEven ((groupHalves c : Int) * 65536) (profileK d c.profile)).toNat

/-- Nanoseconds and half ADC samples together, in ticks, rounded up. -/
def spanTicks (d : Dev) (profile ns halves : Nat) : Nat :=
  let k := max 1 (profileK d profile)
  ceilDiv (ns * 196608 * k + halves * 100000) (100000 * k)

/-- R200: the latency bound of a receive sub-band, in ticks. -/
def rxLatency (d : Dev) (c : ChainPar) : Nat :=
  spanTicks d c.profile (96 + (if c.bTaps = 0 then 0 else 32) + (if c.cRatio = 0 then 0 else 24))
    (aSpan c + (if c.bTaps = 0 then 0 else c.aFactor * bTerm c + 2 * c.aFactor * c.bFactor) + (if c.cRatio = 0 then 0 else 16 * c.aFactor * c.bFactor))

/-- R185: the NCO word: `rf_centre` folded into the zone, in 2^-48 of the ADC rate, half to even. -/
def ncoWord (d : Dev) (c : ChainPar) : Nat :=
  let fs := adcRate d c.profile
  let f := c.rf % max 1 fs
  let f := if fs < 2 * f then fs - f else f
  if fs = 0 then 0 else (divHalfEven ((f : Int) * 2 ^ 48) fs).toNat % 2 ^ 48

/-- A rate of `rate768` in 2^-16 samples per second, half to even. -/
def rate16 (r : Nat) : Nat := (divHalfEven ((r : Int) * 65536) rateUnit).toNat

/-! ### Bands and zones -/

/-- R181: the band positions of a variant: RF span in Hz, and the fixed profiles and zones admitted. -/
def bands : Variant → List (Nat × Nat × List (Nat × Nat))
  | .l => [(410000000, 1710000000, [(2, 1), (0, 1)])]
  | .m => [(1710000000, 2400000000, [(1, 1)]), (2400000000, 2900000000, [(1, 1)]), (2900000000, 3600000000, [(0, 1)]),
           (3600000000, 4200000000, [(1, 2)])]
  | .h => [(4400000000, 7125000000, [(0, 2)])]
  | .a => [(50000000, 3900000000, [(0, 1)])]

/-- R181: the zones of a profile that a band position admits: those of the table, and for a user profile each zone the
span lies in with 20 MHz to each edge. -/
def zonesOf (d : Dev) (band profile : Nat) : List Nat :=
  match (bands d.ident.variant)[band]? with
  | none => []
  | some (lo, hi, adm) =>
    if profile < 4 then (adm.filter fun a => a.1 == profile).map (·.2)
    else
      let fs := adcRate d profile
      (List.range 16).filterMap fun i =>
        if fs ≠ 0 ∧ i * fs + 40000000 ≤ 2 * lo ∧ 2 * hi + 40000000 ≤ (i + 1) * fs then some (i + 1) else none

/-- R182: a span of centre `rf` and width `r` (in 1 / `rateUnit` Hz) inside the band position and inside one admitted
zone with 20 MHz to each edge. -/
def inZone (d : Dev) (band profile rf r : Nat) : Bool :=
  match (bands d.ident.variant)[band]? with
  | none => false
  | some (lo, hi, _) =>
    let u := 2 * rateUnit
    decide (lo * u + r ≤ rf * u) && decide (rf * u + r ≤ hi * u) &&
      (zonesOf d band profile).any fun z =>
        let fs := adcRate d profile
        decide ((z - 1) * fs * rateUnit + 20000000 * u + r ≤ rf * u) && decide (rf * u + r + 20000000 * u ≤ z * fs * rateUnit)

/-- R182 for a receive sub-band's configuration. -/
def rxZoneOk (d : Dev) (band : Nat) (c : ChainPar) : Bool := inZone d band c.profile c.rf (rate768 d c)

/-! ### Replaced samples -/

/-- ADC samples in a span of ticks: k/2 per tick. -/
def adcSamples (d : Dev) (ticks : Nat) : Nat := ticks * profileK d d.syn.profile / 2

/-- R199: a path's samples are replaced from now on: its enabled sub-bands are flagged and EV_RX_TX_OVERLAP is raised
at most once per second per path. -/
def rxReplace (d : Dev) (p : Nat) : Dev :=
  let hit := (d.rxPath p).sbs.any fun s => s.on && s.banks.cur.cfg.chain.profile == d.syn.profile
  let d := d.onRx p fun x => { x with
    zeroFrom := match x.zeroFrom with
      | some t => some t
      | none => some d.now,
    sbs := x.sbs.map fun s => if s.on && s.banks.cur.cfg.chain.profile == d.syn.profile then { s with txZeroed := true } else s }
  if hit then raiseLimited d EV.rxTxOverlap p [a4 p] else d

/-- R199: the path's front-end is back in RX: the samples replaced meanwhile and for 200 ns more are counted. -/
def rxRestore (d : Dev) (p : Nat) : Dev :=
  match (d.rxPath p).zeroFrom with
  | none => d
  | some t =>
    (d.onRx p fun x => { x with zeroFrom := none, replaced := x.replaced + adcSamples d (d.now - t + 394) }).onFe p fun f =>
      { f with validAt := d.now + 394 }

/-! ### Path settings -/

/-- The attenuation in force: 31 dB in protect (R175). -/
def attenInForce (d : Dev) (p : Nat) : Nat := if (nth d.fe p).st = 4 then 31 else (d.rxPath p).atten

/-- R176, R602: the bias current of a port in 0.1 mA, from its housekeeping channel in mA, at the most its field holds. -/
def biasNow (d : Dev) (p : Nat) : Nat := min 1023 (10 * (nth d.pwr.chans (129 + p)).last.toNat)

/-- FE_RX_PORT_n. -/
def feRxPort (d : Dev) (p : Nat) : Nat :=
  let x := d.rxPath p
  attenInForce d p * 2 ^ 27 + x.portClass * 2 ^ 24 + x.bias * 2 ^ 22 + b2n x.foldback * 2 ^ 21 + b2n (nth d.fe p).protRx * 2 ^ 20 + x.band * 2 ^ 18
    + biasNow d p * 2 ^ 8 + b2n x.overload * 2 ^ 7 + b2n x.protectSeen * 2 ^ 6 + b2n x.portChanged * 2 ^ 5

/-- RX-PATH-SET (R172, R174, R176, R209, R212, R213). A change of band position replaces samples for at most 2 us; how
many is open. -/
def execRxPathSet (h : Hdr) (mask band atten bias overload : Nat) : Meaning :=
  hostCmd (cmd 0x0300) h (.rxPathSet h mask band atten bias overload)
    (fun d => firstBad [
      ((band != 0xFF && decide ((bands d.ident.variant).length ≤ band)) || (atten != 0xFF && decide (31 < atten)) || (bias != 0xFF && decide (2 < bias))
        || (overload != 0xFF && decide (1 < overload)), ST.badArg),
      (band != 0xFF && (pathsOf mask).any (fun p => (d.rxPath p).sbs.any fun s => s.on && !rxZoneOk d band s.banks.cur.cfg.chain), ST.rxZone),
      (!domOn d 3, ST.domainOff)])
    (just fun d =>
      let changed := band != 0xFF && (pathsOf mask).any fun p => (d.rxPath p).band != band
      let d := (pathsOf mask).foldl (fun d p =>
        let moves := band != 0xFF && (d.rxPath p).band != band
        let d := d.onRx p fun x =>
          { x with
            band := if band = 0xFF then x.band else band, atten := if atten = 0xFF then x.atten else atten,
            bias := if bias = 0xFF then x.bias else bias, foldback := x.foldback && (bias == 0xFF || bias == x.bias),
            overMode := if overload = 0xFF then x.overMode else overload }
        if moves then
          let (r, d) := (rxReplace d p).fresh 2
          d.onRx p fun x => { x with
            zeroFrom := if (nth d.fe p).st = 1 then none else x.zeroFrom, replaced := x.replaced + r % (adcSamples d 3933 + 1) }
        else d) d
      if changed then calNotice d else d)

/-- RX-PATH-GET. -/
def execRxPathGet (h : Hdr) (path : Nat) : Meaning :=
  query (ask 0x0301 [4, 2, 2, 8, 4]) h (.rxPathGet h path) (fun _ => firstBad [(decide (63 < path), ST.badArg)]) fun d =>
    let x := d.rxPath path
    [fld 4 (feRxPort d path), fld 2 x.returnLoss, sfld 2 x.reflPhase, fld 8 x.clips, fld 4 x.protects]

/-- ADC_OVERLOAD (R174): clips are counted and flagged; in mode 1 more than 16 clips within 1 us raise the attenuation
by 6 dB, up to 31 dB, and the event carries the axis position of the step. -/
def execAdcOverload (path clips : Nat) : Meaning := onDev fun d =>
  if clips = 0 ∨ domOn d 3 = false then d
  else
    let x := d.rxPath path
    let steps := x.overMode == 1 && decide (16 < clips) && decide (x.atten < 31)
    let d := d.onRx path fun x => { x with clips := x.clips + clips, overload := true, atten := if steps then min 31 (x.atten + 6) else x.atten }
    if steps then raiseEv d EV.rxOverload [a4 path, a8 d.axis] else raiseLimited d EV.rxOverload path [a4 path, a8 0]

/-- RX_PROTECT_ENTRY (R175, R460, R461): a path in TX stays there with its LNA terminated. -/
def execRxProtectEntry (path : Nat) : Meaning := onDev fun d =>
  if domOn d 3 = false ∨ (nth d.fe path).protRx then d
  else
    let d := d.onFe path fun f => { (if f.st = 1 then f.enter 4 else f) with protRx := true }
    let d := d.onRx path fun x => { x with protects := x.protects + 1, protectSeen := true }
    raiseEv (rxReplace d path) EV.rxProtect [a4 path, a4 1]

/-- RX_PROTECT_EXIT (R175, R460). -/
def execRxProtectExit (path : Nat) : Meaning := onDev fun d =>
  if (nth d.fe path).protRx then
    let d := d.onFe path fun f => { f with protRx := false, st := if f.st = 4 ∧ f.protTx = 0 then 1 else f.st }
    raiseEv (if (nth d.fe path).st = 1 then rxRestore d path else d) EV.rxProtect [a4 path, a4 2]
  else d

/-- BIAS_FOLDBACK (R176): 10 mA, `bias_foldback` and EV_RX_BIAS. -/
def execBiasFoldback (path : Nat) : Meaning := onDev fun d =>
  if (d.rxPath path).bias = 0 ∨ domOn d 3 = false then d
  else raiseEv (d.onRx path fun x => { x with foldback := true, foldAt := d.now }) EV.rxBias [a4 path]

/-- BIAS_RETRY (R176): a folded-back port retries full voltage every 100 ms; one held at its limit again folds back again. -/
def execBiasRetry (path : Nat) (held : Bool) : Meaning := onDev fun d =>
  if (d.rxPath path).foldback ∧ (d.rxPath path).foldAt + 196608000 ≤ d.now then
    (if held then raiseEv (d.onRx path fun x => { x with foldAt := d.now }) EV.rxBias [a4 path] else d.onRx path fun x => { x with foldback := false })
  else d

/-! ### Port check -/

/-- R178, R179: the class of a port from its return loss in 0.1 dB and reflection phase in degrees, with the bias
reading prevailing; while the INHIBIT loop is open from the bias current alone. -/
def portClassOf (x : RxPath) (loop : Bool) (loss : Nat) (phase : Int) : Nat :=
  if x.foldback then 4
  else if x.bias ≠ 0 ∧ x.biasCurrent < 5 then 3
  else if loop then (if x.bias = 0 then 0 else 1)
  else if 100 ≤ loss then 1
  else if 30 ≤ loss then 2
  else if -90 ≤ phase ∧ phase ≤ 90 then 3 else 4

/-- The result fields of a port check (R209). -/
def portCheckFields (d : Dev) (paths : List Nat) : List Field :=
  paths.flatMap fun p =>
    let x := d.rxPath p
    [fld 1 x.portClass, fld 2 x.returnLoss, fld 2 x.biasCurrent]

/-- The checks of PORT-CHECK. -/
def portCheckCheck (mask position : Nat) (d : Dev) : Option Reply :=
  Checks.orElse (firstBad [
    (position != 0 && decide (position < d.axis + minLead), ST.late), (!domOn d 3, ST.domainOff),
    ((pathsOf mask).any (fun p => (nth d.fe p).protRx || (nth d.fe p).st == 4), ST.rxProtect)])
    (if mask ≠ 0 ∧ (nextFree d (max d.axis position) (39322 * (pathsOf mask).length) 196608000).isNone then
      some { status := ST.rxNoGap, retry := 100000, hint := max d.axis position + 196608000 }
    else none)

/-- PORT-CHECK (R178, R179, R211). -/
def execPortCheck (h : Hdr) (mask position : Nat) : Meaning :=
  hostCmd (cmd 0x030B (spanWidths 64 (pathsOf mask).length [1, 2, 2])) h (.portCheck h mask position)
    (portCheckCheck mask position)
    (fun d =>
      if mask = 0 then { dev := d } else { dev := d, wait := some (.portCheck (pathsOf mask) (pathsOf mask) position) })

/-- R429: whether a port check requested before a time still runs. -/
def portAhead (d : Dev) (t : Nat) : Bool :=
  d.lnk.mail.any fun m => match m.running with
    | some r => (match r.wait with
      | .portCheck _ _ _ => decide (r.started < t)
      | _ => false)
    | none => false

/-- Whether a running port check measures a path next and its position has come. -/
def measuresNext (d : Dev) (path : Nat) : Bool :=
  d.lnk.mail.any fun m => match m.running with
    | some r => (match r.wait with
      | .portCheck left _ pos => left.head? == some path && decide (pos ≤ d.axis)
      | _ => false)
    | none => false

/-- What a port check waits for once a path has been measured; whether nothing is left; and its answer (R211). -/
def portWait (path : Nat) (w : Wait) : Wait :=
  match w with
  | .portCheck (p :: left) ps pos => if p = path then .portCheck left ps pos else w
  | _ => w
def portDone (r : Running) : Bool :=
  match r.wait with
  | .portCheck [] _ _ => true
  | _ => false
def portReply (d : Dev) (r : Running) : Reply :=
  match r.wait with
  | .portCheck _ ps _ => { fields := portCheckFields d ps }
  | _ => {}

/-- R234, R235: a port that terminates again ends the mismatch protection of its path, unless its PA diode is broken. -/
def mismatchEnds (d : Dev) (path : Nat) : Dev :=
  if (nth d.fe path).protTx = 2 then
    if (nth d.pwr.chans (path + 1)).broken then d.onFe path fun f => { f with protTx := 3 }
    else d.onFe path fun f => { f with protTx := 0, st := if f.st = 4 ∧ f.protRx = false then 1 else f.st }
  else d

/-- R178, R424 to R429: whether the next port may be measured now: the time is free, no settling, gap or hold forbids it, the domains it needs
are on, no calibration step is under way, and no run was requested before the check. While the INHIBIT loop is open nothing is injected, and
no free time is needed (R179). -/
def portMayMeasure (d : Dev) (path : Nat) : Bool :=
  measuresNext d path && domOn d 3 && (d.gov.loopOpen ||
    (axisIdle d && spanFree d d.axis (d.axis + 39322) && (holdSpans d (d.axis + 39322)).all (fun (s, e) => decide (d.axis < s) || decide (e ≤ d.axis))
      && !d.syn.settling && !unitGap d d.axis && !(List.range 64).any (fun p => gapAt d p d.axis) && domOn d 4 && domOn d 6
      && !d.cal.step.any (·.2) && !d.cal.runs.any fun r => portAhead d r.asked == false && decide (r.done < nth [0, 8, 16, 4, 16, 4] r.kind)))

/-- PORT_MEASUREMENT (R178, R179, R391): the next port of a running port check is measured in free axis time, observers reserved, and classified;
its last port completes the command (R211). -/
def execPortMeasurement (path loss : Nat) (phase : Int) : Meaning := onDev fun d =>
  if portMayMeasure d path then
    let d := (if d.gov.loopOpen then d else reserveSlots d d.axis 39322).onRx path fun x => { x with biasCurrent := biasNow d path }
    let x := d.rxPath path
    let c := portClassOf x d.gov.loopOpen loss phase
    let d1 := d.onRx path fun x =>
      { x with
        portClass := c, portChanged := x.portChanged || c != x.portClass, returnLoss := if d.gov.loopOpen then x.returnLoss else loss,
        reflPhase := if d.gov.loopOpen then x.reflPhase else phase }
    let d1 := if c = x.portClass then d1 else raiseEv d1 EV.rxPort [a4 path, a4 c]
    let d1 := if c = 1 ∨ c = 2 then mismatchEnds d1 path else d1
    complete (onWaits d1 (portWait path)) portDone (portReply d1)
  else d

/-! ### Sub-bands -/

/-- R205: the chain of a cut-through sub-band: stage A alone with D_A up to 8. -/
def cutStageOk (c : ChainPar) : Bool := c.bTaps == 0 && c.cRatio == 0 && decide (c.aFactor ≤ 8)

/-- R34, R205: a cut-through output of at most 983.04 MS/s. -/
def cutRateOk (d : Dev) (c : ChainPar) : Bool := decide (rate768 d c ≤ 983040000 * rateUnit)

/-- R197: whether a sub-band's window is open. -/
def RxSb.isOpen (s : RxSb) : Bool := s.on && !s.flushing && (s.banks.cur.cfg.chain.windowMode == 0 || s.win)

/-- R74: whether a queued swap arms a receive sub-band's shadow. -/
def rxArmed (d : Dev) (p s : Nat) : Bool := armed d 0x0303 1 (p * 4 + s) (namesSb p s)

/-- CHF_SB_STATUS_n. -/
def chfStatus (d : Dev) (p s : Nat) : Nat :=
  let b := (d.rxPath p).sb s
  b2n b.on * 2 ^ 31 + b.banks.index * 2 ^ 30 + b2n (rxArmed d p s) * 2 ^ 29 + b2n b.flushing * 2 ^ 28 + b2n (nth b.sticky 0) * 2 ^ 27
    + b2n (nth b.sticky 1) * 2 ^ 26 + b2n (nth b.sticky 2) * 2 ^ 25 + b2n (nth b.sticky 3) * 2 ^ 24 + b2n b.isOpen * 2 ^ 23 + b2n b.txZeroed * 2 ^ 22
    + b2n (b.on && b.banks.cur.cfg.chain.profile != d.syn.profile) * 2 ^ 21

/-- The output rate of the other enabled sub-bands of a path, each in the bank that gives the larger (R191), so that no swap takes the
path above the limit (R26). DESIGN CHOICE (log entry 116): R191 does not say which bank counts. -/
def othersRate (d : Dev) (p s : Nat) : Nat :=
  (((List.range 4).filter fun o => o != s && ((d.rxPath p).sb o).on).map fun o =>
    let b := ((d.rxPath p).sb o).banks
    max (rate768 d b.cur.cfg.chain) (rate768 d b.shd.cfg.chain)).sum

/-- The checks of a chain's arguments in common (R184 to R191, R219, R224). -/
def chainChecks (d : Dev) (c : ChainPar) (reserved : Bool) (stage taps rate : Nat) : List (Bool × Nat) :=
  [(!stageOk c, stage), (!tapsOk c, taps), (c.reserved23 != 0 || reserved, ST.badArg), (profileK d c.profile == 0, ST.synArg),
   (!stageRatesOk d c, rate)]

/-- The checks of RX-SUBBAND-SET. R74's check holds for the enabled sub-bands alone: a set that enables a sub-band writes both banks,
whatever a queued swap names. DESIGN CHOICE (log entry 119), for every command that enables with both banks. -/
def rxSubbandSetCheck (mask sb : Nat) (cfg : RxCfg) (d : Dev) : Option Reply :=
  let c := cfg.chain
  let on := (pathsOf mask).filter fun p => ((d.rxPath p).sb sb).on
  Checks.orElse (firstBad ((decide (3 < sb), ST.badArg) :: chainChecks d c (cfg.reserved41 != 0 || decide (7 < cfg.consumers)) ST.rxStage ST.rxTaps ST.rxRate
    ++ [(cfg.consumers.testBit 2 && !cutStageOk c, ST.rxStage), (cfg.consumers.testBit 2 && !cutRateOk d c, ST.rxRate),
        ((pathsOf mask).any (fun p => !rxZoneOk d (d.rxPath p).band c), ST.rxZone),
        ((pathsOf mask).any (fun p => decide (1966080000 * rateUnit < rate768 d c + othersRate d p sb)), ST.rxRate),
        (!domOn d 3 || !domOn d 6, ST.domainOff), (sb == 0 && qsHeld d, ST.quickset)]))
    (bankCheck d (on.any fun p => rxArmed d p sb) (on.filterMap fun p => ((d.rxPath p).sb sb).banks.busy d.axis))

/-- RX-SUBBAND-SET (R182, R191, R194, R205): a disabled sub-band takes both banks and is enabled, its window closed in
mode 1 and its phase referenced to axis position 0; an enabled one takes the shadow bank. -/
def execRxSubbandSet (h : Hdr) (mask sb : Nat) (cfg : RxCfg) : Meaning :=
  hostCmd (cmd 0x0302) h (.rxSubbandSet h mask sb cfg)
    (rxSubbandSetCheck mask sb cfg)
    (just fun d => (pathsOf mask).foldl (fun d p =>
      let d := d.onRxSb p sb fun s =>
        if s.on then { s with banks := s.banks.write { cfg := cfg } }
        else { s with
          on := true, banks := .both { cfg := cfg }, win := false, ncoRef := none, disc := false, flushing := false, txZeroed := false }
      if (nth d.fe p).st = 1 then d else rxReplace d p) d)

/-- RX-SUBBAND-GET. -/
def execRxSubbandGet (h : Hdr) (path sb bank : Nat) : Meaning :=
  query (ask 0x0303 [48, 6, 8, 8, 4]) h (.rxSubbandGet h path sb bank)
    (fun _ => firstBad [(decide (63 < path) || decide (3 < sb) || decide (1 < bank), ST.badArg)]) fun d =>
    let b := ((d.rxPath path).sb sb).banks
    let c := (if bank = 0 then b.cur else b.shd).cfg
    let rate := if c.chain.aFactor = 0 ∨ c.chain.bFactor = 0 then 0 else rate16 (rate768 d c.chain)
    rxCfgFields c ++ [fld 6 (ncoWord d c.chain), fld 8 rate, fld 8 (groupDelay16 d c.chain), fld 4 (chfStatus d path sb)]

/-- R208: the raw streams that take a sub-band of a path close with `last`, and its cut-through ends. -/
def closeRaw (d : Dev) (p s : Nat) (gone : Bool) : Dev :=
  { d with outs := d.outs.map fun o =>
      if o.kind == .raw && o.sb == s && o.paths.contains p then { o with lastDue := true, closing := o.closing || gone } else o }

/-- R208: a sub-band stops: it takes no further sample and flushes; its streams and frames close. -/
def rxStop (d : Dev) (p s : Nat) : Dev :=
  (closeRaw d p s true).onRxSb p s fun x => { x with flushing := true, cut := x.cut.map fun c => { c with closing := true } }

/-- RX-SUBBAND-DISABLE (R208): the response follows the end of the flush. -/
def execRxSubbandDisable (h : Hdr) (mask sbMask : Nat) : Meaning :=
  hostCmd (cmd 0x0304 [4]) h (.rxSubbandDisable h mask sbMask)
    (fun d => firstBad [(decide (15 < sbMask), ST.badArg), (sbMask.testBit 0 && qsHeld d, ST.quickset)])
    (fun d =>
      let hit := (pathSbs mask sbMask).filter fun (p, s) => let x := (d.rxPath p).sb s; x.on && !x.flushing
      let d := hit.foldl (fun d (p, s) => rxStop d p s) d
      if hit.isEmpty then { dev := d, reply := { fields := [fld 4 0] } }
      else { dev := d, wait := some (.rxFlush (hit.map fun (p, s) => p * 4 + s) 0) })

/-- What an RX-SUBBAND-DISABLE waits for once a sub-band has flushed; whether nothing is left; and its answer (R208). -/
def rxFlushWait (path sb outputs : Nat) (w : Wait) : Wait :=
  match w with
  | .rxFlush left n => if left.contains (path * 4 + sb) then .rxFlush (left.filter (· != path * 4 + sb)) (n + outputs) else w
  | _ => w
def rxFlushed (r : Running) : Bool :=
  match r.wait with
  | .rxFlush [] _ => true
  | _ => false
def rxFlushReply (r : Running) : Reply :=
  match r.wait with
  | .rxFlush _ n => { fields := [fld 4 n] }
  | _ => {}

/-- RX_FLUSH_DONE (R208): the flush of a disabled sub-band ends, and with the last of a command its response leaves. -/
def execRxFlushDone (path sb outputs : Nat) : Meaning := onDev fun d =>
  if ((d.rxPath path).sb sb).flushing then
    let d := d.onRx path fun x => { x with flushed := x.flushed + outputs }
    let d := d.onRxSb path sb fun x =>
      { x with
        on := false, win := false, flushing := false, flushCount := outputs,
        banks := if domOn d 6 then x.banks else .both {} }
    let d := raiseEv d EV.rxFlushed [a4 path, a4 sb, a4 outputs]
    qsExitCheck (complete (onWaits d (rxFlushWait path sb outputs)) rxFlushed rxFlushReply)
  else d

/-! ### Coefficients -/

/-- R214: a coefficient object: stage, count and values, when header, length and sign extension are right. -/
def coefObject (b : List Nat) : Option (Nat × Nat × List Int) :=
  let n := beAt b 4 4
  let vals := (List.range n).map fun i => beAt b (16 + 4 * i) 4
  if 16 ≤ b.length ∧ (b.drop 1).take 3 = [0, 0, 0] ∧ (b.drop 8).take 8 = List.replicate 8 0 ∧ b.length = 16 + 4 * n
      ∧ vals.all (fun v => v / 2 ^ 17 == 0 || v / 2 ^ 17 == 0x7FFF) then
    some (b.headD 0, n, vals.map (toSigned 32))
  else none

/-- R214, R188: the count of an object suits its stage in a sub-band whose stage B factor is given. -/
def coefCountOk (stage n bFactor : Nat) : Bool :=
  if stage = 2 then decide (1 ≤ n) && decide (n ≤ min 384 (48 * bFactor)) else n == 16384

/-- The checks of RX-COEF-LOAD. -/
def rxCoefLoadCheck (handle mask sb : Nat) (d : Dev) : Option Reply :=
  let b := objBytes d handle
  let o := coefObject b
  let stage := b.headD 0
  let bad02 := firstBad [(decide (3 < sb), ST.badArg),
    (match d.obj? handle with
      | some x => x.kind != 3
      | none => false, ST.badArg),
    ((d.obj? handle).any (·.closed) && (o.isNone || (stage != 2 && stage != 3)), ST.badArg),
    (match o with
      | some (st, n, _) => (pathsOf mask).any fun p => !coefCountOk st n ((d.rxPath p).sb sb).banks.shd.cfg.chain.bFactor
      | none => false, ST.rxTaps)]
  let ps := pathsOf mask
  Checks.orElse bad02 <| Checks.orElse (firstBad [(!domOn d 3 || !domOn d 6, ST.domainOff)]) <| Checks.orElse (objCheck d handle 3) <|
    Checks.orElse (firstBad [(sb == 0 && qsHeld d, ST.quickset)]) <|
    Checks.orElse (bankCheck d (ps.any fun p => rxArmed d p sb) (ps.filterMap fun p => ((d.rxPath p).sb sb).banks.busy d.axis)) <|
    firstBad [((d.obj? handle).any (fun x => !x.thorns.isEmpty), ST.thorn)]

/-- RX-COEF-LOAD (R214): into the shadow banks; a stage B object also sets `b_taps` and `b_coef`. -/
def execRxCoefLoad (h : Hdr) (handle mask sb : Nat) : Meaning :=
  hostCmd (cmd 0x0305) h (.rxCoefLoad h handle mask sb)
    (rxCoefLoadCheck handle mask sb)
    (just fun d =>
      match coefObject (objBytes d handle) with
      | none => d
      | some (stage, n, vals) =>
        consume ((pathsOf mask).foldl (fun d p => d.onRxSb p sb fun s =>
          let k := s.banks.shd
          { s with
            banks := { s.banks with
              shd := if stage = 2 then { k with
                bCoefs := vals, cfg := { k.cfg with chain := { k.cfg.chain with bTaps := n, bCoef := 1 } } }
              else { k with cCoefs := vals } } }) d) handle)

/-! ### Raw streams and cut-through -/

/-- A port argument: a lane 0 to 31, or 0xFF for the service port. -/
def portArg (lane : Nat) : Nat := if lane = 0xFF then 32 else lane
def portArgBad (lane : Nat) : Bool := decide (31 < lane) && lane != 0xFF

/-- A destination entry that was set (R157). -/
def destBad (d : Dev) (dest : Nat) : Bool := decide (15 < dest) || !(nth d.lnk.dests dest).set

/-- The checks of RX-STREAM-SET. -/
def rxStreamSetCheck (stream sb mask format dest lane : Nat) (d : Dev) : Option Reply :=
  let others := d.outs.filter fun o => o.num != stream || o.kind != .raw
  firstBad [
    (decide (3 < sb) || mask == 0 || portArgBad lane || destBad d dest
      || others.any (fun o => o.num == stream) || others.any (fun o => o.kind == .raw && o.sb == sb && o.paths.any fun p => mask.testBit p)
      || decide (16 ≤ (others.filter fun o => o.kind == .raw).length), ST.badArg),
    (!(format == 1 || format == 2 || format == 3), ST.rxFormat),
    ((pathsOf mask).any (fun p =>
      let s := (d.rxPath p).sb sb
      !s.on || s.flushing || !s.banks.cur.cfg.consumers.testBit 1), ST.rxDisabled)]

/-- RX-STREAM-SET (R202 to R204, R210). -/
def execRxStreamSet (h : Hdr) (stream sb mask format dest lane groups : Nat) : Meaning :=
  hostCmd (cmd 0x0306) h (.rxStreamSet h stream sb mask format dest lane groups)
    (rxStreamSetCheck stream sb mask format dest lane)
    (just fun d =>
      { d with outs := (d.outs.filter fun o => o.num != stream) ++
          [{ num := stream, base := stream, kind := .raw, sb := sb, paths := pathsOf mask, format := format, dest := dest, port := portArg lane,
             elements := (pathsOf mask).length, perPacket := groups, since := d.axis }] })

/-- The groups sent of the streams of a command, and their close (R208, R289): the packet in progress leaves with
`last`. -/
def streamStop (d : Dev) (sel : OutStream → Bool) : Dev := { d with
  outs := d.outs.map fun o => if sel o then { o with
    closing := true, lastDue := true } else o }

/-- RX-STREAM-STOP (R208). -/
def execRxStreamStop (h : Hdr) (stream : Nat) : Meaning :=
  hostCmd (cmd 0x0307 [8]) h (.rxStreamStop h stream)
    (fun d => firstBad [(!d.outs.any (fun o => o.kind == .raw && o.num == stream && !o.closing), ST.badArg)])
    (fun d =>
      let sel (o : OutStream) : Bool := o.kind == .raw && o.num == stream
      { dev := streamStop d sel, reply := { fields := [fld 8 ((d.outs.filter sel).map (·.sent)).sum] } })

/-- The checks of RX-CUT-SET. -/
def rxCutSetCheck (path sb lane ctFrame on : Nat) (d : Dev) : Option Reply :=
  let s := (d.rxPath path).sb sb
  let c := s.banks.cur.cfg
  let used := (List.range 64).any fun p => (List.range 4).any fun k =>
    !(p == path && k == sb) && (((d.rxPath p).sb k).cut.any fun x => x.lane == lane)
  firstBad [
    (decide (63 < path) || decide (3 < sb) || decide (31 < lane) || decide (1 < on) || !([256, 512, 1024, 2048].contains ctFrame), ST.badArg),
    (on == 1 && s.on && !cutStageOk c.chain, ST.rxStage), (on == 1 && s.on && !cutRateOk d c.chain, ST.rxRate),
    (!s.on || s.flushing || !c.consumers.testBit 2, ST.rxDisabled),
    (on == 1 && (!laneDirect d lane || used || laneHeld d lane), ST.rxLane)]

/-- RX-CUT-SET (R205 to R207, R210). -/
def execRxCutSet (h : Hdr) (path sb lane ctFrame on : Nat) : Meaning :=
  hostCmd (cmd 0x0308) h (.rxCutSet h path sb lane ctFrame on)
    (rxCutSetCheck path sb lane ctFrame on)
    (just fun d => d.onRxSb path sb fun s => { s with
      cut := if on = 1 then some { lane := lane, samples := ctFrame, since := d.axis } else s.cut.map fun c => { c with closing := true } })

/-! ### Meters and counters -/

/-- R173: the port power that drives the ADC to full scale, in 0.01 dBm. -/
def fullScalePort (v : Variant) (atten : Nat) : Int :=
  (match v with
    | .l => -3200
    | .m => -3000
    | .h => -2800
    | .a => -3000) + 100 * atten

/-- R201: a mean or peak square in 0.01 dBFS, of the wideband meter or of a sub-band's. -/
def meterLevel (wide : Bool) (sum n : Nat) : Int := if wide then Config.decibel (2 * sum) (n * 2047 ^ 2) else Config.decibel sum (n * 32752 ^ 2)

/-- RX-METER-GET (R201): the window METER-LATCH ended last, else the one in progress. Clear ends the window. The correction is the path's
gain trim: DEDUCED (log entry 113). -/
def execRxMeterGet (h : Hdr) (path meter clear : Nat) : Meaning :=
  hostCmd (askClear 0x0309 clear [2, 2, 2, 8, 8]) h (.rxMeterGet h path meter clear)
    (fun _ => firstBad [(decide (63 < path) || decide (4 < meter) || decide (1 < clear), ST.badArg)])
    fun d =>
      let m := nth (d.rxPath path).meters meter
      let w := m.latched.getD m.win
      let mean := meterLevel (meter == 4) w.sum w.count
      { dev := if clear = 1 then d.onRx path fun x => { x with
        meters := upd x.meters meter fun _ => { win := { start := d.axis } } } else d,
        reply := { fields := [satfld 2 mean, satfld 2 (meterLevel (meter == 4) w.peak 1),
          satfld 2 (mean + fullScalePort d.ident.variant (d.rxPath path).atten + (trimOf d 0 path).1.gain), fld 8 w.count, fld 8 w.start] } }

/-- RX-COUNTERS. -/
def execRxCounters (h : Hdr) (path clear : Nat) : Meaning :=
  hostCmd (askClear 0x030A clear (List.replicate 16 4 ++ [8, 8])) h (.rxCounters h path clear)
    (fun _ => firstBad [(decide (63 < path) || decide (1 < clear), ST.badArg)])
    fun d =>
      let x := d.rxPath path
      { dev := if clear = 1 then d.onRx path fun x => { x with
          replaced := 0, flushed := 0, sbs := x.sbs.map fun s => { s with
        counts := [0, 0, 0, 0] } } else d,
        reply := { fields := (x.sbs.flatMap fun s => s.counts.map (fld 4)) ++ [fld 8 x.replaced, fld 8 x.flushed] } }

/-! ### Receive stakes -/

/-- R70: the targets of a receive stake can act: synthesis settled, the domains on, a named sub-band enabled. -/
def rxAble (d : Dev) (q : QStake) : Bool :=
  !d.syn.settling && domOn d 2 && domOn d 3 && domOn d 6 && (named q.stake.target).any fun (p, s) => ((d.rxPath p).sb s).on

/-- A receive stake's effect on each enabled sub-band it names. -/
def rxEach (f : Nat → Nat → Dev → Dev) (d : Dev) (q : QStake) : Dev :=
  (named q.stake.target).foldl (fun d (p, s) => if ((d.rxPath p).sb s).on then f p s d else d) d

/-- A stake's late case for every action that R70 drops. -/
def lateDrop (d : Dev) (_ : QStake) : Dev := d

/-- RX_OPEN (R195, R197). -/
def execRxOpen : Meaning :=
  onDev (stakeAct 0x0301 rxAble lateDrop (rxEach fun p s d => d.onRxSb p s fun x => { x with win := true }))

/-- RX_CLOSE (R195, R198): packets and frames close with `last`; the next ones carry the discontinuity flag. -/
def execRxClose : Meaning :=
  onDev (stakeAct 0x0302 rxAble lateDrop (rxEach fun p s d =>
    (closeRaw d p s false).onRxSb p s fun x => { x with win := false, disc := true }))

/-- A swap of a receive sub-band's banks (R73 to R75, R497): the former bank frees after the latency bound of R200. -/
def rxSwapOne (q : QStake) (p s : Nat) (d : Dev) : Dev :=
  let b := ((d.rxPath p).sb s).banks
  if b.thornShd ≠ 0 then swapRefused d EV.memSwapRefused q
  else d.onRxSb p s fun x => { x with banks := x.banks.swap (q.pos + rxLatency d b.cur.cfg.chain) }

/-- RX_SWAP (R195, R73). -/
def execRxSwap : Meaning := onDev (stakeAct 0x0303 rxAble lateDrop fun d q => rxEach (rxSwapOne q) d q)

/-- NCO_RESET (R186): the phase reference moves to P with the argument's phase. -/
def execNcoReset : Meaning :=
  onDev (stakeAct 0x0304 rxAble lateDrop fun d q =>
    rxEach (fun p s d => d.onRxSb p s fun x => { x with ncoRef := some (q.pos, bitsOf q.stake.argument 63 32) }) d q)

/-- ATTEN_STEP (R172, R195). -/
def execAttenStep : Meaning :=
  onDev (stakeAct 0x0305 (fun d _ => domOn d 3) lateDrop fun d q =>
    (namedPaths q.stake.target).foldl (fun d p => d.onRx p fun x => { x with atten := q.stake.argument % 256 }) d)

/-- METER_LATCH (R195, R201): the meters of the named sub-bands, and the wideband meter of each named path, latch and
restart at P. -/
def execMeterLatch : Meaning :=
  onDev (stakeAct 0x0306 (fun d _ => domOn d 6) lateDrop fun d q =>
    let ss := (if q.stake.target.testBit 14 then [0, 1, 2, 3] else [q.stake.target / 64 % 4]) ++ [4]
    (namedPaths q.stake.target).foldl (fun d p => d.onRx p fun x =>
      { x with meters := ss.foldl (fun ms k => upd ms k fun m => ⟨{ start := q.pos }, some m.win⟩) x.meters }) d)

end Sys2Proof.Machine
end

