-- ==== Sys2Proof/Machine/Transmit.lean ====
section
/-! DEFINITION. Chapter 6, the transmit paths: sources and host streams (R216 to R218), the configuration checks and the
delay d (R219 to R226), windows, gates, tones and the other transmit stakes (R227 to R231), what mutes a path (R232 to
R236), and the output power (R237 to R240, R682). -/

namespace Sys2Proof.Machine

/-! ### Figures and checks -/

/-- The configuration object of a transmit sub-band (R225). -/
def txCfgFields (c : TxCfg) : List Field := chainFields c.chain ++ [fld 1 c.source, fld 2 c.gain, fld 5 c.reserved43]

/-- R226: the sum of the stage bounds of a transmit sub-band, in ticks, rounded up; stage C's input period carries the
ratio `c_ratio` / 2^32. -/
def txChainDelay (d : Dev) (c : ChainPar) : Nat :=
  let k := max 1 (profileK d c.profile)
  let ns := 96 + (if c.bTaps = 0 then 0 else 32) + (if c.cRatio = 0 then 0 else 24)
  let cr := if c.cRatio = 0 then 1 else c.cRatio
  let halves := (aSpan c + (if c.bTaps = 0 then 0 else c.aFactor * bTerm c + 2 * c.aFactor * c.bFactor)) * cr
    + (if c.cRatio = 0 then 0 else 16 * c.aFactor * c.bFactor * 2 ^ 32)
  ceilDiv (ns * 196608 * k * cr + halves * 100000) (100000 * k * cr)

/-- R226, R288: the frequency engine's part of d, while the transmit slot of the sub-band is enabled. -/
def freTxDelay (d : Dev) (s r : Nat) : Nat := let f := nth d.fre (4 + s); if f.on then freDelayOf f.cfg r else 0

/-- R226: the delay d of a transmit sub-band: its chain, and the frequency engine where its source passes through it. -/
def txDelay (d : Dev) (p s : Nat) : Nat :=
  let c := ((d.txPath p).sb s).banks.cur.cfg
  txChainDelay d c.chain + (if c.source = 1 then freTxDelay d s (rate768 d c.chain) else 0)

/-- R62, R226: the delay of a transmit stake: the largest of the enabled sub-bands it names. -/
def txStakeDelay (d : Dev) (target : Nat) : Nat :=
  ((named target).map fun (p, s) => if ((d.txPath p).sb s).on then txDelay d p s else 0).foldl max 0

/-- R224: a span of centre `rf` and width `r` (in 1 / `rateUnit` Hz) lies in the band position, within the DAC's reach, and
the DAC's reach inside its first Nyquist zone. -/
def txSpanOk (d : Dev) (band dac adc rf r : Nat) : Bool :=
  let u := rateUnit
  (match (bands d.ident.variant)[band]? with
    | none => false
    | some (lo, hi, _) => decide (2 * lo * u + r ≤ 2 * rf * u) && decide (2 * rf * u + r ≤ 2 * hi * u))
    && decide (10 * dac * u + 5 * r ≤ 10 * rf * u + 4 * adc * u) && decide (10 * rf * u + 5 * r ≤ 10 * dac * u + 4 * adc * u)
    && decide (2 * adc + 100000000 ≤ 5 * dac) && decide (5 * dac + 2 * adc + 100000000 ≤ 5 * adc)

/-- R224 for a transmit sub-band's configuration. -/
def txZoneOk (d : Dev) (band dac : Nat) (c : ChainPar) : Bool := txSpanOk d band dac (adcRate d c.profile) c.rf (rate768 d c)

/-- R74: whether a queued swap arms a transmit sub-band's shadow. -/
def txArmed (d : Dev) (p s : Nat) : Bool := armed d 0x0403 2 (p * 4 + s) (namesSb p s)

/-! ### Mutes -/

/-- R232 to R236, R461: whether a path is muted for any cause. -/
def txMuted (d : Dev) (p : Nat) : Bool :=
  let x := d.txPath p
  x.muteHost || x.muteInhibit || x.muteLock || x.muteGate || x.muteLate || (nth d.fe p).protTx != 0 || x.gain == 0 || d.syn.settling
    || !domOn d 3 || !domOn d 4 || !domOn d 5 || !domOn d 6 || gapAt d p d.axis

/-- A path that transmits: its window is open and nothing mutes it. -/
def radiates (d : Dev) (p : Nat) : Bool := txOpenNow d p && !txMuted d p

/-- R233: a muted window is counted once. -/
def countMuted (d : Dev) (p : Nat) : Dev :=
  if txOpenNow d p && !(d.txPath p).windowCounted then d.onTx p fun x => { x with mutedWindows := x.mutedWindows + 1, windowCounted := true } else d

/-- R234, R247, R235: a path enters transmit protect: muted, its gate to the safe code, its front-end in PROTECT. -/
def txProtect (d : Dev) (p cause : Nat) : Dev :=
  let d := countMuted d p
  let d := biasSafe d p false false
  rxReplace (d.onFe p fun f => { (if f.st = 0 then f else f.enter 4) with protTx := cause, txProtSeen := true }) p

/-- R460, R609: transmit protect ends: the front-end returns to RX unless receive protect holds it; a path whose PA diode is broken stays in
PROTECT for that cause. -/
def protectRelease (d : Dev) (p : Nat) : Dev :=
  if (nth d.pwr.chans (p + 1)).broken then d.onFe p fun f => { f with protTx := 3 }
  else
    let d := d.onFe p fun f => { f with protTx := 0, st := if f.st = 4 ∧ f.protRx = false then 1 else f.st }
    if (nth d.fe p).st = 1 then rxRestore d p else d

/-- R460, R461: a front-end goes to TX: with D5 off it stays in RX; a path in transmit protect ignores it. -/
def feToTx (d : Dev) (p : Nat) : Dev :=
  let f := nth d.fe p
  if (f.st = 1 ∨ (f.st = 4 ∧ f.protTx = 0)) ∧ domOn d 5 then rxReplace (d.onFe p fun f => f.enter 2) p else d

/-- R460, R461: a front-end leaves TX when its last window has closed: to RX, or to PROTECT under a receive overload. -/
def feFromTx (d : Dev) (p : Nat) : Dev :=
  if (nth d.fe p).st = 2 ∧ txOpenNow d p = false then
    let d := d.onFe p fun f => f.enter (if f.protRx then 4 else 1)
    if (nth d.fe p).st = 1 then rxRestore d p else d
  else d

/-- TXC_PATH_STATUS_n. -/
def txPathStatus (d : Dev) (p : Nat) : Nat :=
  let x := d.txPath p
  let ids := [p, 64 + p / 32, 66, 67 + p]
  let att := (ids.map fun i => (nth d.gov.ceils i).att).foldl max 0
  let st := ((ids.filter fun i => (nth d.gov.ceils i).att == att).map fun i => (nth d.gov.ceils i).st).foldl (fun a b => if a = 2 ∨ b = 2 then 2 else if a = 1 ∨ b = 1 then 1 else max a b) 0
  b2n (txOpenNow d p) * 2 ^ 31 + b2n (txMuted d p) * 2 ^ 30 + b2n x.muteInhibit * 2 ^ 29 + b2n (x.muteLock) * 2 ^ 28
    + b2n ((nth d.fe p).protTx == 2) * 2 ^ 27 + b2n x.gateOff * 2 ^ 26 + st * 2 ^ 24 + att * 2 ^ 16 + b2n (nth x.sticky 0) * 2 ^ 15
    + b2n (nth x.sticky 1) * 2 ^ 14 + b2n (nth x.sticky 2) * 2 ^ 13 + b2n (nth x.sticky 3) * 2 ^ 12 + b2n x.underrun * 2 ^ 11
    + b2n (decide (x.gain < 32768) || x.adaptHeld.isSome) * 2 ^ 10

/-! ### Output power -/

/-- 10^(2^i / 1000) in 2^-64, i = 0 to 9. -/
def decSteps : List Nat :=
  [18489268210561536986, 18531890375673023370, 18617429695109339415, 18789694651118867537, 19139021155796183517, 19857278300080642989,
   21375669327403393734, 24769641589254725920, 33259806825994437632, 59968021764830161471]

/-- 10^(n / 1000) in 2^-64, from the binary places of n mod 1000. -/
def decPow (n : Int) : Nat :=
  let q := n / 1000
  let r := (n - q * 1000).toNat
  let m := (List.range 10).foldl (fun a i => if r.testBit i then a * nth decSteps i / 2 ^ 64 else a) (2 ^ 64)
  if 0 ≤ q then m * 10 ^ q.toNat else m / 10 ^ (-q).toNat

/-- R237: `fs_power` in range for the variant, in 0.01 dBm. -/
def fsPowerOk (d : Dev) (fs : Int) : Bool :=
  match d.ident.variant with
  | .a => decide (-3000 ≤ fs) && decide (fs ≤ -200)
  | _ => decide (2000 ≤ fs) && decide (fs ≤ 3700)

/-- R239: the compensation of a path moves to its pending value, by at most `lim` hundredths of a dB, with
EV_TX_POWER_STEP; predistortion learns of it. -/
def applyComp (d : Dev) (p : Nat) (lim : Int) : Dev :=
  match (d.txPath p).compPending with
  | none => d
  | some t =>
    let step := satSym lim (t - (d.txPath p).comp)
    let d := d.onTx p fun x => { x with comp := x.comp + step, compPending := if x.comp + step = t then none else some t }
    dpdPowerStep (raiseEv d EV.txPowerStep [a4 p, as4 step]) p step

/-- COMPENSATION_STEP (R239): with the window closed the whole change; while a path transmits without a break for more
than one frame, at most 0.05 dB at a frame boundary. -/
def execCompensationStep (path : Nat) : Meaning := onDev fun d =>
  if txOpenNow d path = false then applyComp d path 100000
  else match (d.txPath path).openSince with
    | some t => if d.tmb.frameLen < d.axis - t ∧ d.axis % d.tmb.frameLen = 0 then applyComp d path 5 else d
    | none => d

/-! ### The energy reserve (R241 to R244) -/

/-- The effective P in mW, W in us and E in uJ of a group's settings (R242); none for Open. -/
def govLimits (g : GovSet) : Option (Nat × Nat × Nat) :=
  match g.cls with
  | 1 => some (6000, 200, 950)
  | 2 => some (3500, 100, 250)
  | 3 => some (2000, 20, 50)
  | 4 => some (g.p, g.w, g.e)
  | _ => none

/-- C = min(E, P × W) in fJ (R242). -/
def govC (g : GovSet) : Option Nat := (govLimits g).map fun (p, w, e) => min (e * 10 ^ 9) (p * w * 10 ^ 6)

/-- R243: the stricter of two groups' settings, the one of smaller C. -/
def stricter (a b : GovSet) : GovSet :=
  match govC a, govC b with
  | some x, some y => if y < x then b else a
  | none, some _ => b
  | _, _ => a

/-- What holds a ceiling: C and R in fJ, W in us, the margin in 0.1 dB, `soft` and `release` in 2^-8. -/
structure CeilPar where
  c : Nat
  r : Nat
  w : Nat
  margin : Nat
  soft : Nat
  release : Nat
deriving DecidableEq, Repr, Inhabited

/-- R244: the reserve of some ports in fJ: their largest estimate over 32 ticks. -/
def reserve (fs : List Int) (ports : List Nat) (margin : Nat) : Nat :=
  let s := (ports.map fun p => decPow (nth fs p)).sum
  2 * 32767 ^ 2 * s * decPow (10 * margin) * (32 * 10 ^ 12) / (32752 ^ 2 * tickHz * 2 ^ 128)

/-- The ports under ceiling `i`: ports 0 to 63, AC1, AC2, the sum, the rated ceilings 67 + p. -/
def ceilPorts (i : Nat) : List Nat :=
  if i < 64 then [i] else if i = 64 then List.range 32 else if i = 65 then (List.range 32).map (· + 32) else if i = 66 then List.range 64 else [i - 67]

/-- The ceiling code of R252: 0 to 63 a port, 64 AC1, 65 AC2, 66 the sum, 128 + p the rated ceiling of port p. -/
def ceilCode (i : Nat) : Nat := if i < 67 then i else 128 + (i - 67)

/-- R241 to R244: the parameters of ceiling `i` under given settings and `fs_power`; none while it has no ceiling. -/
def ceilPar (v : Variant) (sets : List GovSet) (fs : List Int) (i : Nat) : Option CeilPar :=
  let grp (p : Nat) : GovSet := nth sets (p / 32)
  if 67 ≤ i then
    let g := grp (i - 67)
    some ⟨if v = .a then 10 ^ 8 else 794 * 10 ^ 9, reserve fs [i - 67] 0, 1000, 0, g.soft, g.release⟩
  else
    let g := if i < 64 then grp i else if i = 66 then stricter (nth sets 0) (nth sets 1) else nth sets (i - 64)
    match govC g, govLimits g with
    | some c, some (_, w, _) => some ⟨c, reserve fs (ceilPorts i) g.margin, w, g.margin, g.soft, g.release⟩
    | _, _ => none

/-- R244: whether no ceiling's R exceeds C/2. -/
def reserveOk (v : Variant) (sets : List GovSet) (fs : List Int) : Bool :=
  (List.range 131).all fun i => match ceilPar v sets fs i with
    | some c => decide (2 * c.r ≤ c.c)
    | none => true

/-- The `fs_power` of all paths. -/
def fsPowers (d : Dev) : List Int := d.tx.map (·.fsPower)

/-! ### Path commands -/

/-- The checks of TX-PATH-SET. -/
def txPathSetCheck (mask : Nat) (fsPower : Int) (dacCentre sumShift ramp gateMode : Nat) (d : Dev) : Option Reply :=
  let keep := fsPower == 0x7FFF
  let fs := if keep then fsPowers d else (List.range 64).map fun p => if mask.testBit p then fsPower else (d.txPath p).fsPower
  firstBad [(decide (2 < sumShift) || decide (1024 < ramp) || decide (1 < gateMode), ST.badArg), (!keep && !fsPowerOk d fsPower, ST.txPower),
    ((pathsOf mask).any (fun p => (d.txPath p).sbs.any fun s => s.on && !txZoneOk d (d.rxPath p).band dacCentre s.banks.cur.cfg.chain), ST.txZone),
    (!reserveOk d.ident.variant d.gov.sets fs, ST.govClass), (!domOn d 4, ST.domainOff)]

/-- TX-PATH-SET (R222, R224, R228, R231, R237, R244). -/
def execTxPathSet (h : Hdr) (mask : Nat) (fsPower : Int) (dacCentre sumShift ramp gateMode : Nat) : Meaning :=
  hostCmd (cmd 0x0400) h (.txPathSet h mask fsPower dacCentre sumShift ramp gateMode)
    (txPathSetCheck mask fsPower dacCentre sumShift ramp gateMode)
    (just fun d => (pathsOf mask).foldl (fun d p =>
      let old := (d.txPath p).fsPower
      let new := if fsPower = 0x7FFF then old else fsPower
      let d := d.onTx p fun x => { x with fsPower := new, dacCentre := dacCentre, sumShift := sumShift, ramp := ramp, gateMode := gateMode }
      if new = old then d else dpdPowerStep d p (new - old)) d)

/-- TX-PATH-GET: the PA diode's temperature is its housekeeping reading (R602). -/
def execTxPathGet (h : Hdr) (path : Nat) : Meaning :=
  query (ask 0x0401 [4, 11, 2, 2]) h (.txPathGet h path) (fun _ => firstBad [(decide (63 < path), ST.badArg)]) fun d =>
    let x := d.txPath path
    [fld 4 (txPathStatus d path), sfld 2 x.fsPower, fld 5 x.dacCentre, fld 1 x.sumShift, fld 2 x.ramp, fld 1 x.gateMode, satfld 2 x.comp,
     satfld 2 (divHalfEven (nth d.pwr.chans (path + 1)).last 10)]

/-- The checks of TX-SUBBAND-SET. -/
def txSubbandSetCheck (mask sb : Nat) (cfg : TxCfg) (d : Dev) : Option Reply :=
  let c := cfg.chain
  let on := (pathsOf mask).filter fun p => let s := (d.txPath p).sb sb; s.on && !s.flushing
  Checks.orElse (firstBad ((decide (3 < sb), ST.badArg) :: (decide (3 < cfg.source), ST.txStage) ::
      chainChecks d c (cfg.reserved43 != 0) ST.txStage ST.txTaps ST.txRate
    ++ [((pathsOf mask).any (fun p => !txZoneOk d (d.rxPath p).band (d.txPath p).dacCentre c), ST.txZone),
        (cfg.source == 3 && !cutRateOk d c, ST.txRate), (!domOn d 4 || !domOn d 6, ST.domainOff)]))
    (bankCheck d (on.any fun p => txArmed d p sb) (on.filterMap fun p => ((d.txPath p).sb sb).banks.busy d.axis))

/-- TX-SUBBAND-SET (R224, R225, R194). -/
def execTxSubbandSet (h : Hdr) (mask sb : Nat) (cfg : TxCfg) : Meaning :=
  hostCmd (cmd 0x0402) h (.txSubbandSet h mask sb cfg)
    (txSubbandSetCheck mask sb cfg)
    (just fun d => (pathsOf mask).foldl (fun d p =>
      let d := d.onTxSb p sb fun s =>
        if s.on && !s.flushing then { s with banks := s.banks.write { cfg := cfg } }
        else { on := true, banks := .both { cfg := cfg } }
      if txOpenNow d p then
        d.onTx p fun x => { x with openSince := match x.openSince with
          | some t => some t
          | none => some d.axis }
      else d) d)

/-- TX-SUBBAND-GET: the NCO runs at rf_centre - dac_centre (R221). -/
def execTxSubbandGet (h : Hdr) (path sb bank : Nat) : Meaning :=
  query (ask 0x0403 [48, 6, 8, 4]) h (.txSubbandGet h path sb bank)
    (fun _ => firstBad [(decide (63 < path) || decide (3 < sb) || decide (1 < bank), ST.badArg)]) fun d =>
    let b := ((d.txPath path).sb sb).banks
    let c := (if bank = 0 then b.cur else b.shd).cfg
    let fs := adcRate d c.chain.profile
    let w := if fs = 0 then 0 else divHalfEven (((c.chain.rf : Int) - (d.txPath path).dacCentre) * 2 ^ 48) fs
    let rate := if c.chain.aFactor = 0 ∨ c.chain.bFactor = 0 then 0 else rate16 (rate768 d c.chain)
    txCfgFields c ++ [sfld 6 w, fld 8 rate, fld 4 (txChainDelay d c.chain + (if c.source = 1 then freTxDelay d sb (rate768 d c.chain) else 0))]

/-- R236, R264: the end of the OFDM symbol that leaves the antenna now from a sub-band, and the length of its tail; none where its source
is not the frequency engine in mode 2. -/
def symbolEnd (d : Dev) (p s : Nat) : Option (Nat × Nat) :=
  let f := nth d.fre (4 + s)
  let c := f.cfg
  if ((d.txPath p).sb s).banks.cur.cfg.source == 1 && f.on && c.mode == 2 then
    let x := (((d.axis : Int) - c.symOffset) % 983040).toNat
    some (d.axis + (if x < c.longSymbol then c.longSymbol - x else c.symbol - (x - c.longSymbol) % c.symbol), c.wola * tickHz / (c.size * 15000 * 2 ^ c.mu) / 2)
  else none

/-- R236: a transmit sub-band stops as a path mutes: its OFDM symbol ends with its tail, a time-domain source ramps down over
`ramp_ticks`; then its delay lines are flushed. -/
def txStop (d : Dev) (p s : Nat) : Dev := d.onTxSb p s fun x => { x with
  flushing := true, tone := none, stopFrom := (symbolEnd d p s).map (·.1)
  stopAt := some (match symbolEnd d p s with
    | some (b, tail) => b + tail
    | none => d.axis + txDelay d p s + (d.txPath p).ramp) }

/-- TX-SUBBAND-DISABLE (R236). -/
def execTxSubbandDisable (h : Hdr) (mask sbMask : Nat) : Meaning :=
  hostCmd (cmd 0x0404) h (.txSubbandDisable h mask sbMask)
    (fun _ => firstBad [(decide (15 < sbMask), ST.badArg)])
    (just fun d => (pathSbs mask sbMask).foldl (fun d (p, s) =>
      let x := (d.txPath p).sb s
      if x.on && !x.flushing then txStop d p s else d) d)

/-- TX_FLUSH_DONE (R236): once the sub-band's contribution has ended. -/
def execTxFlushDone (path sb : Nat) : Meaning := onDev fun d =>
  let x := (d.txPath path).sb sb
  if x.flushing && x.stopAt.all fun t => decide (t ≤ d.axis) then
    raiseEv (d.onTxSb path sb fun x => { x with
      on := false, win := false, flushing := false, stopAt := none, stopFrom := none, cutLane := none,
      banks := if domOn d 6 then x.banks else .both {} }) EV.txFlushed [a4 path, a4 sb]
  else d

/-- The checks of TX-COEF-LOAD. -/
def txCoefLoadCheck (handle mask sb : Nat) (d : Dev) : Option Reply :=
  let b := objBytes d handle
  let o := coefObject b
  let stage := b.headD 0
  let ps := pathsOf mask
  let bad02 := firstBad [(decide (3 < sb), ST.badArg),
    (match d.obj? handle with
      | some x => x.kind != 3
      | none => false, ST.badArg),
    ((d.obj? handle).any (·.closed) && (o.isNone || (stage != 2 && stage != 3)), ST.badArg),
    (match o with
      | some (st, n, _) => ps.any fun p => !coefCountOk st n ((d.txPath p).sb sb).banks.shd.cfg.chain.bFactor
      | none => false, ST.txTaps)]
  Checks.orElse bad02 <| Checks.orElse (firstBad [(!domOn d 4 || !domOn d 6, ST.domainOff)]) <| Checks.orElse (objCheck d handle 3) <|
    Checks.orElse (bankCheck d (ps.any fun p => txArmed d p sb) (ps.filterMap fun p => ((d.txPath p).sb sb).banks.busy d.axis)) <|
    firstBad [((d.obj? handle).any (fun x => !x.thorns.isEmpty), ST.thorn)]

/-- TX-COEF-LOAD (R220, in the format of R214). -/
def execTxCoefLoad (h : Hdr) (handle mask sb : Nat) : Meaning :=
  hostCmd (cmd 0x0405) h (.txCoefLoad h handle mask sb)
    (txCoefLoadCheck handle mask sb)
    (just fun d =>
      match coefObject (objBytes d handle) with
      | none => d
      | some (stage, n, vals) =>
        consume ((pathsOf mask).foldl (fun d p => d.onTxSb p sb fun s =>
          let k := s.banks.shd
          { s with
            banks := { s.banks with
              shd := if stage = 2 then { k with
                bCoefs := vals, cfg := { k.cfg with chain := { k.cfg.chain with bTaps := n, bCoef := 1 } } }
              else { k with cCoefs := vals } } }) d) handle)

/-! ### Sources -/

/-- Bytes of one element of a group in a format: a sample, or a block of 16 samples in BFP9 (R146, R149). -/
def elementBytes (format : Nat) : Nat :=
  match format with
  | 1 => 3
  | 2 => 4
  | 3 => 37
  | 4 => 1
  | 5 => 2
  | 6 => 6
  | 7 => 8
  | _ => 1

/-- R217: the depth of a host stream's 512 KiB buffer in groups. -/
def streamDepth (elements format : Nat) : Nat := 524288 / max 1 (elements * elementBytes format)

/-- The checks of TX-STREAM-SET. -/
def txStreamSetCheck (stream sb mask format : Nat) (d : Dev) : Option Reply :=
  firstBad [
    (decide (3 < sb) || mask == 0 || d.ins.any (fun o => o.num == stream && o.layer)
      || d.ins.any (fun o => o.num != stream && !o.layer && o.sb == sb && o.paths.any fun p => mask.testBit p), ST.badArg),
    (!(format == 1 || format == 2 || format == 3), ST.txFormat),
    ((pathsOf mask).any (fun p =>
      let s := (d.txPath p).sb sb
      !s.on || s.flushing || s.banks.cur.cfg.source != 2), ST.txDisabled)]

/-- TX-STREAM-SET (R217, R251). -/
def execTxStreamSet (h : Hdr) (stream sb mask format : Nat) : Meaning :=
  hostCmd (cmd 0x0406 [4]) h (.txStreamSet h stream sb mask format)
    (txStreamSetCheck stream sb mask format)
    (fun d =>
      let n := streamDepth (pathsOf mask).length format
      { dev := { d with ins := (d.ins.filter fun o => o.num != stream) ++ [{ num := stream, base := stream, layer := false, sb := sb, paths := pathsOf mask, format := format, depth := n }] },
        reply := { fields := [fld 4 n] } })

/-- What times a host's stream: its delay d, a group's period as a quotient of ticks, and the axis position of group `k`
of a packet by its first group's. -/
structure Timing where
  delay : Nat
  perNum : Nat
  perDen : Nat
  pos : Nat → Nat → Nat

/-- R219, R225: the grid of a transmit sub-band's inputs: an input's antenna instant is `inBase` plus its number times the quotient of
`inNum` and `inDen`, in ticks. Without stage C they lie at multiples of I_A × I_B ADC samples from axis position 0. -/
def inNum (c : ChainPar) : Nat := 2 * max 1 (c.aFactor * c.bFactor) * 2 ^ 32
def inDen (k : Nat) (c : ChainPar) : Nat := k * (if c.cRatio = 0 then 2 ^ 32 else c.cRatio)
def inBase (c : ChainPar) : Nat := if c.cRatio = 0 then 0 else c.cAnchor

/-- The first input at or after a position (R63), and the position of an input, rounded down to a tick. -/
def inputAt (k : Nat) (c : ChainPar) (pos : Nat) : Int := -((((inBase c : Int) - pos) * inDen k c) / inNum c)
def inputPos (k : Nat) (c : ChainPar) (i : Int) : Nat := (inBase c + i * inNum c / inDen k c).toNat

/-- R217: the timing of a host stream of a transmit sub-band, that of its first path: one sample period per group, sixteen
in BFP9 (R151). -/
def streamTiming (d : Dev) (o : InStream) : Timing :=
  let p := o.paths.headD 0
  let n := (if o.format = 3 then 16 else 1) * tickHz * rateUnit
  let c := ((d.txPath p).sb o.sb).banks.cur.cfg.chain
  let k := max 1 (profileK d c.profile)
  ⟨txDelay d p o.sb, n, max 1 (rate768 d c), fun first j => inputPos k c (inputAt k c first + (if o.format = 3 then 16 else 1) * j)⟩

/-- R217: what has been played up to the present: buffered groups whose trigger has come are played, and the
positions before them with no group were zero-filled. -/
def InStream.play (o : InStream) (now : Nat) (t : Timing) : InStream :=
  let horizon := now + t.delay
  match o.upTo with
  | none => o
  | some u =>
    let due := o.buffered.filter fun x => decide (x.pos ≤ horizon)
    let expected := (horizon - u) * t.perDen / max 1 t.perNum
    { o with
      buffered := o.buffered.filter fun x => decide (horizon < x.pos), past := o.past ++ due, played := o.played + due.length,
      zeroFilled := o.zeroFilled + (expected - due.length), upTo := some (max u horizon) }

/-- R217: a group for a position accepted, ignored or late. -/
def InStream.takeGroup (o : InStream) (now : Nat) (t : Timing) (pos first : Nat) (vals : List (List Cx)) : InStream :=
  if pos < now + 2048 + t.delay then { o with late := o.late + 1 }
  else if o.buffered.any (fun g => g.pos == pos && g.first == first) ∨ o.depth ≤ o.buffered.length then o
  else { o with buffered := o.buffered ++ [⟨pos, first, vals⟩], upTo := some (o.upTo.getD pos) }

/-- R146: the elements of group `k` of a packet. -/
def pktGroup (p : StreamPkt) (k : Nat) : List (List Cx) :=
  let n := elementBytes p.format
  (List.range p.elements).map fun e => readElement p.format ((p.data.drop ((k * p.elements + e) * n)).take n)

/-- R217: the groups of a packet. -/
def InStream.take (o : InStream) (now : Nat) (t : Timing) (p : StreamPkt) : InStream :=
  (List.range p.groups).foldl (fun o k => o.takeGroup now t (t.pos p.firstAxis k) p.firstElement (pktGroup p k)) o

/-- R121, R163, R217: a host's stream packet of a session from its bound address. One whose data do not fill its groups is no packet
of the stream. -/
def hostStream (layer : Bool) (session : Nat) (rx : PktIn) (pkt : StreamPkt) (e : EvCode) (timing : Dev → InStream → Timing) (d : Dev) : Dev :=
  let (d, ok) := dataIn d session rx (20 + pkt.data.length)
  match d.ins.find? (fun o => o.num == pkt.num && o.layer == layer) with
  | none => d
  | some o =>
    if !ok || pkt.format != o.format || pkt.groups == 0 || pkt.data.length != pkt.groups * pkt.elements * elementBytes pkt.format then d
    else
      let a := o.play d.axis (timing d o)
      let b := a.take d.axis (timing d o) pkt
      let bad := b.late - o.late + (b.zeroFilled - o.zeroFilled)
      let d := { d with ins := d.ins.map fun x => if x.num == o.num then b else x }
      if bad = 0 then d
      else
        let d := if layer then d else o.paths.foldl (fun d p => d.onTx p fun x => { x with underrun := true }) d
        raiseLimited d e o.num [a4 o.num, a8 b.late, a8 b.zeroFilled]

/-- HOST_STREAM_PACKET (R217). -/
def execHostStreamPacket (session : Nat) (rx : PktIn) (pkt : StreamPkt) : Meaning :=
  onDev (hostStream false session rx pkt EV.txUnderrun streamTiming)

/-- R217: the groups of a host stream that have run out by the present are zero-filled as an underrun. -/
def underrunTick (d : Dev) (o : InStream) (e : EvCode) (t : Timing) : Dev :=
  let a := o.play d.axis t
  if a.zeroFilled = o.zeroFilled then d
  else
    let d := { d with ins := d.ins.map fun x => if x.num == o.num then a else x }
    let d := if o.layer then d else o.paths.foldl (fun d p => d.onTx p fun x => { x with underrun := true }) d
    raiseLimited d e o.num [a4 o.num, a8 a.late, a8 a.zeroFilled]

/-- TX-STREAM-STOP (R236): buffered groups play out, later positions are zero. -/
def execTxStreamStop (h : Hdr) (stream : Nat) : Meaning :=
  hostCmd (cmd 0x0407 [8, 8, 8]) h (.txStreamStop h stream)
    (fun d => firstBad [(!d.ins.any (fun o => !o.layer && o.num == stream), ST.badArg)])
    (fun d =>
      let t := (d.ins.filter fun o => !o.layer && o.num == stream).map fun o => o.play d.axis (streamTiming d o)
      { dev := { d with ins := d.ins.filter fun o => o.layer || o.num != stream, sig := { d.sig with ended := d.sig.ended ++ t } },
        reply := { fields := [fld 8 ((t.map fun o => o.played + o.buffered.length).sum), fld 8 ((t.map (·.late)).sum), fld 8 ((t.map (·.zeroFilled)).sum)] } })

/-- The checks of TX-CUT-SET. -/
def txCutSetCheck (lane path sb on : Nat) (d : Dev) : Option Reply :=
  let s := (d.txPath path).sb sb
  let used := (List.range 64).any fun p => (List.range 4).any fun k => !(p == path && k == sb) && ((d.txPath p).sb k).cutLane == some lane
  firstBad [(decide (31 < lane) || decide (63 < path) || decide (3 < sb) || decide (1 < on), ST.badArg),
    (!s.on || s.flushing || s.banks.cur.cfg.source != 3, ST.txDisabled), (on == 1 && !cutRateOk d s.banks.cur.cfg.chain, ST.txRate),
    (on == 1 && (!laneDirect d lane || used || laneHeld d lane), ST.txLane)]

/-- TX-CUT-SET (R216, R251). -/
def execTxCutSet (h : Hdr) (lane path sb on : Nat) : Meaning :=
  hostCmd (cmd 0x0408) h (.txCutSet h lane path sb on)
    (txCutSetCheck lane path sb on)
    (just fun d => d.onTxSb path sb fun s => { s with cutLane := if on = 1 then some lane else none })

/-- R206: the samples of a cut-through frame, F12 behind its 16-byte header, and which of them stand in a thorned word. -/
def cutSamples (x : Delivered) : List (Cx × Bool) :=
  (List.range (min (beAt x.bytes 10 2) ((x.bytes.length - 16) / 3))).map fun k =>
    (Cx.scale 16 (readSample 1 (beAt x.bytes (16 + 3 * k) 3)), (List.range 3).any fun b => x.thorned (16 + 3 * k + b))

/-- CUT_THROUGH_FRAME (R218): the samples radiate on arrival, those of a thorned word as zero, and the words are counted; a failed CRC-32C
is counted and reported, its samples having left. -/
def execCutThroughFrame (lane : Nat) (frame : DirectFrame) : Meaning := onDev fun d =>
  if !laneUp d lane || !laneDirect d lane || frame.cls != 4 then d
  else
    let l := cutSamples ⟨frame.bytes, false, frame.bad⟩
    let crcOk := crc32c frame.bytes == frame.crc
    (pathSbs (2 ^ 64 - 1) 15).foldl (fun d (p, s) =>
      let x := (d.txPath p).sb s
      if x.on && x.cutLane == some lane && x.banks.cur.cfg.source == 3 then
        let n := tickHz * rateUnit
        let r := max 1 (rate768 d x.banks.cur.cfg.chain)
        let d := d.onTxSb p s fun y => { y with cutIn := y.cutIn ++ l.zipIdx.map fun (v, k) => (d.axis + txDelay d p s + k * n / r, if v.2 then (0, 0) else v.1) }
        let d := d.onTx p fun y => { y with zeroedWords := y.zeroedWords + frame.bad.length, cutCrc := y.cutCrc + (if crcOk then 0 else 1) }
        if crcOk then d else raiseEv d EV.txCutCrc [a4 lane, a4 p, a4 s]
      else d) d

/-! ### Mute, protect, compensation -/

/-- TX-MUTE (R236): without `immediate` the current OFDM symbols of a path end before it mutes. A release lifts only the host's mute, at the
path's next TX-OPEN. -/
def execTxMute (h : Hdr) (mask mute immediate : Nat) : Meaning :=
  hostCmd (cmd 0x0409) h (.txMute h mask mute immediate)
    (fun _ => firstBad [(decide (1 < mute) || decide (1 < immediate), ST.badArg)])
    (just fun d => (pathsOf mask).foldl (fun d p =>
      if mute = 1 then
        match if immediate = 1 then none else (List.range 4).findSome? fun s => if ((d.txPath p).sb s).on then symbolEnd d p s else none with
        | some (b, _) => d.onTx p fun x => { x with hostAsked := true, muteFrom := some b }
        | none => (countMuted d p).onTx p fun x => { x with hostAsked := true, muteHost := true }
      else d.onTx p fun x => { x with hostAsked := false }) d)

/-- TX-PROTECT-CLEAR (R234, R235): a path whose PA diode is broken stays in protect. -/
def execTxProtectClear (h : Hdr) (mask : Nat) : Meaning :=
  hostCmd (cmd 0x040B) h (.txProtectClear h mask)
    (fun d => firstBad [((pathsOf mask).any (fun p => (d.rxPath p).portClass == 3 || (d.rxPath p).portClass == 4), ST.txProtect)])
    (just fun d => (pathsOf mask).foldl (fun d p =>
      if (nth d.fe p).protTx ≠ 2 then d
      else if (nth d.pwr.chans (p + 1)).broken then d.onFe p fun f => { f with protTx := 3 }
      else protectRelease d p) d)

/-- A compensation table of R240 from 140 bytes. -/
def compOf (b : List Nat) : CompTable :=
  { rows := (List.range 34).map fun i => (toSigned 16 (beAt b (4 * i) 2), beAt b (4 * i + 2) 2), coef := toSigned 32 (beAt b 136 4) }

/-- The checks of TX-COMP-LOAD. -/
def txCompLoadCheck (handle : Nat) (d : Dev) : Option Reply :=
  let b := objBytes d handle
  let tab (p : Nat) : CompTable := compOf (b.drop (16 + 140 * p))
  Checks.orElse (firstBad [
    ((d.obj? handle).any (fun x => x.kind != 4), ST.badArg),
    ((d.obj? handle).any (·.closed) && (b.length != 8976 || b.headD 0 != 0x41 || (b.drop 1).take 15 != List.replicate 15 0
      || (List.range 64).any fun p => (tab p).rows.any fun r => decide (r.2 < (nth d.pwr.dacs p).floor) || decide ((nth d.pwr.dacs p).safe < r.2)), ST.txComp)]) <|
    Checks.orElse (objCheck d handle 4) (firstBad [((d.obj? handle).any (fun x => !x.thorns.isEmpty), ST.thorn)])

/-- TX-COMP-LOAD (R240, R682). -/
def execTxCompLoad (h : Hdr) (handle : Nat) : Meaning :=
  hostCmd (cmd 0x040A) h (.txCompLoad h handle)
    (txCompLoadCheck handle)
    (just fun d =>
      let b := objBytes d handle
      consume ((List.range 64).foldl (fun d p =>
        journal (d.onTx p fun x => { x with compTable := compOf (b.drop (16 + 140 * p)) }) 1 0x0007 p ((b.drop (16 + 140 * p)).take 140)
          (.comp p (d.txPath p).compTable)) d) handle)

/-- TX-COUNTERS. -/
def execTxCounters (h : Hdr) (path clear : Nat) : Meaning :=
  hostCmd (askClear 0x040C clear (List.replicate 20 4)) h (.txCounters h path clear)
    (fun _ => firstBad [(decide (63 < path) || decide (1 < clear), ST.badArg)])
    fun d =>
      let x := d.txPath path
      { dev := if clear = 1 then d.onTx path fun x => { x with
          satOut := 0, mutedWindows := 0, cutSymbols := 0, cutCrc := 0, sbs := x.sbs.map fun s => { s with
        counts := [0, 0, 0, 0] } } else d,
        reply := { fields := (x.sbs.flatMap fun s => s.counts.map (fld 4)) ++ [fld 4 x.satOut, fld 4 x.mutedWindows, fld 4 x.cutSymbols, fld 4 x.cutCrc] } }

/-! ### The world's doings -/

/-- INHIBIT_LOOP_OPEN (R233): above 2 kΩ: every path ramps down and mutes, gates go to pinch-off, EV_TX_INHIBIT. A
reading between the thresholds changes nothing but the reading. -/
def execInhibitLoopOpen (ohms : Nat) : Meaning := onDev fun d =>
  let d := { d with gov := { d.gov with loopOhms := ohms } }
  if ohms ≤ 2000 ∨ d.gov.loopOpen then d
  else
    let d := { d with gov := { d.gov with loopOpen := true } }
    let d := (List.range 64).foldl (fun d p => biasSafe ((countMuted d p).onTx p fun x => { x with muteInhibit := true }) p false true) d
    raiseEv d EV.txInhibit [a4 1]

/-- INHIBIT_LOOP_CLOSED (R233): below 500 Ω for 100 ms: transmission resumes at the next TX-OPEN of each path. -/
def execInhibitLoopClosed (ohms : Nat) : Meaning := onDev fun d =>
  let d := { d with gov := { d.gov with loopOhms := ohms } }
  if 500 ≤ ohms ∨ d.gov.loopOpen = false then d
  else raiseEv { d with gov := { d.gov with loopOpen := false } } EV.txInhibit [a4 2]

/-- PORT_FAULT (R234): while the path transmits. -/
def execPortFault (path : Nat) : Meaning := onDev fun d =>
  if radiates d path then raiseEv (txProtect d path 2) EV.txPortFault [a4 path] else d

/-! ### Transmit stakes -/

/-- What the samples of a transmit sub-band that leave at an antenna instant meet. -/
def txNow (d : Dev) (p s pos : Nat) : TxNow :=
  let x := (d.txPath p).sb s
  let on := x.on && x.stopAt.all fun t => decide (pos < t)
  { on := on, index := x.banks.index, bank := x.banks.cur, ref := x.ncoRef,
    win := on && (x.win || (x.banks.cur.cfg.chain.windowMode == 0 && x.banks.cur.cfg.source != 0)), tone := x.tone, turn := subPhase d 1 p s }

/-- R73, R227: a sub-band's settings noted at an antenna instant. -/
def noteTx (d : Dev) (p s pos : Nat) : Dev := { d with sig := { d.sig with tx := upd d.sig.tx (p * 4 + s) fun h => noted h pos (txNow d p s pos) } }

/-- R227: the settings of the sub-bands a stake names noted at its position, or for the samples that enter now when it comes late. -/
def noteStake (d : Dev) (q : QStake) : Dev :=
  (named q.stake.target).foldl (fun d (p, s) => if ((d.txPath p).sb s).on then noteTx d p s (max q.pos (d.axis + txDelay d p s)) else d) d

/-- R70, R612: the targets of a transmit stake can act: synthesis settled, the domains on, an enabled sub-band named,
no throttle gap over its position. -/
def txAble (d : Dev) (q : QStake) : Bool :=
  let live := (named q.stake.target).filter fun (p, s) => let x := (d.txPath p).sb s; x.on && !x.flushing
  let a := if q.stake.deferrable then max q.pos d.axis else q.pos
  !d.syn.settling && domOn d 2 && domOn d 4 && domOn d 6 && !live.isEmpty && !live.any (fun (p, _) => gapAt d p a)

/-- The enabled sub-bands of a transmit stake, and their paths. -/
def txLive (d : Dev) (q : QStake) : List (Nat × Nat) := (named q.stake.target).filter fun (p, s) => let x := (d.txPath p).sb s; x.on && !x.flushing
def txLivePaths (d : Dev) (q : QStake) : List Nat := (List.range 64).filter fun p => (txLive d q).any fun x => x.1 == p

/-- R231: the queue step of a gate's on code before an opening, and of its pinch-off after a close. -/
def gateOnStep (a : Nat) : Nat := (a - 1024) / 512 * 512
def gateOffStep (a : Nat) : Nat := ceilDiv (a + 512) 512 * 512

/-- The gate on code of a path at its PA diode's temperature (R238): linear between the 5 °C rows. -/
def gateOnCode (d : Dev) (p : Nat) : Nat :=
  let t := (nth d.pwr.chans (p + 1)).last + 4000
  let t := max 0 (min 16500 t)
  let i := (t / 500).toNat
  let a : Int := (nth (d.txPath p).compTable.rows i).2
  let b : Int := (nth (d.txPath p).compTable.rows (min 33 (i + 1))).2
  (a + divHalfEven ((b - a) * (t - 500 * (i : Int))) 500).toNat

/-- R231: with `gate_mode` 1 the unit places the gate's steps around a window or a beacon. -/
def gateOnAt (d : Dev) (p a : Nat) : Dev := if (d.txPath p).gateMode = 1 then biasPlace d p (gateOnStep a) (gateOnCode d p) else d
def gateOffAt (d : Dev) (p a : Nat) : Dev := if (d.txPath p).gateMode = 1 then biasPlace d p (gateOffStep a) (nth d.pwr.dacs p).safe else d

/-- R231: whether a path's gate will be on at an opening: the last of its queued codes up to the opening, or the code
in force. -/
def gateReady (d : Dev) (p a : Nat) : Bool :=
  let x := nth d.pwr.dacs p
  let code := (x.queue.filter fun e => decide (e.1 ≤ a)).foldl (fun _ e => e.2) x.code
  decide (code < x.safe)

/-- R228 to R233, R250, R461, R612: the window of a path opens at P: mutes whose cause has ended lift, pending compensation
and settings come into force; a mute that lasts is counted, and a pinched-off gate mutes. One whose
position lies in a throttle gap radiates from the gap's end. -/
def openPath (late : Bool) (d : Dev) (q : QStake) (p : Nat) : Dev :=
  let d := applyComp d p 100000
  let d := atTxOpen d p
  let d := d.onTx p fun x => { x with
    muteHost := x.hostAsked, muteFrom := if x.hostAsked then x.muteFrom else none, muteInhibit := x.muteInhibit && d.gov.loopOpen, muteLock := d.syn.settling, muteGate := false, muteLate := late && !gapAt d p q.pos,
    windowCounted := false, openSince := match x.openSince with
      | some t => some t
      | none => some q.pos }
  let d :=
    if !txMuted d p && !gateReady d p q.pos then
      raiseEv (d.onTx p fun x => { x with muteGate := true, gateOff := true }) EV.txGateOff [a4 p]
    else d
  if txMuted d p then countMuted d p else d

/-- The TX windows a stake names open. -/
def openWindows (late : Bool) (d : Dev) (q : QStake) : Dev :=
  let live := txLive d q
  let ps := txLivePaths d q
  let d := live.foldl (fun d (p, s) => d.onTxSb p s fun x => { x with win := true }) d
  ps.foldl (fun d p => openPath late d q p) d

/-- TX_OPEN (R227, R228, R230). R70: a late one opens a muted window. -/
def execTxOpen : Meaning := onDev (stakeAct 0x0401 txAble (fun d q => noteStake (openWindows true d q) q) fun d q => noteStake (openWindows false d q) q)

/-- The TX windows a stake names close at P (R228 to R231). -/
def closeWindows (d : Dev) (q : QStake) : Dev :=
  let live := txLive d q
  let ps := txLivePaths d q
  let d := live.foldl (fun d (p, s) =>
    let cut := ((d.txPath p).sb s).win && cutsSymbol d p s q.pos
    (if cut then d.onTx p fun x => { x with cutSymbols := x.cutSymbols + 1 } else d).onTxSb p s fun x => { x with win := false }) d
  ps.foldl (fun d p =>
    if txOpenNow d p then d
    else gateOffAt (d.onTx p fun x => { x with openSince := none, windowCounted := false }) p q.pos) d

/-- TX_CLOSE (R227): a close takes effect whatever its target's condition, since it only silences. -/
def execTxClose : Meaning := onDev (stakeAct 0x0402 txAble (fun d q => noteStake (closeWindows d q) q) fun d q => noteStake (closeWindows d q) q)

/-- A swap of a transmit sub-band's banks (R73, R75, R497): the last sample of the former bank leaves at P. -/
def txSwapOne (q : QStake) (d : Dev) (ps : Nat × Nat) : Dev :=
  if ((d.txPath ps.1).sb ps.2).banks.thornShd ≠ 0 then swapRefused d EV.memSwapRefused q
  else d.onTxSb ps.1 ps.2 fun x => { x with banks := x.banks.swap q.pos }

/-- The swaps a TX-SWAP names. -/
def txSwaps (d : Dev) (q : QStake) : Dev := (txLive d q).foldl (txSwapOne q) d

/-- TX_SWAP (R227). -/
def execTxSwap : Meaning := onDev (stakeAct 0x0403 txAble lateDrop fun d q => noteStake (txSwaps d q) q)

/-- TX_NCO_RESET (R221, R186). -/
def execTxNcoReset : Meaning :=
  onDev (stakeAct 0x0404 txAble lateDrop fun d q =>
    noteStake ((txLive d q).foldl (fun d (p, s) => d.onTxSb p s fun x => { x with ncoRef := some (q.pos, bitsOf q.stake.argument 63 32) }) d) q)

/-- TX_TONE (R227): for its duration the sub-band radiates a tone in place of its source, with its own window; a
deferred tone begins d after it executes. -/
def execTxTone : Meaning :=
  onDev (stakeAct 0x0405 txAble lateDrop fun d q =>
    let n := bitsOf q.stake.argument 23 8 * 512
    let start := max q.pos (if d.axis ≤ q.trig.getD 0 then 0 else d.axis + txStakeDelay d q.stake.target)
    if n = 0 then d
    else
      let d := (txLive d q).foldl (fun d (p, s) => d.onTxSb p s fun x =>
        { x with tone := some ⟨start, start + n, toSigned 32 (bitsOf q.stake.argument 63 32), bitsOf q.stake.argument 7 0⟩ }) d
      noteStake ((txLivePaths d q).foldl (fun d p => gateOffAt (if start = q.pos then d else gateOnAt d p start) p (start + n)) d) q)

end Sys2Proof.Machine
end

