-- ==== Sys2Proof/Machine/Frequency.lean ====
section
/-! DEFINITION. Chapter 7: the frequency engine's slots (R253 to R271, R289), channelised, beam and layer streams (R272 to
R274, R280, R291), topiaries (R275 to R278), beams and their budget (R279, R281), and the swaps (R282 to R286). -/

namespace Sys2Proof.Machine

/-! ### Slots -/

/-- The number of a slot: direction × 4 + sub-band. -/
def slotNo (dir sb : Nat) : Nat := dir * 4 + sb

/-- R253, R254: the chains of the sub-bands that feed a receive slot or are fed by a transmit slot. -/
def slotChains (d : Dev) (n : Nat) : List ChainPar :=
  if n < 4 then
    (d.rx.map fun p => nth p.sbs n).filterMap fun s => if s.on && s.banks.cur.cfg.consumers.testBit 0 then some s.banks.cur.cfg.chain else none
  else
    (d.tx.map fun p => nth p.sbs (n - 4)).filterMap fun s => if s.on && s.banks.cur.cfg.source == 1 then some s.banks.cur.cfg.chain else none

/-- R253: all inputs of a slot share profile, `c_ratio` and the factors of stages A and B. -/
def inputsAgree (l : List ChainPar) : Bool :=
  match l with
  | [] => true
  | c :: t => t.all fun x => x.profile == c.profile && x.cRatio == c.cRatio && x.aFactor == c.aFactor && x.bFactor == c.bFactor

/-- The input rate of a slot in 1 / `rateUnit` samples per second, 0 without an input. -/
def slotRate (d : Dev) (n : Nat) : Nat :=
  match slotChains d n with
  | [] => 0
  | c :: _ => if c.aFactor = 0 ∨ c.bFactor = 0 then 0 else rate768 d c

end Sys2Proof.Machine

namespace Sys2Proof

open Machine

/-- The shortest cyclic prefix in samples (R60, R260). -/
def FreCfg.cp (c : FreCfg) : Nat := if c.cpType = 1 then c.size / 4 else c.size * 9 / 128

/-- The flags of a member (R318). -/
def Member.present (m : Member) : Bool := m.flags.testBit 7
def Member.contributes (m : Member) : Bool := m.flags.testBit 6

end Sys2Proof

namespace Sys2Proof.Machine

/-- R255, R256, R260 to R264, R266, R270: the ranges of a configuration. -/
def freSizeOk (c : FreCfg) (dir : Nat) : Bool :=
  match c.mode with
  | 0 => true
  | 1 => decide (6 ≤ c.log2) && decide (c.log2 ≤ 16) && decide (4 ≤ c.taps) && decide (c.taps ≤ 16) && decide (c.oversample ≤ 1) && decide (c.window ≤ 1)
  | 2 =>
    decide (7 ≤ c.log2) && decide (c.log2 ≤ 12) && decide (c.mu ≤ 3) && (c.cpType == 0 || (c.cpType == 1 && c.mu == 2)) && c.wola % 2 == 0
      && decide (c.symOffset.natAbs < 983040) && decide (c.backoff ≤ c.cp)
      && (if dir = 0 then decide (c.wola / 2 ≤ min c.backoff (c.cp - c.backoff)) else decide (c.wola / 2 ≤ c.cp))
  | _ => false

/-- R253, R260: the inputs suit a configuration. -/
def freRateOk (d : Dev) (c : FreCfg) (n : Nat) : Bool :=
  inputsAgree (slotChains d n) && (c.mode != 2 || slotRate d n == c.size * 15000 * 2 ^ c.mu * rateUnit)

end Sys2Proof.Machine

namespace Sys2Proof

open Machine

/-- The channels per equaliser group and the groups (R267, R270). -/
def FreCfg.perGroup (c : FreCfg) : Nat := if c.eqGroup = 0 then 65536 else c.eqGroup
def FreCfg.eqGroups (c : FreCfg) : Nat := ceilDiv c.nCh c.perGroup

end Sys2Proof

namespace Sys2Proof.Machine

/-- R265, R270: the delivered range and the equaliser groups. -/
def freChannelsOk (c : FreCfg) : Bool :=
  if c.mode = 0 then c.nCh == 1 else decide (1 ≤ c.nCh) && decide (c.firstCh + c.nCh ≤ c.size) && decide (c.eqGroups ≤ 512)

/-- The delivered channel-sample rate per path as a quotient of samples per second (R281). -/
def channelRate (c : FreCfg) (r : Nat) : Nat × Nat :=
  match c.mode with
  | 1 => (c.nCh * r, c.hop * rateUnit)
  | 2 => (c.nCh * (if c.cpType = 1 then 48000 else 14000 * 2 ^ c.mu), 1)
  | _ => (r, rateUnit)

/-- R281: the MAC cells a slot needs for B beams. -/
def cellsFor (c : FreCfg) (r b : Nat) : Nat := let (n, m) := channelRate c r; ceilDiv (64 * b * n) (max 1 m * tickHz)

/-- The MAC cells a slot holds: those of its enabled beams. -/
def slotCells (d : Dev) (n : Nat) : Nat := let f := nth d.fre n; if f.beamsOn then cellsFor f.cfg (slotRate d n) f.beams else 0

/-- R74: whether a queued FRE-SWAP or TOP-SWAP arms a slot. -/
def namesSlot (n target : Nat) : Bool := (if target.testBit 8 then 4 else 0) + target / 64 % 4 == n
def freArmed (d : Dev) (n : Nat) : Bool := armed d 0x0502 3 n (namesSlot n)
def topArmed (d : Dev) (n : Nat) : Bool := armed d 0x0501 4 n (namesSlot n)

/-- FRE_SLOT_STATUS_n. -/
def freStatus (d : Dev) (n : Nat) : Nat :=
  let f := nth d.fre n
  b2n f.on * 2 ^ 31 + f.cfg.mode % 4 * 2 ^ 29 + f.banks.index * 2 ^ 28 + b2n (freArmed d n) * 2 ^ 27 + b2n (nth f.sticky 0) * 2 ^ 26
    + b2n (nth f.sticky 1) * 2 ^ 25 + b2n (nth f.sticky 2) * 2 ^ 24 + b2n (f.on && !freRateOk d f.cfg n) * 2 ^ 23 + b2n f.flushing * 2 ^ 22
    + f.cfg.log2 % 32 * 2 ^ 17

/-- BMF_SLOT_STATUS_n. -/
def bmfStatus (d : Dev) (n : Nat) : Nat :=
  let f := nth d.fre n
  let fading := match f.crossfade with
    | some (p, x) => decide (d.axis < p + x)
    | none => false
  b2n f.beamsOn * 2 ^ 31 + f.top.index * 2 ^ 30 + b2n (topArmed d n) * 2 ^ 29 + b2n (f.top.busy d.axis).isSome * 2 ^ 28 + b2n fading * 2 ^ 27
    + b2n f.thornApplied * 2 ^ 26 + b2n f.swapRefused * 2 ^ 25 + b2n f.satBeam * 2 ^ 24 + f.beams % 128 * 2 ^ 17 + slotCells d n % 8192 * 2 ^ 4

/-- The configuration object of R270, its banked bytes 28 to 30 taken from a bank. -/
def freCfgFields (c : FreCfg) (b : FreBank) : List Field :=
  [fld 1 c.mode, fld 1 c.log2, fld 1 c.taps, fld 1 c.oversample, fld 1 c.window, fld 1 c.mu, fld 1 c.cpType, fld 1 c.pfbShift, fld 2 c.fftShift,
   fld 2 c.wola, sfld 4 c.symOffset, fld 2 c.backoff, fld 2 c.eqGroup, fld 4 c.firstCh, fld 4 c.nCh, fld 1 b.eqShift, fld 1 b.rq4, fld 1 b.rq8,
   fld 1 c.consumers, fld 8 c.anchor, fld 24 c.reserved40]

end Sys2Proof.Machine

namespace Sys2Proof

open Machine

/-- A configuration without its banked fields: in mode 0 only `consumers` and the banked fields apply. -/
def FreCfg.unbanked (c : FreCfg) : FreCfg := { c with
  eqShift := 0, rq4 := 0, rq8 := 0 }

end Sys2Proof

namespace Sys2Proof.Machine

/-- Groups per second of a configuration at an input rate, as a quotient. -/
def groupsOf (c : FreCfg) (r : Nat) : Nat × Nat :=
  match c.mode with
  | 2 => (if c.cpType = 1 then 48000 else 14000 * 2 ^ c.mu, 1)
  | 1 => (r, max 1 c.hop * rateUnit)
  | _ => (r, rateUnit)

/-- Groups per second of a slot as a quotient, whether the slot is enabled or not. -/
def groupRate (d : Dev) (n : Nat) : Nat × Nat := groupsOf (nth d.fre n).cfg (slotRate d n)

/-- The entries in use, the own entry, and the owners. -/
def WeaveBank.entries (b : WeaveBank) : List Member := b.members.take b.hdr.members
def WeaveBank.ownEntry (b : WeaveBank) : Member := nth b.members b.hdr.own
def WeaveBank.owners (b : WeaveBank) : List Member := b.entries.filter fun m => m.present && decide (0 < m.count)

/-- R320: the inputs N of a coppice. -/
def WeaveBank.inputs (b : WeaveBank) : Nat := 64 * (b.entries.filter fun m => m.present && m.contributes).length

/-- R31: the blocks of N inputs. -/
def blocksOf (n : Nat) : Nat := let b := ceilDiv n 32; b * (b + 1) / 2

/-- R31, R322: every owner's slice rate at a group rate is inside the capacity. -/
def WeaveBank.capacityOk (b : WeaveBank) (rate : Nat × Nat) : Bool :=
  b.owners.all fun o => decide (o.count * rate.1 * blocksOf b.inputs * (if b.hdr.format = 5 then 4 else 1) ≤ 125829120000 * rate.2)

/-- R31: a slot's configuration keeps every slice of the weave that takes the slot inside the capacity, in the bank in force and in a
complete shadow. DESIGN CHOICE (log entry 116): the spec gives no status for a slot that is set after its weave. -/
def freWeaveOk (d : Dev) (n : Nat) (cfg : FreCfg) : Bool :=
  let ok (b : WeaveBank) : Bool := b.hdr.sb != n || b.capacityOk (groupsOf cfg (slotRate d n))
  (!d.weave.on || ok d.weave.banks.cur) && (!d.weave.banks.shd.complete || ok d.weave.banks.shd)

/-- The checks of FRE-SET. -/
def freSetCheck (dir sb : Nat) (cfg : FreCfg) (d : Dev) : Option Reply :=
  let n := slotNo dir sb
  let f := nth d.fre n
  Checks.orElse (firstBad [
    (decide (1 < dir) || decide (3 < sb) || cfg.reserved40 != 0 || decide (7 < cfg.consumers) || decide (15 < cfg.eqShift) || decide (15 < cfg.rq4)
      || decide (15 < cfg.rq8) || decide (31 < cfg.pfbShift) || decide (2 < cfg.mode), ST.badArg),
    (!freSizeOk cfg dir, ST.freSize), (!freRateOk d cfg n, ST.freRate), (!freChannelsOk cfg, ST.freChannels), (!freWeaveOk d n cfg, ST.weaveCapacity), (!domOn d 6, ST.domainOff), (storeFailed d 1 || storeFailed d 4, ST.memFailed),
    (n == 0 && qsHeld d, ST.quickset), (f.on && f.cfg.unbanked != cfg.unbanked, ST.freActive)])
    (if f.on then bankCheck d (freArmed d n) (f.banks.busy d.axis).toList else none)

/-- FRE-SET (R253, R255, R260, R263 to R266, R270): a disabled slot takes both banks and is enabled; an enabled one only
a new shadow bank. -/
def execFreSet (h : Hdr) (dir sb : Nat) (cfg : FreCfg) : Meaning :=
  let n := slotNo dir sb
  hostCmd (cmd 0x0500 [8]) h (.freSet h dir sb cfg)
    (freSetCheck dir sb cfg)
    (fun d =>
      let new : FreBank := { eqShift := cfg.eqShift, rq4 := cfg.rq4, rq8 := cfg.rq8 }
      let d := d.onFre n fun f =>
        if f.on then { f with banks := f.banks.write { new with
          g := f.banks.shd.g, h := f.banks.shd.h } f.banks.thornShd }
        else { f with
          on := true, flushing := false, cfg := cfg, banks := { Banks.both new with
            cur := { new with
              g := f.banks.cur.g, h := f.banks.cur.h },
            shd := { new with
              g := f.banks.shd.g, h := f.banks.shd.h } } }
      let (a, b) := channelRate cfg (slotRate d n)
      { dev := d, reply := { fields := [fld 8 (divHalfEven ((a : Int) * 65536) (max 1 b)).toNat] } })

/-- FRE-GET. -/
def execFreGet (h : Hdr) (dir sb bank : Nat) : Meaning :=
  query (ask 0x0501 [64, 4, 8]) h (.freGet h dir sb bank)
    (fun _ => firstBad [(decide (1 < dir) || decide (3 < sb) || decide (1 < bank), ST.badArg)]) fun d =>
    let n := slotNo dir sb
    let f := nth d.fre n
    freCfgFields f.cfg (if bank = 0 then f.banks.cur else f.banks.shd) ++ [fld 4 (freStatus d n), fld 8 (rate16 (slotRate d n))]

/-- The streams of a slot close with `last` (R289): channelised and beam streams of a receive slot. -/
def closeSlot (d : Dev) (n : Nat) (beamsOnly : Bool) : Dev :=
  if n < 4 then streamStop d fun o => o.sb == n && (o.kind == .beam || (o.kind == .channel && !beamsOnly)) else d

/-- R289: a slot stops. -/
def freStop (d : Dev) (n : Nat) : Dev := (closeSlot d n false).onFre n fun f => { f with
  flushing := true, beamsOn := false }

/-- FRE-DISABLE (R289): the response follows the last slot's flush. -/
def execFreDisable (h : Hdr) (dir sbMask : Nat) : Meaning :=
  hostCmd (cmd 0x0502 [4]) h (.freDisable h dir sbMask)
    (fun d => firstBad [(decide (1 < dir) || decide (15 < sbMask), ST.badArg), (dir == 0 && sbMask.testBit 0 && qsHeld d, ST.quickset)])
    (fun d =>
      let hit := ((maskList 4 sbMask).map (slotNo dir)).filter fun n => (nth d.fre n).on && !(nth d.fre n).flushing
      let d := hit.foldl freStop d
      if hit.isEmpty then { dev := d, reply := { fields := [fld 4 0] } } else { dev := d, wait := some (.freFlush hit 0) })

/-- What FRE-DISABLE waits for, with one slot's flush done (R289). -/
def freWait (n groups : Nat) (w : Wait) : Wait :=
  match w with
  | .freFlush left k => if left.contains n then .freFlush (left.filter (· != n)) (k + groups) else w
  | w => w

/-- Whether the last flush a FRE-DISABLE waits for is done, and its answer (R289). -/
def freDone (r : Running) : Bool :=
  match r.wait with
  | .freFlush [] _ => true
  | _ => false
def freReply (r : Running) : Reply :=
  match r.wait with
  | .freFlush _ k => { fields := [fld 4 k] }
  | _ => {}

/-- FRE_FLUSH_DONE (R289): the last spectra or symbols of a disabled slot are out. -/
def execFreFlushDone (dir sb groups : Nat) : Meaning := onDev fun d =>
  let n := slotNo dir sb
  if (nth d.fre n).flushing then
    let d := raiseEv (d.onFre n fun f => { f with on := false, flushing := false }) EV.freFlushed [a4 dir, a4 sb]
    qsExitCheck (complete (onWaits d (freWait n groups)) freDone freReply)
  else d

/-- A word of 16 bits as a component, the most negative code read as the most negative value (R150). -/
def comp16 (w : Nat) : Int := max (-32767) (toSigned 16 w)

/-- The equaliser bank of an object of R271 for some groups and channels. -/
def eqBank (b : List Nat) (groups size : Nat) : List (Int × Int) × List Nat :=
  ((List.range (64 * groups)).map fun i => (comp16 (beAt b (16 + 4 * i) 2), comp16 (beAt b (18 + 4 * i) 2)),
   (List.range size).map fun i => beAt b (16 + 256 * groups + 2 * i) 2)

/-- The slot an object's bytes 1 and 2 name (R271, R275), when they name one. -/
def objSlot (b : List Nat) : Option Nat := if nth b 1 ≤ 1 ∧ nth b 2 ≤ 3 then some (slotNo (nth b 1) (nth b 2)) else none

/-- R271: an equaliser object's header agrees with its slot's configuration. -/
def eqHeaderOk (c : FreCfg) (b : List Nat) : Bool :=
  b.headD 0 == 0x45 && nth b 3 == 0 && beAt b 4 2 == c.eqGroups && beAt b 6 2 == 0 && beAt b 8 4 == c.perGroup && beAt b 12 4 == 0
    && b.length == 16 + 256 * c.eqGroups + 2 * c.size

/-- The checks of FRE-EQ-LOAD. -/
def freEqLoadCheck (handle : Nat) (d : Dev) : Option Reply :=
  let b := objBytes d handle
  let closed := (d.obj? handle).any (·.closed)
  let n := (objSlot b).getD 0
  let f := nth d.fre n
  Checks.orElse (firstBad [((d.obj? handle).any (fun x => x.kind != 4), ST.badArg), (closed && (objSlot b).isNone, ST.badArg),
    (closed && !eqHeaderOk f.cfg b, ST.freChannels), (!domOn d 6, ST.domainOff)]) <|
  Checks.orElse (objCheck d handle 4) <| Checks.orElse (firstBad [(n == 0 && qsHeld d, ST.quickset)]) <|
  Checks.orElse (if f.on then bankCheck d (freArmed d n) (f.banks.busy d.axis).toList else none) <|
  firstBad [((d.obj? handle).any (fun x => !x.thorns.isEmpty), ST.thorn)]

/-- FRE-EQ-LOAD (R271). -/
def execFreEqLoad (h : Hdr) (handle : Nat) : Meaning :=
  hostCmd (cmd 0x0503) h (.freEqLoad h handle)
    (freEqLoadCheck handle)
    (just fun d =>
      let b := objBytes d handle
      let n := (objSlot b).getD 0
      consume (d.onFre n fun f =>
        let (g, hh) := eqBank b f.cfg.eqGroups f.cfg.size
        let put (x : FreBank) : FreBank := { x with
          g := g, h := hh }
        { f with banks := if f.on then f.banks.write (put f.banks.shd) else { f.banks with
          cur := put f.banks.cur, shd := put f.banks.shd, thornCur := 0, thornShd := 0 } }) handle)

/-- The checks of FRE-WINDOW-LOAD. -/
def freWindowLoadCheck (handle dir sb : Nat) (d : Dev) : Option Reply :=
  let n := slotNo dir sb
  let o := coefObject (objBytes d handle)
  let c := (nth d.fre n).cfg
  Checks.orElse (firstBad [(decide (1 < dir) || decide (3 < sb) || (d.obj? handle).any (fun x => x.kind != 3), ST.badArg),
    ((d.obj? handle).any (·.closed) && (match o with
      | some (st, _, _) => st != 4
      | none => true), ST.badArg),
    (match o with
      | some (_, k, _) => k != c.size * c.taps
      | none => false, ST.rxTaps), (!domOn d 6, ST.domainOff)]) <|
  Checks.orElse (objCheck d handle 3) <|
  firstBad [(n == 0 && qsHeld d, ST.quickset), ((nth d.fre n).on, ST.freActive), ((d.obj? handle).any (fun x => !x.thorns.isEmpty), ST.thorn)]

/-- FRE-WINDOW-LOAD (R259, R290): the prototype is not banked, so the slot must be disabled. -/
def execFreWindowLoad (h : Hdr) (handle dir sb : Nat) : Meaning :=
  let n := slotNo dir sb
  hostCmd (cmd 0x0504) h (.freWindowLoad h handle dir sb)
    (freWindowLoadCheck handle dir sb)
    (just fun d =>
      match coefObject (objBytes d handle) with
      | some (_, _, vals) => consume (d.onFre n fun f => { f with proto := vals }) handle
      | none => d)

/-- FRE-COUNTERS. -/
def execFreCounters (h : Hdr) (dir sb path clear : Nat) : Meaning :=
  let n := slotNo dir sb
  hostCmd (askClear 0x0506 clear (List.replicate 6 4)) h (.freCounters h dir sb path clear)
    (fun _ => firstBad [(decide (1 < dir) || decide (3 < sb) || decide (63 < path) || decide (1 < clear), ST.badArg)])
    fun d =>
      { dev := if clear = 1 then d.onFre n fun f => { f with
        counts := upd f.counts path fun _ => [0, 0, 0, 0, 0, 0] } else d,
        reply := { fields := (nth (nth d.fre n).counts path).map (fld 4) } }

/-! ### Streams -/

/-- Elements of a stream of delivered channels in a format: channels, or blocks of 16 in BFP9 (R272). -/
def channelElements (c : FreCfg) (format : Nat) : Nat := if format = 3 then ceilDiv c.nCh 16 else c.nCh

/-- R274: whether any of some stream numbers belongs to another stream the unit sends. -/
def numbersUsed (d : Dev) (base n : Nat) (kind : StreamKind) : Bool :=
  d.outs.any fun o => decide (base ≤ o.num) && decide (o.num < base + n) && !(o.kind == kind && o.base == base)

/-- Streams of consecutive numbers from a base, one per path or beam (R272). -/
def manyStreams (d : Dev) (kind : StreamKind) (base sb format dest port elements : Nat) (items : List Nat) : Dev :=
  { d with outs := (d.outs.filter fun o => !(o.kind == kind && o.base == base)) ++
      items.zipIdx.map fun (p, k) =>
        { num := base + k, base := base, kind := kind, sb := sb, paths := [p], format := format, dest := dest, port := port, elements := elements,
          since := d.axis } }

/-- The checks of FRE-STREAM-SET. -/
def freStreamSetCheck (base sb mask format dest lane : Nat) (d : Dev) : Option Reply :=
  let f := nth d.fre sb
  let n := (pathsOf mask).length
  firstBad [(decide (3 < sb) || mask == 0 || portArgBad lane || destBad d dest || decide (256 < base + n), ST.badArg),
    (decide (format < 1) || decide (5 < format), ST.freFormat), (!f.on || f.flushing || !f.cfg.consumers.testBit 2, ST.freDisabled),
    (numbersUsed d base n .channel, ST.freStream)]

/-- FRE-STREAM-SET (R272 to R274, R291). -/
def execFreStreamSet (h : Hdr) (base sb mask format dest lane : Nat) : Meaning :=
  hostCmd (cmd 0x0507) h (.freStreamSet h base sb mask format dest lane)
    (freStreamSetCheck base sb mask format dest lane)
    (just fun d => manyStreams d .channel base sb format dest (portArg lane) (channelElements (nth d.fre sb).cfg format) (pathsOf mask))

/-- A stop of the streams of a base number: the groups sent, and their close. -/
def stopBase (kind : StreamKind) (base : Nat) (d : Dev) : Eff :=
  let sel (o : OutStream) : Bool := o.kind == kind && o.base == base
  { dev := streamStop d sel, reply := { fields := [fld 8 ((d.outs.filter sel).map (·.sent)).sum] } }

/-- Whether no stream of a base number is open. -/
def noBase (d : Dev) (kind : StreamKind) (base : Nat) : Bool := !d.outs.any fun o => o.kind == kind && o.base == base && !o.closing

/-- FRE-STREAM-STOP (R289). -/
def execFreStreamStop (h : Hdr) (base : Nat) : Meaning :=
  hostCmd (cmd 0x0508 [8]) h (.freStreamStop h base) (fun d => firstBad [(noBase d .channel base, ST.badArg)]) (stopBase .channel base)

/-! ### Topiaries -/

/-- R277: the bytes of the weight store that a capacity takes: two banks of 64 KiB pages. -/
def storeBytes (cap : Nat) : Nat := 2 * ceilDiv cap 65536 * 65536

/-- The checks of TOPIARY-ALLOC. -/
def topiaryAllocCheck (caps : List Nat) (d : Dev) : Option Reply :=
  firstBad [(caps.length != 8, ST.badArg), (decide (16777216 < (caps.map storeBytes).sum), ST.topStore), (!domOn d 6, ST.domainOff),
    (qsHeld d && nth caps 0 != (nth d.fre 0).capacity, ST.quickset), (storeFailed d 1, ST.memFailed),
    ((List.range 8).any (fun n => (nth d.fre n).on && nth caps n != (nth d.fre n).capacity), ST.freActive)]

/-- R277: the slots whose capacity changes give up their pages and take others, the free ones of the lowest numbers. DESIGN CHOICE (log
entry 121): the spec does not say which pages a slot takes. -/
def allotPages (caps : List Nat) (d : Dev) : Dev :=
  let hit := (List.range 8).filter fun n => (nth d.fre n).capacity != nth caps n
  hit.foldl (fun d n =>
    let used := d.fre.flatMap (·.pages)
    d.onFre n fun f => { f with pages := ((List.range 256).filter fun p => !used.contains p).take (2 * ceilDiv (nth caps n) 65536) })
    (hit.foldl (fun d n => d.onFre n fun f => { f with capacity := nth caps n, pages := [], top := .both {} }) d)

/-- R277, R278: where byte `k` of a bank of a slot's topiary lies in the weight store. -/
def topAddr (f : FreSlot) (bank k : Nat) : Nat := 0x200000000 + nth f.pages (bank * (f.pages.length / 2) + k / 65536) * 65536 + k % 65536

/-- R278: a topiary's object written into a bank. -/
def writeTop (f : FreSlot) (bank : Nat) (b : List Nat) (m : Memory) : Memory :=
  (List.range (ceilDiv b.length 8)).foldl (fun m k => m.store (topAddr f bank (8 * k)) ((List.range 8).map fun i => nth b (8 * k + i) * 256 ^ i).sum false) m

/-- R286: the thorned words of a bank. -/
def topThorns (d : Dev) (f : FreSlot) (bank : Nat) (t : Topiary) : Nat :=
  if t.loaded then ((List.range (ceilDiv (32 + 3 * t.weights.length) 8)).filter fun k => d.mem.thorned (topAddr f bank (8 * k))).length else 0

/-- R275: a component of F12, the most negative code read as -2,047. -/
def comp12 (w : Nat) : Int := max (-2047) (toSigned 12 w)

/-- R287: a bank's topiary as the beamformer reads it, a weight in a thorned word as zero; and whether there is such a word. -/
def topRead (d : Dev) (f : FreSlot) (bank : Nat) (t : Topiary) : Topiary × Bool :=
  let word (k : Nat) : Nat × Bool := if storeFailed d 1 then (0, true) else d.mem.decoded (topAddr f bank (8 * k))
  let byte (k : Nat) : Nat := (word (k / 8)).1 / 256 ^ (k % 8) % 256
  let bad (i : Nat) : Bool := (word ((32 + 3 * i) / 8)).2 || (word ((34 + 3 * i) / 8)).2
  let w (i : Nat) : Nat := (byte (32 + 3 * i) * 256 + byte (33 + 3 * i)) * 256 + byte (34 + 3 * i)
  let ks := List.range t.weights.length
  ({ t with weights := ks.map fun i => if bad i then (0, 0) else (comp12 (w i / 4096), comp12 (w i % 4096)) }, ks.any bad)

/-- TOPIARY-ALLOC (R277). A slot whose capacity changes holds no topiary afterwards. -/
def execTopiaryAlloc (h : Hdr) (caps : List Nat) : Meaning :=
  hostCmd (cmd 0x0510 [4]) h (.topiaryAlloc h caps)
    (topiaryAllocCheck caps)
    (fun d =>
      { dev := allotPages caps d, reply := { fields := [fld 4 (16777216 - (caps.map storeBytes).sum)] } })

/-- R275, R276: the topiary an object holds, when its header, length and group count are right in themselves. -/
def topiaryOf (b : List Nat) : Option Topiary :=
  let beams := nth b 3
  let mask := beAt b 4 8
  let groups := beAt b 12 2
  let size := beAt b 16 4
  let n := (pathsOf mask).length * beams * groups
  if b.headD 0 = 0x54 ∧ nth b 1 ≤ 1 ∧ nth b 2 ≤ 3 ∧ 1 ≤ beams ∧ beams ≤ (if nth b 1 = 0 then 64 else 32) ∧ 1 ≤ groups ∧ groups ≤ 512
      ∧ 1 ≤ size ∧ size ≤ 65536 ∧ beAt b 14 2 = 0 ∧ be ((b.drop 20).take 12) = 0 ∧ b.length = 32 + 3 * n then
    some { loaded := true, beams := beams, mask := mask, groups := groups, groupSize := size,
           weights := (List.range n).map fun i => let w := beAt b (32 + 3 * i) 3; (comp12 (w / 4096), comp12 (w % 4096)) }
  else none

/-- R276: a topiary suits its slot: enough channels, one group in mode 0, and the slot's beams while they are on. -/
def topFits (f : FreSlot) (t : Topiary) : Bool :=
  (!f.on || (decide (f.cfg.nCh ≤ t.groups * t.groupSize) && (f.cfg.mode != 0 || t.groups == 1))) && (!f.beamsOn || t.beams == f.beams)

/-- The checks of TOPIARY-LOAD. -/
def topiaryLoadCheck (handle : Nat) (d : Dev) : Option Reply :=
  let b := objBytes d handle
  let closed := (d.obj? handle).any (·.closed)
  let n := (objSlot b).getD 0
  let f := nth d.fre n
  Checks.orElse (firstBad [((d.obj? handle).any (fun x => x.kind != 1), ST.badArg),
    (closed && (match topiaryOf b with
      | some t => !topFits f t || decide (f.capacity < b.length)
      | none => true), ST.topSize), (!domOn d 6, ST.domainOff)]) <|
  Checks.orElse (objCheck d handle 1) <| Checks.orElse (firstBad [(n == 0 && qsHeld d, ST.quickset), (storeFailed d 1, ST.memFailed)]) <|
  Checks.orElse (if f.on then bankCheck d (topArmed d n) (f.top.busy d.axis).toList else none) <|
  firstBad [((d.obj? handle).any (fun x => !x.thorns.isEmpty), ST.thorn)]

/-- TOPIARY-LOAD (R276, R278, R74, R75): both banks of a disabled slot, the shadow of an enabled one. -/
def execTopiaryLoad (h : Hdr) (handle : Nat) : Meaning :=
  hostCmd (cmd 0x0511 [1]) h (.topiaryLoad h handle)
    (topiaryLoadCheck handle)
    (fun d =>
      let b := objBytes d handle
      let n := (objSlot b).getD 0
      let f := nth d.fre n
      match topiaryOf b with
      | none => { dev := d }
      | some t =>
        let put (bank : Nat) (d : Dev) : Dev := { d with mem := writeTop f bank b d.mem }
        let d := put (1 - f.top.index) (if f.on then d else put f.top.index d)
        { dev := consume (d.onFre n fun f => { f with top := if f.on then f.top.write t else { Banks.both t with
          index := f.top.index } }) handle,
          reply := { fields := [fld 1 (if f.on then 1 - f.top.index else f.top.index)] } })

/-- The 32-byte header of a topiary (R275), zero when none is loaded. -/
def topHeader (n : Nat) (t : Topiary) : List Field :=
  if t.loaded then
    [fld 1 0x54, fld 1 (n / 4), fld 1 (n % 4), fld 1 t.beams, fld 8 t.mask, fld 2 t.groups, fld 2 0, fld 4 t.groupSize, fld 12 0]
  else [fld 32 0]

/-- TOPIARY-GET. -/
def execTopiaryGet (h : Hdr) (dir sb : Nat) : Meaning :=
  query (ask 0x0512 [4, 32, 32, 4, 4]) h (.topiaryGet h dir sb) (fun _ => firstBad [(decide (1 < dir) || decide (3 < sb), ST.badArg)]) fun d =>
    let n := slotNo dir sb
    let f := nth d.fre n
    let (a, b) := if f.top.index = 0 then (f.top.cur, f.top.shd) else (f.top.shd, f.top.cur)
    [fld 4 (bmfStatus d n)] ++ topHeader n a ++ topHeader n b ++ [fld 4 (topThorns d f 0 a), fld 4 (topThorns d f 1 b)]

/-! ### Beams and layers -/

/-- The checks of BEAM-SET. -/
def beamSetCheck (dir sb on beams bmShift beamOut : Nat) (d : Dev) : Option Reply :=
  let n := slotNo dir sb
  let f := nth d.fre n
  let others := (((List.range 8).filter (· != n)).map (slotCells d)).sum
  firstBad [
    (decide (1 < dir) || decide (3 < sb) || decide (1 < on) || decide (20 < bmShift) || decide (3 < beamOut)
      || (on == 1 && (decide (beams < 1) || decide ((if dir = 0 then 64 else 32) < beams))), ST.badArg),
    (on == 1 && f.top.cur.loaded && f.top.cur.beams != beams, ST.topSize),
    (on == 1 && decide (4096 < others + cellsFor f.cfg (slotRate d n) beams), ST.bmfBudget), (!domOn d 6, ST.domainOff),
    (n == 0 && qsHeld d, ST.quickset), (on == 1 && (!f.on || f.flushing || !(dir == 1 || f.cfg.consumers.testBit 0)), ST.freDisabled),
    (on == 1 && !f.top.cur.loaded, ST.topEmpty)]

/-- BEAM-SET (R279, R281, R289, R291). -/
def execBeamSet (h : Hdr) (dir sb on beams bmShift beamOut : Nat) : Meaning :=
  let n := slotNo dir sb
  hostCmd (cmd 0x0513 [2, 2]) h (.beamSet h dir sb on beams bmShift beamOut)
    (beamSetCheck dir sb on beams bmShift beamOut)
    (fun d =>
      let d := if on = 0 then closeSlot d n true else d
      let d := d.onFre n fun f => if on = 1 then { f with
        beamsOn := true, beams := beams, bmShift := bmShift, beamOut := beamOut } else { f with beamsOn := false }
      { dev := d, reply := { fields := [fld 2 (slotCells d n), fld 2 (4096 - ((List.range 8).map (slotCells d)).sum)] } })

/-- The checks of BEAM-STREAM-SET. -/
def beamStreamSetCheck (base sb firstBeam count format dest lane : Nat) (d : Dev) : Option Reply :=
  let f := nth d.fre sb
  firstBad [
    (decide (3 < sb) || count == 0 || portArgBad lane || destBad d dest || decide (256 < base + count) || (f.beamsOn && decide (f.beams < firstBeam + count)), ST.badArg),
    (!(format == 1 || format == 2 || format == 3), ST.freFormat), (!f.beamsOn || !f.beamOut.testBit 0, ST.freDisabled),
    (numbersUsed d base count .beam, ST.freStream)]

/-- BEAM-STREAM-SET (R272, R274, R279, R291). -/
def execBeamStreamSet (h : Hdr) (base sb firstBeam count format dest lane : Nat) : Meaning :=
  hostCmd (cmd 0x0514) h (.beamStreamSet h base sb firstBeam count format dest lane)
    (beamStreamSetCheck base sb firstBeam count format dest lane)
    (just fun d => manyStreams d .beam base sb format dest (portArg lane) (channelElements (nth d.fre sb).cfg format) ((List.range count).map (· + firstBeam)))

/-- BEAM-STREAM-STOP. -/
def execBeamStreamStop (h : Hdr) (base : Nat) : Meaning :=
  hostCmd (cmd 0x0515 [8]) h (.beamStreamStop h base) (fun d => firstBad [(noBase d .beam base, ST.badArg)]) (stopBase .beam base)

/-- The position of the `k`-th symbol boundary from a boundary on (R60, R261). -/
def symbolPos (c : FreCfg) (first : Nat) : Nat → Nat
  | 0 => first
  | k + 1 =>
    let x := symbolPos c first k
    x + (if ((x : Int) - c.symOffset) % 983040 = 0 then c.longSymbol else c.symbol)

/-- R258, R269: the newest input of the transmit spectrum of a stamp, and the stamp of a spectrum by its newest input. -/
def spectrumAt (k : Nat) (c : ChainPar) (f : FreCfg) (stamp : Nat) : Int :=
  -(((2 * ((inBase c : Int) - stamp)) * inDen k c - (f.size * f.taps - 1 : Nat) * inNum c) / (2 * inNum c))
def spectrumPos (k : Nat) (c : ChainPar) (f : FreCfg) (s : Int) : Nat :=
  (inBase c + (2 * s - (f.size * f.taps - 1 : Nat)) * inNum c / (2 * inDen k c)).toNat

/-- R280: the delay of a transmit slot: the largest d of its paths. -/
def slotDelay (d : Dev) (sb : Nat) : Nat := ((List.range 64).map fun p => if ((d.txPath p).sb sb).on then txDelay d p sb else 0).foldl max 0

/-- R254: the chain that a transmit slot feeds, its paths' first one. -/
def slotChain (d : Dev) (sb : Nat) : ChainPar := (slotChains d (4 + sb)).headD {}

/-- R280: the timing of a layer stream: the largest d of the slot's paths, and one symbol, hop or sample per group. -/
def layerTiming (d : Dev) (o : InStream) : Timing :=
  let f := (nth d.fre (4 + o.sb)).cfg
  let r := max 1 (slotRate d (4 + o.sb))
  let c := slotChain d o.sb
  let k := max 1 (profileK d c.profile)
  match f.mode with
  | 2 => ⟨slotDelay d o.sb, 983040, if f.cpType = 1 then 24 else 7 * 2 ^ f.mu, symbolPos f⟩
  | 1 => ⟨slotDelay d o.sb, f.hop * tickHz * rateUnit, r, fun a j => spectrumPos k c f (spectrumAt k c f a + j * f.hop)⟩
  | _ => ⟨slotDelay d o.sb, tickHz * rateUnit, r, fun a j => inputPos k c (inputAt k c a + j)⟩

/-- LAYER-STREAM-STOP. -/
def execLayerStreamStop (h : Hdr) (base : Nat) : Meaning :=
  hostCmd (cmd 0x0517 [8, 8, 8]) h (.layerStreamStop h base)
    (fun d => firstBad [(!d.ins.any (fun o => o.layer && o.base == base), ST.badArg)])
    (fun d =>
      let t := (d.ins.filter fun o => o.layer && o.base == base).map fun o => o.play d.axis (layerTiming d o)
      { dev := { d with ins := d.ins.filter fun o => !(o.layer && o.base == base), sig := { d.sig with ended := d.sig.ended ++ t } },
        reply := { fields := [fld 8 ((t.map fun o => o.played + o.buffered.length).sum), fld 8 ((t.map (·.late)).sum), fld 8 ((t.map (·.zeroFilled)).sum)] } })

/-! ### Swaps -/

/-- What the samples of a slot meet now. -/
def freNow (d : Dev) (n : Nat) : FreNow :=
  let f := nth d.fre n
  let top := topRead d f f.top.index f.top.cur
  { on := f.on && !f.flushing, cfg := f.cfg, index := f.banks.index, bank := f.banks.cur, proto := f.proto, beamsOn := f.beamsOn, bmShift := f.bmShift,
    topIndex := f.top.index, top := top.1, thorn := top.2, fade := f.crossfade, old := (topRead d f (1 - f.top.index) f.top.shd).1 }

/-- R73, R283: a slot's settings noted for the groups of a stamp and after. -/
def noteFre (d : Dev) (n pos : Nat) : Dev := { d with sig := { d.sig with fre := upd d.sig.fre n fun h => noted h pos (freNow d n) } }

/-- R282: the settings of the slot a stake names noted at its position. -/
def noteSlot (d : Dev) (q : QStake) : Dev :=
  let n := (if q.stake.target.testBit 8 then 4 else 0) + q.stake.target / 64 % 4
  if n < 4 then d else noteFre d n (max q.pos (d.axis + slotDelay d (n - 4)))

/-- The slot a frequency-engine stake names (R282). -/
def stakeSlot (q : QStake) : Nat := (if q.stake.target.testBit 8 then 4 else 0) + q.stake.target / 64 % 4

/-- R70, R289: a slot can act while it is enabled, its domain on and the synthesiser settled. -/
def freAble (d : Dev) (q : QStake) : Bool := !d.syn.settling && domOn d 6 && (nth d.fre (stakeSlot q)).on && !(nth d.fre (stakeSlot q)).flushing

/-- R75, R288: when the former bank of a slot frees: its last tagged sample has left the beamformer, or the antenna. -/
def freFrees (d : Dev) (n p : Nat) : Nat :=
  let f := nth d.fre n
  if n < 4 then
    p + (if f.cfg.mode = 0 then 0 else f.cfg.size / 8) + ((slotChains d n).map fun c =>
      spanTicks d c.profile (96 + 700 + (if c.bTaps = 0 then 0 else 32) + (if c.cRatio = 0 then 0 else 24))
        (aSpan c + (if c.bTaps = 0 then 0 else c.aFactor * bTerm c + 2 * c.aFactor * c.bFactor) + (if c.cRatio = 0 then 0 else 16 * c.aFactor * c.bFactor))).foldl max 0
  else p

/-- R282, R284, R286: a topiary swap with a crossfade of `x` ticks, refused while the incoming bank holds a thorn. -/
def topSwap (x : Nat) (d : Dev) (q : QStake) : Dev :=
  let n := stakeSlot q
  let f := nth d.fre n
  if topThorns d f (1 - f.top.index) f.top.shd ≠ 0 then swapRefused (d.onFre n fun f => { f with swapRefused := true }) EV.topRefused q
  else raiseEv (d.onFre n fun f => { f with
    top := f.top.swap (freFrees d n q.pos), crossfade := if x = 0 then none else some (q.pos, x) }) EV.topSwap [a4 q.stake.tag]

/-- TOP_SWAP (R282 to R286). -/
def execTopSwap : Meaning := onDev (stakeAct 0x0501 freAble lateDrop fun d q => noteSlot (topSwap (q.stake.argument % 128) d q) q)

/-- R282, R497: the equaliser and requantiser banks swap. -/
def freSwap (d : Dev) (q : QStake) : Dev :=
  let n := stakeSlot q
  if (nth d.fre n).banks.thornShd ≠ 0 then swapRefused d EV.memSwapRefused q
  else d.onFre n fun f => { f with banks := f.banks.swap (freFrees d n q.pos) }

/-- FRE_SWAP (R282). -/
def execFreSwap : Meaning := onDev (stakeAct 0x0502 freAble lateDrop fun d q => noteSlot (freSwap d q) q)

end Sys2Proof.Machine
end

