-- ==== Sys2Proof/Machine/Signal.lean ====
section
/-! DEFINITION. The receive samples: the sub-band chain from the ADC to its output (R73, R180 to R192, R197 to R199), the
frequency engine (R253 to R268) and the beamformer (R279, R283, R284), as functions of the signal at the ports and of the
histories of the settings. -/

namespace Sys2Proof.Machine

/-! ### Histories -/

/-- R172, R181, R412: the settings of a path's front-end and ADC: attenuation, band position, and its trims of delay and gain. -/
def frontOf (d : Dev) (p : Nat) : List Int :=
  let t := (trimOf d 0 p).1
  [(d.rxPath p).atten, (d.rxPath p).band, t.coarse, t.fine, t.gain]

/-- What the samples of a receive sub-band meet now. -/
def rxNow (d : Dev) (p s : Nat) : RxNow :=
  let x := d.rxPath p
  let b := x.sb s
  { on := b.on && !b.flushing, index := b.banks.index, bank := b.banks.cur, ref := b.ncoRef, win := b.isOpen,
    live := domOn d 2 && domOn d 3 && !d.syn.settling && b.banks.cur.cfg.chain.profile == profileAt d d.axis,
    blank := x.zeroFrom.isSome || hopSpan d d.axis || decide (d.now < (nth d.fe p).validAt), turn := subPhase d 0 p s, front := frontOf d p }

/-- R73: the settings noted at the axis position, those of a transmit slot for the groups its delay away; one never on has no history. -/
def rxSeen (d : Dev) (n : Nat) : Bool := ((d.rxPath (n / 4)).sb (n % 4)).on || !(nth d.sig.rx n).isEmpty
def observeRx (d : Dev) (n : Nat) : Dev :=
  { d with sig := { d.sig with rx := upd d.sig.rx n fun h => noted h d.axis (rxNow d (n / 4) (n % 4)) } }
def freSeen (d : Dev) (n : Nat) : Bool := (nth d.fre n).on || !(nth d.sig.fre n).isEmpty
def observeFre (d : Dev) (n : Nat) : Dev :=
  noteFre d n (if n < 4 then d.axis else d.axis + slotDelay d (n - 4))

/-! ### The sub-band chain -/

/-- The history of a receive sub-band. -/
def rxHist (d : Dev) (p s : Nat) : List (Nat × RxNow) := nth d.sig.rx (p * 4 + s)

/-- The tick in which ADC sample `n` falls, k/2 samples standing in a tick (R25), and the first sample at or after a position. -/
def adcTick (k n : Nat) : Nat := 2 * n / max 1 k
def adcFrom (k pos : Nat) : Nat := ceilDiv (pos * k) 2

/-- What the receive functions read of the unit for one sub-band: its path, k, the epoch, the NCO word per configuration, whether the
configuration's zone is an even one, and its history. -/
structure RxChain where
  path : Nat
  k : Nat
  epoch : Nat
  word : ChainPar → Nat
  even : ChainPar → Bool
  hist : List (Nat × RxNow)

/-- R181, R182: whether a centre lies in an even zone of its profile. -/
def evenZone (d : Dev) (c : ChainPar) : Bool := let fs := adcRate d c.profile; decide (0 < fs) && 2 * c.rf / fs % 2 == 1

/-- A sub-band as the functions below read it, `k` being that of the configuration in force. -/
def rxChain (d : Dev) (p s : Nat) : RxChain :=
  { path := p, k := max 1 (profileK d ((d.rxPath p).sb s).banks.cur.cfg.chain.profile), epoch := timeN16 d.tmb.epoch, word := ncoWord d, even := evenZone d,
    hist := rxHist d p s }

/-- The settings an ADC sample meets (R73). -/
def RxChain.at_ (x : RxChain) (n : Nat) : RxNow := valAt x.hist (adcTick x.k n)
def RxChain.cfg (x : RxChain) (n : Nat) : ChainPar := (x.at_ n).bank.cfg.chain

/-- R180, R199, R208: an ADC sample: 12 bits; zero while the sub-band takes none or the path's samples are replaced. -/
def RxChain.adc (x : RxChain) (n : Nat) : Int :=
  let m := x.at_ n
  if m.on && m.live && !m.blank then max (-2048) (min 2047 (Config.adc x.path x.epoch x.k n m.front)) else 0

/-- R186, R412: the NCO's phase at an ADC sample, in 2^-48 turn, the phase trim added. -/
def RxChain.phase (x : RxChain) (n : Nat) : Nat :=
  let m := x.at_ n
  let (pos, ph) := m.ref.getD (0, m.bank.cfg.chain.phase)
  (((ph * 65536 + m.turn * 2 ^ 32 : Nat) + x.word m.bank.cfg.chain * ((n : Int) - adcFrom x.k pos)) % 2 ^ 48).toNat

/-- R182, R184, R185: the mixer, x cos and -x sin over 4,096, half to even; in an even zone its phase is conjugated. -/
def RxChain.mix (x : RxChain) (n : Nat) : Cx :=
  let (c, s) := Config.nco (x.phase n)
  let v := x.adc n
  (divHalfEven (v * c) 4096, divHalfEven (-v * (if x.even (x.cfg n) then -s else s)) 4096)

/-- R73, R187: the first `j` moving-average sections: each the sum of its newest inputs, its length that of the newest one's bank. -/
def RxChain.sections (x : RxChain) : Nat → Nat → Cx
  | 0, n => x.mix n
  | j + 1, n =>
    let c := x.cfg n
    if j < c.aSections then Cx.sum ((List.range (nth c.aLength j)).map fun i => if i ≤ n then x.sections j (n - i) else (0, 0))
    else x.sections j n

/-- R190: the width of a stage: 16 bits after the last active one, 24 before it. -/
def lastMax (last : Bool) : Int := if last then 32767 else 8388607

/-- R184, R187, R190: the output of stage A at a sample it keeps, and whether it saturates. -/
def RxChain.stageA (x : RxChain) (n : Nat) : Cx × Bool :=
  let c := x.cfg n
  Cx.shrSat (lastMax (c.bTaps == 0 && c.cRatio == 0)) c.aShift (x.sections 5 n)

/-- R187: whether stage A keeps the output of a sample, and the sample before it whose output was kept. -/
def RxChain.keeps (x : RxChain) (n : Nat) : Bool := n % max 1 (x.cfg n).aFactor == 0
def RxChain.prior (x : RxChain) (n : Nat) : Option Nat :=
  ((List.range (min n 32)).map fun j => n - 1 - j).find? x.keeps

/-- The samples whose stage A outputs stage B combines, newest first. -/
def RxChain.inputsB (x : RxChain) : Nat → Option Nat → List Nat
  | t + 1, some n => n :: x.inputsB t (x.prior n)
  | _, _ => []

/-- R188, R214: a coefficient of stage B. -/
def rxTapB (b : RxBank) (t : Nat) : Int := if b.cfg.chain.bCoef = 1 then nth b.bCoefs t else Config.stdB false b.cfg.chain.bFactor t

/-- R188, R190: the output of stage B at a sample, and whether it saturates; what stage A gives when it is bypassed. -/
def RxChain.stageB (x : RxChain) (n : Nat) : Cx × Bool :=
  let m := x.at_ n
  let c := m.bank.cfg.chain
  if c.bTaps = 0 then x.stageA n
  else Cx.shrSat (lastMax (c.cRatio == 0)) c.bShift
    (Cx.sum ((x.inputsB c.bTaps (some n)).zipIdx.map fun (i, t) => Cx.scale (rxTapB m.bank t) (x.stageA i).1))

/-- The ADC samples per output of stage B. -/
def outStep (c : ChainPar) : Nat := max 1 (c.aFactor * c.bFactor)

/-- R189: stage C's accumulator: the number of the first output whose position is at or after stage C input `i`, counted from `c_anchor`, and
twice 1,024 times the position of output `m` in inputs over `c_ratio`, half a phase added. It advances by 2^32 / c_ratio inputs per output. -/
def denC (c : ChainPar) : Int := 2 * (outStep c : Int) * c.cRatio * 1024
def posC (k : Nat) (c : ChainPar) (m : Int) : Int :=
  c.cAnchor * k * c.cRatio * 1024 + outStep c * c.cRatio + m * (2 ^ 33 * (outStep c : Int) * 1024)
def indexC (k : Nat) (c : ChainPar) (i : Int) : Int := -((posC k c 0 - i * denC c) / (2 ^ 33 * (outStep c : Int) * 1024))

/-- R189: the phase, nearest of 1,024, of the output that stage C input sample `i` completes; none where it completes none. -/
def phaseC (k : Nat) (c : ChainPar) (i : Nat) : Option Nat :=
  let at_ := posC k c (indexC k c i) - i * denC c
  if 0 ≤ at_ ∧ at_ < denC c then some (at_ * 1024 / denC c).toNat else none

/-- R189, R214: a coefficient of stage C. -/
def rxTapC (b : RxBank) (ph t : Nat) : Int := if b.cCoefs.isEmpty then Config.stdC false ph t else nth b.cCoefs (ph * 16 + t)

/-- R73, R184, R189: the output that an ADC sample completes, and whether it saturates in stage C; none where it completes none. -/
def RxChain.out (x : RxChain) (n : Nat) : Option (Cx × Bool) :=
  let m := x.at_ n
  let c := m.bank.cfg.chain
  if n % outStep c ≠ 0 then none
  else if c.cRatio = 0 then some ((x.stageB n).1, false)
  else (phaseC x.k c (n / outStep c)).map fun ph =>
    Cx.shrSat 32767 c.cShift (Cx.sum ((List.range 16).map fun t => Cx.scale (rxTapC m.bank ph t) (if t * outStep c ≤ n then (x.stageB (n - t * outStep c)).1 else (0, 0))))

/-- R190: the saturated samples of an ADC sample's stages A, B and C. -/
def RxChain.sats (x : RxChain) (n : Nat) : List Nat :=
  let c := x.cfg n
  if !((x.at_ n).on && (x.at_ n).live) then [0, 0, 0]
  else [b2n (x.keeps n && (x.stageA n).2), b2n (n % outStep c == 0 && c.bTaps != 0 && (x.stageB n).2), b2n ((x.out n).any (·.2))]

/-- R192: the stamp of an output in half ADC samples, and in ticks rounded down. -/
def stampHalves (c : ChainPar) (n : Nat) : Nat := 2 * n - groupHalves c
def RxChain.stamp (x : RxChain) (n : Nat) : Nat := stampHalves (x.cfg n) n / x.k

/-- The ADC samples that shape an output, besides its completing one. -/
def memory (c : ChainPar) : Nat := aSpan c + c.aFactor * c.bTaps + (if c.cRatio = 0 then 0 else 16 * outStep c)

/-- R199, R208: whether an output was computed partly from samples that were replaced, or not taken. -/
def RxChain.flushed (x : RxChain) (n : Nat) : Bool :=
  let hole (m : RxNow) : Bool := m.blank || !m.on || !m.live
  hole (x.at_ n) || hole (x.at_ (n - memory (x.cfg n)))
    || x.hist.any fun e => decide (n - memory (x.cfg n) ≤ adcFrom x.k e.1) && decide (adcFrom x.k e.1 ≤ n) && hole e.2

/-- R183, R197: whether an output is delivered: its profile in force, its stamp inside an open window. An output of a flush is delivered
while a sample that was taken shapes it (R208). -/
def RxChain.delivered (x : RxChain) (n : Nat) : Bool :=
  let m := x.at_ n
  m.live && (valAt x.hist (x.stamp n)).win && (m.on || (x.at_ (n - memory (x.cfg n))).on)

/-- The next sample after `n` that completes an output: every 256 ADC samples complete one at least, two with stage C. -/
def RxChain.next (x : RxChain) (n : Nat) : Option Nat := ((List.range 512).map fun j => n + 1 + j).find? fun i => (x.out i).isSome

/-! ### Groups of a slot -/

/-- Outputs of a sub-band by number: that of the first output at or after ADC sample `n`, and the ADC sample that completes a number. -/
def RxChain.index (x : RxChain) (n : Nat) : Int :=
  let c := x.cfg n
  let i := ceilDiv n (outStep c)
  if c.cRatio = 0 then i else indexC x.k c i
def sampleOf (k : Nat) (c : ChainPar) (m : Int) : Nat := (if c.cRatio = 0 then m else posC k c m / denC c).toNat * outStep c

/-- R253: the first path that feeds a slot, as the others do. -/
def slotPath (d : Dev) (sb : Nat) : Option Nat :=
  (List.range 64).find? fun p => let s := (d.rxPath p).sb sb; s.on && s.banks.cur.cfg.consumers.testBit 0

/-- R253, R197: what a path contributes to a slot at an output: zero without the consumer bit or outside its window. -/
def slotIn (d : Dev) (sb p n : Nat) : Cx :=
  let x := rxChain d p sb
  if (x.at_ n).bank.cfg.consumers.testBit 0 && x.delivered n then ((x.out n).map (·.1)).getD (0, 0) else (0, 0)

/-- The ADC sample at or after which the antenna instant of an output is at or after a position, R192. -/
def instantFrom (k : Nat) (c : ChainPar) (pos : Nat) : Nat := ceilDiv (pos * k + groupHalves c) 2

/-- R261: the first symbol boundary at or after a position. -/
def nextBoundary (c : FreCfg) (pos : Nat) : Nat :=
  let x := (((pos : Int) - c.symOffset) % 983040).toNat
  if x = 0 then pos
  else if x ≤ c.longSymbol then pos + (c.longSymbol - x)
  else pos + (c.symbol - (x - c.longSymbol) % c.symbol) % c.symbol

/-- The input periods a group's stamp lies before its newest input: (M T - 1) / 2 in mode 1 (R258), in halves. -/
def stampBack (c : FreCfg) : Nat := if c.mode = 1 then c.size * c.taps - 1 else 0

/-- R258: the number of the output that completes spectrum 0: the H-th from the first at or after the anchor. -/
def firstSpectrum (x : RxChain) (c : ChainPar) (f : FreCfg) : Int := x.index (instantFrom x.k c f.anchor) + f.hop - 1

/-- R258, R261: a group of a receive slot by its stamp: the chain of its first path, that path's configuration, the slot's settings at the
group's tag instant, that of its newest input (R283), and the numbers of the group's first and newest inputs; none where the slot forms no
group of that stamp. -/
structure Group where
  chain : RxChain
  par : ChainPar
  set : FreNow
  first : Int
  newest : Int

/-- The ADC sample that completes an input of a group. -/
def Group.sample (g : Group) (m : Int) : Nat := sampleOf g.chain.k g.par m

def groupOf (d : Dev) (sb stamp : Nat) : Option Group :=
  match slotPath d sb with
  | none => none
  | some p =>
    let x := rxChain d p sb
    let c := (valAt x.hist stamp).bank.cfg.chain
    let f := (valAt (nth d.sig.fre sb) stamp).cfg
    let tagged (m : Int) : FreNow := valAt (nth d.sig.fre sb) (x.stamp (sampleOf x.k c m))
    let r := max 1 (rate768 d c)
    let u := tickHz * rateUnit
    if f.mode = 2 then
      let a := x.index (instantFrom x.k c stamp)
      let len := (symbolPos f stamp 1 - stamp) * r / u
      if f.atBoundary stamp then some ⟨x, c, tagged (a + len - 1), a, a + len - 1⟩ else none
    else
      let n := ceilDiv (stamp * 2 * r * x.k + stampBack f * u * x.k + groupHalves c * 2 * r) (4 * r)
      let m := x.index n
      let at_ := ((stampHalves c (sampleOf x.k c m) : Int) * 2 * r - stampBack f * u * x.k) / (2 * r * x.k)
      let due := f.mode != 1 || (m - firstSpectrum x c f) % max 1 f.hop == 0
      if at_ = stamp ∧ due then some ⟨x, c, tagged m, m - stampBack f, m⟩ else none

/-- R258: the stamp of the group whose newest input is output `m`, in modes 0 and 1. -/
def groupStamp (x : RxChain) (c : ChainPar) (r : Nat) (f : FreCfg) (m : Int) : Nat :=
  let u := tickHz * rateUnit
  (((stampHalves c (sampleOf x.k c m) : Int) * 2 * r - stampBack f * u * x.k) / (2 * r * x.k)).toNat

/-- The stamp of the `j`-th group after a group (R60, R258). -/
def groupPos (d : Dev) (sb g j : Nat) : Nat :=
  match groupOf d sb g with
  | none => g
  | some x =>
    if x.set.cfg.mode = 2 then symbolPos x.set.cfg g j
    else groupStamp x.chain x.par (max 1 (rate768 d x.par)) x.set.cfg (x.newest + j * (if x.set.cfg.mode = 1 then x.set.cfg.hop else 1))

/-- The first group of a slot whose newest input's antenna instant is at or after a position, in mode 2 the first whose stamp is. -/
def firstGroup (d : Dev) (sb pos : Nat) : Option Nat :=
  (slotPath d sb).map fun p =>
    let x := rxChain d p sb
    let c := (valAt x.hist pos).bank.cfg.chain
    let f := (valAt (nth d.sig.fre sb) pos).cfg
    if f.mode = 2 then nextBoundary f pos
    else
      let m := x.index (instantFrom x.k c pos)
      let h : Int := if f.mode = 1 then max 1 f.hop else 1
      groupStamp x c (max 1 (rate768 d c)) f (if f.mode = 1 then m + (firstSpectrum x c f - m) % h else m)

/-- R302: whether the receive window of a slot is open for a group and all its inputs have come. -/
def Group.ready (d : Dev) (g : Group) : Bool :=
  g.set.on && g.chain.delivered (g.sample g.newest) && decide (adcTick g.chain.k (g.sample g.newest) < d.axis)

/-! ### The frequency engine -/

/-- Saturated components of samples. -/
def satElements (l : List (Cx × Nat)) : Nat := (l.map (·.2)).sum

/-- A path's inputs of a group from a number on. -/
def Group.inputs (d : Dev) (sb p : Nat) (g : Group) (from_ : Int) (n : Nat) : List Cx := (List.range n).map fun j => slotIn d sb p (g.sample (from_ + j))

/-- R257: a sample turned back by quarter turns. -/
def quarters (n : Nat) (a : Cx) : Cx :=
  match n % 4 with
  | 0 => a
  | 1 => (a.2, -a.1)
  | 2 => (-a.1, -a.2)
  | _ => (-a.2, a.1)

/-- A prototype coefficient, the `j`-th newest input's (R256, R259). -/
def protoTap (s : FreNow) (j : Nat) : Int := if s.cfg.window = 1 then nth s.proto j else Config.prototype s.cfg.log2 s.cfg.taps j

/-- R256 to R259, R266: the window's branch sums and the channels of a spectrum. Channel c stands at (c - M/2) r/M, and the rotation
that the hop imposes is taken out, so that the phase of a channel goes on from spectrum to spectrum. -/
def pfbChannels (d : Dev) (sb p : Nat) (g : Group) : List (Cx × Nat) × List (Cx × Nat) :=
  let f := g.set.cfg
  let m := f.size
  let x := g.inputs d sb p g.first (m * f.taps)
  let branch := (List.range m).map fun b => Cx.shrCount 8388607 f.pfbShift
    (Cx.sum ((List.range f.taps).map fun t => Cx.scale (protoTap g.set (m * f.taps - 1 - (t * m + b))) (nth x (t * m + b))))
  let y := Config.fft false f.log2 f.fftShift (branch.zipIdx.map fun (v, b) => if b % 2 = 1 then (-v.1.1, -v.1.2) else v.1)
  let i := ((g.newest - firstSpectrum g.chain g.par f) / max 1 f.hop).toNat
  (branch, (List.range m).map fun (c : Nat) =>
    Cx.shrCount 8388607 0 (quarters (if f.oversample = 1 then ((3 * (i : Int) * ((c : Int) - (m / 2 : Nat))) % 4).toNat else 0) (nth y c)))

/-- R260 to R263: the subcarriers of a symbol: the FFT window with its ramped extensions folded in, the transform, and the turn for
`fft_backoff`. -/
def ofdmChannels (d : Dev) (sb p : Nat) (g : Group) : List (Cx × Nat) :=
  let f := g.set.cfg
  let n := f.size
  let cp := (g.newest - g.first).toNat + 1 - n
  let h := f.wola / 2
  let x := g.inputs d sb p (g.first + cp - f.backoff - h) (n + 2 * h)
  let w (t : Nat) : Cx :=
    let v := nth x t
    if t < f.wola then Config.ramp f.wola t v else if n ≤ t then Config.ramp f.wola (n + f.wola - 1 - t) v else v
  let folded := (List.range n).map fun i => Cx.sum [w (i + h), if n ≤ i + f.wola - h then w (i + h - n) else (0, 0), if i < h then w (i + h + n) else (0, 0)]
  let y := Config.fft false f.log2 f.fftShift folded
  (List.range n).map fun (c : Nat) => Cx.shrCount 8388607 0 (Config.turn ((((c : Int) - n / 2) * f.backoff) % n).toNat n (nth y ((c + n / 2) % n)))

/-- R265, R266: the channels of a group before the equaliser, and the saturated samples of the window and the FFT. -/
def rawChannels (d : Dev) (sb p : Nat) (g : Group) : List Cx × Nat :=
  match g.set.cfg.mode with
  | 1 => let (b, y) := pfbChannels d sb p g; (y.map (·.1), satElements b + satElements y)
  | 2 => let y := ofdmChannels d sb p g; (y.map (·.1), satElements y)
  | _ => ([Cx.scale 256 (slotIn d sb p (g.sample g.newest))], 0)

/-- R266, R267: the equaliser's output of delivered channel `i` (unity gains while none is loaded). -/
def equalised (g : Group) (p : Nat) (raw : List Cx) (i : Nat) : Cx × Nat :=
  let f := g.set.cfg
  let c := if f.mode = 0 then 0 else f.firstCh + i
  let gain : Cx := if g.set.bank.g.isEmpty then (16384, 0) else nth g.set.bank.g (p * f.eqGroups + i / f.perGroup)
  let h : Nat := if g.set.bank.h.isEmpty then 32768 else nth g.set.bank.h c
  Cx.shrCount 32767 (29 + g.set.bank.eqShift) (Cx.scale h (Cx.mul (nth raw c) gain))

/-- R266: the delivered channels of a path for a group. -/
def channelsOf (d : Dev) (sb p : Nat) (g : Group) : List (Cx × Nat) :=
  let raw := (rawChannels d sb p g).1
  (List.range g.set.cfg.nCh).map (equalised g p raw)

/-- R266, R268: the beamformer's input, and the requantiser's F8 and F4. -/
def to12 (v : Cx) : Cx × Nat := Cx.shrCount 2047 4 v
def toF8 (g : Group) (v : Cx) : Cx × Nat := Cx.shrCount 127 g.set.bank.rq8 v
def toF4 (g : Group) (v : Cx) : Cx × Nat := Cx.shrCount 7 g.set.bank.rq4 v

/-! ### The beamformer -/

/-- R275, R276: a weight of a topiary; zero for a path outside the mask. -/
def topWeight (t : Topiary) (i b p : Nat) : Cx :=
  if !t.mask.testBit p then (0, 0)
  else
    let l := maskList 64 t.mask
    nth t.weights ((i / max 1 t.groupSize * t.beams + b) * l.length + (l.filter fun q => decide (q < p)).length)

/-- R284: the weight applied, during a crossfade between the former topiary's and the new one's. -/
def weightAt (s : FreNow) (tag i b p : Nat) : Cx :=
  let new := topWeight s.top i b p
  match s.fade with
  | some (pos, x) =>
    if pos + x ≤ tag then new
    else
      let old := topWeight s.old i b p
      let mix (a b : Int) : Int := a + divHalfEven ((b - a) * ((tag : Int) - pos)) x
      (mix old.1 new.1, mix old.2 new.2)
  | none => new

/-- R279: a beam's accumulator for a delivered channel, from the channels of every path. -/
def beamAcc (g : Group) (chans : List (List (Cx × Nat))) (b i : Nat) : Cx :=
  let tag := g.chain.stamp (g.sample g.newest)
  Cx.sum ((List.range 64).map fun p => Cx.mul (weightAt g.set tag i b p) (to12 (nth (nth chans p) i).1).1)

/-- R279: a beam's output. -/
def beamOut (g : Group) (chans : List (List (Cx × Nat))) (b i : Nat) : Cx × Nat := Cx.shrCount 32767 g.set.bmShift (beamAcc g chans b i)

/-- The channels of every path for a group. -/
def allChannels (d : Dev) (sb : Nat) (g : Group) : List (List (Cx × Nat)) := (List.range 64).map fun p => channelsOf d sb p g

/-- R199, R326: whether replaced samples shape a group. -/
def groupFlushed (d : Dev) (sb : Nat) (g : Group) : Bool :=
  (List.range 64).any fun p =>
    let x := rxChain d p sb
    (x.at_ (g.sample g.newest)).bank.cfg.consumers.testBit 0 &&
      (x.flushed (g.sample g.first) || x.flushed (g.sample g.newest) ||
        x.hist.any fun e => (e.2.blank || !e.2.on || !e.2.live) && decide (g.sample g.first ≤ adcFrom x.k e.1) && decide (adcFrom x.k e.1 ≤ g.sample g.newest))

end Sys2Proof.Machine
end

