-- ==== Sys2Proof/Machine/Chain.lean ====
section
/-! DEFINITION. Chapter 8: beam chains: the configuration of a node and its checks (R293 to R296, R312, R313), sum frames and
their arithmetic (R297 to R300), alignment, missing and late contributions (R301 to R306), delivery and report at the root
(R308, R309), and the transmit broadcast (R310, R311). -/

namespace Sys2Proof.Machine

/-! ### Nodes -/

def Dev.onChain (d : Dev) (sb : Nat) (f : ChainNode → ChainNode) : Dev := { d with chains := upd d.chains sb f }

end Sys2Proof.Machine

namespace Sys2Proof

open Machine

/-- The node flags (R294). -/
def ChainCfg.root (c : ChainCfg) : Bool := c.flags.testBit 7
def ChainCfg.rxOn (c : ChainCfg) : Bool := c.flags.testBit 6
def ChainCfg.txOn (c : ChainCfg) : Bool := c.flags.testBit 5
def ChainCfg.ownOn (c : ChainCfg) : Bool := c.flags.testBit 4

/-- The children configured: their numbers and lanes. -/
def ChainCfg.children (c : ChainCfg) : List (Nat × Nat) := (c.childs.zipIdx.filter fun x => x.1 != 0xFF).map fun x => (x.2, x.1)

/-- The lanes a configuration uses, the parent's first. -/
def ChainCfg.lanes (c : ChainCfg) : List Nat := (c.parent :: c.childs).filter (· != 0xFF)

end Sys2Proof

namespace Sys2Proof.Machine

/-- R62, R295: the configuration of the group of a stamp: the former one before the swap's position. -/
def ChainNode.cfgFor (n : ChainNode) (axis g : Nat) : ChainCfg :=
  if (n.banks.busy axis).isSome ∧ g < n.swapAt then n.banks.shd else n.banks.cur

/-- The configuration object (R294). -/
def chainCfgFields (c : ChainCfg) : List Field :=
  [fld 2 c.chainId, fld 1 c.sb, fld 1 c.flags, fld 1 c.parent] ++ byteFields c.childs ++
    [fld 4 c.offset, fld 2 c.frameCh, fld 1 c.firstBeam, fld 1 c.beams, fld 2 c.expected, fld 1 c.depth, fld 1 c.reserved19, fld 2 c.stall,
     fld 10 c.reserved22]

/-- R74: whether a queued CHAIN-SWAP arms a node. -/
def chainArmed (d : Dev) (sb : Nat) : Bool := armed d 0x0601 6 sb fun t => t / 64 % 4 == sb

/-- BMF_CHAIN_STATUS_n. -/
def chainStatus (d : Dev) (sb : Nat) : Nat :=
  let n := nth d.chains sb
  let c := n.banks.cur
  b2n n.on * 2 ^ 31 + b2n (n.on && c.root) * 2 ^ 30 + b2n (n.on && c.rxOn) * 2 ^ 29 + b2n (n.on && c.txOn) * 2 ^ 28 + b2n (n.on && c.ownOn) * 2 ^ 27
    + n.banks.index * 2 ^ 26 + b2n (chainArmed d sb) * 2 ^ 25 + b2n n.short * 2 ^ 24 + b2n n.lateSeen * 2 ^ 23 + b2n n.mismatch * 2 ^ 22
    + b2n n.stallSeen * 2 ^ 21 + b2n n.sat * 2 ^ 20 + n.childIn % 8 * 2 ^ 17 + n.lastCount % 8192 * 16

/-! ### Load of a lane (R313) -/

/-- R298: the bytes of a sum frame of some values, and R310: of a broadcast frame. -/
def sumBytes (values : Nat) : Nat := let b := ceilDiv values 16; 32 + 8 * (ceilDiv b 8 + 8 * b)
def layerBytes (values : Nat) : Nat := 32 + ceilDiv (3 * values) 8 * 8

/-- R88: the number of blocks of a frame: START with its first six bytes, the data blocks, TERM. -/
def frameBlocks (bytes : Nat) : Nat := 2 + ceilDiv (bytes - 6) 8

/-- The blocks of a group of `n` channels. -/
def groupBlocks (size : Nat → Nat) (c : ChainCfg) (n : Nat) : Nat :=
  let k := max 1 c.frameCh
  n / k * frameBlocks (size (k * c.beams)) + (if n % k = 0 then 0 else frameBlocks (size (n % k * c.beams)))

/-- The sum of two quotients. -/
def addQ (a b : Nat × Nat) : Nat × Nat := (a.1 * b.2 + b.1 * a.2, a.2 * b.2)

/-- R313: the blocks per second that a node's frames put on a lane, as a quotient. -/
def chainBlocks (d : Dev) (c : ChainCfg) (lane : Nat) : Nat × Nat :=
  if !c.lanes.contains lane then (0, 1)
  else
    let part (on : Bool) (slot : Nat) (size : Nat → Nat) : Nat × Nat :=
      let (a, b) := groupRate d slot
      if on then (a * groupBlocks size c (nth d.fre slot).cfg.nCh, b) else (0, 1)
    addQ (part c.rxOn c.sb sumBytes) (part c.txOn (4 + c.sb) layerBytes)

/-- R89: the blocks per second of IDENT and FILL blocks, with those of the time transfer a lane carries, as a
quotient. -/
def idleBlocks (d : Dev) (lane : Nat) : Nat × Nat :=
  addQ (9 * directRate d lane, 66 * 8192) (if d.tmb.laneRole ≠ 0 ∧ d.tmb.laneNum = lane then 2000 else 0, 1)

/-- The larger of two quotients. -/
def maxQ (a b : Nat × Nat) : Nat × Nat := if a.1 * b.2 ≤ b.1 * a.2 then b else a

/-- R313: a lane's load as a quotient, with one node's configuration, and every other node in the bank that loads the lane more. -/
def laneLoad (d : Dev) (cfg : ChainCfg) (lane : Nat) : Nat × Nat :=
  let others := (d.chains.zipIdx.filter fun x => x.1.on && x.2 != cfg.sb).map fun x =>
    maxQ (chainBlocks d x.1.banks.cur lane) (chainBlocks d x.1.banks.shd lane)
  let (a, b) := (chainBlocks d cfg lane :: others).foldl addQ (idleBlocks d lane)
  (a * 66, b * directRate d lane)

/-- A quotient in thousandths, rounded half to even. -/
def permille (q : Nat × Nat) : Nat := (divHalfEven ((q.1 : Int) * 1000) (max 1 q.2)).toNat

/-- Whether a lane carries a cut-through sub-band. -/
def laneCut (d : Dev) (lane : Nat) : Bool :=
  (List.range 64).any fun p => (List.range 4).any fun s =>
    (((d.rxPath p).sb s).cut.any fun x => x.lane == lane) || ((d.txPath p).sb s).cutLane == some lane

/-- R312, R313: whether a chain may use a lane. -/
def chainLaneOk (d : Dev) (cfg : ChainCfg) (lane : Nat) : Bool :=
  laneDirect d lane && !laneCut d lane && !laneWoven d lane && (let (a, b) := laneLoad d cfg lane; decide (a * 100 ≤ b * 95))

/-! ### Configuration -/

/-- R303: when a node's own values for a group are formed, in ticks after its stamp. -/
def ownDelay (d : Dev) (sb : Nat) : Nat :=
  let c := (nth d.fre sb).cfg
  let r := max 1 (slotRate d sb)
  freFrees d sb 0 +
    (match c.mode with
      | 2 => c.longSymbol
      | 1 => ceilDiv ((c.size * c.taps - 1) * tickHz * rateUnit) (2 * r)
      | _ => 0)

/-- R294, R296: the fields of a configuration are inside their ranges. -/
def chainArgOk (d : Dev) (c : ChainCfg) : Bool :=
  let rx := nth d.fre c.sb
  let tx := nth d.fre (4 + c.sb)
  c.chainId != 0 && decide (c.sb ≤ 3) && c.flags % 16 == 0 && (c.parent == 0xFF || decide (c.parent ≤ 31)) && (c.root || c.parent != 0xFF)
    && c.childs.all (fun l => l == 0xFF || decide (l ≤ 31)) && decide (1 ≤ c.offset) && decide (c.offset ≤ 16777215) && decide (1 ≤ c.frameCh)
    && decide (c.frameCh ≤ 4096) && decide (1 ≤ c.beams) && decide (c.beams ≤ (if c.txOn then 32 else 64))
    && (!c.root || (decide (1 ≤ c.expected) && decide (c.expected ≤ 4096))) && decide (c.depth ≤ 64) && (c.depth == 0) == c.root
    && c.reserved19 == 0 && c.reserved22 == 0 && decide (16 ≤ c.stall) && decide (c.stall ≤ 1024)
    && (!c.ownOn || (decide (c.firstBeam + c.beams ≤ rx.beams) && decide (c.frameCh ≤ rx.cfg.nCh)))
    && (!(c.txOn && tx.on) || (decide (c.firstBeam + c.beams ≤ tx.beams) && decide (c.frameCh ≤ tx.cfg.nCh)))

/-- R296: the receive slot that an own contribution needs. -/
def chainSlotOk (d : Dev) (sb : Nat) : Bool := (nth d.fre sb).on && (nth d.fre sb).beamsOn && (nth d.fre sb).beamOut.testBit 1

/-- The checks of CHAIN-SET. -/
def chainSetCheck (cfg : ChainCfg) (d : Dev) : Option Reply :=
  let n := nth d.chains cfg.sb
  Checks.orElse (firstBad [
    (!chainArgOk d cfg, ST.chainArg), (cfg.lanes.any (fun l => !chainLaneOk d cfg l) || !decide cfg.lanes.Nodup, ST.chainLane),
    (cfg.ownOn && chainSlotOk d cfg.sb && decide (cfg.offset < ownDelay d cfg.sb), ST.chainOffset), (!domOn d 6, ST.domainOff),
    (cfg.ownOn && !chainSlotOk d cfg.sb, ST.chainSlot),
    ((!cfg.root && cfg.expected != 0) || (cfg.root && cfg.parent != 0xFF), ST.chainRole)])
    (if n.on then bankCheck d (chainArmed d cfg.sb) (n.banks.busy d.axis).toList else none)

/-- CHAIN-SET (R294 to R296, R312, R313): both banks of a sub-band without a chain, the shadow bank of a running node. -/
def execChainSet (h : Hdr) (cfg : ChainCfg) : Meaning :=
  hostCmd (cmd 0x0600 [2, 2, 2, 2]) h (.chainSet h cfg)
    (chainSetCheck cfg)
    (fun d =>
      let loads := (cfg.parent :: cfg.childs).map fun l => if l = 0xFF then 0 else permille (laneLoad d cfg l)
      { dev := d.onChain cfg.sb fun n =>
          if n.on then { n with banks := n.banks.write cfg }
          else { n with on := true, banks := { Banks.both cfg with index := n.banks.index }, startAt := d.axis, cur := none, kids := [{}, {}, {}] },
        reply := { fields := loads.map (fld 2) } })

/-- CHAIN-GET. -/
def execChainGet (h : Hdr) (sb bank : Nat) : Meaning :=
  query (ask 0x0601 [32, 4, 4]) h (.chainGet h sb bank) (fun _ => firstBad [(decide (3 < sb) || decide (1 < bank), ST.badArg)]) fun d =>
    let n := nth d.chains sb
    chainCfgFields (if bank = 0 then n.banks.cur else n.banks.shd) ++ [fld 4 (chainStatus d sb), fld 4 (if chainSlotOk d sb then ownDelay d sb else 0)]

/-- R314: a node leaves its chain. -/
def chainLeave (d : Dev) (sb : Nat) : Dev :=
  if (nth d.chains sb).on then
    raiseEv (d.onChain sb fun n => { n with on := false, kids := n.kids.map fun k => { k with frames := [] }, reportClose := n.deliver.isSome }) EV.chainLeft [a4 sb]
  else d

/-- CHAIN-LEAVE (R314). -/
def execChainLeave (h : Hdr) (sb : Nat) : Meaning :=
  hostCmd (cmd 0x0602 [8]) h (.chainLeave h sb) (fun _ => firstBad [(decide (3 < sb), ST.badArg)])
    (fun d => { dev := chainLeave d sb, reply := { fields := [fld 8 (nth d.chains sb).framesSent] } })

/-- The checks of CHAIN-DELIVER-SET. -/
def chainDeliverSetCheck (sb base format rootShift dest lane : Nat) (d : Dev) : Option Reply :=
  let n := nth d.chains sb
  let k := n.banks.cur.beams
  firstBad [
    (decide (3 < sb) || destBad d dest || portArgBad lane || decide (256 < base + k) || d.outs.any (fun o =>
      decide (base ≤ o.num) && decide (o.num < base + k) && !(o.kind == .chain && o.sb == sb)), ST.badArg),
    (!(format == 1 || format == 2 || format == 3) || decide (47 < rootShift), ST.chainArg), (!n.on || !n.banks.cur.root, ST.chainRole)]

/-- CHAIN-DELIVER-SET (R308, R315). -/
def execChainDeliverSet (h : Hdr) (sb base format rootShift dest lane : Nat) : Meaning :=
  hostCmd (cmd 0x0603) h (.chainDeliverSet h sb base format rootShift dest lane)
    (chainDeliverSetCheck sb base format rootShift dest lane)
    (just fun d =>
      let c := (nth d.chains sb).banks.cur
      let d := { d with outs := d.outs.filter fun o => !(o.kind == .chain && o.sb == sb) }
      (manyStreams d .chain base sb format dest (portArg lane) (channelElements (nth d.fre sb).cfg format) ((List.range c.beams).map (· + c.firstBeam))).onChain sb
        fun n => { n with deliver := some ⟨base, format, rootShift, dest, portArg lane⟩, reportCounts := [], reportClose := false })

/-- CHAIN-DELIVER-STOP (R314). -/
def execChainDeliverStop (h : Hdr) (sb : Nat) : Meaning :=
  hostCmd (cmd 0x0604 [8]) h (.chainDeliverStop h sb)
    (fun d => firstBad [(decide (3 < sb), ST.badArg), (!(nth d.chains sb).on || !(nth d.chains sb).banks.cur.root, ST.chainRole)])
    (fun d =>
      let sel (o : OutStream) : Bool := o.kind == .chain && o.sb == sb
      { dev := (streamStop d sel).onChain sb fun n => { n with reportClose := n.deliver.isSome },
        reply := { fields := [fld 8 ((d.outs.filter sel).map (·.sent)).sum] } })

/-- CHAIN-STATUS (R305, R315): the smallest slack of the last second, 0 without a frame in it. -/
def execChainStatus (h : Hdr) (sb : Nat) : Meaning :=
  query (ask 0x0605 (List.replicate 12 4)) h (.chainStatus h sb) (fun _ => firstBad [(decide (3 < sb), ST.badArg)]) fun d =>
    let ks := (nth d.chains sb).kids
    (ks.map fun k => sfld 4 (((k.slacks.filter fun x => decide (d.now < x.1 + tickHz)).map (·.2)).min?.getD 0)) ++
      ks.flatMap fun k => [fld 4 k.included, fld 4 k.missing, fld 4 k.late]

/-- CHAIN-COUNTERS. -/
def execChainCounters (h : Hdr) (sb clear : Nat) : Meaning :=
  hostCmd (askClear 0x0606 clear (List.replicate 7 4)) h (.chainCounters h sb clear)
    (fun _ => firstBad [(decide (3 < sb) || decide (1 < clear), ST.badArg)])
    fun d =>
      { dev := if clear = 1 then d.onChain sb fun n => { n with
        counts := [0, 0, 0, 0, 0, 0, 0] } else d,
        reply := { fields := (nth d.chains sb).counts.map (fld 4) } }

/-- R295, R497: whether a chain swap can act, and the swap: by stamp, the former bank free once the last group of the old
configuration has been sent. -/
def chainAble (d : Dev) (q : QStake) : Bool := domOn d 6 && (nth d.chains (q.stake.target / 64 % 4)).on
def chainSwap (d : Dev) (q : QStake) : Dev :=
  let sb := q.stake.target / 64 % 4
  if (nth d.chains sb).banks.thornShd ≠ 0 then swapRefused d EV.memSwapRefused q
  else d.onChain sb fun n =>
    { n with banks := n.banks.swap (q.pos + n.banks.cur.offset + (nth d.fre sb).cfg.longSymbol), swapAt := q.pos }

/-- CHAIN_SWAP (R295). -/
def execChainSwap : Meaning := onDev (stakeAct 0x0601 chainAble lateDrop chainSwap)

/-! ### Sum frames -/

end Sys2Proof.Machine

namespace Sys2Proof

open Machine

/-- A value of a block: zero where its word arrived thorned (R300), its mantissa × 2^e otherwise (R298). -/
def SumBlock.value (b : SumBlock) (i : Nat) : Int × Int :=
  if b.lost.contains i then (0, 0) else let v := nth b.vals i; (v.1 * 2 ^ b.exp, v.2 * 2 ^ b.exp)

/-- Whether a block carries a thorn, its own or a word's (R300). -/
def SumBlock.thorned (b : SumBlock) : Bool := b.thorn || !b.lost.isEmpty

/-- R298: the bytes of a block: 16 samples, two's complement, I then Q; a block of zeros lists no values. -/
def SumBlock.bytes (b : SumBlock) : List Nat := bytesOf ((List.range 16).map fun k => sampleField 2 (nth b.vals k))

/-- R298: a run: the exponent word, a byte per block with its thorn and exponent, then the blocks. -/
def runBytes (l : List SumBlock) : List Nat := padTo 8 (l.map fun b => b2n b.thorned * 128 + b.exp) ++ l.flatMap SumBlock.bytes

/-- R297: the 32-byte header of a frame. -/
def ChainFrame.head (f : ChainFrame) : List Nat :=
  bytesOf [fld 2 f.chainId, fld 1 (f.sb * 64), fld 1 f.flags, fld 8 f.axis, fld 2 f.count, fld 2 f.index, fld 1 f.firstBeam, fld 1 f.beams, fld 2 f.channels,
    fld 4 f.firstCh, fld 4 f.shapeCrc, fld 1 f.depth, fld 3 0]

/-- R298: a class 0x02 frame: its header and its runs of up to 8 blocks. -/
def ChainFrame.sum (f : ChainFrame) : List Nat :=
  f.head ++ (List.range (ceilDiv f.blocks.length 8)).flatMap fun k => runBytes ((f.blocks.drop (8 * k)).take 8)

/-- R310: a class 0x03 frame: its header and its F12 values, padded with zeros to a whole word. -/
def ChainFrame.down (f : ChainFrame) : List Nat :=
  let l := bytesOf (f.layers.map (sampleField 1))
  f.head ++ padTo (ceilDiv l.length 8 * 8) l

/-- R90, R310: the data blocks of a class 0x03 frame that hold a thorned value, sent on thorned. -/
def ChainFrame.downBad (f : ChainFrame) : List Nat :=
  (f.lost.flatMap fun k => [(26 + 3 * k) / 8, (28 + 3 * k) / 8]).eraseDups

/-- R297: the header of a received frame. -/
def chainHead (x : Delivered) : ChainFrame :=
  let b := x.bytes
  { chainId := beAt b 0 2, sb := beAt b 2 1 / 64, flags := beAt b 3 1, axis := beAt b 4 8, count := beAt b 12 2, index := beAt b 14 2, firstBeam := beAt b 16 1,
    beams := beAt b 17 1, channels := beAt b 18 2, firstCh := beAt b 20 4, shapeCrc := beAt b 24 4, depth := beAt b 28 1 }

/-- Whether any of `n` bytes of a delivered frame stands in a thorned word (R90). -/
def thornedBytes (x : Delivered) (k n : Nat) : Bool := (List.range n).any fun b => x.thorned (k + b)

/-- R298, R300: a received class 0x02 frame. A block whose exponent word is thorned, or that the frame does not hold, counts as zeros
and carries the thorn. -/
def readSum (x : Delivered) : ChainFrame :=
  let f := chainHead x
  { f with blocks := (List.range (ceilDiv (f.channels * f.beams) 16)).map fun j =>
      let run := 32 + j / 8 * 520
      let base := run + 8 + j % 8 * 64
      let e := beAt x.bytes (run + j % 8) 1
      if thornedBytes x run 8 || decide (x.bytes.length < base + 64) then { thorn := true }
      else { exp := e % 32, thorn := e.testBit 7, vals := (List.range 16).map (fun k => readSample 2 (beAt x.bytes (base + 4 * k) 4)),
             lost := (List.range 16).filter fun k => thornedBytes x (base + 4 * k) 4 } }

/-- R310, R311: a received class 0x03 frame; a thorned value is zero. -/
def readDown (x : Delivered) : ChainFrame :=
  let f := chainHead x
  let n := min (f.channels * f.beams) ((x.bytes.length - 32) / 3)
  let bad := (List.range n).filter fun k => thornedBytes x (32 + 3 * k) 3
  { f with layers := (List.range n).map (fun k => if bad.contains k then (0, 0) else readSample 1 (beAt x.bytes (32 + 3 * k) 3)), lost := bad }

end Sys2Proof

namespace Sys2Proof.Machine

/-- The smallest exponent for which a bound fits 16 bits (R299). -/
def sumExp (bound : Nat) : Nat := ((List.range 64).find? fun e => decide (bound ≤ 32767 * 2 ^ e)).getD 63

/-- R299, R300: an output block of a node from its own block, if it contributes, and its children's. -/
def sumBlock (own : Option SumBlock) (kids : List SumBlock) : SumBlock :=
  let parts := own.toList ++ kids
  let peak := match own with
    | some o => (List.range 16).foldl (fun m i => let v := o.value i; max m (max v.1.natAbs v.2.natAbs)) 0
    | none => 0
  let e := sumExp (peak + (kids.map fun k => 32767 * 2 ^ k.exp).sum)
  let part (f : Int × Int → Int) (i : Nat) : Int := divHalfEven ((parts.map fun b => f (b.value i)).sum) (2 ^ e)
  { exp := e, thorn := parts.any SumBlock.thorned, vals := (List.range 16).map fun i => (part (·.1) i, part (·.2) i) }

/-- R297: the shape CRC over bytes 0 to 27 and 32 to 39 of the slot's configuration. -/
def shapeCrc (d : Dev) (slot : Nat) : Nat :=
  let f := nth d.fre slot
  let b := bytesOf (freCfgFields f.cfg f.banks.cur)
  crc32c (b.take 28 ++ (b.drop 32).take 8)

/-- R258, R261, R301: whether a node's slot forms a group of a stamp; a relay whose slot is off takes any stamp. -/
def formsGroup (d : Dev) (sb g : Nat) : Bool := !(nth d.fre sb).on || (groupOf d sb g).isSome

end Sys2Proof.Machine

namespace Sys2Proof

open Machine

/-- The bytes a frame takes in an alignment buffer. -/
def ChainFrame.bytes (f : ChainFrame) : Nat := sumBytes (16 * f.blocks.length)

end Sys2Proof

namespace Sys2Proof.Machine

/-- Whether a frame (group, index) has been begun or passed by a node. -/
def ChainNode.begun (n : ChainNode) (g k : Nat) : Bool :=
  match n.cur with
  | some c => decide (g < c.frame.axis) || (g == c.frame.axis && decide (k ≤ c.frame.index))
  | none => false

/-- The node with one child changed. -/
def ChainNode.onKid (n : ChainNode) (c : Nat) (f : ChainChild → ChainChild) : ChainNode := { n with kids := upd n.kids c f }
def ChainNode.count (n : ChainNode) (k by_ : Nat) : ChainNode := { n with counts := upd n.counts k fun x => sat32 (x + by_) }

/-- R301, R304, R306: a child's frame reaches a node. -/
def sumArrive (d : Dev) (sb child : Nat) (f : ChainFrame) : Dev :=
  let n := nth d.chains sb
  let c := n.cfgFor d.axis f.axis
  let key := sb * 4 + child
  if f.chainId ≠ c.chainId ∨ f.sb ≠ sb ∨ ((nth d.fre sb).on ∧ f.shapeCrc ≠ shapeCrc d sb) ∨ f.firstBeam ≠ c.firstBeam ∨ f.beams ≠ c.beams
      ∨ f.depth ≠ c.depth + 1 then
    raiseLimited (d.onChain sb fun n => { n.count 1 1 with mismatch := true }) EV.chainShape key [a4 sb, a4 child]
  else if f.axis < n.startAt ∨ !formsGroup d sb f.axis then
    raiseLimited (d.onChain sb fun n => { n.count 0 1 with mismatch := true }) EV.chainStamp key [a4 sb, a4 child]
  else if n.begun f.axis f.index then
    raiseLimited (d.onChain sb fun n => { n.onKid child fun k => { k with late := sat32 (k.late + 1) } with lateSeen := true }) EV.chainLate key
      [a4 sb, a4 child]
  else if 262144 < (((nth n.kids child).frames.map ChainFrame.bytes).sum + f.bytes) then
    raiseLimited (d.onChain sb fun n => { n.count 3 1 with stallSeen := true }) EV.chainOverflow key [a4 sb, a4 child]
  else
    d.onChain sb fun n => n.onKid child fun k =>
      { k with
        frames := k.frames ++ [f],
        slacks := if f.index = 0 then (k.slacks.filter fun x => decide (d.now < x.1 + tickHz)) ++ [(d.now, (f.axis + c.offset : Nat) - (d.axis : Int))] else k.slacks }

/-- The nodes that have a lane as a child lane: sub-band and child number. -/
def childOf (d : Dev) (lane : Nat) : List (Nat × Nat) :=
  (d.chains.zipIdx.filter fun x => x.1.on && x.1.banks.cur.rxOn).flatMap fun x =>
    (x.1.banks.cur.children.filter fun k => k.2 == lane).map fun k => (x.2, k.1)

/-- CHAIN_SUM_FRAME (R301, R304): the frame belongs to the chain it names, or fails the checks of the lane's first. -/
def execChainSumFrame (lane : Nat) (frame : DirectFrame) : Meaning := onDev fun d =>
  match deliver d lane frame with
  | none => d
  | some x =>
    let frame := readSum x
    let l := childOf d lane
    match l.find? (fun x => x.1 == frame.sb && (nth d.chains x.1).banks.cur.chainId == frame.chainId), l.head? with
    | some (sb, c), _ => sumArrive d sb c frame
    | none, some (sb, c) => sumArrive d sb c frame
    | none, none => d

/-- What a node would begin next of a group: the frame's index; none while the group before is unfinished, unless it
relays a group whose children have stopped. -/
def ChainNode.nextFrame (n : ChainNode) (relay : Bool) (g : Nat) : Option Nat :=
  match n.cur with
  | none => some 0
  | some c =>
    if g = c.frame.axis then (if c.last then none else some (c.frame.index + 1))
    else if g < c.frame.axis then none
    else if c.last ∨ (relay ∧ !n.kids.any fun k => k.frames.any fun f => f.axis == c.frame.axis && decide (c.frame.index < f.index)) then some 0
    else none

/-- The frame a node forms from its own values and its children's frames (R297, R299, R304). -/
def formFrame (d : Dev) (sb g k : Nat) (c : ChainCfg) (own : SumRuns) (kids : List (Nat × ChainFrame)) : ChainSend :=
  let f := nth d.fre sb
  let one := (kids.head?.map (·.2)).getD {}
  let frames := ceilDiv f.cfg.nCh (max 1 c.frameCh)
  let channels := if f.on then min c.frameCh (f.cfg.nCh - k * c.frameCh) else one.channels
  let last := if f.on then k + 1 == frames else kids.isEmpty || kids.any (fun x => x.2.flags.testBit 7)
  let n := ceilDiv (channels * c.beams) 16
  let blocks := (List.range n).map fun b => sumBlock (if own.ready then some (nth own.blocks b) else none) (kids.map fun x => nth x.2.blocks b)
  { cfg := c, own := own, kids := kids, last := last, begun := d.axis,
    frame := { chainId := c.chainId, sb := sb, flags := b2n last * 128 + b2n (kids.any fun x => x.2.flags.testBit 6) * 64, axis := g,
               count := b2n own.ready + (kids.map fun x => x.2.count).sum, index := k, firstBeam := c.firstBeam, beams := c.beams, channels := channels,
               firstCh := k * c.frameCh, shapeCrc := if f.on then shapeCrc d sb else one.shapeCrc, depth := c.depth, blocks := blocks } }

/-- R308: a delivered component: the value × 2^(e - shift), half to even; whether it saturates. -/
def rootValue (shift : Nat) (b : SumBlock) (m : Int) : Int × Bool :=
  let v := if shift ≤ b.exp then m * 2 ^ (b.exp - shift) else divHalfEven m (2 ^ (shift - b.exp))
  (satSym 32767 v, satSym 32767 v != v)

/-- R308: the saturated components of a frame at delivery. -/
def rootSats (shift : Nat) (f : ChainFrame) : Nat :=
  (f.blocks.map fun b => (b.vals.map fun v => b2n (rootValue shift b v.1).2 + b2n (rootValue shift b v.2).2).sum).sum

/-- R308, R309: what the root does with a frame: its saturations, the group's smallest count, the report and
EV_CHAIN_SHORT. -/
def rootFrame (d : Dev) (sb : Nat) (s : ChainSend) : Dev :=
  match (nth d.chains sb).deliver with
  | none => d
  | some x =>
    let k := rootSats x.shift s.frame
    let d := if k = 0 then d
      else raiseLimited (d.onChain sb fun n => { n.count 5 k with sat := true }) EV.chainSat sb [a4 sb]
    let least := if s.frame.index = 0 then s.frame.count else min (nth d.chains sb).groupMin s.frame.count
    let d := d.onChain sb fun n => { n with groupMin := least, sums := n.sums ++ [s.frame] }
    if !s.last then d
    else
      let d := d.onChain sb fun n => { n with reportCounts := n.reportCounts ++ [(s.frame.axis, least)] }
      if least < s.cfg.expected then raiseLimited (d.onChain sb fun n => { n with short := true }) EV.chainShort sb [a4 sb, a4 least] else d

/-- A frame leaves towards the parent, or is the root's. -/
def frameOut (d : Dev) (sb : Nat) (s : ChainSend) : Dev :=
  if s.cfg.root then rootFrame d sb s
  else d.sendFrame s.cfg.parent 2 s.frame.sum

/-- The children's frames of a group's frame k that have arrived (R302). -/
def ChainNode.arrivedKids (n : ChainNode) (c : ChainCfg) (group k : Nat) : List (Nat × ChainFrame) :=
  c.children.filterMap fun x => ((nth n.kids x.1).frames.find? fun f => f.axis == group && f.index == k).map fun f => (x.1, f)

/-- R304, R305: a child's counts and its buffer once a frame has begun. -/
def ChainChild.begin (q : ChainChild) (here : Bool) (group k : Nat) : ChainChild :=
  let q := if here then { q with included := sat32 (q.included + 1) } else { q with missing := sat32 (q.missing + 1) }
  { q with frames := q.frames.filter fun f => !(decide (f.axis < group) || (f.axis == group && decide (f.index ≤ k))) }

/-- The node with a frame begun. -/
def ChainNode.beginFrame (n : ChainNode) (c : ChainCfg) (group k : Nat) (kids : List (Nat × ChainFrame)) (s : ChainSend) : ChainNode :=
  let n := c.children.foldl (fun n x => n.onKid x.1 fun q => q.begin (kids.any fun y => y.1 == x.1) group k) n
  { n.count 4 (s.frame.blocks.filter (·.thorn)).length with
    cur := some s, childIn := (kids.map fun y => 2 ^ y.1).sum, lastCount := s.frame.count, framesSent := n.framesSent + 1 }

/-- R303: whether a node's own values of a group are still to come: it contributes, its window is open for the group, and they are not yet
formed. -/
def ownPending (d : Dev) (sb group : Nat) (c : ChainCfg) : Bool :=
  c.ownOn && chainSlotOk d sb && decide (d.axis < group + ownDelay d sb)
    && (groupOf d sb group).any fun g => g.set.on && g.chain.delivered (g.sample g.newest)

/-- R88, R303: whether the frame a node began last has been sent: its blocks have left at the lane's rate; a root sends on no lane. -/
def ChainSend.sent (d : Dev) (s : ChainSend) : Bool :=
  s.cfg.root || decide (frameBlocks (sumBytes (16 * s.frame.blocks.length)) * 66 * tickHz ≤ (d.axis - s.begun) * directRate d s.cfg.parent)

/-- R301 to R304: whether a frame may begin: frame 0 when every child has begun it or at the deadline, a later one once the one before it
has been sent. -/
def frameMay (d : Dev) (sb group k : Nat) (c : ChainCfg) (own : SumRuns) (kids : List (Nat × ChainFrame)) : Bool :=
  let n := nth d.chains sb
  let all := !c.children.isEmpty && kids.length == c.children.length
  let any := c.children.any fun x => (nth n.kids x.1).frames.any fun f => f.axis == group
  decide (sb < 4) && n.on && c.rxOn && decide (n.startAt ≤ group) && formsGroup d sb group && (if k = 0 then all || decide (group + c.offset ≤ d.axis) else n.cur.all (·.sent d))
    && !ownPending d sb group c && (own.ready || any || k != 0)

/-- R296, R299, R302, R303: the node's own values of a frame: its accumulators in blocks of exponent 0, thorned while the topiary in force
holds thorned words (R287); none unless it contributes, its window is open for the group and the values are formed. -/
def ownPart (d : Dev) (sb : Nat) (c : ChainCfg) (group k : Nat) : SumRuns :=
  match groupOf d sb group with
  | none => ⟨false, []⟩
  | some g =>
    if c.ownOn && chainSlotOk d sb && g.ready d && decide (group + ownDelay d sb ≤ d.axis) then
      let chans := allChannels d sb g
      let n := min c.frameCh (g.set.cfg.nCh - k * c.frameCh)
      let vals := (List.range n).flatMap fun i => (List.range c.beams).map fun b => beamAcc g chans (c.firstBeam + b) (k * c.frameCh + i)
      ⟨true, (List.range (ceilDiv vals.length 16)).map fun j => { thorn := g.set.thorn, vals := (vals.drop (16 * j)).take 16 }⟩
    else ⟨false, []⟩

/-- CHAIN_FRAME_START (R302 to R304): frame 0 of a group when every configured child has begun it or at the deadline
t + D, a later frame once the one before it has been sent; own values must be formed, and a node without any sends only
groups of which a child's frame has arrived. The frame that begins has the given index. -/
def execChainFrameStart (sb group index : Nat) : Meaning := onDev fun d =>
  let n := nth d.chains sb
  let c := n.cfgFor d.axis group
  match n.nextFrame (!(nth d.fre sb).on) group with
  | none => d
  | some k =>
    let own := ownPart d sb c group k
    let kids := n.arrivedKids c group k
    if k = index ∧ frameMay d sb group k c own kids then
      let s := formFrame d sb group k c own kids
      frameOut (d.onChain sb fun n => n.beginFrame c group k kids s) sb s
    else d

/-- R306: a child's frame from a block on: zeros, thorned. -/
def cutFrom (block : Nat) (f : ChainFrame) : ChainFrame := { f with blocks := f.blocks.zipIdx.map fun b =>
  if block ≤ b.2 then { b.1 with thorn := true, vals := [], lost := [] } else b.1 }

/-- R306: the frame in progress with a child stalled from a block on. -/
def stalled (d : Dev) (sb child block : Nat) (s : ChainSend) : ChainSend :=
  let kids := s.kids.map fun x => if x.1 = child then (x.1, cutFrom block x.2) else x
  let t := { formFrame d sb s.frame.axis s.frame.index s.cfg s.own kids with last := s.last, begun := s.begun }
  { t with frame := { t.frame with count := s.frame.count, flags := s.frame.flags } }

/-- The frame in progress changed, where it leaves: on the parent's lane, or among the sums of the root. -/
def reframe (d : Dev) (sb : Nat) (s t : ChainSend) : Dev :=
  let d := d.onChain sb fun n => { n with cur := some t, sums := n.sums.map fun f => if s.cfg.root ∧ f = s.frame then t.frame else f }
  let was := Out.direct s.cfg.parent (directBlocks 2 s.frame.sum)
  d.onLnk fun l => { l with sent := l.sent.map fun o => if !s.cfg.root ∧ o = was then Out.direct s.cfg.parent (directBlocks 2 t.frame.sum) else o }

/-- CHAIN_STALL (R306): from a block on, a child's values of the frame in progress are zeros and its blocks thorned. -/
def execChainStall (sb child block : Nat) : Meaning := onDev fun d =>
  let n := nth d.chains sb
  match n.cur with
  | none => d
  | some s =>
    if n.on && s.kids.any (fun x => x.1 == child) && decide (block < s.frame.blocks.length) then
      let s' := stalled d sb child block s
      let more := (s'.frame.blocks.filter (·.thorn)).length - (s.frame.blocks.filter (·.thorn)).length
      let d := reframe (d.onChain sb fun n => { (n.count 2 1).count 4 more with stallSeen := true }) sb s s'
      raiseLimited d EV.chainStall (sb * 4 + child) [a4 sb, a4 child]
    else d

/-- R314: D6 goes off: the frame in progress is completed from zeros, thorned, and the node leaves as by CHAIN-LEAVE. -/
def chainCut (d : Dev) (sb : Nat) : Dev :=
  let n := nth d.chains sb
  let d := match n.cur with
    | none => d
    | some s =>
      if !n.on || s.sent d then d
      else
        let gone := 8 * ((d.axis - s.begun) * directRate d s.cfg.parent / (66 * tickHz)) - 2
        let left := (List.range s.frame.blocks.length).find? fun j => decide (gone < 32 + j / 8 * 520 + 8 + j % 8 * 64 + 64)
        reframe d sb s { s with frame := cutFrom (left.getD s.frame.blocks.length) s.frame }
  chainLeave d sb

/-- CHAIN_REPORT (R309): after 1,024 groups, or at close. -/
def execChainReport (sb : Nat) : Meaning := onDev fun d =>
  let n := nth d.chains sb
  match n.deliver with
  | none => d
  | some x =>
    let l := n.reportCounts.take 1024
    if l.length = 1024 ∨ n.reportClose then
      let d := d.onChain sb fun n => { n with
        reportCounts := n.reportCounts.drop 1024, deliver := if n.reportClose && decide (n.reportCounts.length ≤ 1024) then none else n.deliver,
        reportClose := n.reportClose && decide (1024 < n.reportCounts.length) }
      if l.isEmpty then d else 
        let first := (l.headD (0, 0)).1
        sendReport d 0x0600 first x.dest x.port ([fld 8 first, fld 2 l.length, fld 2 0] ++ l.map fun y => fld 2 y.2)
    else d

/-! ### Broadcast -/

/-- R311: a frame of a group of layers fed to the node's own transmit slot, under the rules of host groups: its elements are its layers'
channels, from its first channel on. -/
def layerFeed (d : Dev) (sb : Nat) (f : ChainFrame) : Dev :=
  let slot := nth d.fre (4 + sb)
  if !slot.on then d
  else
    let n := nth d.chains sb
    let o := { n.layers with sb := sb, depth := streamDepth (channelElements slot.cfg 2) 2 }
    let t := layerTiming d o
    let a := o.play d.axis t
    let b := a.takeGroup d.axis t f.axis f.firstCh ((List.range f.beams).flatMap fun y => (List.range f.channels).map fun i => [Cx.scale 16 (nth f.layers (i * f.beams + y))])
    let d := (d.onChain sb fun n => { n with layers := b }).onFre (4 + sb) fun s => { s with zeroedLayer := sat32 (s.zeroedLayer + f.lost.length) }
    if b.late = o.late ∧ b.zeroFilled = o.zeroFilled then d else raiseLimited d EV.layerUnderrun (256 + sb) [a4 sb, a8 b.late, a8 b.zeroFilled]

/-- R217, R311: the groups of a node's transmit layers that have run out by the present are zero-filled: an underrun, or with the parent's
lane down a broadcast that was not received. -/
def bcastTick (d : Dev) (sb : Nat) : Dev :=
  let n := nth d.chains sb
  let c := n.banks.cur
  if !n.on || !c.txOn || c.root || !(nth d.fre (4 + sb)).on then d
  else
    let a := n.layers.play d.axis (layerTiming d n.layers)
    if a.zeroFilled = n.layers.zeroFilled then d
    else if laneUp d c.parent then
      raiseLimited (d.onChain sb fun n => { n with layers := a }) EV.layerUnderrun (256 + sb) [a4 sb, a8 a.late, a8 a.zeroFilled]
    else raiseEv (d.onChain sb fun n => { n.count 6 (a.zeroFilled - n.layers.zeroFilled) with layers := a }) EV.chainBcastMiss [a4 sb]

/-- R310: a broadcast frame goes to every child lane. -/
def passDown (d : Dev) (c : ChainCfg) (f : ChainFrame) : Dev :=
  c.children.foldl (fun d x => d.sendFrame x.2 3 f.down f.downBad) d

/-- CHAIN_BROADCAST_FRAME (R310, R311). -/
def execChainBroadcastFrame (lane : Nat) (frame : DirectFrame) : Meaning := onDev fun d =>
  match deliver d lane frame with
  | none => d
  | some x =>
  let frame := readDown x
  let n := nth d.chains frame.sb
  let c := n.cfgFor d.axis frame.axis
  if n.on && c.txOn && !c.root && c.parent == lane && c.chainId == frame.chainId && laneUp d lane then
    layerFeed (passDown d c { frame with count := frame.count + 1 }) frame.sb frame
  else d

/-- R310: the value of a layer's channel in a buffered group of its stream, in F12. -/
def layerValue (d : Dev) (sb layer g ch : Nat) : Cx :=
  match d.ins.find? (fun o => o.layer && o.sb == sb && o.num == o.base + layer) with
  | none => (0, 0)
  | some o =>
    let w (x : InGroup) : Nat := max 1 (x.vals.headD []).length
    match (o.buffered ++ o.past).find? (fun x => x.pos == g && decide (x.first * w x ≤ ch) && decide (ch < (x.first + x.vals.length) * w x)) with
    | some x => (Cx.shrSat 2047 4 (nth x.vals.flatten (ch - x.first * w x))).1
    | none => (0, 0)

/-- R310: the frames of a group of layers that the root sends once every layer stream of the slot holds it. -/
def rootBroadcast (d : Dev) (sb g : Nat) : Dev :=
  let n := nth d.chains sb
  let c := n.cfgFor d.axis g
  let f := nth d.fre (4 + sb)
  let l := d.ins.filter fun o => o.layer && o.sb == sb
  if n.on && c.root && c.txOn && !l.isEmpty && l.all (fun o => o.buffered.any (·.pos == g)) then
    let k := max 1 c.frameCh
    let m := ceilDiv f.cfg.nCh k
    (List.range m).foldl (fun d i => passDown d c
      { chainId := c.chainId, sb := sb, flags := if i + 1 = m then 128 else 0, axis := g, count := 0, index := i, firstBeam := c.firstBeam, beams := c.beams,
        channels := min k (f.cfg.nCh - i * k), firstCh := i * k, shapeCrc := shapeCrc d (4 + sb), depth := c.depth,
        layers := (List.range (min k (f.cfg.nCh - i * k))).flatMap fun ch => (List.range c.beams).map fun y =>
          layerValue d sb (c.firstBeam + y) g (i * k + ch) }) d
  else d

/-- The checks of LAYER-STREAM-SET. -/
def layerStreamSetCheck (base sb count format : Nat) (d : Dev) : Option Reply :=
  let f := nth d.fre (4 + sb)
  let n := nth d.chains sb
  firstBad [(decide (3 < sb) || count == 0 || decide (256 < base + count) || (f.beamsOn && decide (f.beams < count)), ST.badArg),
    (!(format == 1 || format == 2 || format == 3), ST.freFormat), (!f.on || !f.beamsOn, ST.freDisabled),
    (d.ins.any (fun o => decide (base ≤ o.num) && decide (o.num < base + count) && !(o.layer && o.base == base)), ST.freStream),
    (n.on && n.banks.cur.txOn && !n.banks.cur.root, ST.chainRole)]

/-- LAYER-STREAM-SET (R280, R291, R310). -/
def execLayerStreamSet (h : Hdr) (base sb count format : Nat) : Meaning :=
  hostCmd (cmd 0x0516 [4]) h (.layerStreamSet h base sb count format)
    (layerStreamSetCheck base sb count format)
    (fun d =>
      let n := streamDepth (channelElements (nth d.fre (4 + sb)).cfg format) format
      { dev := { d with ins := (d.ins.filter fun o => !(o.layer && o.base == base)) ++
          (List.range count).map fun k => { num := base + k, base := base, layer := true, sb := sb, paths := [k], format := format, depth := n } },
        reply := { fields := [fld 4 n] } })

/-- The groups a layer stream's buffer holds. -/
def layerHeld (num : Nat) (d : Dev) : List Nat := ((d.ins.find? fun o => o.num == num && o.layer).map fun o => o.buffered.map (·.pos)).getD []

/-- LAYER_STREAM_PACKET (R280 under R217); at a chain's root its groups go out to the members (R310). -/
def execLayerStreamPacket (session : Nat) (rx : PktIn) (pkt : StreamPkt) : Meaning := onDev fun d =>
  let d' := hostStream true session rx pkt EV.layerUnderrun layerTiming d
  let sb := ((d.ins.find? fun o => o.num == pkt.num && o.layer).map (·.sb)).getD 0
  ((layerHeld pkt.num d').filter fun g => !(layerHeld pkt.num d).contains g).foldl (fun d g => rootBroadcast d sb g) d'

end Sys2Proof.Machine
end

