-- ==== Sys2Proof/Machine/Radiate.lean ====
section
/-! DEFINITION. The transmit samples: sources (R216 to R218, R280), the frequency engine (R264, R269), the sub-band chain (R219 to
R221), the composite with windows and ramps (R222, R228, R229), the predistorter (R381, R382), the governor and the DAC (R222), and
the counts of their saturations (R223, R266), as functions of what came by the streams and lanes and of the histories of the
settings. -/

namespace Sys2Proof.Machine

/-! ### Histories -/

/-- R385, R388: the coefficients for the samples of an antenna instant: the former bank's before the position of a swap. -/
def dpdBankAt (b : Banks DpdSet) (pos : Nat) : DpdSet := if (b.busy pos).any (fun t => decide (pos + dpdDrain < t)) then b.shd else b.cur

/-- What a path's composite meets now; the host's mute, the INHIBIT loop's and that of a domain that is off
ramp down (R233, R236). The compensation goes into the DAC's full-scale current in steps of 0.25 dB, what is left of it into the fine gain
(R238). -/
def txPathNow (d : Dev) (p : Nat) : TxPathNow :=
  let x := d.txPath p
  let soft := x.muteHost || x.muteInhibit || !domOn d 4 || !domOn d 5
  let trim := (trimOf d 1 p).1.gain
  { dacCentre := x.dacCentre, sumShift := x.sumShift, ramp := x.ramp, fine := (x.comp + trim) % 25 - 100 * (d.dpdPath p).backoff, gain := x.gain, soft := soft, hard := !soft && txMuted d p,
    live := (d.dpdPath p).live, bank := dpdBankAt (d.dpdPath p).banks d.axis, level := [x.fsPower, x.comp, trim],
    synth := [profileAt d d.axis, d.syn.active, b2n d.syn.settling], held := x.adaptHeld.isSome }

/-- The settings of a transmit sub-band noted for the samples that enter its chain now, though not before those that a stake placed at its
own position; and those of a path. -/
def txSeen (d : Dev) (n : Nat) : Bool := ((d.txPath (n / 4)).sb (n % 4)).on || !(nth d.sig.tx n).isEmpty
def observeTx (d : Dev) (n : Nat) : Dev :=
  noteTx d (n / 4) (n % 4) (max (d.axis + txDelay d (n / 4) (n % 4)) (((nth d.sig.tx n).head?.map (·.1)).getD 0))
def pathSeen (d : Dev) (p : Nat) : Bool := (d.txPath p).sbs.any (·.on) || !(nth d.sig.paths p).isEmpty || d.bcn.sent.any (·.path == p)
def observePath (d : Dev) (p : Nat) : Dev :=
  { d with sig := { d.sig with paths := upd d.sig.paths p fun h => noted h d.axis (txPathNow d p) } }

/-! ### Layers and the beamformer -/

/-- R280, R311: a layer's sample for delivered channel `i` of the group at a stamp, in 16+16: a child of a chain has its layers from the
broadcast, another unit from its layer streams. -/
def layerSample (d : Dev) (sb l stamp i : Nat) : Cx :=
  let n := nth d.chains sb
  if n.on && n.banks.cur.txOn && !n.banks.cur.root then
    let b := max 1 n.banks.cur.beams
    let k := n.banks.cur.firstBeam
    match (n.layers.buffered ++ n.layers.past).find? (fun x => x.pos == stamp && decide (x.first ≤ i) && decide (i < x.first + x.vals.length / b)) with
    | some x => if l < k ∨ k + b ≤ l then (0, 0) else (nth x.vals ((l - k) * (x.vals.length / b) + (i - x.first))).headD (0, 0)
    | none => (0, 0)
  else
    match (d.ins ++ d.sig.ended).find? (fun o => o.layer && o.sb == sb && o.num == o.base + l) with
    | none => (0, 0)
    | some o =>
      let w (x : InGroup) : Nat := max 1 (x.vals.headD []).length
      match (o.buffered ++ o.past).find? (fun x => x.pos == stamp && decide (x.first * w x ≤ i) && decide (i < (x.first + x.vals.length) * w x)) with
      | some x => nth x.vals.flatten (i - x.first * w x)
      | none => (0, 0)

/-- R280: what path `p` takes of delivered channel `i` for the group at a stamp, and how many components saturated. -/
def layered (d : Dev) (sb p stamp i : Nat) : Cx × Nat :=
  let f := valAt (nth d.sig.fre (4 + sb)) stamp
  if !f.on || !f.beamsOn then ((0, 0), 0)
  else
    let x := (List.range f.top.beams).map fun l => Cx.shrCount 2047 4 (layerSample d sb l stamp i)
    let y := Cx.shrCount 32767 f.bmShift (Cx.sum (x.zipIdx.map fun (v, l) => Cx.mul (weightAt f stamp i l p) v.1))
    (y.1, (x.map (·.2)).sum + y.2)

/-! ### Synthesis -/

/-- R265, R269: a path's samples of the group at a stamp after the inverse transform, and the saturations of the beamformer and of the
transform. Channels outside the delivered range are zero. -/
def synthesised (d : Dev) (sb p stamp : Nat) (turns : Nat → Nat) : List (Cx × Nat) × Nat :=
  let f := (valAt (nth d.sig.fre (4 + sb)) stamp).cfg
  let n := f.size
  let ch := (List.range f.nCh).map (layered d sb p stamp)
  let bin (c : Nat) : Cx := if f.firstCh ≤ c ∧ c < f.firstCh + f.nCh then quarters (turns c) (nth ch (c - f.firstCh)).1 else (0, 0)
  let y := Config.fft true f.log2 f.fftShift ((List.range n).map fun b => bin (if f.mode = 2 then (b + n / 2) % n else b))
  (y.map (Cx.shrCount 32767 0), (ch.map (·.2)).sum)

/-- R264: the part of sample `j` of a symbol, counted from its boundary, `len` samples long with a cyclic prefix of `cp`. -/
def symbolPart (f : FreCfg) (y : List (Cx × Nat)) (cp len j : Int) : Cx :=
  let h : Int := f.wola / 2
  let v := (nth y ((j - cp) % f.size).toNat).1
  if j < -h ∨ len + h ≤ j then (0, 0)
  else if j < h then Config.ramp f.wola (j + h).toNat v
  else if len - h ≤ j then Config.ramp f.wola (len + h - 1 - j).toNat v
  else v

/-- R261: the last symbol boundary at or before a position. -/
def symbolStart (c : FreCfg) (pos : Nat) : Nat :=
  let x := (((pos : Int) - c.symOffset) % 983040).toNat
  if x < c.longSymbol then pos - x else pos - (x - c.longSymbol) % c.symbol

/-- R264, R269: input `i` of the chain from a slot in mode 2: the symbol it lies in, and its neighbours where they overlap it; with the
components that saturate in the sum. A mute or a stop leaves out the symbols from its boundary on (R236). -/
def ofdmInput (d : Dev) (sb p k : Nat) (c : ChainPar) (f : FreCfg) (i : Int) : Cx × Nat :=
  let a := symbolStart f (inputPos k c i)
  let cut := [(d.txPath p).muteFrom, ((d.txPath p).sb sb).stopFrom]
  let part (s : Nat) : Cx :=
    if cut.any (fun t => t.any fun t => decide (t ≤ s)) then (0, 0) else
    let b := inputAt k c s
    let len := inputAt k c (symbolPos f s 1) - b
    symbolPart f (synthesised d sb p s fun _ => 0).1 (len - f.size) len (i - b)
  Cx.shrCount 32767 0 (Cx.sum [part (symbolStart f (a - 1)), part a, part (symbolPos f a 1)])

/-- R258, R269: the newest input of the first spectrum whose newest input is at or after input `i`. -/
def spectrumFrom (k : Nat) (c : ChainPar) (f : FreCfg) (i : Int) : Int :=
  let s := inputAt k c f.anchor + f.hop - 1
  i + (s - i) % max 1 f.hop

/-- R257, R269: the quarter turns that a spectrum's channel takes with the hop of 3M/4. -/
def hopTurns (k : Nat) (c : ChainPar) (f : FreCfg) (s : Int) (ch : Nat) : Nat :=
  if f.oversample = 1 then (-(3 * ((s - (inputAt k c f.anchor + f.hop - 1)) / max 1 f.hop) * ((ch : Int) - (f.size / 2 : Nat))) % 4).toNat else 0

/-- R256 to R259, R269: input `i` of the chain from a slot in mode 1: the synthesis windows of every spectrum that covers it, with the
components that saturate after `pfb_shift`. -/
def pfbInput (d : Dev) (sb p k : Nat) (c : ChainPar) (f : FreCfg) (i : Int) : Cx × Nat :=
  let m := f.size * f.taps
  let first := spectrumFrom k c f i
  let set := valAt (nth d.sig.fre (4 + sb)) (inputPos k c i)
  Cx.shrCount 32767 f.pfbShift <| Cx.sum <| (List.range (ceilDiv m (max 1 f.hop))).map fun (n : Nat) =>
    let s := first + n * f.hop
    let j := (i - (s - (m - 1 : Nat))).toNat
    if i < s - (m - 1 : Nat) then (0, 0)
    else
      let v := (nth (synthesised d sb p (spectrumPos k c f s) (hopTurns k c f s)).1 (j % f.size)).1
      Cx.scale (protoTap set j) (if j % 2 = 1 then (-v.1, -v.2) else v)

/-! ### Sources -/

/-- R217: the sample of a host stream for input `i` of a sub-band, zero where no group came; BFP9 saturates to 16+16 (R216). -/
def hostInput (d : Dev) (p sb k : Nat) (c : ChainPar) (i : Int) : Cx × Nat :=
  match (d.ins ++ d.sig.ended).find? (fun o => !o.layer && o.sb == sb && o.paths.contains p) with
  | none => ((0, 0), 0)
  | some o =>
    let e := o.paths.idxOf p
    let w : Nat := if o.format = 3 then 16 else 1
    let at_ (x : InGroup) : Int := inputAt k c x.pos
    match (o.buffered ++ o.past).find? (fun x => decide (at_ x ≤ i) && decide (i < at_ x + w) && decide (x.first ≤ e) && decide (e < x.first + x.vals.length)) with
    | some x => Cx.shrCount 32767 0 (nth (nth x.vals (e - x.first)) (i - at_ x).toNat)
    | none => ((0, 0), 0)

/-- R216: input `i` of stage C of a sub-band under its configuration, from the one source it names. A slot that is disabled ends its symbol,
or drains its synthesis window, as its later groups are zero (R289). -/
def txSource (d : Dev) (p sb k : Nat) (c : TxCfg) (i : Int) : Cx × Nat :=
  let at_ := inputPos k c.chain i
  match c.source with
  | 1 =>
    let f := (valAt (nth d.sig.fre (4 + sb)) at_).cfg
    match f.mode with
      | 0 => (layered d sb p at_ 0)
      | 1 => pfbInput d sb p k c.chain f i
      | _ => ofdmInput d sb p k c.chain f i
  | 2 => hostInput d p sb k c.chain i
  | 3 => ((((d.txPath p).sb sb).cutIn.find? fun e => inputAt k c.chain e.1 == i).map (·.2) |>.getD (0, 0), 0)
  | _ => ((0, 0), 0)

/-! ### The sub-band chain -/

/-- What the transmit functions read of the unit for one sub-band. -/
structure TxChain where
  k : Nat
  hist : List (Nat × TxNow)
  source : TxCfg → Int → Cx × Nat

def txChain (d : Dev) (p s : Nat) : TxChain :=
  let k := max 1 (profileK d ((d.txPath p).sb s).banks.cur.cfg.chain.profile)
  { k := k, hist := nth d.sig.tx (p * 4 + s), source := txSource d p s k }

/-- The settings at the antenna instant of an ADC sample, and those of the newest input that shapes it (R73): stage C combines inputs up to
eight after its output. -/
def TxChain.at_ (x : TxChain) (n : Nat) : TxNow := valAt x.hist (adcTick x.k n)
def TxChain.tag (x : TxChain) (n : Nat) : TxNow :=
  let c := (x.at_ n).bank.cfg.chain
  if c.cRatio = 0 then x.at_ n else valAt x.hist (adcTick x.k n + 8 * inNum c / inDen x.k c)

/-- R220: a coefficient of stage B or C. -/
def txTapB (b : TxBank) (t : Nat) : Int := if b.cfg.chain.bCoef = 1 then nth b.bCoefs t else Config.stdB true b.cfg.chain.bFactor t
def txTapC (b : TxBank) (ph t : Nat) : Int := if b.cCoefs.isEmpty then Config.stdC true ph t else nth b.cCoefs (ph * 16 + t)

/-- R219: output `m` of stage C, at ADC sample `m` × I_A × I_B: sixteen inputs about its position, with the phase nearest of 1,024; the
source's sample when stage C is bypassed. With it the components that saturated, those of the source among them. -/
def TxChain.stageC (x : TxChain) (b : TxBank) (m : Nat) : Cx × Nat :=
  let b := (x.tag (m * outStep b.cfg.chain)).bank
  let c := b.cfg.chain
  if c.cRatio = 0 then x.source b.cfg m
  else
    let e : Int := 2 * outStep c * 2 ^ 32
    let w : Int := ((2 * m * outStep c : Nat) - (c.cAnchor * x.k : Nat)) * c.cRatio
    let i := (w + e / 2048) / e
    let ph := (((w - i * e) * 1024 + e / 2) / e).toNat
    let v := Cx.shrCount 8388607 c.cShift (Cx.sum ((List.range 16).map fun (t : Nat) => Cx.scale (txTapC b ph t) (x.source b.cfg (i + 8 - t)).1))
    (v.1, v.2 + (x.source b.cfg (i + 8)).2)

/-- R219: stage B at a sample of its output: zero-stuffed inputs through the FIR; what stage C gives when it is bypassed. -/
def TxChain.stageB (x : TxChain) (b : TxBank) (q : Nat) : Cx × Nat :=
  let c := b.cfg.chain
  if c.bTaps = 0 then ((x.stageC b q).1, 0)
  else
    let f := max 1 c.bFactor
    Cx.shrCount 8388607 c.bShift (Cx.sum ((List.range c.bTaps).map fun t =>
      if t ≤ q ∧ (q - t) % f = 0 then Cx.scale (txTapB b t) (x.stageC b ((q - t) / f)).1 else (0, 0)))

/-- R219: the zero-stuffed input of stage A and its moving-average sections. -/
def TxChain.sections (x : TxChain) (b : TxBank) : Nat → Nat → Cx
  | 0, n => let f := max 1 b.cfg.chain.aFactor; if n % f = 0 then (x.stageB b (n / f)).1 else (0, 0)
  | j + 1, n =>
    let c := b.cfg.chain
    if j < c.aSections then Cx.sum ((List.range (nth c.aLength j)).map fun i => if i ≤ n then x.sections b j (n - i) else (0, 0)) else x.sections b j n

/-- R219: stage A at an ADC sample. -/
def TxChain.stageA (x : TxChain) (n : Nat) : Cx × Nat :=
  let b := (x.tag n).bank
  Cx.shrCount 32767 b.cfg.chain.aShift (x.sections b 5 n)

/-- The group delay of stages A and B in ADC samples, rounded down: an antenna sample is the output that many samples on (R226). -/
def txLead (c : ChainPar) : Nat := (aSpan c + (if c.bTaps = 0 then 0 else c.aFactor * bTerm c)) / 2

/-- R221, R227: the NCO's word for a frequency, and its phase at an ADC sample. -/
def txWord (d : Dev) (c : ChainPar) (hz : Int) : Nat :=
  let fs := adcRate d c.profile
  if fs = 0 then 0 else (divHalfEven (hz * 2 ^ 48) fs % 2 ^ 48).toNat
def txPhase (k : Nat) (m : TxNow) (word n : Nat) : Nat :=
  let (pos, ph) := m.ref.getD (0, m.bank.cfg.chain.phase)
  (((ph * 65536 + m.turn * 2 ^ 32 : Nat) + word * ((n : Int) - adcFrom k pos)) % 2 ^ 48).toNat

/-- R227: a tone's sample before the mixer: its level below full scale. -/
def toneLevel (t : Tone) : Cx := (divHalfEven (32752 * decPow (-50 * (t.level : Int))) (2 ^ 64), 0)

/-- R227, R228: whether a sub-band's sample passes the window at a position, and the tone in force there. -/
def TxNow.toneAt (m : TxNow) (pos : Nat) : Option Tone := m.tone.filter fun t => decide (t.start ≤ pos) && decide (pos < t.stop)
def TxNow.passes (m : TxNow) (pos : Nat) : Bool := m.win || (m.toneAt pos).isSome

/-- R219, R221, R228, R457: a sub-band's contribution to the composite at an ADC sample, nothing while another profile is in force, with the components that saturated in gain and
up-mix. -/
def contribution (d : Dev) (p s n : Nat) : Cx × Nat :=
  let x := txChain d p s
  let pos := adcTick x.k n
  let m := x.at_ n
  if !m.passes pos || (valAt (nth d.sig.paths p) pos).synth.headD 0 != m.bank.cfg.chain.profile then ((0, 0), 0)
  else
    let c := m.bank.cfg.chain
    let centre : Int := c.rf - (valAt (nth d.sig.paths p) pos).dacCentre
    let (hz, v) := match m.toneAt pos with
      | some t => (centre + t.offset, toneLevel t)
      | none => (centre, (x.stageA (n + txLead c)).1)
    let a := Cx.shrCount 32767 14 (if (m.toneAt pos).isSome then Cx.scale 16384 v else Cx.scale (x.tag (n + txLead c)).bank.cfg.gain v)
    let y := Cx.shrCount 32767 17 (Cx.mul (Config.nco (txPhase x.k m (txWord d c hz) n)) a.1)
    (y.1, a.2 + y.2)

/-! ### The composite -/

/-! ### The T/R switch and mutes at a symbol's end -/

/-- R228: whether a path's window is open at a position. -/
def windowAt (d : Dev) (p pos : Nat) : Bool := (List.range 4).any fun s => (valAt (nth d.sig.tx (p * 4 + s)) pos).passes pos

/-- R230: the T/R switch goes to transmit 100 ns before the antenna instant of an opening, and back to receive at that of the close. -/
def trBusy (d : Dev) (p : Nat) : Bool := (nth d.fe p).st == 2 || (List.range 4).any fun s => !(nth d.sig.tx (p * 4 + s)).isEmpty
def trTick (d : Dev) (p : Nat) : Dev :=
  if (nth d.fe p).st = 2 then
    (if windowAt d p d.axis || windowAt d p (d.axis + 197) || (d.bcn.txUntil.isSome && d.bcn.sent.any (·.path == p)) then d else feFromTx d p)
  else if windowAt d p (d.axis + 197) then feToTx d p
  else d

/-- R236: a host's mute that waits for the end of a symbol sets in as its tail has left. -/
def muteTick (d : Dev) (p : Nat) : Dev :=
  match (d.txPath p).muteFrom with
  | some b =>
    let tail := (((List.range 4).filterMap fun s => (symbolEnd d p s).map (·.2)).max?).getD 0
    if !(d.txPath p).muteHost && (d.txPath p).hostAsked && decide (b + tail ≤ d.axis) then (countMuted d p).onTx p fun x => { x with muteHost := true } else d
  | none => d

/-- The factor k of the rate profile in force. -/
def kNow (d : Dev) : Nat := max 1 (profileK d d.syn.profile)

/-- R228: the positions at which a path's window may change: those its histories hold, and the ends of tones. -/
def pathChanges (d : Dev) (p : Nat) : List Nat :=
  (nth d.sig.paths p).map (·.1) ++ (List.range 4).flatMap fun s => (nth d.sig.tx (p * 4 + s)).flatMap fun e =>
    e.1 :: (match e.2.tone with
      | some t => [t.start, t.stop]
      | none => [])

/-- R228: whether a path radiates at a position. -/
def passAt (d : Dev) (p pos : Nat) : Bool := let m := valAt (nth d.sig.paths p) pos; windowAt d p pos && !m.soft && !m.hard

/-- R228, R233: the last change at or before a position to radiating or from it. -/
def lastTurn (d : Dev) (p pos : Nat) (up : Bool) : Option Nat :=
  ((pathChanges d p).filter fun a => decide (a ≤ pos) && passAt d p a == up && passAt d p (a - 1) == !up).max?

/-- R228: the next position at which the window of a path that is open closes: one its histories hold, or that of a queued TX-CLOSE that
names every sub-band open. -/
def nextClose (d : Dev) (p pos : Nat) : Option Nat :=
  let live := (List.range 4).filter fun s => (valAt (nth d.sig.tx (p * 4 + s)) pos).passes pos
  (((pathChanges d p).filter fun a => decide (pos < a) && !windowAt d p a) ++
    (d.tmb.stakes.filter fun q => q.stake.action == 0x0402 && decide (pos < q.pos) && live.all fun s => (named q.stake.target).contains (p, s)).map (·.pos)).min?

/-- R228, R229: the length of a path's ramp in ticks at a position; none where its source is the frequency engine in mode 2, but for a
symbol that a close cuts. -/
def rampLen (d : Dev) (p pos : Nat) (close : Option Nat) : Nat :=
  let ofdm (s : Nat) : Bool := ((d.txPath p).sb s).banks.cur.cfg.source == 1 && (nth d.fre (4 + s)).on && (nth d.fre (4 + s)).cfg.mode == 2
  let live := (List.range 4).filter fun s => (valAt (nth d.sig.tx (p * 4 + s)) pos).passes pos
  if !live.isEmpty && live.all ofdm then (if close.any fun a => live.any fun s => cutsSymbol d p s a then 64 else 0)
  else (valAt (nth d.sig.paths p) pos).ramp

/-- R228, R233: a sample with the ramps applied. -/
def ramped (d : Dev) (p n : Nat) (v : Cx) : Cx :=
  let k := kNow d
  let pos := adcTick k n
  let ticks (len : Nat) : Nat := len * k / 2
  let rise (len : Nat) (v : Cx) : Cx := match lastTurn d p pos true with
    | some a => if n < adcFrom k a + ticks len then Config.ramp (ticks len) (n - adcFrom k a) v else v
    | none => v
  if passAt d p pos then
    let close := nextClose d p pos
    let v := rise (rampLen d p pos none) v
    match close with
    | some a => let len := rampLen d p pos close; if adcFrom k a ≤ n + ticks len then Config.ramp (ticks len) (adcFrom k a - 1 - n) v else v
    | none => v
  else if windowAt d p pos && !(valAt (nth d.sig.paths p) pos).hard then
    match lastTurn d p pos false with
    | some a => let len := ticks (valAt (nth d.sig.paths p) pos).ramp; if n < adcFrom k a + len then Config.ramp len (len - 1 - (n - adcFrom k a)) v else (0, 0)
    | none => (0, 0)
  else (0, 0)

/-- R236: the contribution of a sub-band that stops while others go on, with a ramp of its own. -/
def stopping (d : Dev) (p s n : Nat) (v : Cx) : Cx :=
  let x := (d.txPath p).sb s
  match x.stopAt with
  | none => v
  | some t =>
    let k := kNow d
    let len := (valAt (nth d.sig.paths p) (adcTick k n)).ramp * k / 2
    if x.stopFrom.isNone && windowAt d p t && decide (adcFrom k t ≤ n + len) && decide (n < adcFrom k t) then Config.ramp len (adcFrom k t - 1 - n) v else v

/-! ### The beacon's carrier -/

/-- R463: the bits of bytes, most significant first, and the chips of bits: each a pair, on-off for 1, sent `nr` times. -/
def bitsMsb (l : List Nat) : List Bool := l.flatMap fun b => (List.range 8).map fun k => b.testBit (7 - k)
def manchester (nr : Nat) (l : List Nat) : List Bool := (bitsMsb l).flatMap fun b => (List.replicate nr [b, !b]).flatten

/-- R463: the sync word that names `nr`. -/
def syncWord (nr : Nat) : Nat := if nr = 1 then 0x2D8E47B1 else if nr = 3 then 0x6B3CD215 else if nr = 5 then 0x9E51A8C6 else 0xC6E21B9D

/-- R463: the keyed chips of a beacon, up to its gap or its end. -/
def BcnSent.chips (b : BcnSent) : List Bool :=
  bitsMsb (bytesOf [fld 4 0xE4B2D15A, fld 4 0xE4B2D15A, fld 4 0xE4B2D15A, fld 4 (syncWord b.cfg.nr)]) ++ manchester b.cfg.nr b.head
    ++ (if b.load.isEmpty then [] else manchester b.cfg.nr (b.load ++ bytesOf [fld 4 (crc32c b.load)]))

/-- R463, R466: whether the carrier is on in a chip: the keyed ones, the gap, the tail. -/
def BcnSent.onChip (b : BcnSent) (l : List Bool) (c : Nat) : Bool :=
  if c < l.length then nth l c else b.cfg.tailLen != 0 && decide (l.length + 16 ≤ c) && decide (c < l.length + 16 + b.cfg.tailLen)

/-- R466: the phase that the chirp adds `a`/`k` ticks into the tail, in 2^-48 turn. -/
def chirpPhase (c : BcnCfg) (k a : Nat) : Int :=
  let t : Int := c.tailLen * 512 * k
  divHalfEven ((c.tailBw * 1000000 * 2 ^ 48 : Int) * a * (a - t)) (2 * t.toNat * k * tickHz)

/-- R462, R466: the carrier of a beacon at an ADC sample of its path, -`bcn_level` below full scale. That a chip's ramp stands at the beginning of
the chip is a DESIGN CHOICE (log entry 124). -/
def BcnSent.sample (d : Dev) (b : BcnSent) (n : Nat) : Option Cx :=
  let k := kNow d
  let n0 := adcFrom k b.start
  let l := b.chips
  let pos := adcTick k n
  if n < n0 then none
  else
    let c := (pos - b.start) / 512
    let on := b.onChip l c
    let was := decide (0 < c) && b.onChip l (c - 1)
    if !on && !was then none
    else
      let fs := adcRate d d.syn.profile
      let word : Int := if fs = 0 then 0 else divHalfEven (((b.cfg.freq : Int) - (valAt (nth d.sig.paths b.path) pos).dacCentre) * 2 ^ 48) fs
      let tail := n0 + ceilDiv ((l.length + 16) * 512 * k) 2
      let chirp : Int := if l.length + 16 ≤ c then chirpPhase b.cfg k (2 * (n - tail)) else 0
      let ph := ((Config.beaconPhase b.start : Int) + word * ((n : Int) - n0) + chirp) % 2 ^ 48
      let a : Cx := (divHalfEven (32752 * decPow (-50 * (b.cfg.level : Int))) (2 ^ 64), 0)
      let v := (Cx.shrCount 32767 17 (Cx.mul (Config.nco ph.toNat) a)).1
      let len := 32 * k
      let j := n - (n0 + ceilDiv (c * 512 * k) 2)
      if len ≤ j then (if on then some v else none)
      else if on && was then some v
      else some (if on then Config.ramp len j v else Config.ramp len (len - 1 - j) v)

/-- R222, R228, R238, R462: the composite at an ADC sample with the fine gain applied, with the components that saturated after `sum_shift` and
in that gain. A beacon has no window, and no ramp of one. -/
def composite (d : Dev) (p n : Nat) : Cx × Nat :=
  let m := valAt (nth d.sig.paths p) (adcTick (kNow d) n)
  let bcn := (d.bcn.sent.filter fun b => b.path == p && nth m.synth 2 == 0).bind fun b => b.sample d n
  let v := Cx.shrCount 32767 m.sumShift (Cx.sum (((List.range 4).map fun s => (stopping d p s n (contribution d p s n).1)) ++ bcn.toList))
  let g : Int := Nat.sqrt (decPow m.fine * 2 ^ 64)
  let w := Cx.shrCount 32767 64 (Cx.scale g v.1)
  let shape (x : Cx) : Cx := if bcn.isSome then x else ramped d p n x
  if m.fine = 0 then (shape v.1, v.2) else (shape w.1, v.2 + w.2)

/-! ### Predistortion -/

/-- R382: |u|^2 in 2^-17, and its powers |u|^(2 j), each rounded and saturated to 18 bits. -/
def uSquare (x : Cx) : Nat := min (2 ^ 18 - 1) (divHalfEven (Cx.norm x) (2 ^ 13)).toNat
def uPower (x : Cx) : Nat → Nat
  | 0 => 2 ^ 17
  | j + 1 => min (2 ^ 18 - 1) (divHalfEven (uPower x j * uSquare x : Nat) (2 ^ 17)).toNat

/-- R381: a sample times |u|^(2 j). -/
def powered (x : Cx) (j : Nat) : Cx := if j = 0 then x else (divHalfEven (x.1 * uPower x j) (2 ^ 17), divHalfEven (x.2 * uPower x j) (2 ^ 17))

/-- R381: neighbour `q`'s input with its window bit and its governor gain. -/
def neighbour (d : Dev) (q n : Nat) : Cx :=
  let pos := adcTick (kNow d) n
  if !windowAt d q pos then (0, 0)
  else
    let g := (valAt (nth d.sig.paths q) pos).gain
    let x := (composite d q n).1
    (divHalfEven (x.1 * g) 32768, divHalfEven (x.2 * g) 32768)

/-- R381 to R385: the predistorter's output at an ADC sample, with the components that saturated; the identity set where it is off. -/
def predistorted (d : Dev) (p n : Nat) : Cx × Nat :=
  let m := valAt (nth d.sig.paths p) (adcTick (kNow d) n)
  let l := m.live
  if !l.on then ((composite d p n).1, 0)
  else
    let a := fullSet l m.bank
    let back (f : Nat → Cx) (t : Nat) : Cx := if t ≤ n then f (n - t) else (0, 0)
    let own := (List.range l.na).map fun j => Cx.mul (nth a j) (powered (back (fun i => (composite d p i).1) (j % l.mem)) (j / l.mem))
    let side (q base : Nat) : List Cx :=
      if 63 < q then []
      else (List.range l.nbrMem).flatMap fun t =>
        let x := back (neighbour d q) t
        [Cx.mul (nth a (base + t)) x, Cx.mul (nth a (base + l.nbrMem + t)) (powered x 1)]
    Cx.shrCount 32767 15 (Cx.sum (own ++ side l.nbrLo l.na ++ side l.nbrHi (l.na + 2 * l.nbrMem)))

/-! ### The governor's gain and the DAC -/

/-- R222: the governed composite at an ADC sample. -/
def governed (d : Dev) (p n : Nat) : Cx × Nat :=
  Cx.shrCount 32767 15 (Cx.scale (valAt (nth d.sig.paths p) (adcTick (kNow d) n)).gain (predistorted d p n).1)

/-- R222: DAC sample `w`, at twice the ADC rate, and whether it saturates: through the half-band filter, mixed by `dac_centre`, the real
part over 16. -/
def dacSample (d : Dev) (p w : Nat) : Int × Bool :=
  let m := valAt (nth d.sig.paths p) (adcTick (kNow d) (w / 2))
  let up := Cx.sum ((List.range (2 * Config.halfBandSpan + 1)).map fun (j : Nat) =>
    let i : Int := w + Config.halfBandSpan - j
    if i % 2 = 0 ∧ 0 ≤ i then Cx.scale (Config.halfBand (j : Nat)) (governed d p (i / 2).toNat).1 else (0, 0))
  let fs := 2 * adcRate d d.syn.profile
  let word := if fs = 0 then 0 else (divHalfEven ((m.dacCentre : Int) * 2 ^ 48) fs).toNat
  let v := divHalfEven (Cx.mul up (Config.nco (word * w % 2 ^ 48))).1 (2 ^ 38)
  (max (-2047) (min 2047 v), decide (2047 < v.natAbs))

/-! ### Counts -/

/-- The ADC samples of a tick. -/
def adcIn (k tick : Nat) : List Nat := (List.range ((k + 1) / 2)).map (· + adcFrom k tick)
def samplesIn (k tick : Nat) : List Nat := (adcIn k tick).filter fun n => adcTick k n == tick

/-- R223: the components that saturated for an ADC sample of a sub-band: in stage C and the source, in stage B, in stage A, in gain and
up-mix. A stage's output counts at the first ADC sample it shapes. -/
def txStageSats (d : Dev) (p s n : Nat) : List Nat :=
  let x := txChain d p s
  let m := x.at_ n
  if !m.on then [0, 0, 0, 0]
  else
    let b := (x.tag (n + txLead m.bank.cfg.chain)).bank
    let c := b.cfg.chain
    let i := n + txLead c
    let a := max 1 c.aFactor
    [if i % outStep c = 0 then (x.stageC b (i / outStep c)).2 else 0, if i % a = 0 then (x.stageB b (i / a)).2 else 0, (x.stageA i).2, (contribution d p s n).2]

/-- R223: the components that saturated for an ADC sample of a path at the sum, the governor and the DAC. -/
def txOutSats (d : Dev) (p n : Nat) : Nat := (composite d p n).2 + (governed d p n).2 + b2n (dacSample d p (2 * n)).2 + b2n (dacSample d p (2 * n + 1)).2

/-- R223, R382: a tick's saturations of a path counted, with the sticky bits and the events. -/
def txTick (d : Dev) (p : Nat) : Dev :=
  let ns := samplesIn (kNow d) d.axis
  let per := (List.range 4).map fun s => (List.range 4).map fun j => (ns.map fun n => nth (txStageSats d p s n) j).sum
  let out := (ns.map (txOutSats d p)).sum
  let dpd := (ns.map fun n => (predistorted d p n).2).sum
  let any (j : Nat) : Bool := per.any fun l => decide (0 < nth l j)
  let d := d.onTx p fun x => { x with
    sbs := x.sbs.zipIdx.map fun (s, i) => { s with counts := s.counts.zipIdx.map fun (c, j) => sat32 (c + nth (nth per i) j) },
    satOut := sat32 (x.satOut + out),
    sticky := (x.sticky.zip [any 0, any 1, any 2 || any 3, decide (0 < out)]).map fun (a, b) => a || b }
  let d := if per.any (fun l => l.any fun v => decide (0 < v)) || decide (0 < out) then raiseLimited d EV.txSat p [a4 p] else d
  if dpd = 0 then d
  else raiseLimited (d.onDpdPath p fun x => { x with counts := upd x.counts 6 fun c => sat32 (c + dpd), sticky := upd x.sticky 0 fun _ => true }) EV.dpdSat p [a4 p]

/-- R241: the energy of a path's governed composite over the `n` ticks before the present one, in fJ without margin. -/
def pathEnergy (d : Dev) (p n : Nat) : Nat :=
  if !(d.txPath p).sbs.any (·.on) then 0
  else
    let k := kNow d
    let e := ((List.range n).flatMap fun j => if j < d.axis then samplesIn k (d.axis - 1 - j) else []).map fun i => Cx.norm (governed d p i).1
    e.sum * decPow (d.txPath p).fsPower * 10 ^ 12 / (32752 ^ 2 * 2 ^ 64 * max 1 (adcRate d d.syn.profile))

end Sys2Proof.Machine
end

