-- ==== Sys2Proof/Machine/Predistort.lean ====
section
/-! DEFINITION. Chapter 11, predistortion: configuration and coefficient sets (R384 to R388), observer slots and assignment
(R390 to R395), the outcome of captures and solves (R395 to R399, R401), back-off (R400), pauses and saved sets (R403
to R405) and the commands (R406, R407). What an
observer measures and what the solve makes of it (R396, R397) are operands. -/

namespace Sys2Proof.Machine

/-! ### Words and checks -/

/-- R74: whether a queued swap arms a path's shadow bank. -/
def dpdArmed (d : Dev) (p : Nat) : Bool := armed d 0x0901 5 p fun t => (namedPaths t).contains p

/-- R403: the pause code of a path, 0 for one that does not adapt. -/
def dpdPause (d : Dev) (p : Nat) : Nat :=
  if !(d.dpdPath p).adapts then 0
  else if !domOn d 3 || d.dpd.obs.all (·.fault) then 3
  else if unitGap d d.axis then 2
  else if (d.txPath p).gain < 32768 ∨ (d.txPath p).adaptHeld.isSome then 1 else 0

/-- DPD_PATH_STATUS_n. -/
def dpdStatus (d : Dev) (p : Nat) : Nat :=
  let x := d.dpdPath p
  let age := match x.req with
    | some (t, _) => min 255 ((d.now - t) / 983040)
    | none => 0
  let svc := match x.svc with
    | some s => s.obs * 2 ^ 6 + 2 ^ 5
    | none => 0
  b2n x.live.on * 2 ^ 31 + b2n x.adapts * 2 ^ 30 + x.banks.index * 2 ^ 29 + b2n (dpdArmed d p) * 2 ^ 28 + b2n x.req.isSome * 2 ^ 27
    + b2n (dpdOver d p false || (x.base.isNone && x.req.any (·.2))) * 2 ^ 26 + b2n (dpdOver d p true) * 2 ^ 25 + x.backoff * 2 ^ 22 + dpdPause d p * 2 ^ 20
    + b2n (nth x.sticky 0) * 2 ^ 19 + b2n (nth x.sticky 1) * 2 ^ 18 + b2n (nth x.sticky 2) * 2 ^ 17 + b2n (nth x.sticky 3) * 2 ^ 16 + age * 2 ^ 8 + svc

/-- The path an observer serves. -/
def obsPath (d : Dev) (k : Nat) : Option Nat := (List.range 64).find? fun p => (d.dpdPath p).svc.any fun s => s.obs == k

/-- DPD_OBS_STATUS_n. -/
def obsStatus (d : Dev) (k : Nat) : Nat :=
  let o := nth d.dpd.obs k
  let seen := b2n o.faultSeen * 2 ^ 21
  if o.fault then 3 * 2 ^ 30 + seen
  else if d.dpd.reserved.contains (slotOf d.axis) then 2 * 2 ^ 30 + seen
  else match obsPath d k with
    | some p =>
      match (d.dpdPath p).svc with
      | some s => 2 ^ 30 + p * 2 ^ 24 + b2n (decide (d.axis < s.start + 3932)) * 2 ^ 23 + b2n s.captured * 2 ^ 22 + seen
      | none => seen
    | none => seen

/-- R386, R387: a configuration's fields. -/
def dpdCfgOk (d : Dev) (c : DpdCfg) (p : Nat) : Bool :=
  let nbr (n : Nat) : Bool := (n == 0xFF || decide (n ≤ 63)) && n != p
  [1, 3, 5, 7, 9].contains c.order && decide (1 ≤ c.mem) && decide (c.mem ≤ 8) && decide (c.nbrMem ≤ 8) && nbr c.nbrLo && nbr c.nbrHi
    && c.capLen % 1024 == 0 && decide (1024 ≤ c.capLen) && decide (c.capLen ≤ 16384) && decide (1 ≤ c.step) && decide (c.step ≤ 255) && decide (c.reg ≤ 31)
    && decide (10 ≤ c.maxAge) && decide (c.maxAge ≤ 60000) && decide (c.tempDrift ≤ 50) && decide (c.stepDrift ≤ 50) && decide (c.backoffMax ≤ 6)
    && decide (c.boundNmse ≤ c.hardNmse) && decide (c.boundOob ≤ c.hardOob) && c.dpdOn % 64 == 0 && c.reserved23 == 0
    && !(d.ident.variant == .a && decide (64 ≤ c.dpdOn))

def dpdCfgFields (c : DpdCfg) : List Field :=
  [fld 1 c.dpdOn, fld 1 c.order, fld 1 c.mem, fld 1 c.nbrMem, fld 1 c.nbrLo, fld 1 c.nbrHi, fld 2 c.capLen, fld 1 c.step, fld 1 c.reg, sfld 2 c.boundNmse,
   sfld 2 c.boundOob, sfld 2 c.hardNmse, sfld 2 c.hardOob, fld 2 c.maxAge, fld 1 c.tempDrift, fld 1 c.stepDrift, fld 1 c.backoffMax, fld 9 c.reserved23]

/-! ### Commands (R406, R407) -/

/-- DPD-SET (R386, R387, R405): adaptation turned off withdraws the request and discards the solve of a slot in
progress. -/
def execDpdSet (h : Hdr) (mask : Nat) (cfg : DpdCfg) : Meaning :=
  hostCmd (cmd 0x0900 [1]) h (.dpdSet h mask cfg)
    (fun d => firstBad [((pathsOf mask).any (fun p => !dpdCfgOk d cfg p), ST.dpdArg), (!domOn d 6, ST.domainOff)])
    (fun d =>
      { dev := (pathsOf mask).foldl (fun d p =>
          let was := (d.dpdPath p).adapts
          let d := d.onDpdPath p fun x => { x with cfg := cfg }
          let d := if was && !(d.dpdPath p).adapts then
              d.onDpdPath p fun x => { x with req := none, svc := x.svc.map fun s => { s with discard := true } }
            else d
          dpdJudge d p) d,
        reply := { fields := [fld 1 (liveOf cfg).nc] } })

/-- DPD-GET. -/
def execDpdGet (h : Hdr) (path : Nat) : Meaning :=
  query (ask 0x0901 [32, 4]) h (.dpdGet h path) (fun _ => firstBad [(decide (63 < path), ST.badArg)]) fun d =>
    dpdCfgFields (d.dpdPath path).cfg ++ [fld 4 (dpdStatus d path)]

/-- The header of a coefficient object (R388): its structure fields, mask and zero bytes; none for another layout. -/
def dpdHeader (b : List Nat) : Option (Nat × Nat × Nat × Nat) :=
  if b.length < 16 ∨ b.headD 0 ≠ 0x44 ∨ beAt b 12 4 ≠ 0 then none else some (beAt b 1 1, beAt b 2 1, beAt b 3 1, beAt b 4 8)

/-- R388: whether an object is one whole set per path of its mask, made for the paths' configurations. -/
def dpdObjectOk (d : Dev) (b : List Nat) : Bool :=
  match dpdHeader b with
  | none => false
  | some (o, m, n, mask) =>
    (pathsOf mask).all (fun p => let c := (d.dpdPath p).cfg; c.order == o && c.mem == m && c.nbrMem == n)
      && b.length == 16 + (pathsOf mask).length * (((o + 1) / 2 * m) + 4 * n) * 8

/-- The sets of an object, in the order of its paths: a word's 18 low bits are a code (R388). -/
def dpdObjectSet (b : List Nat) (nc k : Nat) : List (Int × Int) :=
  (List.range nc).map fun j => let o := 16 + (k * nc + j) * 8; (toSigned 18 (beAt b o 4), toSigned 18 (beAt b (o + 4) 4))

/-- R407: the paths whose shadow bank a solve is writing, with the end of its slot. -/
def dpdWriting (d : Dev) (ps : List Nat) : List Nat :=
  ps.filterMap fun p =>
    match (d.dpdPath p).svc, (d.dpdPath p).swapAt with
    | _, some t => some t
    | some s, none => if s.stage = 1 then some (s.start + 983040) else none
    | none, none => none

/-- The checks of DPD-COEF-LOAD. -/
def dpdCoefLoadCheck (handle apply : Nat) (d : Dev) : Option Reply :=
  let b := objBytes d handle
  let ps := match dpdHeader b with
    | some (_, _, _, mask) => pathsOf mask
    | none => []
  Checks.orElse (firstBad [(decide (1 < apply), ST.badArg), ((d.obj? handle).any (fun o => o.kind != 2), ST.badArg),
      ((d.obj? handle).any (·.closed) && !dpdObjectOk d b, ST.dpdCoef), (d.ident.variant == .a, ST.dpdState), (!domOn d 6, ST.domainOff)])
    <| Checks.orElse (objCheck d handle 2)
    <| Checks.orElse (if ps.any (dpdArmed d) then refusal ST.shadowArmed
      else match dpdWriting d ps with
        | t :: _ => some { status := ST.dpdBusy, retry := ticksUs (t - d.axis), hint := t }
        | [] => none)
    <| Checks.orElse (bankCheck d false (ps.filterMap fun p => (d.dpdPath p).banks.busy d.axis))
    <| firstBad [((d.obj? handle).any (fun o => !o.thorns.isEmpty), ST.thorn)]

/-- DPD-COEF-LOAD (R388, R407). -/
def execDpdCoefLoad (h : Hdr) (handle apply : Nat) : Meaning :=
  hostCmd (cmd 0x0902) h (.dpdCoefLoad h handle apply)
    (dpdCoefLoadCheck handle apply)
    (just fun d =>
      let b := objBytes d handle
      match dpdHeader b with
      | none => d
      | some (_, _, _, mask) =>
        consume (((pathsOf mask).zipIdx).foldl (fun d (p, k) => d.onDpdPath p fun x =>
          let l := liveOf x.cfg
          { x with banks := x.banks.write { shape := l, coefs := dpdObjectSet b l.nc k }, applyAtOpen := apply == 1 }) d) handle)

/-- The checks of DPD-COEF-READ. -/
def dpdCoefReadCheck (mask bank : Nat) (d : Dev) : Option Reply :=
  let l := (d.dpdPath ((pathsOf mask).headD 0)).live
  firstBad [(decide (1 < bank), ST.badArg),
    ((pathsOf mask).any (fun p => let m := (d.dpdPath p).live; m.order != l.order || m.mem != l.mem || m.nbrMem != l.nbrMem), ST.dpdCoef),
    (!domOn d 6, ST.domainOff)]

/-- DPD-COEF-READ (R388): the named paths share one structure, as one header serves them. -/
def execDpdCoefRead (h : Hdr) (mask bank : Nat) : Meaning :=
  hostCmd (ask 0x0903 [2]) h (.dpdCoefRead h mask bank)
    (dpdCoefReadCheck mask bank)
    (fun d =>
      let l := (d.dpdPath ((pathsOf mask).headD 0)).live
      let sets := (pathsOf mask).flatMap fun p =>
        let x := d.dpdPath p
        fullSet x.live (if x.banks.index = bank then x.banks.cur else x.banks.shd)
      let (n, d) := addOut d h.session 2 (bytesOf ([fld 1 0x44, fld 1 l.order, fld 1 l.mem, fld 1 l.nbrMem, fld 8 mask, fld 4 0]
        ++ sets.flatMap fun c => [sfld 4 c.1, sfld 4 c.2])) [] (domOn d 9)
      { dev := d, reply := { fields := [fld 2 n] } })

/-- DPD-REQUEST (R392, R407). -/
def execDpdRequest (h : Hdr) (mask overBound : Nat) : Meaning :=
  hostCmd (cmd 0x0904 [1]) h (.dpdRequest h mask overBound)
    (fun d => firstBad [(decide (1 < overBound), ST.badArg), ((pathsOf mask).any (fun p => !(d.dpdPath p).adapts), ST.dpdState), (!domOn d 6, ST.domainOff)])
    (fun d =>
      { dev := (pathsOf mask).foldl (fun d p => dpdRequest d p (overBound == 1)) d,
        reply := { fields := [fld 1 ((pathsOf mask).filter fun p => (d.dpdPath p).req.isNone).length] } })

/-- DPD-METRIC-GET (R399). -/
def execDpdMetricGet (h : Hdr) (path : Nat) : Meaning :=
  query (ask 0x0905 [2, 2, 2, 2, 2, 2, 8, 1]) h (.dpdMetricGet h path) (fun _ => firstBad [(decide (63 < path), ST.badArg)]) fun d =>
    let x := d.dpdPath path
    let (a, b) := match dpdEstimate d path with
      | some (a, b, c) => (divHalfEven a 10, divHalfEven (max b c) 10)
      | none => (0, 0)
    (x.metrics.map (satfld 2)) ++ [satfld 2 a, satfld 2 b, fld 8 x.capAxis, fld 1 x.backoff]

/-- DPD-OBS-STATUS. -/
def execDpdObsStatus (h : Hdr) : Meaning :=
  query (ask 0x0906 [4, 4, 4, 4, 1, 8]) h (.dpdObsStatus h) noCheck fun d =>
    ((List.range 4).map fun k => fld 4 (obsStatus d k)) ++ [fld 1 (d.dpd.paths.filter fun x => x.req.isSome).length, fld 8 d.dpd.reservedCount]

/-- DPD-COUNTERS. -/
def execDpdCounters (h : Hdr) (path clear : Nat) : Meaning :=
  hostCmd (askClear 0x0907 clear [4, 4, 4, 4, 4, 4, 4, 4]) h (.dpdCounters h path clear)
    (fun _ => firstBad [(decide (63 < path) || decide (1 < clear), ST.badArg)])
    fun d =>
      { dev := if clear = 1 then d.onDpdPath path fun x => { x with
        counts := [0, 0, 0, 0, 0, 0, 0, 0] } else d,
        reply := { fields := (d.dpdPath path).counts.map fun n => fld 4 (sat32 n) } }

/-- A back-off step of a path (R400). -/
def dpdBackoffTo (d : Dev) (p n : Nat) : Dev :=
  raiseEv (d.onDpdPath p fun x => { x with backoff := n, counts := upd x.counts 5 (· + 1) }) EV.dpdBackoff [a4 p, a4 n]

/-- DPD-RESET (R405). -/
def execDpdReset (h : Hdr) (mask : Nat) : Meaning :=
  hostCmd (cmd 0x0908) h (.dpdReset h mask) (fun d => firstBad [(!domOn d 6, ST.domainOff)])
    (just fun d => (pathsOf mask).foldl (fun d p =>
      let d := if (d.dpdPath p).backoff = 0 then d else dpdBackoffTo d p 0
      let d := d.onDpdPath p fun x => { x with resetAtOpen := true, applyAtOpen := false, release := false, base := none }
      if (d.dpdPath p).adapts then dpdRequest d p true else d) d)

/-- The data of a saved set's record: temperature, metrics, and the coefficients. -/
def savedData (s : DpdSaved) : List Nat :=
  bytesOf (sfld 2 s.temp :: s.metrics.map (sfld 4) ++ s.set.coefs.flatMap fun c => [sfld 4 c.1, sfld 4 c.2])

/-- R404: the bank in force of a path is saved in NVM with its temperature and metrics. -/
def dpdSave (d : Dev) (p : Nat) : Dev :=
  let x := d.dpdPath p
  let s : DpdSaved := ⟨{ x.banks.cur with
    shape := x.live, coefs := if x.banks.cur.coefs.isEmpty then [] else fullSet x.live x.banks.cur }, paTemp d p,
    x.metrics, x.base, x.lastCap, x.capAxis⟩
  (journal { d with nvm := { d.nvm with dpd := upd d.nvm.dpd p fun _ => some s } } 1 0x0003 p (savedData s) (.dpd p (nth d.nvm.dpd p))).onDpdPath p
    fun x => { x with savedAt := some d.now }

/-- DPD-SAVE. -/
def execDpdSave (h : Hdr) (mask : Nat) : Meaning :=
  hostCmd (cmd 0x0909) h (.dpdSave h mask) (fun d => firstBad [(!domOn d 6, ST.domainOff)])
    (just fun d => (pathsOf mask).foldl dpdSave d)

/-- DPD_AUTOSAVE (R404): at most once per hour per path. -/
def execDpdAutosave (path : Nat) : Meaning := onDev fun d =>
  if 63 < path ∨ domOn d 6 = false ∨ ((d.dpdPath path).savedAt.any fun t => decide (d.now < t + 3600 * tickHz)) then d else dpdSave d path

/-- R404: D6 comes on: each path loads its saved set, with the drift against the saved temperature, and requests service;
without one it loads the identity set and requests over its bound. -/
def dpdRestore (d : Dev) : Dev :=
  (List.range 64).foldl (fun d p =>
    match nth d.nvm.dpd p with
    | some s =>
      let d := d.onDpdPath p fun x => { x with
        banks := .both (reshape x.live s.set), temp0 := s.temp, metrics := s.metrics, base := s.base, steps := 0, capAxis := s.capAxis }
      if (d.dpdPath p).adapts then dpdRequest d p (dpdOver d p false) else d
    | none =>
      let d := d.onDpdPath p fun x => { x with banks := .both {} }
      if (d.dpdPath p).adapts then dpdRequest d p true else d) d

/-- R405, R595: D6 goes off: coefficients, requests and slots are lost; counters stay. -/
def dpdLost (d : Dev) : Dev :=
  d.onDpd fun x => { x with paths := updAll (fun p y => { DpdPath.fresh p with counts := y.counts, savedAt := y.savedAt }) 0 x.paths, slot := none, reserved := [] }

/-! ### Slots (R390 to R395, R400) -/

/-- R393: whether a path's window is open at a slot start or a queued TX-OPEN for it lies before its middle. -/
def dpdOpenBy (d : Dev) (p s : Nat) : Bool :=
  txOpenNow d p || d.tmb.stakes.any fun q =>
    q.stake.action == 0x0401 && (namedPaths q.stake.target).contains p && (q.nextAt s).any fun x => decide (x < s + 491520)

/-- R393: whether a path is eligible at a slot start. -/
def dpdEligible (d : Dev) (p s : Nat) : Bool :=
  let x := d.dpdPath p
  x.req.isSome && x.svc.isNone && dpdOpenBy d p s && !dpdArmed d p && !gapAt d p s
    && (match x.lastSlot with
      | some n => decide (n + 15 < slotOf s)
      | none => true)

/-- R393: a request comes before another: over its bound first, then the older, then the lower path. -/
def reqBefore (d : Dev) (p q : Nat) : Bool :=
  match (d.dpdPath p).req, (d.dpdPath q).req with
  | some (t, o), some (u, r) => (o && !r) || (o == r && (decide (t < u) || (t == u && decide (p < q))))
  | some _, none => true
  | none, _ => false

/-- The first of some paths in the order of R393. -/
def firstReq (d : Dev) (ps : List Nat) : Option Nat :=
  ps.foldl (fun m p => match m with
    | none => some p
    | some q => if reqBefore d p q then some p else some q) none

/-- The observers free at a slot start. -/
def freeObs (d : Dev) (s : Nat) : List Nat :=
  if domOn d 3 = false ∨ d.dpd.reserved.contains (slotOf s) then [] else (List.range 4).filter fun k => !(nth d.dpd.obs k).fault

/-- R393: each free observer takes the first eligible request. -/
def dpdAssign (d : Dev) (s : Nat) : Dev :=
  (freeObs d s).foldl (fun d k =>
    match firstReq d ((List.range 64).filter fun p => dpdEligible d p s) with
    | none => d
    | some p => dpdCount (d.onDpdPath p fun x => { x with svc := some ⟨s, k, 0, false, false⟩, lastSlot := some (slotOf s) }) p 0) d

/-- The slot before ends: a slot without a capture is counted, and a bank change due comes into force (R394, R395, R401). -/
def dpdSlotEnd (d : Dev) (s : Nat) : Dev :=
  (List.range 64).foldl (fun d p =>
    let d := match (d.dpdPath p).svc with
      | some v =>
        if v.start < s then
          let d := if v.stage = 0 then dpdCount d p 1 else d
          d.onDpdPath p fun x => { x with svc := none }
        else d
      | none => d
    match (d.dpdPath p).swapAt with
    | some t => if t ≤ s then dpdSwapOne s 0 (d.onDpdPath p fun x => { x with swapAt := none }) p else d
    | none => d) d

/-- R400: the back-off falls by 1 dB where the last update allows it. -/
def dpdReleases (d : Dev) : Dev :=
  (List.range 64).foldl (fun d p =>
    let x := d.dpdPath p
    if x.release then
      let d := d.onDpdPath p fun x => { x with release := false }
      if x.backoff = 0 then d else dpdBackoffTo d p (x.backoff - 1)
    else d) d

/-- R400: a path that still waits over its hard bound steps back by 1 dB. -/
def dpdBackoffs (d : Dev) (s : Nat) : Dev :=
  (List.range 64).foldl (fun d p =>
    let x := d.dpdPath p
    match x.req with
    | some (t, _) =>
      if decide (t < d.now - (d.axis - s)) && x.svc.isNone && dpdOver d p true && decide (x.backoff < x.cfg.backoffMax) then dpdBackoffTo d p (x.backoff + 1) else d
    | none => d) d

/-- DPD_SLOT_START (R390, R393, R400, R403): once per slot; no slot starts in a throttle gap, and none is assigned while D3
is off or an observer is reserved or in fault. A slot starts at a multiple of 983,040 and at no other position. -/
def execDpdSlotStart : Meaning := onDev fun d =>
  let s := slotOf d.axis * 983040
  if domOn d 6 = false ∨ d.axis % 983040 ≠ 0 ∨ d.dpd.slot = some (slotOf d.axis) then d
  else
    let d := dpdSlotEnd (d.onDpd fun x => { x with slot := some (slotOf d.axis), reserved := x.reserved.filter fun n => decide (slotOf d.axis ≤ n) }) s
    if unitGap d s then d else dpdBackoffs (dpdAssign (dpdReleases d) s) s

/-- Whether something of a path is the same now and at every position since one. -/
def steadySince {α : Type} [DecidableEq α] (d : Dev) (p t0 : Nat) (f : TxPathNow → α) : Bool :=
  let h := nth d.sig.paths p
  let now := f (txPathNow d p)
  decide (f (valAt h t0) = now) && (h.filter fun e => decide (t0 < e.1)).all fun e => decide (f e.2 = now)

/-- R395: the position of the first sample that a capture ending now needs: `cap_len` samples and the `mem` - 1 before them. -/
def captureFrom (d : Dev) (p : Nat) : Nat := d.axis - ceilDiv (2 * ((d.dpdPath p).cfg.capLen + (d.dpdPath p).live.mem - 1)) (kNow d)

/-- R394, R395: whether a capture that ends now is valid: it began after the switch had settled, and over its samples the path's window is
open, its governor gain and its neighbours' stay at 1, held by no wait under R246, and no step of its power or of its back-off and no
switch or settling of a synthesiser falls on them. -/
def dpdCapturable (d : Dev) (p start : Nat) : Bool :=
  let l := (d.dpdPath p).live
  let t0 := captureFrom d p
  let free (q : Nat) : Bool := (d.txPath q).gain == 32768 && steadySince d q t0 (·.gain)
  decide (start + 3932 + ceilDiv (2 * (d.dpdPath p).cfg.capLen) (kNow d) ≤ d.axis) && !txMuted d p && !d.syn.settling && (d.txPath p).adaptHeld.isNone
    && (List.range (d.axis - t0)).all (fun j => windowAt d p (t0 + j))
    && ((p :: (if l.nbrMem = 0 then [] else [l.nbrLo, l.nbrHi].filter fun n => decide (n < 64))).all free)
    && steadySince d p t0 fun m => (m.fine, m.level, m.synth, m.held, m.soft, m.hard)

/-- CAPTURE_COMPLETE (R394 to R396, R399, R401): the metrics are taken; the request is served. A capture 3 dB worse than the
one before the update in force brings the former bank back at the slot's end; otherwise the solve begins, unless
adaptation was turned off. -/
def execCaptureComplete (obs : Nat) (nmse oobLo oobHi : Int) (valid : Bool) : Meaning := onDev fun d =>
  match obsPath d obs with
  | none => d
  | some p =>
    let x := d.dpdPath p
    match x.svc with
    | none => d
    | some v =>
      if v.stage ≠ 0 ∨ valid = false ∨ v.start + 737280 < d.axis ∨ dpdCapturable d p v.start = false ∨ domOn d 3 = false ∨ domOn d 6 = false then d
      else
        let rollback := x.banks.cur.pre.any fun b => decide (b + 300 < nmse)
        let st := if v.discard || rollback then 2 else 1
        let d := d.onDpdPath p fun x => { x with
          req := none, metrics := [nmse, oobLo, oobHi, nth x.metrics 3], base := some (nmse, oobLo, oobHi), temp0 := paTemp d p, steps := 0,
          lastCap := some d.now, capAxis := d.axis, svc := some { v with stage := st, captured := true } }
        if v.discard then dpdJudge (dpdCount d p 2) p
        else if rollback then
          let d := raiseEv (dpdCount (d.onDpdPath p fun x => { x with swapAt := some (v.start + 983040), sticky := upd x.sticky 2 fun _ => true }) p 4)
            EV.dpdRevert [a4 p]
          dpdRequest d p (dpdOver d p false)
        else d

/-- NO_CAPTURE (R395): 0.375 ms of the slot have passed without a valid capture; the request and its age stay. -/
def execNoCapture (obs : Nat) : Meaning := onDev fun d =>
  match obsPath d obs with
  | none => d
  | some p =>
    match (d.dpdPath p).svc with
    | none => d
    | some v =>
      if v.stage ≠ 0 ∨ d.axis < v.start + 737280 then d
      else
        dpdCount (d.onDpdPath p fun x => { x with svc := some { v with stage := 2 } }) p 1

/-- R397: a new coefficient: c + μ Δ, Δ in 2^-23, rounded half to even. -/
def newCoef (step : Nat) (c u : Int × Int) : Int × Int := (c.1 + divHalfEven (step * u.1) 65536, c.2 + divHalfEven (step * u.2) 65536)

/-- SOLVE_COMPLETE (R394, R397 to R400): the Gram matrix is delivered 39,322 ticks after the capture's end, and the solve ends by 235,930;
the update is discarded when the factorisation fails, a coefficient leaves its range
or nothing is gained; else the shadow bank takes it, for the end of the slot. -/
def execSolveComplete (obs : Nat) (factorOk : Bool) (predicted : Int) (coefs : Coefs) : Meaning := onDev fun d =>
  match obsPath d obs with
  | none => d
  | some p =>
    let x := d.dpdPath p
    match x.svc with
    | none => d
    | some v =>
      if v.stage ≠ 1 ∨ domOn d 6 = false ∨ d.axis < x.capAxis + 39322 ∨ x.capAxis + 235930 < d.axis then d
      else
        let d := d.onDpdPath p fun x => { x with svc := some { v with stage := 2 } }
        if v.discard then dpdJudge (dpdCount d p 2) p
        else
          let old := fullSet x.live x.banks.cur
          let new := (List.range old.length).map fun k => newCoef x.cfg.step (nth old k) (nth coefs.list k)
          let big := new.any fun c => decide (131071 < c.1.natAbs) || decide (131071 < c.2.natAbs)
          if factorOk = false ∨ big ∨ nth x.metrics 0 ≤ predicted then
            dpdJudge (raiseEv (dpdCount (d.onDpdPath p fun x => { x with sticky := upd x.sticky 1 fun _ => true }) p 3) EV.dpdSolveFail [a4 p]) p
          else
            let d := d.onDpdPath p fun x => { x with
              banks := x.banks.write { shape := x.live, coefs := new, pre := some (nth x.metrics 0) }, swapAt := some (v.start + 983040),
              metrics := upd x.metrics 3 fun _ => predicted, base := some (predicted, nth x.metrics 1, nth x.metrics 2) }
            let d := raiseEv d EV.dpdUpdate [a4 p]
            let d := if predicted ≤ 10 * x.cfg.boundNmse then
                dpdRequest (d.onDpdPath p fun y => { y with release := decide (0 < y.backoff) }) p (dpdOver d p false)
              else d
            dpdJudge d p

/-- CAPTURE_AGE_EXPIRY (R392). -/
def execCaptureAgeExpiry (path : Nat) : Meaning := onDev fun d =>
  let x := d.dpdPath path
  let old := match x.lastCap with
    | some t => decide (t + x.cfg.maxAge * 1966080 < d.now)
    | none => true
  if decide (path < 64) && x.adapts && domOn d 6 && x.req.isNone && x.svc.isNone && old then dpdRequest d path (dpdOver d path false) else d

/-- DPD_THORN (R385): the identity set applies from the next sample, EV_DPD_THORN, and a request as over the bound. -/
def execDpdThorn (path : Nat) : Meaning := onDev fun d =>
  if 63 < path ∨ domOn d 6 = false then d
  else
    let d := d.onDpdPath path fun x => { x with banks := { x.banks with cur := {}, thornCur := 0 }, sticky := upd x.sticky 3 fun _ => true }
    let d := raiseEv d EV.dpdThorn [a4 path]
    if (d.dpdPath path).adapts then dpdRequest d path true else d

/-- DPD_SWAP (R385, R388). -/
def execDpdSwap : Meaning :=
  onDev (stakeAct 0x0901 (fun d _ => domOn d 6) (fun d _ => d) fun d q =>
    (namedPaths q.stake.target).foldl (dpdSwapOne q.pos q.stake.tag) d)

/-- OBSERVER_FAULT (R403): an observer enters or leaves its fault state; a search in it ends with its slot. -/
def execObserverFault (obs : Nat) (faulty : Bool) : Meaning := onDev fun d =>
  if 3 < obs ∨ (nth d.dpd.obs obs).fault = faulty then d
  else
    let d := d.onDpd fun x => { x with obs := upd x.obs obs fun o => { o with fault := faulty, faultSeen := o.faultSeen || faulty } }
    if faulty then raiseEv d EV.dpdObsFault [a4 obs] else d

end Sys2Proof.Machine
end

