-- ==== Sys2Proof/Machine/Calibrate.lean ====
section
/-! DEFINITION. Chapter 12, calibration: runs and their steps (R418, R419, R424 to R429), results, jumps and writes (R420,
R421, R430, R431), limits and triggers (R432 to R434), trim tables (R440, R441, R444), over-the-air alignment (R435 to
R439) and the commands (R443). What a solve yields comes with the command that reports it. -/

namespace Sys2Proof.Machine

/-- The steps of a kind (R418). -/
def stepsOf (kind : Nat) : Nat := nth [0, 8, 16, 4, 16, 4] kind

/-- R418, R428: the kinds whose steps use observers. -/
def usesObservers (kind : Nat) : Bool := kind == 2 || kind == 5

/-- The run in progress: the first of the queue, once a step of it has begun. -/
def runNow (d : Dev) : Option CalRun :=
  match d.cal.runs with
  | r :: _ => if r.first.isSome then some r else none
  | [] => none

/-- The unit with the first run of the queue changed. -/
def onRun (d : Dev) (f : CalRun → CalRun) : Dev :=
  d.onCal fun c => { c with runs := match c.runs with
    | r :: l => f r :: l
    | [] => [] }

/-- CAL_STATUS. -/
def calStatusWord (d : Dev) : Nat :=
  let c := d.cal
  let (k, left) := match runNow d with
    | some r => (r.kind, stepsOf r.kind - r.done)
    | none => (0, 0)
  let delta := match c.lastTemp with
    | some t => ofSigned 16 (dieMean d - t)
    | none => 0
  k * 2 ^ 28 + left % 64 * 2 ^ 22 + b2n (!c.runs.isEmpty) * 2 ^ 21 + b2n (d.pwr.borrowed.contains 4) * 2 ^ 20 + b2n (nth c.sticky 0) * 2 ^ 19
    + b2n (nth c.sticky 1) * 2 ^ 18 + b2n (nth c.sticky 2) * 2 ^ 17 + b2n (nth c.sticky 3) * 2 ^ 16 + delta

/-- CAL_PATH_TRIM_n (R412, R415). -/
def trimWord (d : Dev) (dir p : Nat) : Nat :=
  let t := (trimOf d dir p).1
  let stale := decide (100 * d.cal.dT ≤ (dieMean d - (calTable d (calKey d p)).temp).natAbs)
  t.coarse * 2 ^ 26 + t.fine * 2 ^ 14 + ofSigned 10 t.gain * 2 ^ 4 + b2n (nth d.cal.fails (dir * 64 + p)) * 2 ^ 3 + b2n stale * 2 ^ 2

/-! ### Commands -/

/-- CAL-CONFIG (R432, R433). -/
def execCalConfig (h : Hdr) (kinds dT maxInterval runLimit starveLimit : Nat) : Meaning :=
  hostCmd (cmd 0x0A00) h (.calConfig h kinds dT maxInterval runLimit starveLimit)
    (fun _ => firstBad [(kinds % 2 == 1 || decide (0x3E < kinds) || dT == 0 || decide (15 < dT) || decide (maxInterval < 10) || decide (86400 < maxInterval)
      || runLimit == 0 || decide (600 < runLimit) || starveLimit == 0 || decide (600 < starveLimit), ST.calArg)])
    (just fun d => d.onCal fun c => { c with auto := kinds, dT := dT, maxInterval := maxInterval, runLimit := runLimit, starveLimit := starveLimit })

/-- CAL-RUN (R429, R433, R434): kinds already pending are not queued again. -/
def execCalRun (h : Hdr) (kinds position : Nat) : Meaning :=
  hostCmd (cmd 0x0A01 [1]) h (.calRun h kinds position)
    (fun d => firstBad [(kinds == 0 || kinds % 2 == 1 || decide (0x3E < kinds), ST.calArg), (!domOn d 3 || !domOn d 6, ST.calState),
      (decide (8 < d.cal.runs.length + (newKinds d kinds).length), ST.calQueue)])
    (fun d =>
      let d := calTrigger d kinds 4 position
      { dev := d, reply := { fields := [fld 1 d.cal.runs.length] } })

/-- CAL-STATUS. -/
def execCalStatus (h : Hdr) : Meaning :=
  query (ask 0x0A02 [4, 8, 2, 1, 8, 2, 1, 8, 2, 1, 8, 2, 1, 8, 2, 1]) h (.calStatus h) noCheck fun d =>
    fld 4 (calStatusWord d) :: d.cal.last.flatMap fun (a, t, r) => [fld 8 a, satfld 2 t, fld 1 r]

/-- The run in progress is discarded (R442). -/
def calDiscard (d : Dev) : Dev :=
  match d.cal.runs with
  | r :: l => raiseEv (d.onCal fun c => { c with runs := l }) EV.calAborted [a4 r.kind]
  | [] => d

/-- CAL-ABORT (R442): the step in progress completes first; a step only planned is not begun. -/
def execCalAbort (h : Hdr) : Meaning :=
  hostCmd (cmd 0x0A03 [2]) h (.calAbort h) noCheck fun d =>
    match runNow d with
    | none => { dev := d, reply := { fields := [fld 2 0] } }
    | some r =>
      match d.cal.step with
      | some (_, true) => { dev := onRun d fun r => { r with aborting := true }, reply := { fields := [fld 2 (r.done + 1)] }, wait := some .calAbort }
      | _ => { dev := calDiscard (d.onCal fun c => { c with step := none }), reply := { fields := [fld 2 r.done] } }

/-- CAL-TRIM-GET (R412, R414). -/
def execCalTrimGet (h : Hdr) (dir path : Nat) : Meaning :=
  query (ask 0x0A04 [4, 2, 2, 2, 2, 2]) h (.calTrimGet h dir path) (fun _ => firstBad [(decide (1 < dir) || decide (63 < path), ST.badArg)]) fun d =>
    fld 4 (trimWord d dir path) :: ((List.range 4).map fun s => fld 2 (subPhase d dir path s)) ++ [fld 2 (trimOf d dir path).1.ripple]

/-- CAL-COUNTERS. -/
def execCalCounters (h : Hdr) (clear : Nat) : Meaning :=
  hostCmd (askClear 0x0A12 clear [4, 4, 4, 4, 4, 4, 4]) h (.calCounters h clear) (fun _ => firstBad [(decide (1 < clear), ST.badArg)])
    fun d =>
      { dev := if clear = 1 then d.onCal fun c => { c with
        counts := [0, 0, 0, 0, 0, 0, 0] } else d,
        reply := { fields := d.cal.counts.map fun n => fld 4 (sat32 n) } }

/-! ### Tables (R440, R441, R444) -/

/-- R441: a table as an object: the path trims stand in bits [31:4] of their words. -/
def tableBytes (key : Nat × Nat) (t : CalTable) : List Nat :=
  bytesOf ([fld 1 0x43, fld 1 key.1, fld 1 key.2, fld 1 t.kinds, fld 8 t.axis, sfld 2 t.temp, fld 14 0, fld 4 0]
    ++ ((List.range 1024).flatMap fun i => let x := nth t.adc i; [sfld 2 x.1, sfld 2 x.2.1, sfld 2 x.2.2])
    ++ ((List.range 2048).map fun i => sfld 1 (nth t.dac i))
    ++ ((List.range 128).map fun i => let x := nth t.trims i; fld 4 (x.coarse * 2 ^ 26 + x.fine * 2 ^ 14 + ofSigned 10 x.gain * 2 ^ 4))
    ++ ((List.range 128).flatMap fun i => (List.range 32).flatMap fun k => let x := nth (nth t.resp i) k; [sfld 2 x.1, sfld 2 x.2])
    ++ (List.range 4).flatMap fun i => let x := nth t.obs i; [sfld 2 x.1, sfld 2 x.2.1, sfld 2 x.2.2, fld 2 0])

/-- A signed field of an object. -/
def sAt (b : List Nat) (k w : Nat) : Int := toSigned (8 * w) (beAt b k w)

/-- R441: an object as a table. -/
def tableOf (b : List Nat) : CalTable :=
  { kinds := beAt b 3 1, axis := beAt b 4 8, temp := sAt b 12 2,
    adc := (List.range 1024).map fun i => (sAt b (32 + 6 * i) 2, sAt b (34 + 6 * i) 2, sAt b (36 + 6 * i) 2),
    dac := (List.range 2048).map fun i => sAt b (6176 + i) 1,
    trims := (List.range 128).map fun i =>
      let w := beAt b (8224 + 4 * i) 4
      { coarse := bitsOf w 31 26, fine := bitsOf w 25 14, gain := toSigned 10 (bitsOf w 13 4) },
    resp := (List.range 128).map fun i => (List.range 32).map fun k => let o := 8736 + (i * 32 + k) * 4; (sAt b o 2, sAt b (o + 2) 2),
    obs := (List.range 4).map fun i => (sAt b (25120 + 8 * i) 2, sAt b (25122 + 8 * i) 2, sAt b (25124 + 8 * i) 2) }

/-- R441: a table object's header and length. -/
def tableOk (b : List Nat) : Bool :=
  b.length == 25152 && b.headD 0 == 0x43 && decide (beAt b 1 1 ≤ 7) && decide (beAt b 2 1 ≤ 3) && be ((b.drop 14).take 18) == 0

/-- CAL-TABLE-READ: the table of a profile and band position, the factory set where none is stored. -/
def execCalTableRead (h : Hdr) (profile band : Nat) : Meaning :=
  hostCmd (ask 0x0A05 [2]) h (.calTableRead h profile band) (fun _ => firstBad [(decide (7 < profile) || decide (3 < band), ST.calArg)])
    fun d =>
      let (n, d) := addOut d h.session 4 (tableBytes (profile, band) (calTable d (profile, band))) [] (domOn d 9)
      { dev := d, reply := { fields := [fld 2 n] } }

/-- The NVM with one trim table written, its time kept (R440). -/
def storeTable (d : Dev) (key : Nat × Nat) (t : CalTable) : Dev :=
  journal { d with nvm := { d.nvm with
      calTables := (key, t) :: d.nvm.calTables.filter (fun e => e.1 != key)
      calSaved := (key, d.now) :: d.nvm.calSaved.filter fun e => e.1 != key } } 1 0x0002 (key.1 * 256 + key.2) (tableBytes key t)
    (.cal key (d.nvm.calTables.lookup key))

/-- The trim tables at work with one changed. -/
def putTable (d : Dev) (key : Nat × Nat) (t : CalTable) : Dev :=
  d.onCal fun c => { c with tables := (key, t) :: c.tables.filter fun e => e.1 != key }

/-- The checks of CAL-TABLE-LOAD. -/
def calTableLoadCheck (handle : Nat) (d : Dev) : Option Reply :=
  let o := d.obj? handle
  Checks.orElse (firstBad [(o.any (fun o => o.kind != 4), ST.badArg), (o.any (fun o => o.closed && (!tableOk o.bytes || !o.thorns.isEmpty)), ST.calTable),
    ((runNow d).isSome, ST.calState)]) (objCheck d handle 4)

/-- CAL-TABLE-LOAD (R444): to NVM; a table of the active profile and a band position in use waits for a free span. -/
def execCalTableLoad (h : Hdr) (handle : Nat) : Meaning :=
  hostCmd (cmd 0x0A06) h (.calTableLoad h handle)
    (calTableLoadCheck handle)
    (just fun d =>
      let b := objBytes d handle
      let key := (beAt b 1 1, beAt b 2 1)
      let d := storeTable d key (tableOf b)
      let d := if (List.range 64).any (fun p => calKey d p == key) then d.onCal fun c => { c with load := some (key, tableOf b) }
        else d.onCal fun c => { c with tables := c.tables.filter fun e => e.1 != key }
      consume d handle)

/-- CAL-SAVE (R440). -/
def execCalSave (h : Hdr) : Meaning :=
  hostCmd (cmd 0x0A07) h (.calSave h) noCheck (just fun d => d.cal.tables.foldl (fun d e => storeTable d e.1 e.2) d)

/-! ### Steps (R419, R424 to R429) -/

/-- R424, R426: whether a step may stand at a position. -/
def stepFree (d : Dev) (a : Nat) : Bool :=
  spanFree d a (a + 40960) && (holdSpans d (a + 40960)).all (fun (s, e) => decide (a + 40960 ≤ s) || decide (e ≤ a))

/-- The first position from `a` at which a step may stand, within 40 ms of it. -/
def nextStep (d : Dev) (a : Nat) : Option Nat :=
  let ends := ((claims d (a + 78645248)).filterMap fun (_, e) => e.map (· + 512)) ++ (holdSpans d (a + 78643200)).map (·.2)
  ((a :: ends).filter fun c => decide (a ≤ c) && decide (c ≤ a + 78643200) && stepFree d c).min?

/-- R427, R429: the first run's next step is planned at least 7,865 ticks ahead, behind the port checks requested before the run. -/
def planStep (d : Dev) : Dev :=
  match d.cal.runs with
  | r :: _ =>
    if r.done < stepsOf r.kind ∧ domOn d 3 ∧ domOn d 6 ∧ portAhead d r.asked = false then
      match nextStep d (max (d.axis + minLead) r.earliest) with
      | some a =>
        let d := d.onCal fun c => { c with step := some (a, false) }
        let d := onRun d fun r => { r with since := d.now }
        if usesObservers r.kind then reserveSlots d a 40960 else d
      | none => d
    else d
  | [] => d

/-- R419, R416: a step begins: every front-end in RX or TX goes to CAL, and every receive path's samples are replaced. -/
def beginStep (d : Dev) (a : Nat) : Dev :=
  let d := d.onCal fun c => { c with step := some (a, true) }
  let d := onRun d fun r => { r with first := some (r.first.getD d.now), temp0 := if r.first.isSome then r.temp0 else dieMean d }
  (List.range 64).foldl (fun d p =>
    let f := nth d.fe p
    rxReplace (if f.st = 1 ∨ f.st = 2 then d.onFe p fun f => { f.enter 3 with former := f.st } else d) p) d

/-- Front-ends back from a step take up their samples again. -/
def restoreAll (d : Dev) : Dev := (List.range 64).foldl (fun d p => if (nth d.fe p).st = 1 then rxRestore d p else d) d

/-- R419, R442: a step ends; an aborted run ends with it. -/
def endStep (d : Dev) : Dev :=
  let d := restoreAll ((List.range 64).foldl feFromCal (calCount (d.onCal fun c => { c with step := none }) 0))
  let d := onRun d fun r => { r with done := r.done + 1, since := d.now }
  match d.cal.runs with
  | r :: _ => if r.aborting then complete (calDiscard d) (fun x => x.wait == .calAbort) fun _ => {} else d
  | [] => d

/-- CAL_STEP (R419, R424 to R427): a step whose position has come begins, unless settling, a gap, a hold, a domain that is
off or a claim forbids it; one that has run its 40,960 ticks ends; while none is planned, the next is placed. -/
def execCalStep : Meaning := onDev fun d =>
  match d.cal.step with
  | none => planStep d
  | some (a, false) =>
    if d.axis < a then d
    else if d.syn.settling || unitGap d a || (List.range 64).any (fun p => gapAt d p a) || !stepFree d a || !domOn d 3 || !domOn d 6 || !domOn d 4
        || decide (a + 40960 ≤ d.axis) then calAbandon d
    else beginStep d a
  | some (a, true) => if d.axis < a + 40960 then d else endStep d

/-- R427: a stake committed, or a domain cut, that takes a step's time: the step is given up. -/
def calRecheck (d : Dev) : Dev :=
  match d.cal.step with
  | some (a, _) => if stepFree d a && domOn d 3 && domOn d 6 then d else restoreAll (calAbandon d)
  | none => d

/-- R442: D3 or D6 goes off: the step is given up, runs in progress start again. -/
def calLost (d : Dev) : Dev :=
  (restoreAll (calAbandon d)).onCal fun c => { c with runs := c.runs.map fun r => { r with done := 0, first := none, former := none, write := none } }

/-- CAL_HOLD (R425): the span [P, P + argument). -/
def execCalHold : Meaning :=
  onDev (stakeAct 0x0A01 (fun _ _ => true) (fun d _ => d) fun d q =>
    d.onCal fun c => { c with holds := (c.holds.filter fun e => decide (d.axis < e.2)) ++ [(q.pos, q.pos + q.stake.argument % 2 ^ 32)] })

/-! ### Results (R420, R421, R430, R431) -/

/-- The converter rate that counts a coarse delay: the ADC's on receive, the DAC's on transmit (R412, R446). -/
def delayRate (d : Dev) (dir : Nat) : Nat := adcRate d d.syn.profile * (if dir = 0 then 1 else 2)

/-- A delay difference in 0.25 ps, times the converter rate. -/
def delayDiff (r : Nat) (a b : CalPath) : Int := ((a.coarse : Int) - b.coarse) * 4000000000000 + ((a.fine : Int) - b.fine) * r

/-- A phase difference of two responses at a sub-band centre, folded into half a turn. -/
def phaseDiff (a b : Nat) : Nat := let x := (a + 65536 - b % 65536) % 65536; min x (65536 - x)

/-- The sub-bands configured on a path in a direction. -/
def rfOf (d : Dev) (dir p : Nat) : List Nat :=
  (List.range 4).filterMap fun s =>
    if dir = 0 then (if ((d.rxPath p).sb s).on then some ((d.rxPath p).sb s).banks.cur.cfg.chain.rf else none)
    else if ((d.txPath p).sb s).on then some ((d.txPath p).sb s).banks.cur.cfg.chain.rf else none

/-- Whether two results of a path lie within bounds: gain in 0.01 dB, phase in 2^-16 turn, delay in 0.25 ps. -/
def within (d : Dev) (a b : CalPath) (gain phase delay : Nat) : Bool :=
  let r := delayRate d a.dir
  decide ((a.gain - b.gain).natAbs ≤ gain) && decide ((delayDiff r a b).natAbs ≤ delay * r)
    && (rfOf d a.dir a.path).all fun f => decide (phaseDiff (Config.phaseTrim a.resp f) (Config.phaseTrim b.resp f) ≤ phase)

/-- What stands now of a path, in the form of a result. -/
def standing (d : Dev) (dir p : Nat) : CalPath :=
  let t := (calTable d (calKey d p))
  let x := nth t.trims (dir * 64 + p)
  { dir := dir, path := p, coarse := x.coarse, fine := x.fine, gain := x.gain, ripple := x.ripple, resp := nth t.resp (dir * 64 + p) }

/-- R431: the results that jump: beyond 0.5 dB, 5° or 10 ps. -/
def jumpsOf (d : Dev) (r : CalResults) : List CalPath := r.paths.filter fun x => !within d x (standing d x.dir x.path) 50 910 40

/-- R431, R423: whether the repeat of a run agrees with its first result for a path. -/
def agrees (d : Dev) (r : CalResults) (x : CalPath) : Bool :=
  match r.paths.find? fun y => y.dir == x.dir && y.path == x.path with
  | some y => within d x y 10 91 8
  | none => false

/-- R410, R411: a path's result, which the measurement through the network gives, referred to the antenna connector by the factory table: its
response, and with it the gain and the delay that cancel it. -/
def referred (d : Dev) (x : CalPath) : CalPath :=
  let at_ (node : Bool) : List (Int × Int) := (List.range 32).map (Config.factory node x.path (d.rxPath x.path).band)
  let r := delayRate d x.dir
  let t := ((x.coarse : Int) * 4000000000000 + (x.fine + Config.factoryDelay (at_ true) (at_ false)) * r).toNat
  { x with
    resp := (List.range x.resp.length).map fun k => Config.atConnector (nth x.resp k) (nth (at_ true) k) (nth (at_ false) k)
    gain := satSym 511 (x.gain + Config.factoryGain (at_ true) (at_ false))
    coarse := min 63 (t / 4000000000000), fine := t % 4000000000000 / max 1 r }

/-- CAL_SOLVE_COMPLETE (R411, R431): the results are referred to the connector; a first result that jumps is measured again; a jump that repeats itself is applied with
EV_CAL_JUMP; a path whose repeat disagrees, or that gave no usable measurement, keeps its trims, is marked and raises
EV_CAL_FAIL, while the others are applied. -/
def execCalSolveComplete (results : CalResults) : Meaning := onDev fun d =>
  match d.cal.runs with
  | [] => d
  | r :: _ =>
    if r.done < stepsOf r.kind ∨ r.write.isSome ∨ domOn d 6 = false then d
    else
      let results := { results with paths := results.paths.map (referred d) }
      let js := jumpsOf d results
      match r.former with
      | none =>
        if js.isEmpty then settle d results [] else onRun d fun r => { r with former := some results, done := 0 }
      | some f => settle d results (js.filter fun x => !agrees d f x)
where
  settle (d : Dev) (results : CalResults) (bad : List CalPath) : Dev :=
    let fails := (bad.map fun x => (x.dir, x.path)) ++ results.unusable
    let jumped := !(jumpsOf d results).isEmpty && bad.isEmpty
    let d := d.onCal fun c => { c with fails := updAll (fun i b => b || fails.contains (i / 64, i % 64)) 0 c.fails }
    let kind := match d.cal.runs with
      | r :: _ => r.kind
      | [] => 0
    let d := if fails.isEmpty then d else calCount (calStick (raiseEv d EV.calFail [a4 kind]) 1) 3
    let d := if jumped then calCount (calStick (raiseEv d EV.calJump [a4 kind]) 2) 4 else d
    onRun d fun r => { r with write := some (results, if fails.isEmpty then (if jumped then 3 else 1) else 2, fails) }

/-- A table with a run's results in it, the failed paths left as they are (R421, R430). -/
def applyTo (t : CalTable) (r : CalResults) (kind axis : Nat) (temp : Int) (sel : CalPath → Bool) : CalTable :=
  let t := r.paths.foldl (fun t x =>
    if sel x then
      { t with
        trims := upd t.trims (x.dir * 64 + x.path) fun _ => { coarse := x.coarse, fine := x.fine, gain := x.gain, ripple := x.ripple }
        resp := upd t.resp (x.dir * 64 + x.path) fun _ => x.resp }
    else t) t
  { t with
    kinds := Nat.lor t.kinds (2 ^ kind), axis := axis, temp := temp, adc := if r.adc.isEmpty then t.adc else r.adc
    dac := if r.dac.isEmpty then t.dac else r.dac, obs := if r.obs.isEmpty then t.obs else r.obs }

/-- R415: the transmit paths whose trims a write moves keep the former ones until their TX-OPEN. -/
def keepTx (d : Dev) (ps : List Nat) : Dev :=
  ps.foldl (fun d p =>
    if d.cal.txOld.any (fun e => e.1 == p && e.2.1 == calKey d p) then d
    else let t := trimOf d 1 p; d.onCal fun c => { c with txOld := c.txOld ++ [(p, calKey d p, t.1, t.2)] }) d

/-- R440: a table changed by a run is stored, at most once per 600 s. -/
def autoStore (d : Dev) (key : Nat × Nat) : Dev :=
  match d.nvm.calSaved.lookup key with
  | some t => if d.now < t + 600 * tickHz then d else storeTable d key (calTable d key)
  | none => storeTable d key (calTable d key)

/-- R444: a loaded table comes into force. -/
def useLoaded (d : Dev) : Dev :=
  match d.cal.load with
  | some (key, t) => putTable (keepTx (d.onCal fun c => { c with load := none }) ((List.range 64).filter fun p => calKey d p == key)) key t
  | none => d

/-- R430, R440: the results of a run that did not fail, put into the tables in use. -/
def useResults (d : Dev) (kind : Nat) (res : CalResults) (fails : List (Nat × Nat)) : Dev :=
  let keep (x : CalPath) : Bool := !fails.contains (x.dir, x.path)
  let d := keepTx d ((res.paths.filter fun x => x.dir == 1 && keep x).map (·.path))
  (((List.range 64).map (calKey d)).eraseDups).foldl (fun d key =>
    autoStore (putTable d key (applyTo (calTable d key) res kind d.axis (dieMean d) fun x => keep x && calKey d x.path == key)) key) d

/-- R430, R433, R434: a run has completed. -/
def runDone (d : Dev) (r : CalRun) (rest : List CalRun) (res : CalResults) (outcome : Nat) (fails : List (Nat × Nat)) : Dev :=
  let again : List CalRun := if r.requeue then [{ kind := r.kind, since := d.now, asked := d.now }] else []
  let d := d.onCal fun c => { c with
    runs := rest ++ again
    last := upd c.last (r.kind - 1) fun _ => (d.axis, dieMean d, outcome)
    lastTemp := if c.auto.testBit r.kind then some (dieMean d) else c.lastTemp
    lastDone := if c.auto.testBit r.kind then d.now else c.lastDone
    fails := updAll (fun i b => b && !(res.paths.any fun x => !fails.contains (x.dir, x.path) && x.dir * 64 + x.path == i)) 0 c.fails }
  raiseEv (calCount d 2) EV.calDone [a4 r.kind]

/-- CAL_TRIM_WRITE (R415, R430, R434, R440, R444): at the start of a free span, a loaded table and the result of the first
run come into force, and the run has completed. -/
def execCalTrimWrite : Meaning := onDev fun d =>
  if !axisIdle d || !spanFree d d.axis (d.axis + 40960) || (d.cal.step.any (·.2)) then d
  else
    let d := useLoaded d
    match d.cal.runs with
    | [] => d
    | r :: rest =>
      match r.write with
      | none => d
      | some (res, outcome, fails) => runDone (useResults d r.kind res fails) r rest res outcome fails

/-- CAL_RUN_TIMEOUT (R432): the run in progress is discarded and queued again, after the others. -/
def execCalRunTimeout : Meaning := onDev fun d =>
  match runNow d with
  | none => d
  | some r =>
    if d.now ≤ r.first.getD d.now + d.cal.runLimit * 196608000 then d
    else
      let d := restoreAll (match d.cal.step with
        | some (_, true) => (List.range 64).foldl feFromCal d
        | _ => d)
      d.onCal fun c => { c with step := none, runs := c.runs.drop 1 ++ [{ kind := r.kind, since := d.now, asked := d.now }] }

/-- CAL_STARVED (R432): no step of the first run has been placed for `starve_limit`. -/
def execCalStarved : Meaning := onDev fun d =>
  match d.cal.runs with
  | [] => d
  | r :: _ =>
    if r.starved ∨ d.cal.step.isSome ∨ r.write.isSome ∨ stepsOf r.kind ≤ r.done ∨ d.now < r.since + d.cal.starveLimit * tickHz then d
    else calCount (calStick (raiseEv (onRun d fun r => { r with starved := true }) EV.calStarved [a4 r.kind]) 0) 5

/-- CAL_INTERVAL (R433). -/
def execCalInterval : Meaning := onDev fun d =>
  if d.cal.lastTemp.isSome ∧ d.cal.lastDone + d.cal.maxInterval * tickHz ≤ d.now then calTrigger d d.cal.auto 2 0 else d

/-! ### Over-the-air alignment (R435 to R439) -/

/-- The checks of OTA-SET. -/
def otaSetCheck (partners : Partners) (d : Dev) : Option Reply :=
  let l := partners.list
  firstBad [(decide (8 < l.length) || l.any (fun p => decide (262143 ≤ p.unit) || decide (63 < p.path) || decide (63 < p.partnerPath) || p.flags % 64 != 0
    || p.zero != 0 || p.unit == d.nvm.unitNumber) || decide (1 < (l.filter fun p => p.flags.testBit 7).length), ST.calArg)]

/-- OTA-SET (R435, R444). -/
def execOtaSet (h : Hdr) (partners : Partners) : Meaning :=
  hostCmd (cmd 0x0A10) h (.otaSet h partners)
    (otaSetCheck partners)
    (just fun d => d.onCal fun c => { c with partners := partners.list.map fun p => { cfg := p } })

/-- A difference of twice a number of 2^-16 ticks in ps. -/
def halfTicksPs (n : Int) : Int := divHalfEven (n * 1000000000000) (131072 * tickHz)

/-- Milliseconds since a clock cycle. -/
def ageMs (d : Dev) (t : Nat) : Nat := (d.now - t) / 1966080

/-- OTA-GET (R436, R437): ages of a measurement never made are all ones. -/
def execOtaGet (h : Hdr) (index : Nat) : Meaning :=
  query (ask 0x0A11 [4, 4, 2, 2, 4, 4, 4]) h (.otaGet h index) (fun d => firstBad [(decide (d.cal.partners.length ≤ index), ST.calArg)]) fun d =>
    let p := nth d.cal.partners index
    let age (m : Option (Int × Nat × Int × Nat)) : Nat := match m with
      | some (_, _, _, t) => min 0xFFFFFFFF (ageMs d t)
      | none => 0xFFFFFFFF
    let snr := match p.ours with
      | some (_, _, s, _) => s
      | none => 0
    [satfld 4 (halfTicksPs p.diff), satfld 4 (halfTicksPs p.sum), fld 2 p.rho, satfld 2 snr, fld 4 (age p.ours), fld 4 (age p.theirs), satfld 4 p.applied]

/-- One partner changed. -/
def onPartner (d : Dev) (k : Nat) (f : OtaPartner → OtaPartner) : Dev := d.onCal fun c => { c with partners := upd c.partners k f }

/-- R439: EV_OTA_FAULT with its cause: 1 stale, 2 SNR, 3 step limit. -/
def otaFault (d : Dev) (unit cause : Nat) : Dev := calStick (raiseEv d EV.otaFault [a4 unit, a4 cause]) 3

/-- R437: what is still to move on the asymmetry of the direct lane, in ps: twice what separates its offset from that
through the air. -/
def asymNeed (d : Dev) (diff : Int) : Int := 2 * (d.tmb.laneOffset - halfTicksPs diff)

/-- R437 to R439: the corrections of a solved pair: the asymmetry by at most 20 ps, the transmit phases by at most 2°. -/
def otaCorrect (d : Dev) (k : Nat) : Dev :=
  let p := nth d.cal.partners k
  let need := asymNeed d p.diff
  let lane := p.cfg.flags.testBit 6 && d.tmb.laneRole == 2
  let turn : Int := -(toSigned 16 p.rho)
  let limited := (lane && decide (20 < need.natAbs)) || (p.cfg.flags.testBit 7 && decide (364 < turn.natAbs))
  let d := if lane then
      onPartner (d.onTmb fun t => { t with laneAsym := t.laneAsym + satSym 20 need }) k fun x => { x with applied := x.applied + satSym 20 need }
    else d
  let d := if p.cfg.flags.testBit 7 then d.onCal fun c => { c with rotation := ofSigned 16 (c.rotation + satSym 364 turn) } else d
  let d := onPartner d k fun x => { x with limited := if limited then x.limited + 1 else 0 }
  if limited ∧ (p.limited + 1) % 10 = 0 then otaFault d p.cfg.unit 3 else d

/-- R436: a pair is solved from both measurements, each younger than 10 s; a stale one or an SNR below 20 dB is a fault that
keeps the last corrections. -/
def otaSolve (d : Dev) (k : Nat) : Dev :=
  let p := nth d.cal.partners k
  match p.ours, p.theirs with
  | some (mb, fb, sb, tb), some (ma, fa, sa, ta) =>
    if d.now ≥ ta + 10 * tickHz ∨ d.now ≥ tb + 10 * tickHz then otaFault d p.cfg.unit 1
    else if min sa sb < 200 then otaFault d p.cfg.unit 2
    else
      let diff := mb - ma
      let rho := ofSigned 16 ((fa : Int) - fb - divHalfEven (d.bcn.cfg.rxFreq * diff) tickHz)
      let d := onPartner d k fun x => { x with diff := diff, sum := ma + mb, rho := rho }
      otaCorrect (raiseEv (calCount d 6) EV.otaResult [a4 p.cfg.unit]) k
  | _, _ => d

/-- R436, R439: a partner's measurement becomes 10 s old. -/
def otaStale (d : Dev) : Dev :=
  let due (m : Option (Int × Nat × Int × Nat)) : Bool := m.any fun x => x.2.2.2 + 10 * tickHz == d.now
  (d.cal.partners.filter fun p => due p.ours || due p.theirs).foldl (fun d p => otaFault d p.cfg.unit 1) d

end Sys2Proof.Machine
end

