-- ==== Sys2Proof/Machine/Weave.lean ====
section
/-! DEFINITION. Chapter 9: coppices and the weave: positions, slices and the member table (R317 to R323), the header and its
checks (R324, R325, R331, R332, R339, R340, R344), frames, routing and loss of lanes (R326 to R330, R334), deadlines, zero-fill
and masks (R335 to R338), and the swap and leaving (R342, R343, R345). The pass sets that the judged groups form (R351,
R361, R363, R364) stand here too, because the deadline forms them. -/

namespace Sys2Proof

open Machine

/-- The dimensions, 0 encoding 256 (R324). -/
def WeaveHdr.dims (h : WeaveHdr) : List Nat := [h.n1, h.n2, h.n3].map fun n => if n = 0 then 256 else n

/-- The sample bytes s of the weave's format (R327). -/
def WeaveHdr.bytes (h : WeaveHdr) : Nat := if h.format = 5 then 2 else 1

/-- The coordinates of a position (R317). -/
def WeaveHdr.coords (h : WeaveHdr) (m : Nat) : List Nat :=
  let n1 := nth h.dims 0
  let n2 := nth h.dims 1
  [m % n1, m / n1 % n2, m / (n1 * n2)]

/-- The position of coordinates. -/
def WeaveHdr.position (h : WeaveHdr) (c : List Nat) : Nat := nth c 0 + nth h.dims 0 * (nth c 1 + nth h.dims 1 * nth c 2)

end Sys2Proof

namespace Sys2Proof.Machine

/-! ### Banks -/

def Dev.onWeave (d : Dev) (f : Weave → Weave) : Dev := { d with weave := f d.weave }
def Dev.onXce (d : Dev) (f : Xce → Xce) : Dev := { d with xce := f d.xce }
def Weave.count (w : Weave) (k n : Nat) : Weave := { w with counts := upd w.counts k (· + n) }
def Xce.count (x : Xce) (k n : Nat) : Xce := { x with counts := upd x.counts k (· + n) }

/-- The bank of the group of a stamp (R62, R342). -/
def Weave.bankFor (w : Weave) (axis g : Nat) : WeaveBank :=
  if (w.banks.busy axis).isSome ∧ g < w.swapAt then w.banks.shd else w.banks.cur

def weaveHdrFields (h : WeaveHdr) : List Field :=
  [fld 2 h.id, fld 2 h.epoch, fld 1 h.sb, fld 1 h.format, fld 1 h.mode, fld 1 h.maxGroups, fld 1 h.n1, fld 1 h.n2, fld 1 h.n3, fld 1 h.reserved11,
   fld 2 h.members, fld 2 h.own, fld 4 h.deadline, fld 2 h.covGroup, fld 2 h.covSpan, fld 40 h.reserved24]
def laneMapFields (l : List LaneMap) : List Field := l.flatMap fun e => [fld 1 e.dim, fld 1 e.partner, fld 1 e.pos, fld 1 e.zero]
def memberFields (l : List Member) : List Field := l.flatMap fun m => [fld 3 m.unit, fld 1 m.flags, fld 2 m.first, fld 2 m.count, fld 8 m.mask]

/-- R324: the shape CRC of a bank. -/
def weaveCrc (d : Dev) (b : WeaveBank) : Nat :=
  let h := bytesOf (weaveHdrFields b.hdr)
  let f := nth d.fre b.hdr.sb
  let c := bytesOf (freCfgFields f.cfg f.banks.cur)
  crc32c (h.take 14 ++ h.drop 16 ++ bytesOf (memberFields b.entries) ++ c.take 28 ++ (c.drop 32).take 8)

def weaveArmed (d : Dev) : Bool := armed d 0x0701 7 0 fun _ => true

/-- XCE_WEAVE_STATUS. -/
def weaveStatus (d : Dev) : Nat :=
  let w := d.weave
  let h := w.banks.cur.hdr
  b2n w.on * 2 ^ 31 + w.banks.index * 2 ^ 30 + b2n (weaveArmed d) * 2 ^ 29 + (if w.on then h.mode % 2 * 2 ^ 28 + b2n (h.format == 5) * 2 ^ 27
    + h.members % 512 * 2 ^ 18 + h.own % 256 * 2 ^ 10 else 0) + b2n w.missing * 2 ^ 9 + b2n w.lateSeen * 2 ^ 8 + b2n w.shape * 2 ^ 7
    + b2n w.stamp * 2 ^ 6 + b2n w.dram * 2 ^ 5 + b2n w.route * 2 ^ 4

/-! ### The checks of a bank -/

/-- R324: the header and the lane map are inside their ranges. A header with zero members takes the unit out (R343). -/
def weaveArgOk (h : WeaveHdr) (maps : List LaneMap) : Bool :=
  h.id != 0 && decide (h.sb ≤ 3) && (h.format == 4 || h.format == 5) && decide (h.mode ≤ 1) && decide (1 ≤ h.maxGroups) && decide (h.maxGroups ≤ 64)
    && h.reserved11 == 0 && h.reserved24 == 0 && decide (h.members ≤ 256) && decide (h.own < h.members) && decide (1 ≤ h.deadline)
    && decide (h.deadline ≤ 16777215) && (h.mode == 0 || (decide (1 ≤ h.covGroup) && decide (h.covGroup ≤ 4096) && decide (1 ≤ h.covSpan)))
    && maps.all fun e => (e.dim == 0xFF || decide (e.dim ≤ 2)) && decide (e.pos ≤ 7) && e.zero == 0

/-- R330: the intermediate positions of a route. -/
def routeVia (h : WeaveHdr) (a b : Nat) : List Nat :=
  let x := h.coords a
  let y := h.coords b
  [h.position [nth y 0, nth x 1, nth x 2], h.position [nth y 0, nth y 1, nth x 2]]

/-- R29, R317, R325, R330: the shape, at least one contributing member, the own entry and the routes. -/
def weaveShapeOk (d : Dev) (b : WeaveBank) : Bool :=
  let h := b.hdr
  let here (m : Nat) : Bool := (nth b.members m).present
  h.dims.foldl (· * ·) 1 == h.members && b.inputs != 0 && here h.own && b.ownEntry.unit == d.nvm.unitNumber
    && (List.range h.members).all fun x => !here x || (List.range h.members).all fun y => !here y || (routeVia h x y).all here

/-- R321, R344: the slices. -/
def weaveSliceOk (d : Dev) (b : WeaveBank) : Bool :=
  let l := b.owners
  let n := (nth d.fre b.hdr.sb).cfg.nCh
  l.all (fun m => decide (m.count ≤ 256) && decide (m.first + m.count ≤ n))
    && l.zipIdx.all (fun x => l.zipIdx.all fun y => x.2 == y.2 || decide (x.1.first + x.1.count ≤ y.1.first) || decide (y.1.first + y.1.count ≤ x.1.first))
    && (b.hdr.mode == 0 || (l.all (fun m => m.count % max 1 b.hdr.covGroup == 0)
      && decide (b.hdr.covGroup * b.hdr.covSpan * b.inputs * b.hdr.bytes ≤ 67108864)))

/-- R31, R322: every owner's slice rate is inside the capacity. -/
def weaveCapacityOk (d : Dev) (b : WeaveBank) : Bool :=
  b.capacityOk (groupRate d b.hdr.sb)

/-- R319: the domains of the unit's role. -/
def weaveDomainsOk (d : Dev) (b : WeaveBank) : Bool :=
  let e := b.ownEntry
  domOn d 8 && (!e.contributes || (domOn d 2 && domOn d 3 && domOn d 6)) && (e.count == 0 || (domOn d 7 && domOn d 9))

/-- R328: the channels and the groups of a full frame to an owner. -/
def frameN (h : WeaveHdr) (o : Member) : Nat := min o.count (128 / h.bytes)
def frameG (h : WeaveHdr) (o : Member) : Nat := min h.maxGroups (8192 / max 1 (64 * frameN h o * h.bytes))

/-- R326, R327, R332: the bytes of a weave frame. -/
def weaveBytes (h : WeaveHdr) (n g : Nat) : Nat := 32 + ceilDiv (64 * n * g * h.bytes) 8 * 8

/-- R332: the blocks of one group set of a source for an owner. -/
def setBlocks (h : WeaveHdr) (o : Member) : Nat :=
  let n := max 1 (frameN h o)
  let g := frameG h o
  o.count / n * frameBlocks (weaveBytes h n g) + (if o.count % n = 0 then 0 else frameBlocks (weaveBytes h (o.count % n) g))

/-- R332: the blocks per second to each partner of a dimension, as a quotient. -/
def partnerBlocks (d : Dev) (b : WeaveBank) (dim : Nat) : Nat × Nat :=
  let (r, m) := groupRate d b.hdr.sb
  let (x, y) := (b.owners.map fun o => (setBlocks b.hdr o * r, max 1 (frameG b.hdr o) * m)).foldl addQ (0, 1)
  (x, y * nth b.hdr.dims dim)

/-- The lanes of a bundle. -/
def bundle (maps : List LaneMap) (dim partner : Nat) : List Nat :=
  (maps.zipIdx.filter fun e => e.1.dim == dim && e.1.partner == partner).map (·.2)

/-- R332: the load of a lane, as a quotient; 0 for a lane the weave does not use. -/
def weaveLoad (d : Dev) (b : WeaveBank) (lane : Nat) : Nat × Nat :=
  let e := nth b.maps lane
  if e.dim = 0xFF then (0, 1)
  else
    let (x, y) := partnerBlocks d b e.dim
    let (u, v) := addQ (x, y * max 1 (bundle b.maps e.dim e.partner).length) (idleBlocks d lane)
    (u * 66, v * directRate d lane)

/-- R331, R332: the lane map: DIRECT lanes whose expected partner is the member named, carrying nothing else, with bundles
of distinct positions and no lane above 95 %. -/
def weaveLanesOk (d : Dev) (b : WeaveBank) : Bool :=
  b.maps.zipIdx.all fun (e, l) =>
    e.dim == 0xFF ||
      (let own := b.hdr.coords b.hdr.own
       let m := b.hdr.position (own.set e.dim e.partner)
       let (x, y) := weaveLoad d b l
       laneDirect d l && !laneCut d l && !laneChained d l
         && decide (e.partner < nth b.hdr.dims e.dim) && e.partner != nth own e.dim && (nth b.members m).present
         && (nth d.lanes l).expUnit == (nth b.members m).unit
         && ((bundle b.maps e.dim e.partner).filter fun k => (nth b.maps k).pos == e.pos).length == 1 && decide (x * 100 ≤ y * 95))

/-- R339: the corner-turn region of a bank. -/
def weaveRegion (b : WeaveBank) : Nat :=
  let k := b.ownEntry.count
  if b.hdr.members = 0 then 0
  else if b.hdr.mode = 0 then 2 * k * 67108864 else 2 * b.inputs * k * b.hdr.covSpan * b.hdr.bytes

/-- R339: the corner turn's DRAM load in bytes per second, as a quotient. -/
def cornerLoad (d : Dev) (b : WeaveBank) : Nat × Nat :=
  let (n, m) := groupRate d b.hdr.sb
  (2 * b.inputs * b.ownEntry.count * n * b.hdr.bytes, m)

/-! ### DRAM held by the unit (R340, R360, R488) -/

/-- The bytes of a correlator's two integration buffers (R360). -/
def intBytes (c : XceCfg) (b : WeaveBank) : Nat := if c.outMode = 1 then 0 else 2 * blocksOf b.inputs * 8192 * b.ownEntry.count

/-- Bytes in whole pages of 1 MiB (R488). -/
def pages (n : Nat) : Nat := ceilDiv n 1048576 * 1048576

/-- The bytes the weave's regions take: those of the bank in force and of a complete shadow. -/
def weaveHeld (d : Dev) : Nat := pages d.weave.banks.cur.region + pages d.weave.banks.shd.region

/-- The bytes the integration buffers take. -/
def xceHeld (d : Dev) : Nat := if d.xce.on then pages (intBytes d.xce.banks.cur d.weave.banks.cur) else 0

/-- R559: the windows of applets onto DRAM. -/
def dramWindows (d : Dev) : List Window := d.cores.flatMap fun c => c.img.windows.filter fun w => w.access != 0 && w.size != 0 && w.target == 1

/-- R559: whether a page of 1 MiB at an address lies under one of some windows. -/
def underWindow (ws : List Window) (a : Nat) : Bool := ws.any fun w => decide (w.base < a + 1048576) && decide (a < w.base + w.size * 65536)

/-- R485, R559: the bytes of a protected region that allocations may take: its whole pages that no applet's window covers. -/
def regionRoom (d : Dev) (k : Nat) : Nat :=
  let ws := dramWindows d
  if ws.isEmpty then 0x33300000
  else ((List.range 819).filter fun i => !underWindow ws (0x1000000000 + k * 0x40000000 + i * 1048576)).length * 1048576

/-- R485, R488: the protected bytes that allocations may take, region 0 set aside for the unit's own objects. -/
def protBytes (d : Dev) : Nat := ((d.mem.prot.zipIdx.drop 1).map fun (p, k) => if p then regionRoom d k else 0).sum

def dramFree (d : Dev) : Nat := protBytes d - weaveHeld d - xceHeld d

/-! ### Commands -/

/-- The checks of WEAVE-MEMBERS. -/
def weaveMembersCheck (first : Nat) (entries : Members) (d : Dev) : Option Reply :=
  Checks.orElse (firstBad [
    (entries.list.isEmpty || decide (64 < entries.list.length) || decide (256 < first + entries.list.length)
      || entries.list.any (fun m => decide (262143 < m.unit) || m.flags % 64 != 0 || decide (256 < m.count)), ST.weaveArg), (qsHeld d, ST.quickset)])
    (bankCheck d (weaveArmed d) (d.weave.banks.busy d.axis).toList)

/-- WEAVE-MEMBERS (R318, R325): entries of the shadow table. -/
def execWeaveMembers (h : Hdr) (first : Nat) (entries : Members) : Meaning :=
  hostCmd (cmd 0x0701) h (.weaveMembers h first entries)
    (weaveMembersCheck first entries)
    (just fun d => d.onWeave fun w =>
      let b := w.banks.shd
      { w with banks := w.banks.write { b with
        complete := false, region := 0, members := b.members.take first ++ entries.list ++ b.members.drop (first + entries.list.length) } })

/-- The shadow bank with a header and a lane map (R323). -/
def newBank (hdr : WeaveHdr) (laneMap : LaneMaps) (d : Dev) : WeaveBank := { d.weave.banks.shd with hdr := hdr, maps := laneMap.maps }

/-- The checks of WEAVE-SET. -/
def weaveSetCheck (hdr : WeaveHdr) (laneMap : LaneMaps) (d : Dev) : Option Reply :=
  let b := newBank hdr laneMap d
  let out := hdr.members == 0
  let f := nth d.fre hdr.sb
  let free := protBytes d - pages d.weave.banks.cur.region - xceHeld d
  Checks.orElse (if out then firstBad [(hdr.id == 0 || hdr.reserved11 != 0 || hdr.reserved24 != 0, ST.weaveArg)]
    else firstBad [(!weaveArgOk hdr laneMap.maps, ST.weaveArg), (!weaveShapeOk d b, ST.weaveShape), (!weaveSliceOk d b, ST.weaveSlice),
      (!weaveCapacityOk d b, ST.weaveCapacity), (!weaveLanesOk d b, ST.weaveLane), (!weaveDomainsOk d b, ST.domainOff),
      (b.ownEntry.contributes && (!f.on || !f.cfg.consumers.testBit 1), ST.weaveSlot)]) <|
  Checks.orElse (firstBad [(qsHeld d, ST.quickset), (hdr.members != 0 && storeFailed d 3, ST.memFailed)]) <|
  Checks.orElse (bankCheck d (weaveArmed d) (d.weave.banks.busy d.axis).toList)
    (if free < pages (weaveRegion b) then some { status := ST.weaveDram, hint := free } else none)

/-- WEAVE-SET (R323 to R325, R330 to R332, R340, R344). -/
def execWeaveSet (h : Hdr) (hdr : WeaveHdr) (laneMap : LaneMaps) : Meaning :=
  hostCmd (cmd 0x0700 (List.replicate 32 2 ++ [8, 4])) h (.weaveSet h hdr laneMap)
    (weaveSetCheck hdr laneMap)
    (fun d =>
      let b := { newBank hdr laneMap d with complete := true, region := weaveRegion (newBank hdr laneMap d) }
      let (x, y) := cornerLoad d b
      { dev := d.onWeave fun w => { w with banks := w.banks.write b },
        reply := { fields := ((List.range 32).map fun l => fld 2 (permille (weaveLoad d b l))) ++ [fld 8 b.region, fld 4 (ceilDiv x (max 1 y * 100000000))] } })

/-- WEAVE-GET. -/
def execWeaveGet (h : Hdr) (bank : Nat) : Meaning :=
  query (ask 0x0702 [64, 128, 4, 4]) h (.weaveGet h bank) (fun _ => firstBad [(decide (1 < bank), ST.badArg)]) fun d =>
    let b := if bank = 0 then d.weave.banks.cur else d.weave.banks.shd
    weaveHdrFields b.hdr ++ laneMapFields b.maps ++ [fld 4 (weaveCrc d b), fld 4 (weaveStatus d)]

/-- Whether a range of positions is one a command may name. -/
def rangeBad (first count : Nat) : Bool := decide (count < 1) || decide (64 < count) || decide (256 < first + count)

/-- WEAVE-MEMBERS-GET. -/
def execWeaveMembersGet (h : Hdr) (bank first count : Nat) : Meaning :=
  query (ask 0x0703 (spanWidths 64 count [3, 1, 2, 2, 8])) h (.weaveMembersGet h bank first count) (fun _ => firstBad [(decide (1 < bank) || rangeBad first count, ST.weaveArg)]) fun d =>
    memberFields (((if bank = 0 then d.weave.banks.cur else d.weave.banks.shd).members.drop first).take count)

/-- WEAVE-STATUS: per position the smallest slack, zero until a frame has come, the samples zero-filled and the late
frames. -/
def execWeaveStatus (h : Hdr) (first count : Nat) : Meaning :=
  query (ask 0x0705 (spanWidths 64 count [4, 4, 4])) h (.weaveStatus h first count) (fun _ => firstBad [(rangeBad first count, ST.weaveArg)]) fun d =>
    ((d.weave.pos.drop first).take count).flatMap fun p => [sfld 4 (p.slack.getD 0), fld 4 (sat32 p.zeroed), fld 4 (sat32 p.late)]

/-- WEAVE-COUNTERS. -/
def execWeaveCounters (h : Hdr) (clear : Nat) : Meaning :=
  hostCmd (askClear 0x0706 clear (List.replicate 8 8)) h (.weaveCounters h clear) (fun _ => firstBad [(decide (1 < clear), ST.badArg)])
    fun d =>
      { dev := if clear = 1 then d.onWeave fun w => { w with
        counts := [0, 0, 0, 0, 0, 0, 0, 0] } else d,
        reply := { fields := d.weave.counts.map (fld 8) } }

/-! ### Passes and integrations that close (R351, R361, R363, R364, R376) -/

/-- R348: the sample bytes and the cycles per sample of a correlator mode, and its round limit. -/
def xceBytes (mode : Nat) : Nat := nth [1, 2, 4] mode
def xceCycles (mode : Nat) : Nat := nth [1, 4, 16] mode
def xceRound (mode : Nat) : Nat := nth [65536, 32768, 16384] mode

/-- R351, R344: the groups of a whole pass set. -/
def setGroups (c : XceCfg) (b : WeaveBank) : Nat :=
  if b.hdr.mode = 1 then b.hdr.covSpan else 67108864 / max 1 (b.inputs * xceBytes c.mode)

/-- R361: the samples an integration holds at most per channel. -/
def intLimit (mode : Nat) : Nat := nth [16777216, 8388608, 4194304] mode

/-- The correlator's configuration for the group of a stamp. -/
def Xce.cfgFor (x : Xce) (axis g : Nat) : XceCfg := if (x.banks.busy axis).isSome ∧ g < x.swapAt then x.banks.shd else x.banks.cur

/-- The open integration, by its number. -/
def Xce.openInt (x : Xce) : Option Integ := x.integs.find? fun i => i.st == 0 && !i.closing

/-- The correlator with one integration changed. -/
def Xce.onInt (x : Xce) (n : Nat) (f : Integ → Integ) : Xce := { x with integs := x.integs.map fun i => if i.num == n then f i else i }

/-- R351: the pass set that forms is complete as it stands. -/
def closeSet (x : Xce) : Xce :=
  match x.forming with
  | none => x
  | some s => { (x.onInt s.integ fun i => { i with sets := i.sets + 1 }) with
      forming := none, ready := x.ready ++ (if s.groups = 0 then [] else [s]) }

/-- R364: the open integration closes; it is complete once the dumps of its last pass are accumulated. -/
def closeInt (x : Xce) (at_ : Nat) : Xce :=
  match x.openInt with
  | none => x
  | some i => x.onInt i.num fun i => { i with closing := true, closedAt := at_ }

/-- Counts added to those of an input. -/
def mergeCount (l : List (Nat × InCount)) (e : Nat × InCount) : List (Nat × InCount) :=
  match l.lookup e.1 with
  | some y => (e.1, ⟨y.zeroed + e.2.zeroed, y.masked + e.2.masked, y.thorned + e.2.thorned⟩) :: l.filter (·.1 != e.1)
  | none => e :: l

/-- R339, R351, R361, R363, R364: a group whose samples are all judged joins the pass set that forms, with the frames that brought them, or begins one; cuts at or
before it close the set and the integration first. -/
def feedGroup (d : Dev) (b : WeaveBank) (g : Nat) (counts : List (Nat × InCount)) (frames : List WeaveFrame) : Dev :=
  let c := d.xce.cfgFor d.axis g
  let cut := d.xce.cuts.any fun p => decide (p ≤ g)
  let d := if cut then d.onXce fun x => { closeInt (closeSet x) d.axis with cuts := x.cuts.filter fun p => decide (g < p) } else d
  let covCut := b.hdr.mode == 1 && d.weave.covCuts.any fun p => decide (p ≤ g)
  let d := if covCut then (d.onXce closeSet).onWeave fun w => { w with covCuts := w.covCuts.filter fun p => decide (g < p) } else d
  let d := match d.xce.forming with
    | some _ => d
    | none =>
      if g < c.anchor then d
      else d.onXce fun x =>
        let (n, x) := match x.openInt with
          | some i => (i.num, x)
          | none => (x.nextInteg, { x with integs := x.integs ++ [({ num := x.nextInteg, first := g, cfg := c, bank := b } : Integ)], nextInteg := x.nextInteg + 1 })
        { x with forming := some { integ := n, cfg := c, bank := b, first := g } }
  match d.xce.forming with
  | none => d
  | some s =>
    let s := { s with
      groups := s.groups + 1, inputs := counts.foldl mergeCount s.inputs, stamps := s.stamps ++ [g], frames := (s.frames ++ frames).eraseDups }
    let d := d.onXce fun x => { x with forming := some s }
    if s.groups < setGroups s.cfg s.bank then d
    else
      let d := d.onXce closeSet
      let n := ((d.xce.integs.find? fun i => i.num == s.integ).map (·.sets)).getD 0
      if s.cfg.intPasses ≠ 0 ∧ s.cfg.intPasses ≤ n then d.onXce (closeInt · d.axis)
      else if intLimit s.cfg.mode < (n + 1) * setGroups s.cfg s.bank ∧ s.bank.hdr.mode = 0 then
        raiseEv (d.onXce (closeInt · d.axis)) EV.xceAutocut [a4 s.integ]
      else d

/-! ### The tiles' sums (R348 to R350) -/

/-- R339, R351, R368: the stamp and the channel of a sample of a pass: in mode 1 the channels of the covariance group follow one another
within each group. -/
def passSample (s : PassSet) (channel i : Nat) : Nat × Nat :=
  let w := if s.bank.hdr.mode = 1 then max 1 s.bank.hdr.covGroup else 1
  (nth s.stamps (i / w), channel + i % w)

/-- Where a frame holds a channel of a group for a path; none where it does not. -/
def frameIndex (d : Dev) (sb g ch p : Nat) (f : WeaveFrame) : Option Nat :=
  if f.firstCh ≤ ch ∧ ch < f.firstCh + f.channels then
    ((List.range f.groups).find? fun j => groupPos d sb f.axis j == g).map fun j => (j * f.channels + (ch - f.firstCh)) * 64 + p
  else none

/-- R335 to R338: the sample of an input of a pass as the corner turn holds it, and whether it is thorned: zero for a masked path, for one
that brought nothing, for one that an overflow lost (R341), and for one of no contributing position. -/
def storedSample (d : Dev) (s : PassSet) (channel q i : Nat) : Cx × Bool :=
  let b := s.bank
  let m := q / 64
  let p := q % 64
  let e := nth b.members m
  let (g, ch) := passSample s channel i
  if !(e.present && e.contributes) || e.mask.testBit p || s.gone.contains (g, ch, q) then ((0, 0), false)
  else if m = b.hdr.own then
    match groupOf d b.hdr.sb g with
    | none => ((0, 0), false)
    | some x =>
      let v := (nth (channelsOf d b.hdr.sb p x) ch).1
      ((if s.cfg.mode = 2 then to12 v else if s.cfg.mode = 1 then toF8 x v else toF4 x v).1, false)
  else match (s.frames.filter fun f => f.source == m).findSome? fun f => (frameIndex d b.hdr.sb g ch p f).map fun k => (nth f.vals k, f.lost.contains k) with
    | some v => v
    | none => ((0, 0), false)

/-- R350: whether the 64-bit word of the sample store that holds a sample is thorned: eight samples of its input. -/
def wordThorned (d : Dev) (s : PassSet) (channel samples q i : Nat) : Bool :=
  (List.range 8).any fun k => let j := i / 8 * 8 + k; decide (j < samples) && (storedSample d s channel q j).2

/-- R349: the row and column of a block index. -/
def blockPos (b : Nat) : Nat × Nat :=
  let j := ((List.range 512).filter fun j => decide (j * (j + 1) / 2 ≤ b)).length - 1
  (b - j * (j + 1) / 2, j)

/-- R348 to R350, R357: a bank with its sums: for each pair of inputs of the block, the products over the samples that the tile took, and
which of them a thorned word touched. The samples a stall discarded are the first ones. -/
def tileSums (d : Dev) (s : PassSet) (samples : Nat) (j : TileJob) : TileJob :=
  let (row, col) := blockPos j.block
  let run := (List.range (j.samples - j.stalled)).map (· + (j.start + j.stalled))
  let take (q i : Nat) : Cx := if wordThorned d s j.channel samples q i then (0, 0) else (storedSample d s j.channel q i).1
  let shift := nth [0, 7, 15] j.mode
  let product (p q i : Nat) : Cx :=
    let y := take q i
    let v := Cx.mul (take p i) (y.1, -y.2)
    (divHalfEven v.1 (2 ^ shift), divHalfEven v.2 (2 ^ shift))
  { j with
    vals := (List.range 1024).map fun k => Cx.sum (run.map (product (32 * row + k / 32) (32 * col + k % 32)))
    marks := (List.range 1024).filter fun k => run.any fun i => wordThorned d s j.channel samples (32 * row + k / 32) i || wordThorned d s j.channel samples (32 * col + k % 32) i }

/-- R376: the correlator's work stops: every tile's samples so far go to its full banks, flagged partial; the blocks of the
pass not reached are not dumped; the open integration closes partial. `lostBanks` drops the undrained banks. -/
def xceHalt (d : Dev) (lostBanks : Bool) : Dev :=
  let left := match d.xce.pass with
    | none => 0
    | some p =>
      let l := xceRound p.set.cfg.mode
      let k := if p.set.cfg.tiles = 0 then 128 else p.set.cfg.tiles
      let b := blocksOf p.set.bank.inputs
      ceilDiv p.samples l * b - (p.seg * b + min b ((p.round + 1) * k))
  d.onXce fun x =>
    let part (t : Tile) : Tile :=
      match t.job, x.pass with
      | some j, some p =>
        let n := min j.samples ((d.now - p.began) / (2 * xceCycles j.mode))
        let st := match t.stallFrom with
          | some c => j.stalled + (d.now - c) / (2 * xceCycles j.mode)
          | none => j.stalled
        { job := none, stallFrom := none, fulls := if n = 0 then t.fulls else t.fulls ++ [tileSums d p.set p.samples { j with samples := n, stalled := min n st, partialDump := true }] }
      | _, _ => t
    let x := { x with tiles := x.tiles.map fun t => let t := part t; if lostBanks then { t with fulls := [] } else t }
    let x := match x.openInt with
      | none => x
      | some i => x.onInt i.num fun i => { i with closing := true, closedAt := d.axis, cutShort := true, notReached := i.notReached + left }
    let x := match x.pass with
      | none => x
      | some p => { (x.onInt p.set.integ fun i => { i with inputs := p.inputs.foldl mergeCount i.inputs }) with lastInputs := x.lastInputs ++ [(p.num, p.inputs)] }
    { x with pass := none, forming := none, ready := [], cuts := [], freeAt := if d.xce.tiles.all (·.fulls.isEmpty) then d.now else x.freeAt }

/-- R345: D7 or D9 goes off: the region of the bank in force frees, and with it the ownership of the slice ends. -/
def regionFrees (d : Dev) : Dev := d.onWeave fun w => { w with banks := { w.banks with cur := { w.banks.cur with region := 0 } } }

/-! ### Stakes and leaving -/

/-- R75, R340: when the former bank of the weave frees: its last pass has been read. -/
def weaveFrees (d : Dev) (p : Nat) : Nat :=
  let b := d.weave.banks.cur
  p + b.hdr.deadline + b.ownEntry.count * blocksOf b.inputs * 2 * 65536 / 128

/-- R345: the unit leaves its coppice. -/
def weaveLeave (d : Dev) : Dev :=
  if d.weave.on then
    let d := xceHalt d false
    raiseEv (((regionFrees d).onWeave fun w => { w with on := false, arrived := [] }).onXce fun x => { x with on := false }) EV.weaveLeft []
  else d

/-- WEAVE-LEAVE (R345). -/
def execWeaveLeave (h : Hdr) : Meaning :=
  hostCmd (cmd 0x0704 [8]) h (.weaveLeave h) (fun d => firstBad [(qsHeld d, ST.quickset), (!d.weave.on, ST.weaveState)])
    (fun d => { dev := weaveLeave d, reply := { fields := [fld 8 (nth d.weave.counts 0)] } })

/-- R343: a swap needs a complete shadow of another epoch. -/
def weaveSwapOk (d : Dev) : Bool :=
  d.weave.banks.shd.complete && (!d.weave.on || d.weave.banks.shd.hdr.epoch != d.weave.banks.cur.hdr.epoch)

/-- R342, R343, R345, R363, R378, R497: the weave's banks swap: header, table, map and region change by stamp, the integration closes, a
shadow correlator configuration written comes into force, and a bank with zero members takes the unit out. -/
def weaveSwap (d : Dev) (q : QStake) : Dev :=
  if d.weave.banks.thornShd ≠ 0 then swapRefused d EV.memSwapRefused q else
  let free := weaveFrees d q.pos
  let outs := d.weave.banks.shd.hdr.members == 0
  let stops := d.xce.on && d.weave.banks.shd.ownEntry.count == 0
  let d := d.onXce fun x => { x with
    cuts := x.cuts ++ [q.pos], banks := if x.shdNew then x.banks.swap free else x.banks, shdNew := false, swapAt := if x.shdNew then q.pos else x.swapAt }
  if outs then
    let d := raiseEv d EV.weaveSwap [a4 q.stake.tag]
    (weaveLeave d).onWeave fun w => { w with banks := w.banks.swap free, swapAt := q.pos }
  else
    let d := d.onWeave fun w => { w with on := true, banks := w.banks.swap free, swapAt := q.pos }
    let d := if stops then (xceHalt d false).onXce fun x => { x with on := false } else d
    raiseEv d EV.weaveSwap [a4 q.stake.tag]

/-- WEAVE_SWAP (R342). -/
def execWeaveSwap : Meaning := onDev (stakeAct 0x0701 (fun d _ => weaveSwapOk d && domOn d 8) lateDrop weaveSwap)

/-- COV_CUT (R342). -/
def execCovCut : Meaning := onDev (stakeAct 0x0702 (fun d _ => d.weave.on && d.weave.banks.cur.hdr.mode == 1) lateDrop fun d q =>
  d.onWeave fun w => { w with covCuts := w.covCuts ++ [q.pos] })

/-! ### Frames -/

/-- R326, R327: the bytes of a frame: the header, then the samples, padded with zeros to a whole word. -/
def weaveOctets (f : WeaveFrame) : List Nat :=
  let l := bytesOf (f.vals.map (sampleField (if f.f8 then 5 else 4)))
  bytesOf [fld 2 f.id, fld 2 f.epoch, fld 8 f.axis, fld 1 f.source, fld 1 f.dest, fld 1 (f.sb * 64 + b2n f.f8 * 32 + f.hops % 4), fld 1 f.groups, fld 2 f.firstCh,
    fld 2 f.channels, fld 4 f.shapeCrc, fld 1 f.flags, fld 1 0, fld 2 f.seq, fld 4 0] ++ padTo (ceilDiv l.length 8 * 8) l

/-- R90, R330: the data blocks of a relayed frame that hold a thorned sample, sent on thorned. -/
def weaveBad (f : WeaveFrame) : List Nat :=
  let s := if f.f8 then 2 else 1
  (f.lost.map fun k => (26 + s * k) / 8).eraseDups

/-- R326, R327, R338: a received frame of class 0x01. -/
def readWeave (x : Delivered) : WeaveFrame :=
  let b := x.bytes
  let f8 := (beAt b 14 1).testBit 5
  let s := if f8 then 2 else 1
  let n := min (64 * beAt b 18 2 * beAt b 15 1) ((b.length - 32) / s)
  { id := beAt b 0 2, epoch := beAt b 2 2, axis := beAt b 4 8, source := beAt b 12 1, dest := beAt b 13 1, sb := beAt b 14 1 / 64, f8 := f8, hops := beAt b 14 1 % 4,
    groups := beAt b 15 1, firstCh := beAt b 16 2, channels := beAt b 18 2, shapeCrc := beAt b 20 4, flags := beAt b 24 1, seq := beAt b 26 2,
    vals := (List.range n).map fun k => readSample (if f8 then 5 else 4) (beAt b (32 + s * k) s), lost := (List.range n).filter fun k => thornedBytes x (32 + s * k) s }

/-- R329: the lane of a bundle with the fewest blocks queued, the lowest bundle position on a tie. -/
def leastQueued (d : Dev) (b : WeaveBank) (up : List Nat) : Option Nat :=
  let key (l : Nat) : Nat := (nth d.lanes l).frames * 8 + (nth b.maps l).pos
  up.find? fun l => up.all fun m => decide (key l ≤ key m)

/-- R329, R334: a frame is routed in dimension order to a lane of its bundle that is up; with the bundle down it is discarded. -/
def routeFrame (d : Dev) (b : WeaveBank) (f : WeaveFrame) (k : Nat) : Dev :=
  let own := b.hdr.coords b.hdr.own
  let to_ := b.hdr.coords f.dest
  match (List.range 3).find? fun i => nth own i != nth to_ i with
  | none => d
  | some dim =>
    match leastQueued d b ((bundle b.maps dim (nth to_ dim)).filter (laneUp d)) with
    | none => raiseLimited (d.onWeave fun w => { w.count 6 1 with route := true }) EV.weaveRoute (dim * 256 + nth to_ dim) [a4 dim, a4 (nth to_ dim)]
    | some lane => (d.onWeave (·.count k 1)).sendFrame lane 1 (weaveOctets f) (weaveBad f)

/-- R326 to R328, R334: whether the unit forms a frame to an owner: channels of its slice from a frame's first one, groups that the slot has
formed, all of one bank; fewer than a full frame's groups only where the group after is of another bank or is not delivered, as after
FRE-DISABLE (R345). -/
def weaveSends (d : Dev) (b : WeaveBank) (dest axis first groups : Nat) : Bool :=
  let o := nth b.members dest
  let n := max 1 (frameN b.hdr o)
  let group (j : Nat) : Option Group := groupOf d b.hdr.sb (groupPos d b.hdr.sb axis j)
  let same (j : Nat) : Bool := (group j).any fun g => g.ready d && (group 0).any fun z => z.set.index == g.set.index
  d.weave.on && b.ownEntry.contributes && domOn d 6 && domOn d 8 && dest != b.hdr.own
    && decide (dest < b.hdr.members) && o.present && decide (o.first ≤ first) && decide (first < o.first + o.count) && (first - o.first) % n == 0
    && decide (0 < groups) && decide (groups ≤ frameG b.hdr o) && (List.range groups).all same
    && (groups == frameG b.hdr o || (group groups).any fun g => decide (adcTick g.chain.k (g.sample g.newest) < d.axis) && !same groups)

/-- R326, R327: the frame the unit forms: its header, and the requantised samples of its groups, channels and paths. -/
def weaveStamp (d : Dev) (b : WeaveBank) (dest axis first groups : Nat) : WeaveFrame :=
  let o := nth b.members dest
  let n := min (frameN b.hdr o) (o.first + o.count - first)
  let f8 := b.hdr.format == 5
  let gs := (List.range groups).filterMap fun j => groupOf d b.hdr.sb (groupPos d b.hdr.sb axis j)
  let vals := gs.flatMap fun g =>
    let l := allChannels d b.hdr.sb g
    (List.range n).flatMap fun i => (List.range 64).map fun p => let v := (nth (nth l p) (first + i)).1; if f8 then toF8 g v else toF4 g v
  let broken := gs.head?.any fun g => !g.chain.delivered (g.sample (if g.set.cfg.mode = 2 then g.first - 1 else g.newest - (if g.set.cfg.mode = 1 then g.set.cfg.hop else 1)))
  { id := b.hdr.id, epoch := b.hdr.epoch, axis := axis, source := b.hdr.own, dest := dest, sb := b.hdr.sb, f8 := f8, hops := 0, groups := groups, firstCh := first,
    channels := n, shapeCrc := weaveCrc d b, seq := nth d.weave.seqs dest % 65536, vals := vals.map (·.1),
    flags := b2n broken * 128 + (gs.head?.map fun g => g.set.index % 2).getD 0 * 64 + b2n (gs.any (groupFlushed d b.hdr.sb)) * 32 + b2n (vals.any (0 < ·.2)) * 16 }

/-- WEAVE_FRAME_SEND (R326 to R329): a frame of the unit's own contribution closes and is routed. -/
def execWeaveFrameSend (req : WeaveSend) : Meaning := onDev fun d =>
  let b := d.weave.bankFor d.axis req.axis
  if weaveSends d b req.dest req.axis req.first req.groups then
    routeFrame (d.onWeave fun w => { w with seqs := upd w.seqs req.dest fun n => (n + 1) % 65536 }) b
      (weaveStamp d b req.dest req.axis req.first req.groups) 0
  else d

/-- R335: whether an owner forms a group of a stamp: its window is open for it; an owner whose slot is off takes any stamp. -/
def ownerForms (d : Dev) (sb g : Nat) : Bool :=
  !(nth d.fre sb).on || (groupOf d sb g).any fun x => x.set.on && x.chain.delivered (x.sample x.newest)

/-- R335, R336: a frame reaches its owner. -/
def ownerFrame (d : Dev) (f : WeaveFrame) : Dev :=
  let b := d.weave.bankFor d.axis f.axis
  let d := d.onWeave (·.count 2 1)
  if f.id ≠ b.hdr.id ∨ f.epoch ≠ b.hdr.epoch ∨ f.shapeCrc ≠ weaveCrc d b then
    raiseLimited (d.onWeave fun w => { w.count 4 1 with shape := true }) EV.weaveShape f.source [a4 f.source]
  else if !ownerForms d b.hdr.sb f.axis then
    raiseLimited (d.onWeave fun w => { w.count 5 1 with stamp := true }) EV.weaveStamp f.source [a4 f.source]
  else if f.axis + b.hdr.deadline < d.axis ∨ d.weave.judged.any (fun j => decide (f.axis ≤ j)) then
    raiseLimited (d.onWeave fun w => { w.count 3 1 with
      lateSeen := true, pos := upd w.pos f.source fun p => { p with late := p.late + 1 } }) EV.weaveLate f.source [a4 f.source]
  else
    let slack : Int := (f.axis + b.hdr.deadline : Nat) - (d.axis : Int)
    d.onWeave fun w => { w with
      arrived := w.arrived ++ [f],
      pos := upd w.pos f.source fun p => { p with slack := some (match p.slack with
        | some s => min s slack
        | none => slack) } }

/-- WEAVE_FRAME (R330, R335, R336): relayed, or judged by its owner. -/
def execWeaveFrame (lane : Nat) (frame : DirectFrame) : Meaning := onDev fun d =>
  match deliver d lane frame with
  | none => d
  | some x =>
    let f := readWeave x
    let b := d.weave.bankFor d.axis f.axis
    if !d.weave.on || frame.cls != 1 || (nth b.maps lane).dim == 0xFF then d
    else if f.dest = b.hdr.own then ownerFrame d f
    else routeFrame d b { f with hops := f.hops + 1 } 1

/-- Whether an arrived frame of a source brings a channel of a group. -/
def brings (d : Dev) (sb g ch : Nat) (f : WeaveFrame) : Bool :=
  decide (f.firstCh ≤ ch) && decide (ch < f.firstCh + f.channels) && (List.range f.groups).any fun j => groupPos d sb f.axis j == g

/-- R335: the channels of the slice that no arrived frame of a position brings for a group. -/
def missingOf (d : Dev) (b : WeaveBank) (g m : Nat) : List Nat :=
  let e := b.ownEntry
  let l := d.weave.arrived.filter fun f => f.source == m
  if m = b.hdr.own then [] else ((List.range e.count).map (· + e.first)).filter fun ch => !l.any (brings d b.hdr.sb g ch)

/-- R335 to R338: what each input of each channel of the slice loses in a group, by (channel in the slice) × 16,384 + input: one
sample zero-filled, masked or thorned. -/
def groupCounts (d : Dev) (b : WeaveBank) (g : Nat) : List (Nat × InCount) :=
  let own := b.ownEntry
  (List.range b.hdr.members).flatMap fun m =>
    let e := nth b.members m
    if !(e.present && e.contributes) then []
    else
      let miss := missingOf d b g m
      let l := d.weave.arrived.filter fun f => f.source == m
      (List.range own.count).flatMap fun c => (List.range 64).filterMap fun p =>
        let ch := own.first + c
        let key := c * 16384 + 64 * m + p
        if e.mask.testBit p then some (key, ⟨0, 1, 0⟩)
        else if miss.contains ch then some (key, ⟨1, 0, 0⟩)
        else if l.any fun f => decide (f.firstCh ≤ ch) && (List.range f.groups).any fun j => groupPos d b.hdr.sb f.axis j == g && f.lost.contains ((j * f.channels + (ch - f.firstCh)) * 64 + p) then
          some (key, ⟨0, 0, 1⟩)
        else none

/-- R335, R337, R345: whether the deadline of a group has come for an owner that holds its region. -/
def deadlineDue (d : Dev) (b : WeaveBank) (group : Nat) : Bool :=
  d.weave.on && b.ownEntry.present && decide (0 < b.ownEntry.count) && b.region != 0 && domOn d 7 && domOn d 9 && decide (group + b.hdr.deadline ≤ d.axis)
    && d.weave.judged.all (fun j => decide (j < group)) && ownerForms d b.hdr.sb group

/-- The positions that contribute and from which a channel of a group is missing (R335). -/
def missingFrom (d : Dev) (b : WeaveBank) (group : Nat) : List Nat := (List.range b.hdr.members).filter fun m =>
  (nth b.members m).present && (nth b.members m).contributes && !(missingOf d b group m).isEmpty

/-- R335: the missing inputs of a position counted and reported. -/
def countMissing (b : WeaveBank) (group : Nat) (d : Dev) (m : Nat) : Dev :=
  raiseLimited (d.onWeave fun w => { w with
    missing := true, pos := upd w.pos m fun p => { p with zeroed := p.zeroed + 64 * (missingOf d b group m).length } }) EV.weaveMissing m [a4 m, a8 group]

/-- WEAVE_DEADLINE (R335, R337, R339): the group's deadline has come: missing inputs are replaced with zeros and counted, and
the group goes into the corner turn. -/
def execWeaveDeadline (group : Nat) : Meaning := onDev fun d =>
  let b := d.weave.bankFor d.axis group
  if deadlineDue d b group then
    ((feedGroup ((missingFrom d b group).foldl (countMissing b group) d) b group (groupCounts d b group)
      (d.weave.arrived.filter fun f => (List.range f.groups).any fun j => groupPos d b.hdr.sb f.axis j == group)).onWeave fun w => { w with
      judged := some group
      arrived := w.arrived.filter fun f => (List.range f.groups).any fun j => decide (group < groupPos d b.hdr.sb f.axis j) }).portMoves 0
      (b.inputs * b.ownEntry.count * b.hdr.bytes)
  else d

/-- R341: the pass set with samples of its last group lost: each of the slice's that the corner turn holds is lost or not, as a free value
says; it counts as zero-filled. -/
def loseSamples (d : Dev) (s : PassSet) (bits : List Nat) : PassSet :=
  let e := s.bank.ownEntry
  let g := s.stamps.getLastD 0
  let n := 64 * s.bank.hdr.members
  let all := (List.range e.count).flatMap fun c => (List.range n).map fun q => (c, q)
  let here (c q : Nat) : Bool :=
    let m := nth s.bank.members (q / 64)
    m.present && m.contributes && !m.mask.testBit (q % 64) && (q / 64 == s.bank.hdr.own ||
      s.frames.any fun f => f.source == q / 64 && (frameIndex d s.bank.hdr.sb g (e.first + c) (q % 64) f).isSome)
  let l := ((all.zip bits).filter fun x => x.2 == 1 && here x.1.1 x.1.2).map (·.1)
  { s with gone := s.gone ++ l.map fun x => (g, e.first + x.1, x.2), inputs := (l.map fun x => (x.1 * 16384 + x.2, (⟨1, 0, 0⟩ : InCount))).foldl mergeCount s.inputs }

/-- R341: port 0's buffer overflows: samples of the group written last are lost, which ones is a free value. -/
def weaveOverflow (d : Dev) : Dev :=
  if !d.weave.on then d
  else match d.xce.forming with
    | none => raiseLimited (d.onWeave fun w => { w with dram := true }) EV.weaveDram 0 []
    | some s =>
      let (bits, d) := freshMany (64 * s.bank.hdr.members * s.bank.ownEntry.count) d
      let t := loseSamples d s (bits.map (· % 2))
      raiseLimited ((d.onXce fun x => { x with forming := some t }).onWeave fun w => { w.count 7 (t.gone.length - s.gone.length) with dram := true }) EV.weaveDram 0 []

end Sys2Proof.Machine
end

