-- ==== Sys2Proof/Machine/Correlator.lean ====
section
/-! DEFINITION. Chapter 10: correlation tiles, passes and the collector: the configuration and its checks (R358 to R362, R368,
R377, R378), the schedule of a pass (R351 to R354), banks, drain and stalls (R355 to R357), dumps, records and reports
(R358, R369 to R374), integrations (R363 to R366), skipped passes (R367) and stopping (R376). -/

namespace Sys2Proof.Machine

/-- The tiles in use K (R377). -/
def tilesOf (c : XceCfg) : Nat := if c.tiles = 0 then 128 else c.tiles

def xceCfgFields (c : XceCfg) : List Field :=
  [fld 1 c.mode, fld 1 c.tiles, fld 1 c.outMode, fld 1 c.intOut, fld 4 c.dramBlocks, fld 4 c.intPasses, fld 4 c.outRate, fld 1 c.dest, fld 1 c.reportLane,
   fld 2 c.reserved18, fld 4 c.fwdLanes, fld 8 c.anchor, fld 16 c.reserved32]

def xceArmed (d : Dev) : Bool := armed d 0x0802 8 0 fun _ => true

/-- The bytes of a forwarded dump in the collector's output buffer (R362). -/
def dumpBytes : Nat := 6394

/-- XCE_COLLECT_STATUS. -/
def collectStatus (d : Dev) : Nat :=
  let x := d.xce
  let c := x.banks.cur
  b2n x.on * 2 ^ 31 + (if x.on then c.outMode % 4 * 2 ^ 29 + c.mode % 4 * 2 ^ 19 + tilesOf c * 2 ^ 11 else 0) + x.buffer % 2 * 2 ^ 28
    + b2n (x.integs.any fun i => i.st == 1) * 2 ^ 27 + b2n x.stall * 2 ^ 26 + b2n x.parity * 2 ^ 25 + b2n x.thorn * 2 ^ 24 + b2n x.skip * 2 ^ 23
    + b2n x.lost * 2 ^ 22 + b2n (decide (8388608 < dumpBytes * (x.outBuf.length + 1))) * 2 ^ 21 + x.rotation % 128 * 2 ^ 4

/-! ### The schedule of a pass (R352) -/

/-- The samples of a segment of a pass. -/
def segSamples (mode samples seg : Nat) : Nat := min (xceRound mode) (samples - seg * xceRound mode)

/-- The segments of a pass. -/
def segCount (mode samples : Nat) : Nat := ceilDiv samples (xceRound mode)

/-- R352: k of the last round of a segment of L samples with q blocks left over. -/
def splitOf (k q c l : Nat) : Nat :=
  ([128, 64, 32, 16, 8, 4, 2].find? fun n => decide (n * q ≤ k) && decide (4096 * n ≤ l * c)).getD 1

/-- The rounds of a segment. -/
def roundCount (blocks k : Nat) : Nat := ceilDiv blocks k

/-- R352: how a round is shared: the block that tile `t` takes, the parts k of each block, and the first of its samples in the segment and
their number; none for an idle tile. -/
def tileWork (blocks k c l m t : Nat) : Option (Nat × Nat × Nat × Nat) :=
  if m < blocks / k then some (m * k + t, 1, 0, l)
  else
    let q := blocks % k
    let n := splitOf k q c l
    if t < n * q then
      let i := t % n
      some (blocks / k * k + t / n, n, i * l / n, (i + 1) * l / n - i * l / n)
    else none

/-- R352: the cycles of a round. -/
def roundCycles (blocks k c l m : Nat) : Nat :=
  let n := if m < blocks / k then 1 else splitOf k (blocks % k) c l
  max 4096 (ceilDiv l n * c)

/-- R353: the cycles of a pass. -/
def passCycles (blocks k mode samples : Nat) : Nat :=
  ((List.range (segCount mode samples)).map fun s =>
    ((List.range (roundCount blocks k)).map fun m => roundCycles blocks k (xceCycles mode) (segSamples mode samples s) m).sum).sum

/-- The samples of a whole pass (R351, R368). -/
def passSamples (c : XceCfg) (b : WeaveBank) : Nat := if b.hdr.mode = 1 then b.hdr.covGroup * b.hdr.covSpan else setGroups c b

/-- The passes of a pass set: one per channel of the slice, or per covariance group. -/
def setPasses (b : WeaveBank) : Nat := if b.hdr.mode = 1 then b.ownEntry.count / max 1 b.hdr.covGroup else b.ownEntry.count

/-! ### The checks of a configuration -/

/-- The bank a configuration is checked against: the one in force, or a complete shadow outside a coppice. -/
def xceBank (d : Dev) : WeaveBank := if d.weave.on then d.weave.banks.cur else if d.weave.banks.shd.complete then d.weave.banks.shd else {}

/-- Passes per second at the slot's full rate, as a quotient. -/
def passRate (d : Dev) (c : XceCfg) (b : WeaveBank) : Nat × Nat :=
  let (n, m) := groupRate d b.hdr.sb
  (setPasses b * n, m * max 1 (setGroups c b))

/-- R359: the dumps per pass that are accumulated and those forwarded. -/
def dumpsAcc (c : XceCfg) (b : WeaveBank) : Nat :=
  let n := blocksOf b.inputs
  (if c.outMode = 0 then n else if c.outMode = 1 then 0 else min n c.dramBlocks) * segCount c.mode (passSamples c b)

/-- R359: the accumulation traffic in bytes per second, as a quotient. -/
def accLoad (d : Dev) (c : XceCfg) (b : WeaveBank) : Nat × Nat :=
  let (n, m) := passRate d c b
  (dumpsAcc c b * 16384 * n, m)

/-- R359: all DRAM traffic of the correlator. -/
def dramLoad (d : Dev) (c : XceCfg) (b : WeaveBank) : Nat × Nat :=
  addQ (addQ (accLoad d c b) (cornerLoad d b)) (if c.intOut = 1 then c.outRate * 125000 else 0, 1)

/-- R359: whether the DRAM traffic fits. -/
def loadFits (d : Dev) (c : XceCfg) (b : WeaveBank) : Bool :=
  let (x, m) := accLoad d c b
  let (y, n) := dramLoad d c b
  decide (x ≤ 256000000000 * m) && decide (y ≤ 400000000000 * n)

/-- R359: the largest `slice_count` that would fit. -/
def fitSlice (d : Dev) (c : XceCfg) (b : WeaveBank) : Nat :=
  ((List.range 257).reverse.find? fun k =>
    loadFits d c { b with members := upd b.members b.hdr.own fun m => { m with count := k } }).getD 0

/-- The forwarding lanes (R362). -/
def fwdList (c : XceCfg) : List Nat := maskList 32 c.fwdLanes

/-- R362: the wire load of a forwarding lane in bit/s, as a quotient. -/
def fwdLoad (d : Dev) (c : XceCfg) (b : WeaveBank) (lane : Nat) : Nat × Nat :=
  let l := fwdList c
  let first := if c.outMode = 2 then c.dramBlocks else if c.outMode = 1 then 0 else blocksOf b.inputs
  let blocks := ((List.range (ceilDiv (blocksOf b.inputs) 64)).map fun k =>
    if nth l (k % max 1 l.length) = lane then min (blocksOf b.inputs) (64 * k + 64) - max first (64 * k) else 0).sum
  let (n, m) := passRate d c b
  (blocks * segCount c.mode (passSamples c b) * 51152 * n, m)

/-- R361, R368, R377, R378: the fields of a configuration. -/
def xceArgOk (d : Dev) (c : XceCfg) (b : WeaveBank) : Bool :=
  let port := if c.reportLane = 0xFF then 32 else c.reportLane
  decide (c.mode ≤ 2) && decide (c.tiles ≤ 127) && decide (c.outMode ≤ 2) && decide (c.intOut ≤ 1) && c.reserved18 == 0 && c.reserved32 == 0
    && (b.hdr.members == 0 || (if c.mode = 2 then b.hdr.members == 1 else c.mode + 4 == b.hdr.format))
    && decide (c.intPasses * setGroups c b ≤ intLimit c.mode) && (c.intOut == 0 || (decide (100 ≤ c.outRate) && decide (c.outRate ≤ 100000)))
    && decide (c.dest ≤ 15) && (decide (c.reportLane ≤ 31) || c.reportLane == 0xFF) && (c.outMode == 0 || c.fwdLanes != 0)
    && (b.hdr.mode == 0 || c.outMode == 1) && (c.intOut == 0 || decide (8384 ≤ destPayload d c.dest port))
    && (c.outMode == 0 || (fwdList c).all fun l => decide (6336 ≤ destPayload d c.dest l))

/-- R378, R362: the lanes of a configuration. -/
def xceLinkOk (d : Dev) (c : XceCfg) (b : WeaveBank) : Bool :=
  let ok (l : Nat) : Bool := laneEth d l && laneUp d l
  (c.reportLane == 0xFF || ok c.reportLane) && (c.outMode == 0 || (fwdList c).all fun l =>
    ok l && (let (x, m) := fwdLoad d c b l; decide (x * 100 ≤ 95 * portRate d l * 1000000 * m)))

/-- R368: the covariance passes fit the tiles. -/
def xceRateOk (d : Dev) (c : XceCfg) (b : WeaveBank) : Bool :=
  b.hdr.mode == 0 ||
    (let (n, m) := passRate d c b
     decide (passCycles (blocksOf b.inputs) (tilesOf c) c.mode (passSamples c b) * n ≤ 983040000 * m))

/-- A quotient of bytes per second in 0.1 GB/s, rounded up. -/
def tenthGB (q : Nat × Nat) : Nat := ceilDiv q.1 (max 1 q.2 * 100000000)

/-- The checks of XCE-SET. An armed shadow draws ST_SHADOW_ARMED on an enabled correlator (R74, R378) and ST_XCE_STATE on a disabled
one, whose both banks would be written: DESIGN CHOICE (log entry 112). -/
def xceSetCheck (cfg : XceCfg) (d : Dev) : Option Reply :=
  let b := xceBank d
  let free := protBytes d - weaveHeld d
  Checks.orElse (firstBad [(!xceArgOk d cfg b, ST.xceArg), (!xceLinkOk d cfg b, ST.xceLink), (!xceRateOk d cfg b, ST.xceRate),
    (qsHeld d, ST.quickset), (!domOn d 7, ST.domainOff), (storeFailed d 2 || storeFailed d 3, ST.memFailed),
    (!d.xce.on && xceArmed d, ST.xceState)]) <|
  Checks.orElse (if d.xce.on then bankCheck d (xceArmed d) (d.xce.banks.busy d.axis).toList else none) <|
  if !loadFits d cfg b then some { status := ST.xceDram, hint := fitSlice d cfg b }
  else if free < pages (intBytes cfg b) then some { status := ST.xceDram, hint := free } else none

/-- XCE-SET (R359 to R362, R368, R377, R378). -/
def execXceSet (h : Hdr) (cfg : XceCfg) : Meaning :=
  hostCmd (cmd 0x0800 [4, 4, 4, 8, 2]) h (.xceSet h cfg)
    (xceSetCheck cfg)
    (fun d =>
      let b := xceBank d
      let lane := ((fwdList cfg).map fun l => let (x, m) := fwdLoad d cfg b l; permille (x, m * portRate d l * 1000000)).foldl max 0
      { dev := d.onXce fun x =>
          if x.on then { x with banks := x.banks.write cfg, shdNew := true }
          else { x with
            on := true, banks := { Banks.both cfg with
            index := x.banks.index }, shdNew := false, nextInteg := 0, integs := x.integs.filter (·.st == 1),
            forming := none, ready := [], cuts := [], stopping := none },
        reply := { fields := [fld 4 (passCycles (blocksOf b.inputs) (tilesOf cfg) cfg.mode (passSamples cfg b)), fld 4 (tenthGB (accLoad d cfg b)),
          fld 4 (tenthGB (dramLoad d cfg b)), fld 8 (intBytes cfg b), fld 2 (if cfg.outMode = 0 then 0 else lane)] } })

/-- XCE-GET. -/
def execXceGet (h : Hdr) (bank : Nat) : Meaning :=
  query (ask 0x0801 [48, 4, 4, 4]) h (.xceGet h bank) (fun _ => firstBad [(decide (1 < bank), ST.badArg)]) fun d =>
    let i := d.xce.openInt.getD { num := d.xce.nextInteg }
    xceCfgFields (if bank = 0 then d.xce.banks.cur else d.xce.banks.shd) ++ [fld 4 (collectStatus d), fld 4 i.num, fld 4 i.sets]

/-- R376: whether a stop has finished: no bank holds samples any more. -/
def drained (x : Xce) : Bool := x.tiles.all fun t => t.fulls.isEmpty

/-- R376: a stop that has finished: EV_XCE_STOPPED, and XCE-STOP answers. -/
def stopDone (d : Dev) : Dev :=
  match d.xce.stopping with
  | none => d
  | some n =>
    if drained d.xce then
      let d := raiseEv (d.onXce fun x => { x with stopping := none }) EV.xceStopped [a4 n]
      qsExitCheck (complete d (fun r => r.wait == .xceStop) fun _ => { fields := [fld 4 n] })
    else d

/-- XCE-STOP (R376). -/
def execXceStop (h : Hdr) : Meaning :=
  hostCmd (cmd 0x0802 [4]) h (.xceStop h) (fun d => firstBad [(qsHeld d, ST.quickset), (!d.xce.on, ST.xceState)])
    (fun d =>
      let d := (xceHalt d false).onXce fun x => { x with on := false, stopping := some 0 }
      if drained d.xce then { dev := raiseEv (d.onXce fun x => { x with stopping := none }) EV.xceStopped [a4 0], reply := { fields := [fld 4 0] } }
      else { dev := d, wait := some .xceStop })

/-- R365, R379: the state of an integration; a pending one whose BULK object is read or gone is delivered. -/
def integState (d : Dev) (i : Integ) : Nat :=
  if i.st = 1 ∧ i.cfg.intOut = 0 ∧ i.handle ≠ 0 ∧ (d.obj? i.handle).all (·.read) then 2 else i.st

/-- XCE-INT-GET. -/
def execXceIntGet (h : Hdr) (number : Nat) : Meaning :=
  query (ask 0x0803 [1, 2, 8, 4, 2, 1, 4]) h (.xceIntGet h number)
    (fun d => firstBad [(!d.xce.integs.any (·.num == number), ST.badArg)]) fun d =>
    match d.xce.integs.find? (·.num == number) with
    | some i => [fld 1 (integState d i), fld 2 i.handle, fld 8 i.first, fld 4 i.sets, fld 2 i.skipped, fld 1 (b2n i.cutShort), fld 4 i.notReached]
    | none => []

/-- XCE-INPUTS-GET (R374). -/
def execXceInputsGet (h : Hdr) (first count : Nat) : Meaning :=
  query (ask 0x0804 (spanWidths 512 count [4, 4, 4])) h (.xceInputsGet h first count)
    (fun _ => firstBad [(decide (count < 1) || decide (512 < count) || decide (16384 < first + count), ST.badArg)]) fun d =>
    (List.range count).flatMap fun k =>
      let c := (d.xce.inputCounts.lookup (first + k)).getD {}
      [fld 4 (sat32 c.zeroed), fld 4 (sat32 c.masked), fld 4 (sat32 c.thorned)]

/-- XCE-COUNTERS. -/
def execXceCounters (h : Hdr) (clear : Nat) : Meaning :=
  let ws := [8, 4, 8, 8, 4, 4, 8, 8]
  hostCmd (askClear 0x0805 clear ws) h (.xceCounters h clear) (fun _ => firstBad [(decide (1 < clear), ST.badArg)])
    fun d =>
      { dev := if clear = 1 then d.onXce fun x => { x with
        counts := [0, 0, 0, 0, 0, 0, 0, 0] } else d,
        reply := { fields := (ws.zip d.xce.counts).map fun (w, n) => fld w n } }

/-! ### Stakes -/

/-- R648: at each integration boundary quickset sets `rq_shift_4` and applies it by a swap of slot 0; the value, from the levels of the second
before, is a free value (log entry 126). -/
def qsRequant (d : Dev) (pos : Nat) : Dev :=
  if !qsHeld d || !(nth d.fre 0).on then d
  else
    let (rq, d) := d.fresh 1
    noteFre (d.onFre 0 fun f => { f with banks := { f.banks with shd := { f.banks.cur with rq4 := rq % 16 }, thornShd := 0 }.swap (freFrees d 0 pos) }) 0 pos

/-- INT_CUT (R363, R648). -/
def execIntCut : Meaning := onDev (stakeAct 0x0801 (fun d _ => d.xce.on) lateDrop fun d q => qsRequant (d.onXce fun x => { x with cuts := x.cuts ++ [q.pos] }) q.pos)

/-- R363, R497: the correlator's banks swap at an integration boundary. -/
def xceSwap (d : Dev) (q : QStake) : Dev :=
  if d.xce.banks.thornShd ≠ 0 then swapRefused d EV.memSwapRefused q
  else d.onXce fun x => { x with
    cuts := x.cuts ++ [q.pos], banks := x.banks.swap (weaveFrees d q.pos), swapAt := q.pos, shdNew := false }

/-- XCE_SWAP (R363). -/
def execXceSwap : Meaning := onDev (stakeAct 0x0802 (fun d _ => d.xce.on) lateDrop xceSwap)

/-! ### Passes and rounds -/

/-- R371: whether inputs of a block are zero-filled or masked in a pass. -/
def blockFilled (inputs : List (Nat × InCount)) (block : Nat) : Bool :=
  inputs.any fun (q, n) => (q / 32 == (blockPos block).1 || q / 32 == (blockPos block).2) && decide (0 < n.zeroed + n.masked)

/-- R352, R355, R357: a round begins: each tile in use takes its job; one whose banks are both full stalls. -/
def beginRound (d : Dev) (p : XcePass) : Dev :=
  let c := p.set.cfg
  let b := blocksOf p.set.bank.inputs
  let k := tilesOf c
  let l := segSamples c.mode p.samples p.seg
  let p := { p with began := d.now, ends := d.now + 2 * roundCycles b k (xceCycles c.mode) l p.round }
  d.onXce fun x => { x with
    pass := some p,
    tiles := x.tiles.zipIdx.map fun (t, i) =>
      match (if i < k then tileWork b k (xceCycles c.mode) l p.round i else none) with
      | none => { t with job := none, stallFrom := none }
      | some (blk, n, s, size) =>
        { t with
          job := some { integ := p.set.integ, pass := p.num, channel := p.channel, first := p.set.first, epoch := p.set.bank.hdr.epoch, mode := c.mode,
                        seg := p.seg, block := blk, parts := n, samples := size, filled := blockFilled p.inputs blk, round := x.rounds, rho := x.rotation, start := p.seg * xceRound c.mode + s },
          stallFrom := if 2 ≤ t.fulls.length then some d.now else none } }

/-- The next pass of the sets that wait: its set and index; a set whose passes are all done leaves. -/
def Xce.nextPass (x : Xce) : Option (PassSet × Nat) := x.ready.head?.map fun s => (s, s.passed)

/-- The set in front counts one pass begun or skipped. -/
def Xce.tookPass (x : Xce) : Xce :=
  match x.ready with
  | [] => x
  | s :: l => { x with ready := if s.passed + 1 < setPasses s.bank then { s with passed := s.passed + 1 } :: l else l }

/-- R338, R350: the counts of the inputs in a pass of a set; every sample of a thorned word counts as thorned. -/
def passInputs (d : Dev) (s : PassSet) (i : Nat) : List (Nat × InCount) :=
  let w := if s.bank.hdr.mode = 1 then s.bank.hdr.covGroup else 1
  let ch := s.bank.ownEntry.first + i * w
  let n := s.groups * w
  (((s.inputs.filter fun e => e.1 / 16384 / max 1 w == i).map fun e => (e.1 % 16384, e.2)).foldl mergeCount []).map fun (q, c) =>
    (q, if c.thorned = 0 then c else { c with thorned := ((List.range n).filter (wordThorned d s ch n q)).length })

/-- PASS_START (R351, R354, R367): with no pass in progress, the next pass begins, or is skipped in a throttle gap (reason 1) or
for want of an enabled configuration (reason 2). -/
def execPassStart : Meaning := onDev fun d =>
  if d.xce.pass.isSome || !domOn d 7 then d
  else match d.xce.nextPass with
    | none => d
    | some (s, i) =>
      let d := d.onXce (·.tookPass)
      let gap := unitGap d d.axis
      if gap || !d.xce.on then
        raiseLimited (d.onXce fun x => { (x.onInt s.integ fun j => { j with skipped := j.skipped + 1 }).count 4 1 with skip := true }) EV.xceSkip 0 [a4 (if gap then 1 else 2)]
      else
        let ch := s.bank.ownEntry.first + (if s.bank.hdr.mode = 1 then i * s.bank.hdr.covGroup else i)
        let n := s.groups * (if s.bank.hdr.mode = 1 then s.bank.hdr.covGroup else 1)
        beginRound ((d.onXce fun x => { x with passes := x.passes + 1 }).portMoves 1 (n * s.bank.inputs * xceBytes s.cfg.mode))
          { set := s, inputs := passInputs d s i, num := d.xce.passes, channel := ch, samples := n, seg := 0, round := 0, began := d.now, ends := d.now }

/-- R357: the samples a tile has lost to a stall up to now. -/
def Tile.lost (t : Tile) (now : Nat) : Nat :=
  match t.stallFrom, t.job with
  | some c, some j => min j.samples (ceilDiv (now - c) (2 * xceCycles j.mode))
  | _, _ => 0

/-- R357: stalled samples are counted and reported. -/
def countStall (d : Dev) (n : Nat) : Dev :=
  if n = 0 then d else raiseLimited (d.onXce fun x => { x.count 0 n with stall := true }) EV.xceStall 0 []

/-- ROUND_END (R352, R354 to R356): every tile leaves its bank full; the next round, segment or pass end follows; ρ rises by
one. -/
def execRoundEnd : Meaning := onDev fun d =>
  match d.xce.pass with
  | none => d
  | some p =>
    if d.now < p.ends then d
    else
      let lost := (d.xce.tiles.map fun t => t.lost d.now).sum
      let k := tilesOf p.set.cfg
      let d := countStall (d.onXce fun x => { x with
        tiles := x.tiles.map fun t =>
          match t.job with
          | none => t
          | some j => { t with job := none, stallFrom := none, fulls := t.fulls ++ [tileSums d p.set p.samples { j with stalled := j.stalled + t.lost d.now }] },
        rotation := (x.rotation + 1) % max 1 k, rounds := x.rounds + 1, freeAt := if drained x then d.now else x.freeAt }) lost
      if p.round + 1 < roundCount (blocksOf p.set.bank.inputs) k then beginRound d { p with round := p.round + 1 }
      else if p.seg + 1 < segCount p.set.cfg.mode p.samples then beginRound d { p with
        seg := p.seg + 1, round := 0 }
      else d.onXce fun x => { ((x.onInt p.set.integ fun i => { i with inputs := p.inputs.foldl mergeCount i.inputs }).count 3 1).count 2 (p.inputs.map (·.2.thorned)).sum with
        pass := none, lastInputs := x.lastInputs ++ [(p.num, p.inputs)] }

/-! ### Dumps and records -/

/-- The flag map of a record (R370): bit k is bit 7 - (k mod 8) of byte ⌊k/8⌋. -/
def flagMap (l : List Nat) : List Field :=
  (List.range 128).map fun j => fld 1 ((List.range 8).map fun i => if l.contains (8 * j + i) then 2 ^ (7 - i) else 0).sum

/-- R370: a block record. -/
def recordFields (first channel seg block samples stalled integ passes skipped fmt flags mode epoch : Nat) (marks : List Nat) (vals : List (Int × Int)) :
    List Field :=
  let (i, j) := blockPos block
  let w := if fmt = 6 then 3 else 4
  let head := [fld 8 first, fld 2 channel, fld 2 seg, fld 4 block, fld 2 i, fld 2 j, fld 4 samples, fld 4 stalled, fld 4 integ, fld 2 passes, fld 2 skipped,
    fld 1 fmt, fld 1 flags, fld 1 mode, fld 1 0, fld 4 epoch]
  let map := flagMap marks
  let body := (List.range 1024).flatMap fun k => let v := nth vals k; [sfld w v.1, sfld w v.2]
  head ++ [fld 4 (crc32c (bytesOf (head ++ map ++ body)))] ++ map ++ body

/-- R371: `dump_flags`. -/
def dumpFlags (cut parity thornIn thornAcc stall split skipped zero : Bool) : Nat :=
  b2n cut * 128 + b2n parity * 64 + b2n thornIn * 32 + b2n thornAcc * 16 + b2n stall * 8 + b2n split * 4 + b2n skipped * 2 + b2n zero

/-- R356: the jobs of the bank that drains next, and of the parts of its block: the oldest round, from tile ρ on. -/
def drainNext (x : Xce) : List TileJob :=
  let all := x.tiles.zipIdx.flatMap fun (t, i) => t.fulls.map fun j => (i, j)
  match (all.map fun e => e.2.round).min? with
  | none => []
  | some r =>
    let now := all.filter fun e => e.2.round == r
    match now.find? (fun e => decide (e.2.rho ≤ e.1)), now.head? with
    | some e, _ => (now.filter fun y => y.2.block == e.2.block).map (·.2)
    | none, some e => (now.filter fun y => y.2.block == e.2.block).map (·.2)
    | none, none => []

/-- R357: drained banks free; a tile that stalled takes its samples from now on. -/
def freeBanks (d : Dev) (l : List TileJob) : Dev :=
  let lost := (d.xce.tiles.map fun t => if t.fulls.any l.contains then t.lost d.now else 0).sum
  countStall (d.onXce fun x => { x with
    tiles := x.tiles.map fun t =>
      if t.fulls.any l.contains then
        { t with fulls := t.fulls.filter fun j => !l.contains j, stallFrom := none, job := t.job.map fun j => { j with stalled := j.stalled + t.lost d.now } }
      else t }) lost

/-- R362: forwarded dumps that waited leave on the lanes that are up again. -/
def flushOut (d : Dev) : Dev :=
  let up := d.xce.outBuf.filter fun e => laneUp d e.1
  up.foldl (fun d e => sendReport d e.2.2.kind e.2.2.axis e.2.1 e.1 e.2.2.body) (d.onXce fun x => { x with outBuf := x.outBuf.filter fun e => !laneUp d e.1 })

/-- R374: the input counts after the last record of a pass or an integration, in parts of 512 inputs, each a report of its own: DEDUCED (log
entry 122). -/
def sendCounts (d : Dev) (dest port first num inputs : Nat) (l : List (Nat × InCount)) : Dev :=
  (List.range (ceilDiv inputs 512)).foldl (fun d k =>
    let n := min 512 (inputs - 512 * k)
    sendReport d 0x0804 first dest port ([fld 8 first, fld 2 (512 * k), fld 2 n, fld 4 num] ++ (List.range n).flatMap fun i =>
      let c := (l.lookup (512 * k + i)).getD {}
      [fld 4 c.zeroed, fld 4 c.masked, fld 4 c.thorned])) d

/-- R356, R372: the sums of a block's banks, a word whose parity fails as it is read. -/
def dumpSums (l : List TileJob) (bad : List (Nat × Int × Int)) : List (Int × Int) :=
  (List.range 1024).map fun k => (bad.lookup k).getD (Cx.sum (l.map fun j => nth j.vals k))

/-- R358, R373: a dump added into its accumulator: the visibilities whose accumulator word is thorned stay zero and
flagged. -/
def accumulate (x : Xce) (j : TileJob) (samples stalled flags : Nat) (vals : List (Int × Int)) (marks thornAcc : List Nat) : Xce :=
  let mine (a : AccBlock) : Bool := a.integ == j.integ && a.channel == j.channel && a.block == j.block
  let old := (x.acc.find? mine).getD { integ := j.integ, channel := j.channel, block := j.block, vals := [] }
  let thorned := (old.thorned ++ (if old.passes = 0 then [] else thornAcc)).eraseDups
  let new : AccBlock := { old with
    vals := (List.range 1024).map fun k =>
      if thorned.contains k then (0, 0) else let a := nth old.vals k; let b := nth vals k; (a.1 + b.1, a.2 + b.2)
    flagged := (old.flagged ++ marks ++ thorned).eraseDups, thorned := thorned, samples := old.samples + samples,
    stalled := old.stalled + stalled, passes := old.passes + (if j.seg = 0 then 1 else 0),
    flags := Nat.lor old.flags (if thorned.isEmpty then flags else Nat.lor flags 16) }
  { x with acc := x.acc.filter (fun a => !mine a) ++ [new] }

/-- R356: whether the collector, free since a cycle, has drained `n` banks by now, 32 ns for each. -/
def drainOver (x : Xce) (now n : Nat) : Bool := decide (32 * 6144 * n ≤ (now - x.freeAt) * 3125)

/-- COLLECTOR_DRAIN (R355 to R358, R362, R370 to R374): the next filled bank, or the banks of a split block, drain into one dump,
accumulated or forwarded; with D9 off nothing is accumulated (R376). A full output buffer holds the collector. -/
def execCollectorDrain (dump : TileDump) : Meaning := onDev fun d =>
  let d := flushOut d
  match drainNext d.xce with
  | [] => d
  | j :: rest =>
    let l := j :: rest
    let i := d.xce.integs.find? fun i => i.num == j.integ
    let c := (i.map (·.cfg)).getD d.xce.banks.cur
    let b := (i.map (·.bank)).getD d.weave.banks.cur
    let acc := c.outMode == 0 || (c.outMode == 2 && decide (j.block < c.dramBlocks))
    if (!acc && decide (8388608 < dumpBytes * (d.xce.outBuf.length + 1))) || !drainOver d.xce d.now l.length then d
    else
      let d := freeBanks (d.onXce fun x => { x with freeAt := d.now }) l
      let samples := (l.map (·.samples)).sum
      let stalled := (l.map (·.stalled)).sum
      let skipped := (i.map (·.skipped)).getD 0
      let vals := dumpSums l dump.parity
      let thornIn := (l.flatMap (·.marks)).eraseDups
      let marks := thornIn ++ dump.parity.map (·.1)
      let flags := dumpFlags (l.any (·.partialDump)) (!dump.parity.isEmpty) (!thornIn.isEmpty) false (decide (0 < stalled)) (decide (1 < j.parts))
        (decide (0 < skipped)) (l.any (·.filled))
      let d := if dump.parity.isEmpty then d
        else raiseLimited (d.onXce fun x => { x.count 1 dump.parity.length with parity := true }) EV.xceParity 0 []
      let d := if thornIn.isEmpty && (dump.thornAcc.isEmpty || !acc) then d
        else raiseLimited (d.onXce fun x => { x with thorn := true }) EV.xceThorn 0 []
      let d := d.onXce fun x => { x with stopping := x.stopping.map (· + 1) }
      let d := if acc then
          let first := !d.xce.acc.any fun a => a.integ == j.integ && a.channel == j.channel && a.block == j.block
          if domOn d 9 then ((d.onXce fun x => (accumulate x j samples stalled flags vals marks dump.thornAcc).count 6 1).portMoves 2 (if first then 0 else 8192)).portMoves 3 8192
          else d
        else
          let cov := b.hdr.mode == 1
          let body := recordFields j.first j.channel (if cov then 0 else j.seg) j.block samples stalled j.integ 1 skipped 6 flags j.mode j.epoch
            marks vals
          let lane := nth (fwdList c) (j.block / 64 % max 1 (fwdList c).length)
          let kind := if cov then 0x0803 else 0x0801
          let d := d.onXce (·.count 7 1)
          if laneUp d lane then sendReport d kind j.first c.dest lane body
          else d.onXce fun x => { x with outBuf := x.outBuf ++ [(lane, c.dest, ⟨kind, j.first, body, [], d.axis⟩)] }
      let busy := d.xce.pass.any (fun p => p.num == j.pass) || d.xce.tiles.any fun t => t.fulls.any fun k => k.pass == j.pass
      let port := if c.reportLane = 0xFF then 32 else c.reportLane
      let d := if c.outMode != 0 && !busy then sendCounts d c.dest port j.first j.pass b.inputs ((d.xce.lastInputs.lookup j.pass).getD []) else d
      stopDone (if busy then d else d.onXce fun x => { x with lastInputs := x.lastInputs.filter fun e => e.1 != j.pass })

/-! ### Integrations -/

/-- Whether an integration that closes has its last dumps accumulated. -/
def intComplete (x : Xce) (i : Integ) : Bool :=
  i.closing && i.st == 0 && !(x.forming.any fun s => s.integ == i.num) && !(x.ready.any fun s => s.integ == i.num)
    && !(x.pass.any fun p => p.set.integ == i.num) && !(x.tiles.any fun t => t.fulls.any fun j => j.integ == i.num)

/-- R369: the records of an integration in channel order, blocks in index order. -/
def intRecords (x : Xce) (i : Integ) : List AccBlock :=
  sortBy (fun a b => decide (a.channel < b.channel) || (a.channel == b.channel && decide (a.block ≤ b.block))) (x.acc.filter fun a => a.integ == i.num)

/-- The record of an accumulated block (R369, R370). -/
def accRecord (i : Integ) (a : AccBlock) : List Field :=
  let flags := Nat.lor a.flags ((if i.cutShort then 128 else 0) + (if 0 < i.skipped then 2 else 0))
  recordFields i.first a.channel 0 a.block a.samples a.stalled i.num a.passes i.skipped 7 flags i.cfg.mode i.bank.hdr.epoch a.flagged a.vals

/-- R366: an older integration still undelivered is lost. -/
def loseInt (d : Dev) (n : Nat) : Dev :=
  (d.xce.integs.filter fun i => i.st == 1 && i.num != n).foldl (fun d i =>
    if integState d i = 2 then d.onXce fun x => { (x.onInt i.num fun i => { i with st := 2 }) with acc := x.acc.filter fun a => a.integ != i.num }
    else
      let d := d.onLnk fun l => { l with bulk := l.bulk.filter fun o => o.handle != i.handle || i.cfg.intOut != 0 }
      raiseEv (d.onXce fun x => { ((x.onInt i.num fun i => { i with st := 3 }).count 5 1) with
        lost := true, acc := x.acc.filter fun a => a.integ != i.num }) EV.xceIntLost [a4 i.num]) d

/-- INTEGRATION_CLOSE (R364 to R366): the last dumps are in: the buffers swap, EV_XCE_INT is raised, and the integration is
offered as a BULK object of kind 9, with the report of its input counts (R374), sent as records, or, with everything forwarded, already delivered. Quickset's waits for its
REPORT (R649). -/
def execIntegrationClose : Meaning := onDev fun d =>
  match d.xce.integs.find? (intComplete d.xce) with
  | none => d
  | some i =>
    let d := loseInt d i.num
    let d := d.onXce fun x => { x with buffer := 1 - x.buffer, inputCounts := i.inputs }
    let owner := (d.owner?.map (·.num)).getD 0
    let d := if d.qs.state = 2 then { d with qs := { d.qs with integrations := d.qs.integrations + 1, closedAt := d.axis } } else d
    let (n, d) := if i.cfg.outMode ≠ 1 ∧ i.cfg.intOut = 0 ∧ d.qs.state ≠ 2 then
        addOut d owner 9 (bytesOf ((intRecords d.xce i).flatMap (accRecord i))) [] true
      else (0, d)
    let d := if n = 0 ∨ i.cfg.outMode ≠ 0 then d
      else sendCounts d i.cfg.dest (if i.cfg.reportLane = 0xFF then 32 else i.cfg.reportLane) i.first i.num i.bank.inputs i.inputs
    let d := d.onXce fun x => x.onInt i.num fun i => { i with st := if i.cfg.outMode = 1 then 2 else 1, handle := n }
    raiseEv d EV.xceInt [a4 i.num, a8 i.first, a4 i.sets, a8 i.closedAt, a4 n]

/-- R365: the ticks that a record of an integration takes on the wire at `out_rate`. -/
def recordTicks (d : Dev) (c : XceCfg) : Nat :=
  ceilDiv (wireBits (frameTo d (nth d.lnk.dests c.dest).addr 2 (List.replicate 8404 0)).size * 196608) (max 1 c.outRate * 100)

/-- INTEGRATION_READOUT (R365, R374): the next record of a pending integration leaves, paced at `out_rate`; after the last, the input counts follow and
the buffer frees. -/
def execIntegrationReadout : Meaning := onDev fun d =>
  match d.xce.integs.find? (fun i => i.st == 1 && i.cfg.intOut == 1) with
  | none => d
  | some i =>
    let port := if i.cfg.reportLane = 0xFF then 32 else i.cfg.reportLane
    if d.now < d.xce.readAt then d else
    match intRecords d.xce i with
    | [] => d.onXce fun x => x.onInt i.num fun i => { i with st := 2 }
    | a :: l =>
      let d := sendReport (d.onXce fun x => { x with acc := x.acc.erase a, readAt := d.now + recordTicks d i.cfg }) 0x0802 i.first i.cfg.dest port (accRecord i a)
      if l.isEmpty then
        let d := if i.cfg.outMode = 0 then sendCounts d i.cfg.dest port i.first i.num i.bank.inputs i.inputs else d
        d.onXce fun x => x.onInt i.num fun i => { i with st := 2 }
      else d

end Sys2Proof.Machine
end

