-- ==== Sys2Proof/Machine/Synthesis.lean ====
section
/-! DEFINITION. Chapter 13, the synthesisers and the front-end states: profiles (R450, R454), records and lock (R451 to R453),
the standby, pre-lock and calibration (R455, R480), hops (R456, R457), recalibration (R458), and the words of R459 to
R461. -/

namespace Sys2Proof.Machine

def Dev.onSyn (d : Dev) (f : Syn → Syn) : Dev := { d with syn := f d.syn }

/-- The standby synthesiser's number. -/
def standby (d : Dev) : Nat := 1 - d.syn.active

/-- Whether a SYN-HOP is queued; to which profile. -/
def hopQueued (d : Dev) : Bool := d.tmb.stakes.any fun q => q.stake.action == 0x0B01
def hopTo (d : Dev) (p : Nat) : Bool := d.tmb.stakes.any fun q => q.stake.action == 0x0B01 && q.stake.argument % 256 == p

/-- SYN_STATUS. -/
def synStatusWord (d : Dev) : Nat :=
  let s := d.syn
  s.active * 2 ^ 31 + s.profile * 2 ^ 28 + s.sbProfile * 2 ^ 25 + s.sbState * 2 ^ 23 + b2n (nth s.lock s.active) * 2 ^ 22 + b2n s.settling * 2 ^ 21
    + b2n (hopQueued d) * 2 ^ 20 + b2n s.unlockSeen * 2 ^ 19 + b2n s.hopFailSeen * 2 ^ 18 + b2n s.marginLow * 2 ^ 17

/-- R451: whether a synthesiser holds a usable record of a profile. -/
def usable (d : Dev) (k p : Nat) : Bool :=
  match nth (nth d.nvm.synRecs k) p with
  | some r => decide ((dieMean d - r.temp).natAbs ≤ 4000)
  | none => false

/-- R451: a band search leaves a record; its values are the hardware's. -/
def makeRecord (d : Dev) (k p : Nat) : Dev :=
  let (b, d) := d.fresh 1
  let (a, d) := d.fresh 1
  let (c, d) := d.fresh 1
  let (t, d) := d.fresh 2
  journal { d with nvm := { d.nvm with synRecs := upd d.nvm.synRecs k fun l => upd l p fun _ => some ⟨b, a, c, t % 1001, dieMean d⟩ } } 1 0x0004 (k * 8 + p)
    (bytesOf [fld 1 b, fld 1 a, fld 1 c, fld 1 0, fld 2 (t % 1001), sfld 2 (dieMean d)]) (.syn k p (nth (nth d.nvm.synRecs k) p))

/-- R199, R454: every path's samples are replaced while the active synthesiser settles. -/
def replaceAll (d : Dev) : Dev := (List.range 64).foldl (fun d p => if (nth d.fe p).st = 0 then d else rxReplace d p) d

/-- R183: after a change of profile the first output of each sub-band and stream carries the discontinuity flag. -/
def discontinue (d : Dev) : Dev :=
  { d with rx := d.rx.map fun x => { x with sbs := x.sbs.map fun s => if s.on then { s with disc := true } else s }
           outs := d.outs.map fun o => { o with disc := true } }

/-! ### Commands -/

/-- SYN-STATUS. -/
def execSynStatus (h : Hdr) : Meaning :=
  query (ask 0x0B00 [4, 2, 2]) h (.synStatus h) noCheck fun d => [fld 4 (synStatusWord d), fld 2 (nth d.syn.tunes 0), fld 2 (nth d.syn.tunes 1)]

/-- Whether an enabled sub-band names a profile in either bank (R450). -/
def profileNamed (d : Dev) (p : Nat) : Bool :=
  (d.rx.any fun x => x.sbs.any fun s => s.on && (s.banks.cur.cfg.chain.profile == p || s.banks.shd.cfg.chain.profile == p))
    || d.tx.any fun x => x.sbs.any fun s => s.on && (s.banks.cur.cfg.chain.profile == p || s.banks.shd.cfg.chain.profile == p)

/-- PROFILE-DEFINE (R450). -/
def execProfileDefine (h : Hdr) (slot k : Nat) : Meaning :=
  hostCmd (cmd 0x0B01) h (.profileDefine h slot k)
    (fun d => firstBad [(decide (slot < 4) || decide (7 < slot) || k == 0 || decide (8 < k), ST.synArg),
      (d.syn.profile == slot || (decide (2 ≤ d.syn.sbState) && d.syn.sbProfile == slot) || hopTo d slot || profileNamed d slot, ST.synState)])
    (just fun d => d.onSyn fun s => { s with slots := upd s.slots (slot - 4) fun _ => k })

/-- The checks of PROFILE-SET. -/
def profileSetCheck (profile : Nat) (d : Dev) : Option Reply :=
  firstBad [(decide (7 < profile) || profileK d profile == 0, ST.synArg), (hopQueued d, ST.synState), (!domOn d 2, ST.domainOff)]

/-- PROFILE-SET (R452, R454): the active synthesiser retunes and settles from the commit; with a band search where no record
is usable. -/
def execProfileSet (h : Hdr) (profile : Nat) : Meaning :=
  hostCmd (cmd 0x0B02 [4]) h (.profileSet h profile)
    (profileSetCheck profile)
    (fun d =>
      let t := if usable d d.syn.active profile then 200 else 2200
      let d := d.onSyn fun s => { s with
        profile := profile, settling := true, lock := upd s.lock s.active fun _ => false, recal := false, marginLow := false, marginTold := false }
      { dev := calNotice (discontinue (replaceAll d)), reply := { fields := [fld 4 t] } })

/-- Microseconds left of the standby's calibration (R480). -/
def sbLeft (d : Dev) : Reply := { status := ST.synBusy, retry := ticksUs (d.syn.sbAt - d.now), hint := 0 }

/-- The checks of SYN-PRELOCK. -/
def synPrelockCheck (profile : Nat) (d : Dev) : Option Reply :=
  let off := profile == 0xFF
  Checks.orElse (firstBad [(!off && (decide (7 < profile) || profileK d profile == 0), ST.synArg), (!off && !usable d (standby d) profile, ST.synUncal),
    (hopQueued d, ST.synStandby), (!domOn d 2, ST.domainOff)])
    (if d.syn.sbState = 1 then some (sbLeft d) else none)

/-- SYN-PRELOCK (R455). -/
def execSynPrelock (h : Hdr) (profile : Nat) : Meaning :=
  hostCmd (cmd 0x0B03 [4]) h (.synPrelock h profile)
    (synPrelockCheck profile)
    (fun d =>
      if profile = 0xFF then
        { dev := d.onSyn fun s => { s with sbState := 0, hostHold := false, recal := false, lock := upd s.lock (1 - s.active) fun _ => false },
          reply := { fields := [fld 4 0] } }
      else
        { dev := d.onSyn fun s => { s with sbState := 2, sbProfile := profile, hostHold := true, recal := false, lock := upd s.lock (1 - s.active) fun _ => false },
          reply := { fields := [fld 4 80] }, wait := some .synLock })

/-- The checks of SYN-CAL. -/
def synCalCheck (mask : Nat) (d : Dev) : Option Reply :=
  Checks.orElse (firstBad [((maskList 8 mask).any (fun p => profileK d p == 0), ST.synArg), (d.syn.hostHold || hopQueued d, ST.synState), (!domOn d 2, ST.domainOff)])
    (if d.syn.sbState = 1 then some (sbLeft d) else none)

/-- SYN-CAL (R480). -/
def execSynCal (h : Hdr) (mask : Nat) : Meaning :=
  hostCmd (cmd 0x0B04 [1]) h (.synCal h mask)
    (synCalCheck mask)
    (fun d =>
      match maskList 8 mask with
      | [] => { dev := d, reply := { fields := [fld 1 0] } }
      | p :: rest =>
        { dev := d.onSyn fun s => { s with
            sbState := 1, sbProfile := p, recal := false, sbAt := d.now + (rest.length + 1) * 4325376, lock := upd s.lock (1 - s.active) fun _ => false },
          reply := { fields := [fld 1 (rest.length + 1)] }, wait := some (.synCal rest) })

/-- FE_PATH_STATE_n (R459). -/
def feWord (d : Dev) (p : Nat) : Nat :=
  let f := nth d.fe p
  f.st * 2 ^ 29 + (if f.protTx ≠ 0 then f.protTx else if f.protRx then 1 else 0) * 2 ^ 27 + b2n (f.st == 2) * 2 ^ 26 + b2n (f.st != 0) * 2 ^ 25
    + b2n ((f.st == 1 || f.st == 2 || (f.st == 4 && f.protTx == 0)) && !gatePinched d p) * 2 ^ 24
    + b2n (f.st == 1 && (d.rxPath p).zeroFrom.isNone && !hopSpan d d.axis && decide (f.validAt ≤ d.now)) * 2 ^ 23
    + b2n f.abandoned * 2 ^ 22 + b2n f.txProtSeen * 2 ^ 21

/-- FE-STATE-GET. -/
def execFeStateGet (h : Hdr) (path : Nat) : Meaning :=
  query (ask 0x0B05 [4, 4, 4, 4]) h (.feStateGet h path) (fun _ => firstBad [(decide (63 < path), ST.badArg)]) fun d =>
    fld 4 (feWord d path) :: (nth d.fe path).entries.map fun n => fld 4 (sat32 n)

/-! ### Lock and settling (R452, R453) -/

/-- What a SYN-CAL in progress waits for: the profiles left (R480). -/
def synCalWaits (r : Running) : Bool :=
  match r.wait with
  | .synCal _ => true
  | _ => false
def synLeft (d : Dev) : Option (List Nat) := d.lnk.mail.findSome? fun m =>
  match m.running with
  | some r => (match r.wait with
    | .synCal l => some l
    | _ => none)
  | none => none
def synNext (l : List Nat) (w : Wait) : Wait :=
  match w with
  | .synCal _ => .synCal l
  | w => w

/-- The calibration of the standby at a profile has ended (R451, R458, R480): its record is written; the next profile of
a SYN-CAL begins, or the command is answered; the one of R458 leaves the standby locked for the swap. -/
def sbCalibrated (d : Dev) : Dev :=
  let d := makeRecord d (standby d) d.syn.sbProfile
  if d.syn.recal then raiseEv (d.onSyn fun s => { s with sbState := 3, lock := upd s.lock (1 - s.active) fun _ => true }) EV.synCal [a4 (standby d), a4 d.syn.sbProfile]
  else
    match synLeft d with
    | some (p :: l) => onWaits (d.onSyn fun s => { s with sbProfile := p }) (synNext l)
    | _ => complete (raiseEv (d.onSyn fun s => { s with sbState := 0 }) EV.synCal [a4 (standby d), a4 d.syn.sbProfile]) synCalWaits fun _ => {}

/-- SYN_LOCK (R452): a synthesiser that is relocking, pre-locking or calibrating indicates lock; a calibration takes 2.2 ms
per profile (R480). -/
def execSynLock (which : Nat) : Meaning := onDev fun d =>
  if 1 < which ∨ domOn d 2 = false then d
  else if which = d.syn.active then
    if nth d.syn.lock which then d
    else
      let d := if usable d which d.syn.profile then d else makeRecord d which d.syn.profile
      let d := d.onSyn fun s => { s with
        lock := upd s.lock which fun _ => true, tunes := upd s.tunes which fun t => match nth (nth d.nvm.synRecs which) s.profile with
          | some r => r.tune
          | none => t }
      raiseEv d EV.synLock [a4 which, a4 2]
  else if d.syn.sbState = 2 then
    complete (d.onSyn fun s => { s with sbState := 3, lock := upd s.lock which fun _ => true }) (fun r => r.wait == .synLock) fun _ => {}
  else if d.syn.sbState = 1 ∧ d.syn.sbAt ≤ d.now + ((synLeft d).getD []).length * 4325376 then sbCalibrated d
  else d

/-- SETTLING_END (R452): with the active synthesiser locked, receive samples are taken again; windows stay muted until
their next TX-OPEN (R232). -/
def execSettlingEnd : Meaning := onDev fun d =>
  if d.syn.settling = false ∨ nth d.syn.lock d.syn.active = false then d
  else restoreAll (d.onSyn fun s => { s with settling := false })

/-- LOSS_OF_LOCK (R232, R453): the active synthesiser mutes every path and settles until it has relocked; the standby loses
its pre-lock. -/
def execLossOfLock (which : Nat) : Meaning := onDev fun d =>
  if 1 < which ∨ nth d.syn.lock which = false then d
  else
    let d := raiseEv (d.onSyn fun s => { s with lock := upd s.lock which fun _ => false, unlockSeen := true }) EV.synLock [a4 which, a4 1]
    if which = d.syn.active then
      let was := (List.range 64).filter fun p => txOpenNow d p
      let d := was.foldl (fun d p => (countMuted d p).onTx p fun x => { x with muteLock := true }) d
      let d := if was.isEmpty then d else raiseEv d EV.txUnlock [a4 which]
      replaceAll (d.onSyn fun s => { s with settling := true })
    else d.onSyn fun s => { s with sbState := 0, hostHold := false, recal := false }

/-! ### Hops and recalibration (R456 to R458) -/

/-- 100 ns of receive samples on every path in RX are replaced at a hop (R457). -/
def hopGlitch (d : Dev) : Dev :=
  (List.range 64).foldl (fun d p =>
    if (nth d.fe p).st = 1 ∧ (d.rxPath p).zeroFrom.isNone then
      let d := rxReplace d p
      d.onRx p fun x => { x with zeroFrom := none, replaced := x.replaced + adcSamples d 197 }
    else d) d

/-- The two synthesisers exchange their parts, for the antenna instants from a position on (R457). -/
def exchange (d : Dev) (pos : Nat) : Dev :=
  d.onSyn fun s => { s with
    active := 1 - s.active, profile := s.sbProfile, sbProfile := s.profile, sbState := 3, hop := (pos, s.profile),
    marginLow := decide (nth s.tunes (1 - s.active) < 100) || decide (900 < nth s.tunes (1 - s.active)), marginTold := false }

/-- SYN_HOP (R456, R457): to a standby locked at the named profile; otherwise the stake is dropped and EV_SYN_HOP_FAIL
raised. -/
def execSynHop : Meaning :=
  onDev (stakeAct 0x0B01 (fun d q => d.syn.sbState == 3 && d.syn.sbProfile == q.stake.argument % 256 && domOn d 2)
    (fun d q => raiseEv (d.onSyn fun s => { s with hopFailSeen := true }) EV.synHopFail [a4 q.stake.tag])
    (fun d q => calNotice (raiseEv (discontinue (hopGlitch ((exchange d q.pos).onSyn fun s => { s with recal := false }))) EV.synHop [a4 q.stake.tag, a4 d.syn.sbProfile])))

/-- SYN_RECALIBRATION (R458): the active synthesiser's tuning voltage is `tune` in 0.1 % of its range. -/
def execSynRecalibration (tune : Nat) : Meaning := onDev fun d =>
  if domOn d 2 = false then d
  else
    let low := decide (tune < 100) || decide (900 < tune)
    let far := decide (tune < 25) || decide (975 < tune)
    let d := d.onSyn fun s => { s with tunes := upd s.tunes s.active fun _ => tune, marginLow := low }
    let d := if far && !d.syn.marginTold then raiseEv (d.onSyn fun s => { s with marginTold := true }) EV.synMargin [a4 d.syn.active, a4 tune] else d
    let warm := match nth (nth d.nvm.synRecs d.syn.active) d.syn.profile with
      | some r => decide (2000 ≤ (dieMean d - r.temp).natAbs)
      | none => false
    if (low || warm) && !d.syn.hostHold && !hopQueued d && d.syn.sbState != 1 && !d.syn.recal then
      d.onSyn fun s => { s with sbState := 1, sbProfile := s.profile, recal := true, sbAt := d.now + 4325376, lock := upd s.lock (1 - s.active) fun _ => false }
    else d

/-- SYN_SWAP (R458): in free time, unless a host's pre-lock or a queued hop holds the standby. -/
def execSynSwap : Meaning := onDev fun d =>
  if d.syn.recal && d.syn.sbState == 3 && d.syn.sbProfile == d.syn.profile && !d.syn.hostHold && !hopQueued d && axisIdle d
      && spanFree d d.axis (d.axis + 197) && !(d.cal.step.any (·.2)) && !unitGap d d.axis && (holdSpans d (d.axis + 197)).all (fun e => decide (d.axis + 197 ≤ e.1) || decide (e.2 ≤ d.axis)) then
    raiseEv (hopGlitch ((exchange d d.axis).onSyn fun s => { s with
      recal := false,
      tunes := upd s.tunes s.active fun t => match nth (nth d.nvm.synRecs s.active) s.profile with
        | some r => r.tune
        | none => t })) EV.synCal [a4 (standby d), a4 d.syn.profile]
  else d

end Sys2Proof.Machine
end

