-- ==== Sys2Proof/Machine/Beacon.lean ====
section
/-! DEFINITION. Chapter 13, the beacon modem: configuration (R467, R478), beacons sent (R462 to R465, R475 to R477), the
receiver's searchers, packets and reports (R468 to R474), and the measurements it passes to over-the-air alignment
(R435). -/

namespace Sys2Proof.Machine

def Dev.onBcn (d : Dev) (f : Bcn → Bcn) : Dev := { d with bcn := f d.bcn }

/-- One of the thirteen counters raised (BCN-COUNTERS order). -/
def bcnCount (d : Dev) (k : Nat) : Dev := d.onBcn fun b => { b with counts := upd b.counts k (· + 1) }

/-- Whether the receiver listens (R475, R478). -/
def bcnListening (d : Dev) : Bool := domOn d 2 && domOn d 3 && (d.bcn.cfg.rxFlags.testBit 7 || d.bcn.listenOpen)

/-- TMB_BCN_STATUS. -/
def bcnStatusWord (d : Dev) : Nat :=
  let b := d.bcn
  let st := if !bcnListening d then 3 else match b.lock with
    | none => 0
    | some l => if l.inTail then 2 else 1
  st * 2 ^ 30 + b2n b.held.isSome * 2 ^ 29 + b2n b.txUntil.isSome * 2 ^ 28 + b2n (d.tmb.heldStakes.any fun q => q.stake.action == 0x0B20) * 2 ^ 27
    + b2n (nth b.sticky 0) * 2 ^ 26 + b2n (nth b.sticky 1) * 2 ^ 25 + b2n (nth b.sticky 2) * 2 ^ 24 + b2n (bcnListening d) * 2 ^ 23
    + ofSigned 12 (b.floor.getD 0) * 2 ^ 11

/-! ### Configuration -/

/-- R478: the fields of a configuration. -/
def bcnArgOk (c : BcnCfg) : Bool :=
  decide (c.kind ≤ 2) && decide (c.txPath ≤ 63) && decide (c.level ≤ 40) && [1, 3, 5, 9].contains c.nr
    && (c.tailLen == 0 || (decide (16 ≤ c.tailLen) && decide (c.tailLen ≤ 128))) && decide (10 ≤ c.tailBw) && decide (c.tailBw ≤ 400)
    && decide (c.rxPath ≤ 63) && decide (3 ≤ c.captureMargin) && decide (c.captureMargin ≤ 12) && decide (3 ≤ c.detectMargin) && decide (c.detectMargin ≤ 20)
    && c.rxFlags % 32 == 0 && decide (c.dest ≤ 15) && (decide (c.reportLane ≤ 31) || c.reportLane == 0xFF) && c.reserved23 == 0

/-- R467: the frequencies, with max(4 MHz, `tail_bw`/2) to each side, inside what R224 and R182 admit. -/
def bcnFreqOk (d : Dev) (c : BcnCfg) : Bool :=
  let w := max 8000000 (c.tailBw * 1000000) * rateUnit
  txSpanOk d (d.rxPath c.txPath).band (d.txPath c.txPath).dacCentre (adcRate d d.syn.profile) c.freq w
    && inZone d (d.rxPath c.rxPath).band d.syn.profile c.rxFreq w

def bcnCfgFields (c : BcnCfg) : List Field :=
  [fld 1 c.kind, fld 1 c.txPath, fld 5 c.freq, fld 1 c.level, fld 1 c.nr, fld 1 c.tailLen, fld 2 c.tailBw, fld 1 c.rxPath, fld 1 c.captureMargin,
   fld 1 c.detectMargin, fld 1 c.rxFlags, fld 1 c.dest, fld 1 c.reportLane, fld 5 c.rxFreq, fld 9 c.reserved23]

/-- The header's fields as its eight bytes (R464). -/
def hdrBytes (h : BcnHdr) : List Nat :=
  let b := bytesOf [fld 1 (h.version * 16 + h.kind), fld 1 (b2n h.tail * 128 + b2n h.traced * 64 + b2n h.deferred * 32), fld 3 h.unit, fld 1 h.len, fld 1 h.seq]
  b ++ [crc8 b]

/-- The flags of a REPORT of kind 0x0B02 (R474). -/
def bcnFlags (l : BcnLock) (preempted : Bool) : Nat :=
  b2n preempted * 128 + b2n l.crcFailed * 64 + b2n l.overlapped * 32 + b2n l.collision * 16

/-- R651: quickset keeps the last 16 beacons heard, and counts those of the present second. -/
def qsHear (d : Dev) (l : BcnLock) (h : BcnHdr) (preempted : Bool) : Dev :=
  let e : List Field := [fld 3 h.unit, fld 1 0, fld 8 (if h.kind = 0 then beAt l.payload 0 8 else 0), satfld 2 l.energy, fld 1 h.kind,
    fld 1 (bcnFlags l preempted)]
  { d with qs := { d.qs with heard := (d.qs.heard ++ [e]).drop (d.qs.heard.length + 1 - 16), heardNow := d.qs.heardNow + 1 } }

/-- R465, R474, R479: a packet completed or abandoned after a valid header: it is the last packet, and reported when asked
for, unless its kind is unknown. -/
def bcnReport (d : Dev) (l : BcnLock) (preempted : Bool) : Dev :=
  match l.hdr with
  | none => d
  | some h =>
    let d := d.onBcn fun b => { b with lastE := l.energy, lastSender := h.unit, lastAxis := l.axis }
    let d := if d.qs.state = 2 then qsHear d l h preempted else d
    if 2 < h.kind then d.onBcn fun b => { b with unknownKinds := b.unknownKinds + 1 }
    else if d.bcn.cfg.rxFlags.testBit 6 then
      let port := if d.bcn.cfg.reportLane = 0xFF then 32 else d.bcn.cfg.reportLane
      sendReport d 0x0B02 l.axis d.bcn.cfg.dest port
        ([fld 8 l.axis, satfld 2 l.energy, fld 1 (bcnFlags l preempted), fld 1 h.nr] ++ byteFields (hdrBytes h) ++ byteFields l.payload)
    else d

/-- R474, R478: a lock in progress is abandoned without a count; a packet whose header was valid is reported. -/
def bcnAbandon (d : Dev) : Dev :=
  match d.bcn.lock with
  | some l => (bcnReport d l false).onBcn fun b => { b with lock := none, held := none }
  | none => d.onBcn fun b => { b with held := none }

/-- The checks of BCN-SET. -/
def bcnSetCheck (cfg : BcnCfg) (d : Dev) : Option Reply :=
  firstBad [(!bcnArgOk cfg || !bcnFreqOk d cfg, ST.bcnArg), (qsHeld d, ST.quickset)]

/-- BCN-SET (R467, R478): a lock is abandoned without a count. -/
def execBcnSet (h : Hdr) (cfg : BcnCfg) : Meaning :=
  hostCmd (cmd 0x0B10 [2]) h (.bcnSet h cfg)
    (bcnSetCheck cfg)
    (fun d =>
      let d := (bcnAbandon d).onBcn fun b => { b with cfg := cfg }
      { dev := d, reply := { fields := [fld 2 (bcnChips d)] } })

/-- BCN-GET. -/
def execBcnGet (h : Hdr) : Meaning :=
  query (ask 0x0B11 [32, 4]) h (.bcnGet h) noCheck fun d => bcnCfgFields d.bcn.cfg ++ [fld 4 (bcnStatusWord d)]

/-- BCN-DATA-SET (R465). -/
def execBcnDataSet (h : Hdr) (data : List Nat) : Meaning :=
  hostCmd (cmd 0x0B12) h (.bcnDataSet h data) (fun _ => firstBad [(data.isEmpty || decide (124 < data.length), ST.badArg)])
    (just fun d => d.onBcn fun b => { b with data := data })

/-- BCN-STATUS. -/
def execBcnStatus (h : Hdr) : Meaning :=
  query (ask 0x0B13 [2, 2, 2, 3, 8]) h (.bcnStatus h) noCheck fun d =>
    [satfld 2 (d.bcn.floor.getD 0), satfld 2 (d.bcn.low.getD 0), satfld 2 d.bcn.lastE, fld 3 d.bcn.lastSender, fld 8 d.bcn.lastAxis]

/-- BCN-COUNTERS. -/
def execBcnCounters (h : Hdr) (clear : Nat) : Meaning :=
  hostCmd (askClear 0x0B14 clear [4, 4, 4, 4, 4, 4, 4, 4, 4, 4, 4, 4, 4]) h (.bcnCounters h clear) (fun _ => firstBad [(decide (1 < clear), ST.badArg)])
    fun d =>
      { dev := if clear = 1 then d.onBcn fun b => { b with
        counts := [0, 0, 0, 0, 0, 0, 0, 0, 0, 0, 0, 0, 0] } else d,
        reply := { fields := d.bcn.counts.map fun n => fld 4 (sat32 n) } }

/-! ### Sending -/

/-- The letter of a variant (R465). -/
def variantLetter (v : Variant) : Nat :=
  match v with
  | .l => 0x4C
  | .m => 0x4D
  | .h => 0x48
  | .a => 0x41

/-- R465: the payload of a beacon whose preamble begins at `start`. -/
def bcnPayload (d : Dev) (start : Nat) : List Nat :=
  let c := d.bcn.cfg
  match c.kind with
  | 0 => bytesOf [fld 8 d.ident.serial, fld 1 (variantLetter d.ident.variant), fld 1 d.pwr.state, fld 1 (b2n d.tmb.traced), fld 1 (b2n d.owner?.isSome), fld 8 start,
      fld 4 d.ctl.imageVersion]
  | 1 =>
    let ps := d.cal.partners.filterMap fun p => p.ours.map fun m => (p.cfg.unit, m)
    bytesOf ([fld 8 (start + (bcnChips d - c.tailLen) * 512), fld 2 c.tailBw, fld 1 c.tailLen, fld 1 ps.length]
      ++ ps.flatMap fun (u, a, f, s, t) => [fld 3 u, fld 1 (s.toNat / 5), sfld 4 a, fld 2 f, fld 1 (min 255 ((d.now - t) / 196608000)), fld 1 0])
  | _ => d.bcn.data

/-- R464: the header of a beacon. -/
def bcnHeader (d : Dev) (deferred : Bool) : List Nat :=
  let c := d.bcn.cfg
  let b := bytesOf [fld 1 (16 + c.kind), fld 1 (b2n (c.tailLen != 0) * 128 + b2n d.tmb.traced * 64 + b2n deferred * 32), fld 3 d.nvm.unitNumber,
    fld 1 (bcnLen d), fld 1 d.bcn.seq]
  b ++ [crc8 b]

/-- R62, R462: the ticks from the sum stage to the antenna (16, 16, 8, 32 and 8 ns of R226). -/
def bcnDelay : Nat := 158

/-- R476: whether a BCN-TX can act. -/
def bcnAble (d : Dev) (q : QStake) : Bool :=
  let p := d.bcn.cfg.txPath
  !txOpenNow d p && (nth d.fe p).st != 3 && (nth d.fe p).st != 4 && !d.syn.settling && domOn d 4 && domOn d 5 && d.bcn.txUntil.isNone
    && !gapAt d p (max d.axis (q.trig.getD q.pos))

/-- R475, R476: a beacon is radiated from P', or from the deferred position; it is muted under INHIBIT, a pinched-off gate or
a hard mute. -/
def bcnAct (d : Dev) (q : QStake) : Dev :=
  let p := d.bcn.cfg.txPath
  let deferred := decide (q.trig.getD 0 < d.axis)
  let due := q.pos + bcnSpread d q.stake.argument
  let start := if deferred then max due (d.axis + bcnDelay) else due
  let stop := start + bcnChips d * 512
  let d := if deferred then gateOnAt d p start else d
  let x := d.txPath p
  if d.gov.loopOpen || x.muteInhibit || x.muteHost || x.gain == 0 || !gateReady d p start then
    raiseEv (gateOffAt (bcnCount d 3) p stop) EV.bcnMuted [a4 q.stake.tag, a8 start]
  else
    let head := bcnHeader d deferred
    let load := bcnPayload d start
    let d := (bcnCount (gateOffAt (feToTx d p) p stop) 0).send (.beacon p start head load)
    d.onBcn fun b => { b with seq := (b.seq + 1) % 256, txUntil := some stop, sent := some ⟨p, start, b.cfg, head, load⟩ }

/-- BCN_TX (R475 to R477): deferrable; a beacon held is counted, as is one dropped. -/
def execBcnTx : Meaning := onDev fun d =>
  let e := stakeAct 0x0B20 bcnAble (fun d _ => bcnCount d 2) bcnAct d
  if d.tmb.heldStakes.length < e.tmb.heldStakes.length then bcnCount e 1 else e

/-- BEACON_END (R460). -/
def execBeaconEnd : Meaning := onDev fun d =>
  match d.bcn.txUntil with
  | none => d
  | some t => if t ≤ d.axis then feFromTx (d.onBcn fun b => { b with txUntil := none }) ((d.bcn.sent.map (·.path)).getD d.bcn.cfg.txPath) else d

/-! ### Listening -/

/-- BCN_LISTEN_OPEN (R475). -/
def execBcnListenOpen : Meaning :=
  onDev (stakeAct 0x0B21 (fun d _ => domOn d 2 && domOn d 3 && !d.syn.settling) (fun d _ => d) fun d _ => d.onBcn fun b => { b with listenOpen := true })

/-- BCN_LISTEN_CLOSE (R475): a lock in progress is abandoned without a count. -/
def execBcnListenClose : Meaning :=
  let shut (d : Dev) (_ : QStake) : Dev :=
    (if d.bcn.cfg.rxFlags.testBit 7 then d else bcnAbandon d).onBcn fun b => { b with listenOpen := false }
  onDev (stakeAct 0x0B22 (fun d _ => domOn d 2 && domOn d 3 && !d.syn.settling) shut shut)

/-- R470: the position at which the sync window of a preamble closes: 96 + 32 chips after it began. -/
def syncClose (a : Nat) : Nat := a + 65536

/-- R470, R471: the secondary becomes the primary: its held detection is locked while its sync window is open, and missed
otherwise. -/
def bcnPromote (d : Dev) : Dev :=
  match d.bcn.held with
  | some (a, e) =>
    if d.axis < syncClose a then d.onBcn fun b => { b with lock := some { axis := a, energy := e }, held := none }
    else bcnCount (d.onBcn fun b => { b with lock := none, held := none }) 8
  | none => d.onBcn fun b => { b with lock := none }

/-- PREAMBLE_DETECT (R470 to R472): the primary locks; the secondary captures when it exceeds the lock by the margin before
the payload's end, and holds the detection otherwise. -/
def execPreambleDetect (energy : Int) (axis : Nat) : Meaning := onDev fun d =>
  if !bcnListening d || (nth d.fe d.bcn.cfg.rxPath).st != 1 || (d.bcn.floor.any fun f => decide (energy < f + 10 * d.bcn.cfg.detectMargin)) then d
  else
    let d := bcnCount d 4
    match d.bcn.lock with
    | none => d.onBcn fun b => { b with lock := some { axis := axis, energy := energy } }
    | some l =>
      if l.inTail = false ∧ l.energy + 10 * d.bcn.cfg.captureMargin ≤ energy then
        let d := bcnReport d l true
        let d := raiseEv (bcnCount (d.onBcn fun b => { b with sticky := upd b.sticky 1 fun _ => true }) 6) EV.bcnPreempt [a8 l.axis]
        d.onBcn fun b => { b with lock := some { axis := axis, energy := energy }, held := none }
      else
        let d := if d.bcn.held.isSome then bcnCount d 8 else d
        d.onBcn fun b => { b with
          held := some (axis, energy), lock := some { l with overlapped := l.overlapped || (l.inTail && decide (l.energy - 200 ≤ energy)) } }

/-- R470: a false lock. -/
def bcnFalse (d : Dev) : Dev :=
  bcnPromote (raiseLimited (bcnCount (d.onBcn fun b => { b with sticky := upd b.sticky 0 fun _ => true }) 5) EV.bcnFalse 0 [a8 d.axis])

/-- SYNC_WORD_TIMEOUT (R470). -/
def execSyncWordTimeout : Meaning := onDev fun d =>
  match d.bcn.lock with
  | none => d
  | some l => if l.hdr.isNone && decide (syncClose l.axis ≤ d.axis) then bcnFalse d else d

/-- R471: a packet that fails a CRC while a detection is held is a suspected collision. -/
def bcnCollide (d : Dev) : Dev :=
  if d.bcn.held.isSome then
    raiseLimited (bcnCount (d.onBcn fun b => { b with sticky := upd b.sticky 2 fun _ => true }) 7) EV.bcnCollision 0 [a8 d.axis]
  else d

/-- BEACON_HEADER (R463, R470): the header ends 128 + 128 n_r chips after the preamble began, or up to 32 chips later. -/
def execBeaconHeader (hdr : BcnHdr) : Meaning := onDev fun d =>
  match d.bcn.lock with
  | none => d
  | some l =>
    if l.hdr.isSome ∨ d.axis < l.axis + (128 + 128 * hdr.nr) * 512 then d
    else if hdr.crcOk then d.onBcn fun b => { b with lock := some { l with hdr := some hdr, inTail := hdr.len == 0 && hdr.tail } }
    else bcnFalse (bcnCollide (bcnCount d 9))

/-- R435: the entry for a unit among those of a sounding payload: arrival, phase, SNR in 0.1 dB, age in 0.1 s. -/
def soundEntry (b : List Nat) (unit : Nat) : Option (Int × Nat × Int × Nat) :=
  ((List.range (min (beAt b 11 1) 8)).find? fun k => beAt b (12 + 12 * k) 3 == unit && decide (24 + 12 * k ≤ b.length)).map fun k =>
    let o := 12 + 12 * k
    (toSigned 32 (beAt b (o + 4) 4), beAt b (o + 8) 2, 5 * (beAt b (o + 3) 1 : Int), beAt b (o + 10) 1)

/-- The number of a partner by its unit. -/
def partnerOf (d : Dev) (unit : Nat) : Option Nat := (List.range d.cal.partners.length).find? fun k => (nth d.cal.partners k).cfg.unit == unit

/-- R435, R436: a partner's measurement of this unit, read from its sounding payload. -/
def takeTheirs (d : Dev) (h : BcnHdr) (payload : List Nat) : Dev :=
  match partnerOf d h.unit with
  | none => d
  | some k =>
    if h.kind ≠ 1 then d
    else match soundEntry payload d.nvm.unitNumber with
      | none => d
      | some (a, f, s, age) => otaSolve (onPartner d k fun p => { p with theirs := some (a, f, s, d.now - age * 196608000) }) k

/-- R435: this unit's measurement of a partner's tail. -/
def takeOurs (d : Dev) (h : BcnHdr) (e : BcnEnd) : Dev :=
  match partnerOf d h.unit with
  | none => d
  | some k => otaSolve (onPartner d k fun p => { p with ours := some (e.arrival, e.phase, e.snr, d.now) }) k

/-- BEACON_PACKET_END (R471, R472, R474): the payload ends, and the packet with it unless a tail follows; or its tail ends,
measured unless it was overlapped. -/
def execBeaconPacketEnd (pkt : BcnEnd) : Meaning := onDev fun d =>
  match d.bcn.lock with
  | none => d
  | some l =>
    match l.hdr with
    | none => d
    | some h =>
      if l.inTail then
        let d := bcnReport (bcnCount d (if l.overlapped then 12 else 11)) l false
        bcnPromote (if l.overlapped then d else takeOurs d h pkt)
      else if d.axis < l.axis + (128 + 128 * h.nr + (if h.len = 0 then 0 else 16 * h.nr * (h.len + 4))) * 512 then d
      else
        let bad := h.len != 0 && !pkt.crcOk
        let hit := bad && d.bcn.held.isSome
        let d := if bad then bcnCollide (bcnCount d 10) else d
        let l := { l with payload := pkt.payload.take h.len, crcFailed := bad, collision := hit }
        let d := if bad then d else takeTheirs d h l.payload
        if h.tail then d.onBcn fun b => { b with lock := some { l with inTail := true } }
        else bcnPromote (bcnReport d l false)

/-- NOISE_FLOOR_REPORT (R473): once per second. -/
def execNoiseFloorReport (mean low : Int) : Meaning := onDev fun d =>
  if !bcnListening d || decide (d.now < d.bcn.floorAt + tickHz) then d
  else
    let d := d.onBcn fun b => { b with floor := some mean, low := some low, floorAt := d.now }
    let port := if d.bcn.cfg.reportLane = 0xFF then 32 else d.bcn.cfg.reportLane
    if d.bcn.cfg.rxFlags.testBit 5 then sendReport d 0x0B01 d.axis d.bcn.cfg.dest port [satfld 2 mean, satfld 2 low] else d

end Sys2Proof.Machine
end

