-- ==== Sys2Proof/Machine/Memory.lean ====
section
/-! DEFINITION. Chapter 14: allocations and stream ports (R486, R488, R507), the scrubber (R499 to R502), the DRAM controllers (R505 to
R512) and the memory commands (R513, R514). -/

namespace Sys2Proof.Machine

/-! ### Allocations and ports (R486, R488, R507) -/

/-- R488, R559: the bytes allocated in each region: pages that no applet's window covers fill the protected regions 1 to 63 in rising order;
region 0 holds the staged objects. -/
def allocations (d : Dev) : List Nat :=
  let own := pages ((d.lnk.bulk.filter (·.inDram)).map (·.len)).sum
  let (l, _) := (d.mem.prot.zipIdx.drop 1).foldl (fun (x : List Nat × Nat) (p, k) =>
    let take := if p then min x.2 (regionRoom d k) else 0
    (x.1 ++ [take], x.2 - take)) ([min own 0x33300000], weaveHeld d + xceHeld d)
  l

/-- R507: whether a stream port is enabled: its user is configured and at work, or it is assigned. -/
def portOn (d : Dev) (n : Nat) : Bool :=
  domOn d 9 && (match n with
    | 0 => d.weave.on
    | 1 => d.weave.on
    | 2 => d.xce.on && d.xce.banks.cur.outMode != 1
    | 3 => d.xce.on && d.xce.banks.cur.outMode != 1
    | 4 => false
    | 5 => d.lnk.bulk.any fun o => o.outbound && o.inDram
    | _ => (nth d.mem.ports n).assign != 0)
def anyPortOn (d : Dev) : Bool := (List.range 8).any (portOn d)
def writePort (n : Nat) : Bool := n == 0 || n == 3 || n == 4 || n == 7

/-! ### Registers -/

/-- MEM_ERR_STATUS_n, MEM_SCRUB_RATE_n, MEM_SPORT_STATUS_n and MEM_DRAM_STATUS. A stream port shows its direction while D9 is on, so that
reset shows the Reset column (R10). -/
def Store.status (s : Store) : Nat :=
  b2n s.failed * 2 ^ 31 + b2n (nth s.sticky 0) * 2 ^ 30 + b2n (nth s.sticky 1) * 2 ^ 29 + b2n (nth s.sticky 2) * 2 ^ 28 + b2n (nth s.sticky 3) * 2 ^ 27
    + b2n (nth s.sticky 4) * 2 ^ 26 + b2n s.range.isSome * 2 ^ 25 + s.uncorr
def scrubRate (n : Nat) (s : Store) : Nat := s.period % 65536 * 65536 + s.reached * 65536 / (storeSpan n).2 % 65536
def sportStatus (d : Dev) (n : Nat) : Nat :=
  let p := nth d.mem.ports n
  b2n (portOn d n) * 2 ^ 31 + b2n (domOn d 9 && writePort n) * 2 ^ 30 + b2n p.panic * 2 ^ 29 + b2n (d.mem.limits.any fun l => l.requester == n) * 2 ^ 28
    + b2n p.overflow * 2 ^ 27 + min 255 p.fill * 2 ^ 19
def dramStatus (d : Dev) : Nat :=
  let m := d.mem
  m.setpoint % 2 * 2 ^ 31 + b2n m.selfRefresh * 2 ^ 30 + b2n (d.tmb.stakes.any fun q => q.stake.action == 0x0C01) * 2 ^ 29
    + ((List.range 8).map fun n => b2n (nth m.ports n).panic * 2 ^ (21 + n)).sum + (m.postponed.map (·.2)).foldl max 0 * 2 ^ 13
    + b2n (!m.limits.isEmpty) * 2 ^ 12 + b2n m.rdSeen * 2 ^ 11 + b2n m.ovfSeen * 2 ^ 10 + b2n m.derated * 2 ^ 9 + (m.prot.filter id).length % 128

/-! ### Commands (R513) -/

/-- MEM-STATUS (R488). -/
def execMemStatus (h : Hdr) : Meaning :=
  query (ask 0x0C00 [4, 4, 4, 4, 4, 4, 4, 8, 8]) h (.memStatus h) noCheck fun d =>
    d.mem.stores.map (fun s => fld 4 s.status) ++ [fld 4 (dramStatus d), fld 8 (dramFree d), fld 8 (weaveHeld d + xceHeld d)]

/-- R486: whether a region is in use: an allocation lies in it, it is being initialised, or the channel of an assigned port
addresses it. -/
def regionUsed (d : Dev) (k : Nat) : Bool := nth (allocations d) k != 0 || d.mem.initing.contains k

/-- The checks of MEM-REGION-SET. -/
def memRegionSetCheck (region prot : Nat) (d : Dev) : Option Reply :=
  firstBad [(decide (region < 1) || decide (63 < region) || decide (1 < prot), ST.memArg), (!domOn d 9, ST.domainOff),
    (regionUsed d region, ST.memInUse)]

/-- MEM-REGION-SET (R485, R486): a newly unprotected region's contents are undefined; a newly protected one is written as
zero before the response. -/
def execMemRegionSet (h : Hdr) (region prot : Nat) : Meaning :=
  hostCmd (cmd 0x0C01) h (.memRegionSet h region prot)
    (memRegionSetCheck region prot)
    (fun d =>
      let lo := 0x1000000000 + region * 0x40000000
      if b2n (nth d.mem.prot region) = prot then { dev := d }
      else
        let d := d.onMem fun m => { m.forget lo (lo + 0x40000000) with prot := upd m.prot region fun _ => prot == 1 }
        let gone := d.mem.undef.filter fun e => e.1 != region
        if prot = 0 then { dev := { d with mem := { d.mem with undef := (region, d.free) :: gone }, free := d.free + 1 } }
        else { dev := d.onMem fun m => { m with undef := gone, initing := m.initing ++ [region] }, wait := some (.regionInit region) })

/-- REGION_INIT_DONE (R486, R592). -/
def regionDone (d : Dev) (region : Nat) : Dev :=
  if !d.mem.initing.contains region then d
  else
    let lo := 0x1000000000 + region * 0x40000000
    let d := d.onMem fun m => { m.forget lo (lo + 0x40000000) with initing := m.initing.filter fun k => k != region }
    complete d (fun r => r.wait == .regionInit region) fun _ => {}

/-- MEM-REGION-GET. -/
def execMemRegionGet (h : Hdr) : Meaning :=
  query (ask 0x0C02 (8 :: List.replicate 64 4)) h (.memRegionGet h) noCheck fun d =>
    fld 8 ((d.mem.prot.zipIdx.map fun (p, k) => b2n p * 2 ^ k).sum) :: (allocations d).map (fld 4)

/-- MEM-SCRUB-SET (R499). -/
def execMemScrubSet (h : Hdr) (store period : Nat) : Meaning :=
  hostCmd (cmd 0x0C03) h (.memScrubSet h store period) (fun _ => firstBad [(decide (5 < store), ST.memArg)])
    (just fun d => d.onMem (·.onStore store fun s => { s with period := period, passStart := d.now }))

/-- The addressable span [a, a + n) of one store. -/
def spanStore (m : Memory) (a n : Nat) : Option Nat :=
  match storeOf a, storeOf (a + n - 1) with
  | some x, some y =>
    if n ≠ 0 ∧ x = y ∧ addressable m a ∧ addressable m (a + n - 1) ∧ (x ≠ 3 ∨ regionOf a = regionOf (a + n - 1) ∨ !m.prot.any id) then some x else none
  | _, _ => none

/-- The checks of MEM-SCRUB-RANGE. -/
def memScrubRangeCheck (start len : Nat) (d : Dev) : Option Reply :=
  match spanStore d.mem start len with
  | none => refusal ST.memArg
  | some n => Checks.orElse (firstBad [(start % 8 != 0 || len % 8 != 0, ST.memArg), (!domOn d (storeDomain n), ST.domainOff), ((nth d.mem.stores n).failed, ST.memFailed)])
      (match (nth d.mem.stores n).range with
        | some (_, l) => some { status := ST.memBusy, hint := l / 8 }
        | none => none)

/-- MEM-SCRUB-RANGE (R502): its response follows the pass. -/
def execMemScrubRange (h : Hdr) (start len : Nat) : Meaning :=
  hostCmd (cmd 0x0C04 ([8, 8, 8, 8, 8, 8] ++ [5, 5])) h (.memScrubRange h start len)
    (memScrubRangeCheck start len)
    (fun d =>
      match storeOf start with
      | none => { dev := d }
      | some n => { dev := d.onMem (·.onStore n fun s => { s with range := some (start, len) }), wait := some (.scrubRange n) })

/-- A data bit of the word at an 8-byte boundary flipped: the word and its syndrome change. -/
def Memory.flip (m : Memory) (a b : Nat) : Memory :=
  let s := Nat.xor (m.synd a) (2 ^ (b / 8) + 2 ^ (8 + b % 8))
  (m.putBytes a (Nat.xor (m.bytesAt a 8) (2 ^ b)) 8).putBytes (syndKey + a) s 2

/-- The checks of MEM-INJECT. -/
def memInjectCheck (addr kind bit : Nat) (d : Dev) : Option Reply :=
  Checks.orElse (firstBad [(!addressable d.mem addr || !coded d.mem addr || kind == 0 || decide (4 < kind)
      || decide ((if kind = 2 then 15 else 63) < bit), ST.memArg)])
    (match storeOf addr with
      | some n => firstBad [(!domOn d (storeDomain n), ST.domainOff)]
      | none => none)

/-- MEM-INJECT (R514): the stored word fails as named; a double error flips the bit and the bit 9 above it. -/
def execMemInject (h : Hdr) (addr kind bit : Nat) : Meaning :=
  hostCmd (cmd 0x0C05) h (.memInject h addr kind bit)
    (memInjectCheck addr kind bit)
    (just fun d =>
      let a := addr / 8 * 8
      d.onMem fun m =>
        match kind with
        | 1 => m.flip a bit
        | 2 => m.putBytes (syndKey + a) (Nat.xor (m.synd a) (2 ^ bit)) 2
        | 3 => (m.flip a bit).flip a ((bit + 9) % 64)
        | _ => m.putBytes (syndKey + a) 0xFFFF 2)

/-- The checks of MEM-PORT-SET. -/
def memPortSetCheck (port weight assign chan : Nat) (d : Dev) : Option Reply :=
  firstBad [(decide (7 < port) || decide (weight < 1) || decide (15 < weight) || (decide (port < 6) && assign != 0) || decide (2 < assign)
    || (assign == 1 && decide (31 < chan)) || (assign == 2 && decide (7 < chan)), ST.memArg), (!domOn d 9, ST.domainOff)]

/-- MEM-PORT-SET (R507, R509). -/
def execMemPortSet (h : Hdr) (port weight assign chan : Nat) : Meaning :=
  hostCmd (cmd 0x0C06) h (.memPortSet h port weight assign chan)
    (memPortSetCheck port weight assign chan)
    (just fun d => d.onMem fun m => { m with ports := upd m.ports port fun p =>
      if port < 6 then { p with weight := weight } else { p with weight := weight, assign := assign, chan := chan } })

/-- MEM-PORT-STATUS. -/
def execMemPortStatus (h : Hdr) (port : Nat) : Meaning :=
  hostCmd (ask 0x0C07 [4, 8, 4, 4]) h (.memPortStatus h port) (fun _ => firstBad [(decide (7 < port), ST.memArg)])
    fun d =>
      let p := nth d.mem.ports port
      { dev := d, reply := { fields := [fld 4 (sportStatus d port), fld 8 p.moved, fld 4 p.panics, fld 4 p.overflows] } }

/-- MEM-SELFREFRESH (R511). -/
def execMemSelfrefresh (h : Hdr) (enter autoExit : Nat) : Meaning :=
  hostCmd (cmd 0x0C09) h (.memSelfrefresh h enter autoExit)
    (fun d => firstBad [(decide (1 < enter) || decide (1 < autoExit), ST.memArg), (!domOn d 9, ST.domainOff), (enter == 1 && anyPortOn d, ST.memPortsOn)])
    (just fun d => d.onMem fun m => { m with selfRefresh := enter == 1, autoExit := autoExit == 1 })

/-- MEM-ROWDISTURB-SET (R510). -/
def execMemRowdisturbSet (h : Hdr) (limit gap cool : Nat) : Meaning :=
  hostCmd (cmd 0x0C0A) h (.memRowdisturbSet h limit gap cool)
    (fun _ => firstBad [(decide (limit < 512) || decide (32768 < limit) || decide (gap < 1) || decide (100 < gap) || decide (cool < 1) || decide (1000 < cool), ST.memArg)])
    (just fun d => d.onMem fun m => { m with rdLimit := limit, coolGap := gap, coolDown := cool })

/-- MEM-COUNTERS. -/
def execMemCounters (h : Hdr) (store clear : Nat) : Meaning :=
  hostCmd (askClear 0x0C0B clear (List.replicate 8 8)) h (.memCounters h store clear)
    (fun _ => firstBad [(decide (5 < store), ST.memArg), (decide (1 < clear), ST.badArg)])
    fun d =>
      { dev := if clear = 1 then d.onMem (·.onStore store fun s => { s with
        counts := [0, 0, 0, 0, 0, 0, 0, 0], uncorr := 0 }) else d,
        reply := { fields := (nth d.mem.stores store).counts.map (fld 8) } }

/-- MEM-SELFTEST-GET (R503, R504). -/
def execMemSelftestGet (h : Hdr) : Meaning :=
  query (ask 0x0C0C (List.replicate 12 1)) h (.memSelftestGet h) noCheck fun d =>
    d.mem.stores.flatMap fun s => [fld 1 (b2n s.failed), fld 1 s.failPat]

/-! ### The scrubber (R499 to R502) -/

/-- R499: the scrubber's read of a word and its write-back: a corrected word clean, an uncorrectable one thorned. -/
def scrubWord (d : Dev) (n a : Nat) : Dev :=
  if !coded d.mem a || (nth d.mem.stores n).failed then d
  else
    let r := decodeSynd (d.mem.synd a)
    let t := d.mem.tbit a
    let (w, _, d) := readWord d a
    match r with
    | .dataBit _ => d.onMem fun m => m.store a w t
    | .checkBit => d.onMem fun m => m.store a w t
    | .uncorrectable => d.onMem fun m => m.store a w true
    | .clean => d
    | .carried => d

/-- SCRUB (R499, R501): the background scrubber of a store, on and not paused by a range pass, comes to a word, named by its
offset in the store. -/
def execScrub (store addr : Nat) : Meaning := onDev fun d =>
  let s := nth d.mem.stores store
  let (base, size) := storeSpan store
  if 5 < store ∨ s.period = 0 ∨ s.range.isSome ∨ domOn d (storeDomain store) = false ∨ size ≤ addr ∨ (store = 3 ∧ d.mem.selfRefresh) then d
  else
    let late := decide (s.passStart + s.period * tickHz < d.now)
    let d := scrubWord d store (base + addr / 8 * 8)
    let last := size ≤ addr / 8 * 8 + 8
    d.onMem (·.onStore store fun s =>
      let s := if late then s.stick 4 else s
      if last then { s.count 5 1 with reached := 0, passStart := d.now } else { s with reached := addr / 8 * 8 + 8 })

/-- The words of a span that are not clean or carry a thorn bit, in rising order. -/
def dirtyWords (m : Memory) (lo n : Nat) : List Nat :=
  (sortBy (fun a b => decide (a ≤ b)) (m.cells.filterMap fun c =>
    let k := if thornKey ≤ c.1 then c.1 - thornKey else if syndKey ≤ c.1 then c.1 - syndKey else 0
    if lo ≤ k ∧ k < lo + n then some (k / 8 * 8) else none)).dedup

/-- R502: the summary of a range pass: words checked; data bits and check bits corrected; uncorrectable words; carried
thorns; a zero; the first and last address of a word not clean. -/
def rangeSummary (m : Memory) (lo n : Nat) : List Field :=
  let ws := (dirtyWords m lo n).filter (coded m)
  let outs := ws.map fun a => (a, decodeSynd (m.synd a), m.tbit a)
  let count (f : Decoded → Bool → Bool) : Nat := (outs.filter fun (_, r, t) => f r t).length
  let bad := outs.filterMap fun (a, r, t) => if r = .clean ∧ t = false then none else some a
  [fld 8 (n / 8),
   fld 8 (count fun r _ => match r with
     | .dataBit _ => true
     | _ => false),
   fld 8 (count fun r _ => r == .checkBit), fld 8 (count fun r _ => r == .uncorrectable),
   fld 8 (count fun r t => r == .carried || (r == .clean && t)), fld 8 0,
   fld 5 (bad.head?.getD 0xFFFFFFFFFF), fld 5 (bad.getLast?.getD 0xFFFFFFFFFF)]

/-- SCRUB_RANGE_DONE (R502): the words of the range have been checked, and the command answers its summary. -/
def execScrubRangeDone (store : Nat) : Meaning := onDev fun d =>
  match (nth d.mem.stores store).range with
  | none => d
  | some (lo, n) =>
    let sum := rangeSummary d.mem lo n
    let d := (dirtyWords d.mem lo n).foldl (fun d a => scrubWord d store a) d
    let d := raiseEv (d.onMem (·.onStore store fun s => { s with range := none })) EV.memScrubDone [a4 store]
    complete d (fun r => r.wait == .scrubRange store) fun _ => { fields := sum }

/-! ### The DRAM controllers (R506 to R512) -/

/-- REFRESH (R506): a bank's refresh falls due (`due`), and is postponed while a stream port is in panic, at most 8 times; or
a postponed one is made up. -/
def execRefresh (ctrl bank : Nat) (due : Bool) : Meaning := onDev fun d =>
  let k := (d.mem.postponed.lookup (ctrl, bank)).getD 0
  let rest := d.mem.postponed.filter fun e => e.1 != (ctrl, bank)
  let panic := d.mem.ports.any (·.panic)
  if 3 < ctrl ∨ domOn d 9 = false ∨ d.mem.selfRefresh then d
  else if due then
    if panic && decide (k < 8) then d.onMem fun m => { m.onStore 3 (·.count 7 1) with postponed := ((ctrl, bank), k + 1) :: rest } else d
  else if panic || k == 0 then d
  else d.onMem fun m => { m with postponed := if k = 1 then rest else ((ctrl, bank), k - 1) :: rest }

/-- ROW_DISTURB (R510): a row has reached `rd_limit` activations; `requester` is a stream port, or 16 + a master's number. -/
def execRowDisturb (ctrl bank : Nat) (hit : RowHit) (requester : Nat) : Meaning := onDev fun d =>
  if 3 < ctrl ∨ domOn d 9 = false ∨ hit.count < d.mem.rdLimit then d
  else
    let d := d.onMem fun m =>
      { m.onStore 3 (·.count 6 1) with
        rdSeen := true
        limits := (m.limits.filter fun l => !(l.ctrl == ctrl && l.bank == bank && l.requester == requester)) ++ [⟨ctrl, bank, requester, d.now⟩] }
    raiseEv d EV.memRowdisturb [a4 (ctrl * 256 + bank), a4 hit.row, a4 (if requester < 16 then requester else requester - 16)]

/-- COOL_DOWN_END (R510). -/
def execCoolDownEnd (ctrl bank requester : Nat) : Meaning := onDev fun d =>
  d.onMem fun m => { m with limits := m.limits.filter fun l =>
    !(l.ctrl == ctrl && l.bank == bank && l.requester == requester && decide (l.since + m.coolDown * 196608 ≤ d.now)) }

/-- STREAM_PORT_PANIC (R508): a port's buffer stands at `fill` 256ths: it enters or leaves panic, overflows when a write port
is full, runs dry when a read port is empty. Samples that port 0 loses are zero-filled (R341). -/
def execStreamPortPanic (port fill : Nat) : Meaning := onDev fun d =>
  if 7 < port ∨ portOn d port = false then d
  else
    let p := nth d.mem.ports port
    let w := writePort port
    let into := if w then decide (192 ≤ fill) else decide (fill ≤ 64)
    let out := if w then decide (fill ≤ 128) else decide (128 ≤ fill)
    let lost := if w then decide (256 ≤ fill) else fill == 0
    let enters := into && !p.panic
    let d := d.onMem fun m => { m with
      ovfSeen := m.ovfSeen || lost,
      ports := upd m.ports port fun p => { p with
        fill := fill, panic := enters || (p.panic && !out), panics := sat32 (p.panics + b2n enters), overflow := p.overflow || lost,
        overflows := sat32 (p.overflows + b2n lost) } }
    let d := if enters then raiseLimited d EV.memPanic port [a4 port] else d
    if lost && port == 0 then weaveOverflow d else d

/-- MEM_FREQ (R512): the set-point changes; with a stream port enabled at the trigger the stake is dropped. -/
def execMemFreq : Meaning :=
  onDev (stakeAct 0x0C01 (fun d _ => domOn d 9 && !anyPortOn d) (fun d _ => raiseEv d EV.memFreq [a4 d.mem.setpoint]) fun d q =>
    raiseEv (d.onMem fun m => { m with setpoint := q.stake.argument % 2 }) EV.memFreq [a4 (q.stake.argument % 2)])

end Sys2Proof.Machine
end

