-- ==== Sys2Proof/Machine/Streams.lean ====
section
/-! DEFINITION. The STREAM packets the unit forms (R145 to R148, R162, R165): raw, channelised, beam and chain streams
(R190, R198, R202, R204, R266, R272, R273, R287, R308). -/

namespace Sys2Proof.Machine

/-! ### What a stream carries -/

/-- A group of a stream: its stamp, the bank index of its samples, whether replaced samples shape it, whether one of its samples saturated,
whether it is thorned, its elements, and the samples that saturate in the conversion to the format, per element. -/
structure Feed where
  stamp : Nat
  bank : Nat
  flushed : Bool
  sat : Bool
  thorn : Bool
  elems : List (List Cx)

/-- Elements of one sample, or blocks of 16 filled up with zeros in BFP9 (R146, R272). -/
def blocked (format : Nat) (l : List Cx) : List (List Cx) :=
  if format = 3 then (List.range (ceilDiv l.length 16)).map fun k => let b := (l.drop (16 * k)).take 16; b ++ List.replicate (16 - b.length) (0, 0)
  else l.map fun v => [v]

/-- The sub-band that gives a raw stream its groups: its first path's. -/
def OutStream.lead (d : Dev) (o : OutStream) : RxChain := rxChain d (o.paths.headD 0) o.sb

/-- The outputs of `n` groups' samples from one on, one after another. -/
def outRun (x : RxChain) : Nat → Nat → List Nat
  | 0, _ => []
  | k + 1, n => n :: (match x.next n with
    | some m => outRun x k m
    | none => [])

/-- R146, R202: a group of a raw stream, by the ADC sample that completes its first output: one output of each path, sixteen in BFP9; none while
an output is not formed or not delivered, or where the bank changes inside it. -/
def rawFeed (d : Dev) (o : OutStream) (n : Nat) : Option Feed :=
  let x := o.lead d
  let run := outRun x (if o.format = 3 then 16 else 1) n
  let bank := (x.at_ n).index
  if (x.out n).isSome && run.all (fun m => x.delivered m && decide (adcTick x.k m < d.axis) && (x.at_ m).index == bank) then
    let paths := o.paths.map fun p => rxChain d p o.sb
    some { stamp := x.stamp n, bank := bank % 2, thorn := false,
           flushed := paths.any fun y => run.any y.flushed,
           sat := paths.any fun y => run.any fun m => (y.sats m).any (0 < ·),
           elems := paths.map fun y => run.map fun m => ((y.out m).map (·.1)).getD (0, 0) }
  else none

/-- R272, R274: a group of a channelised stream, its path's channels in the stream's format. -/
def channelFeed (d : Dev) (o : OutStream) (g : Group) : Feed :=
  let l := channelsOf d o.sb (o.paths.headD 0) g
  let v := l.map fun a => if o.format = 5 then toF8 g a.1 else if o.format = 4 then toF4 g a.1 else (a.1, 0)
  { stamp := 0, bank := g.set.index % 2, flushed := groupFlushed d o.sb g, sat := l.any (0 < ·.2) || v.any (0 < ·.2), thorn := false,
    elems := blocked o.format (v.map (·.1)) }

/-- R272, R279, R287: a group of a beam stream. -/
def beamFeed (d : Dev) (o : OutStream) (g : Group) : Feed :=
  let chans := allChannels d o.sb g
  let l := (List.range g.set.cfg.nCh).map fun i => beamOut g chans (o.paths.headD 0) i
  { stamp := 0, bank := g.set.topIndex % 2, flushed := groupFlushed d o.sb g, sat := l.any (0 < ·.2), thorn := g.set.thorn,
    elems := blocked o.format (l.map (·.1)) }

/-- The frames of a group whose sum a root has formed whole. -/
def ChainNode.groupSum (n : ChainNode) (g : Nat) : List ChainFrame :=
  let l := n.sums.filter fun f => f.axis == g
  if l.any (fun f => f.flags.testBit 7) then l else []

/-- R308: a group of a root's stream, a beam's channels scaled by `root_shift`; a thorned block thorns its group. -/
def chainFeed (d : Dev) (o : OutStream) (g : Nat) : Option Feed :=
  let n := nth d.chains o.sb
  let shift := (n.deliver.map (·.shift)).getD 0
  let b := o.paths.headD 0
  match n.groupSum g with
  | [] => none
  | l =>
    let v := l.flatMap fun f => (List.range f.channels).map fun i =>
      let k := i * f.beams + (b - f.firstBeam)
      let blk := nth f.blocks (k / 16)
      let m := nth blk.vals (k % 16)
      ((rootValue shift blk m.1).1, (rootValue shift blk m.2).1, blk.thorned)
    some { stamp := g, bank := n.banks.index % 2, flushed := false, sat := decide (0 < (l.map (rootSats shift)).sum), thorn := v.any (·.2.2),
           elems := blocked o.format (v.map fun x => (x.1, x.2.1)) }

/-- A stream's group: by an ADC sample for a raw stream, by its stamp for another; none while it is not formed or not delivered. -/
def feed (d : Dev) (o : OutStream) (c : Nat) : Option Feed :=
  match o.kind with
  | .raw => rawFeed d o c
  | .channel => (groupOf d o.sb c).bind fun g => if g.ready d then some { channelFeed d o g with stamp := c } else none
  | .beam => (groupOf d o.sb c).bind fun g => if g.ready d && g.set.beamsOn then some { beamFeed d o g with stamp := c } else none
  | .chain => chainFeed d o c

/-- The group after a group. -/
def after (d : Dev) (o : OutStream) (c : Nat) : Nat :=
  match o.kind with
  | .raw => ((o.lead d).next ((outRun (o.lead d) (if o.format = 3 then 16 else 1) c).getLastD c)).getD (c + 1)
  | .chain => (((((nth d.chains o.sb).sums.map (·.axis)).filter fun a => decide (c < a))).min?).getD (c + 1)
  | _ => groupPos d o.sb c 1

/-- The first group at or after a position. -/
def firstAt (d : Dev) (o : OutStream) (pos : Nat) : Option Nat :=
  match o.kind with
  | .raw =>
    let x := o.lead d
    let n := instantFrom x.k (valAt x.hist pos).bank.cfg.chain pos
    if (x.out n).isSome then some n else x.next n
  | .chain => (((nth d.chains o.sb).sums.map (·.axis)).filter fun a => decide (pos ≤ a)).min?
  | _ => firstGroup d o.sb pos

/-- The position of a group in the axis, for a comparison with the settings' histories. -/
def placeOf (d : Dev) (o : OutStream) (c : Nat) : Nat := if o.kind = .raw then (o.lead d).stamp c else c

/-- The positions at which a stream's settings changed, after one. -/
def changes (d : Dev) (o : OutStream) (pos : Nat) : List Nat :=
  let l := if o.kind = .raw then (rxHist d (o.paths.headD 0) o.sb).map (·.1)
    else (nth d.sig.fre o.sb).map (·.1) ++ ((slotPath d o.sb).map fun p => (rxHist d p o.sb).map (·.1)).getD []
  sortBy (· ≤ ·) (l.filter fun a => decide (pos < a))

/-- Whether a group was not formed or not delivered although every sample that could shape it has come. -/
def missed (d : Dev) (o : OutStream) (c : Nat) : Bool :=
  (feed d o c).isNone && match o.kind with
    | .raw => decide (adcTick (o.lead d).k ((outRun (o.lead d) (if o.format = 3 then 16 else 1) c).getLastD c) < d.axis)
    | .chain => false
    | _ => match groupOf d o.sb c with
      | some g => decide (adcTick g.chain.k (g.sample g.newest) < d.axis)
      | none => decide (c < d.axis)

/-- R197, R198: the group a stream sends next: the one after the last it sent, or, where a window closed or the engine stopped there, the first
of a later window; with it, whether groups are missing before it. -/
def nextGroup (d : Dev) (o : OutStream) : Option (Nat × Bool) :=
  let c := match o.next with
    | some c => some c
    | none => firstAt d o o.since
  match c with
  | none => none
  | some c =>
    if (feed d o c).isSome then some (c, false)
    else if !missed d o c then none
    else ((changes d o (placeOf d o c)).filterMap (firstAt d o)).findSome? fun x => if (feed d o x).isSome then some (x, true) else none

/-- R147: the groups of a packet from one on: at most `n`, all of one bank. -/
def gatherFeeds (d : Dev) (o : OutStream) : Nat → Nat → List Feed × Nat
  | 0, c => ([], c)
  | n + 1, c =>
    match feed d o c with
    | none => ([], c)
    | some f =>
      let (l, e) := gatherFeeds d o n (after d o c)
      if l.all (fun x => x.bank == f.bank) then (f :: l, e) else ([f], after d o c)

/-! ### Packets -/

/-- R273: the elements a packet of a stream carries at most. -/
def OutStream.perSlice (d : Dev) (o : OutStream) : Nat := min o.elements ((destPayload d o.dest o.port - 20) / max 1 (elementBytes o.format))

/-- R273: the groups a packet carries at most. -/
def OutStream.perFull (d : Dev) (o : OutStream) : Nat :=
  let n := if o.perSlice d < o.elements then 1 else (destPayload d o.dest o.port - 20) / max 1 (o.elements * elementBytes o.format)
  if o.perPacket = 0 then n else min n o.perPacket

/-- R148: the stream tail. -/
def streamTail (thorned first : Nat) : Nat := if thorned = 0 then 0xFFFF else 2 ^ 31 + min 32767 thorned * 65536 + first % 65536

/-- R190, R274: the samples of raw streams that saturate in the conversion to their format are counted, with the sticky bit and the event. -/
def countFormat (d : Dev) (o : OutStream) (l : List Feed) : Dev :=
  if o.kind ≠ .raw then d
  else
    let n (k : Nat) : Nat := (l.map fun f => (elementFields o.format (nth f.elems k)).2).sum
    let hit := o.paths.zipIdx.filter fun (_, k) => decide (0 < n k)
    if hit.isEmpty then d
    else hit.foldl (fun d (p, k) => raiseLimited (d.onRxSb p o.sb fun s => { s with
      counts := upd s.counts 3 fun c => sat32 (c + n k), sticky := upd s.sticky 3 fun _ => true }) EV.rxSat (p * 4 + o.sb) [a4 p, a4 o.sb]) d

/-- R145, R146, R148: the payload of a packet of some groups, or of the slice of their elements from `first` on: the sub-header, the samples,
the tail. -/
def streamPayload (o : OutStream) (flags : Nat) (l : List Feed) (first n : Nat) : List Nat :=
  let bad := (l.zipIdx.filter fun x => x.1.thorn).map (·.2)
  bytesOf [fld 8 ((l.head?.map (·.stamp)).getD 0), fld 1 o.format, fld 1 flags, fld 2 l.length, fld 2 n, fld 2 (o.firstElement + first)]
    ++ groupsBytes o.format (l.map fun f => (f.elems.drop first).take n) ++ bytesOf [fld 4 (streamTail bad.length (bad.headD 0))]

/-- The packet, or the slices of its one group (R273): their payloads. -/
def slices (d : Dev) (o : OutStream) (flags : Nat) (l : List Feed) : List (List Nat) :=
  let e := max 1 (o.perSlice d)
  (List.range (ceilDiv o.elements e)).map fun k => streamPayload o flags l (k * e) (min e (o.elements - k * e))

/-- R165: the bytes of stream packets that wait in a port's egress buffer. -/
def egressBytes (d : Dev) (port : Nat) : Nat := (((nth d.lnk.ports port).queue.filter (·.queue == 3)).map fun w => w.bits / 8).sum

/-- R165: whole groups discarded for want of room. The event names the groups of this drop alone: DESIGN CHOICE (log entry 111). -/
def dropGroups (d : Dev) (o : OutStream) (n : Nat) : Dev :=
  raiseLimited (d.onLnk fun l => { l with ports := upd l.ports o.port fun c => { c with groupsDropped := c.groupsDropped + n } }) EV.streamDrop o.num [a4 o.num, a8 n]

/-- A stream changed, or ended. -/
def onOut (d : Dev) (num : Nat) (f : OutStream → Option OutStream) : Dev := { d with outs := d.outs.filterMap fun x => if x.num == num then f x else some x }

/-- R308: a root keeps the sums that a stream of it has still to send. -/
def pruneSums (d : Dev) (o : OutStream) : Dev :=
  if o.kind ≠ .chain then d
  else
    let l := (d.outs.filter fun x => x.kind == .chain && x.sb == o.sb).map fun x => x.next.getD 0
    d.onChain o.sb fun n => { n with sums := n.sums.filter fun f => l.any fun c => decide (c ≤ f.axis) }

/-- STREAM_PACKET_SEND (R145 to R148, R162, R165, R198): the next groups of a stream leave in a packet, or are discarded. A packet closes
early where the bank changes or the next group is missing; it is the last of its window when no group follows it there. -/
def execStreamPacketSend (req : StreamSend) : Meaning := onDev fun d =>
  match d.outs.find? (fun o => o.num == req.num) with
  | none => d
  | some o =>
    match nextGroup d o with
    | none => if o.closing then onOut d req.num fun _ => none else d
    | some (c, jumped) =>
      let (l, e) := gatherFeeds d o (min req.groups (o.perFull d)) c
      if l.isEmpty ∨ portUp d o.port = false then d
      else
        let disc := o.disc || jumped
        let last := o.closing || o.lastDue || missed d o e
        let flags := b2n last * 128 + b2n disc * 64 + b2n (l.any (·.flushed)) * 32 + b2n (l.any (·.sat)) * 16 + (l.headD ⟨0, 0, false, false, false, []⟩).bank * 8
        let ps := slices d o flags l
        let room := (ps.map fun p => p.length + 20 + 38).sum
        if 262144 < egressBytes d o.port + room then
          onOut (dropGroups d o l.length) req.num fun x => some { x with disc := true, next := some e }
        else
          let d := countFormat d o l
          let d := ps.foldl (fun d p => d.sendPkt o.port 3 (nth d.lnk.dests o.dest).addr 4 0 0 (o.num % 256) p) d
          pruneSums (onOut d req.num fun x =>
            if x.closing then none else some { x with disc := last, lastDue := false, sent := x.sent + l.length, next := some e }) o

end Sys2Proof.Machine
end

