-- ==== Sys2Proof/Machine/Domains.lean ====
section
/-! DEFINITION. What a power domain takes with it when it is cut and brings back when it is ready (R592 to R595, and the
stopping rules of the chapters of its blocks), and what a restart keeps (R607, R638, R646, R655). -/

namespace Sys2Proof.Machine

/-- The unit with its power controller changed. -/
def Dev.onPwr (d : Dev) (f : Pwr → Pwr) : Dev := { d with pwr := f d.pwr }

/-- R32: the domains of a power state, 1 HOLD to 5 FULL. -/
def stateDomains (state : Nat) : List Nat :=
  match state with
  | 1 => [0]
  | 2 => [0, 1, 8]
  | 3 => [0, 1, 2, 3, 6, 8, 9]
  | 4 => [0, 1, 2, 3, 6, 7, 8, 9]
  | _ => [0, 1, 2, 3, 4, 5, 6, 7, 8, 9]

/-- R593: the order in which domains come on. -/
def onOrder : List Nat := [0, 1, 8, 9, 2, 6, 3, 7, 4, 5]

/-- R592: the time in which a domain is ready, in us. -/
def readyUs (dom : Nat) : Nat := nth [5000, 20000, 2200, 1000, 1000, 2000, 10000, 5000, 500, 60000] dom

/-- A domain marked on or off. -/
def setDomain (d : Dev) (dom : Nat) (on : Bool) : Dev := d.onPwr fun p => { p with domains := upd p.domains dom fun _ => on }

/-! ### Cuts -/

/-- R549, R584: the DMA channels of a core are unassigned. -/
def freeChans (d : Dev) (core : Nat) : Dev :=
  { d with dma := d.dma.map fun c => if c.owner == core then { c with enable := false, owner := 15, st := if c.st = 0 then 0 else 5 } else c }

/-- R584: what D6 takes from the signal cores. -/
def coresLost (d : Dev) : Dev :=
  let d := [4, 5, 6, 7].foldl (fun d n =>
    let c := nth d.cores n
    if c.st = 0 then d else raiseEv (freeChans d n) EV.appletLost [a4 n]) d
  { d with cores := coresReset }

/-- R366, the table of R376: D9 takes both integration buffers. -/
def integsLost (d : Dev) : Dev :=
  let d := (d.xce.integs.filter fun i => decide (i.st < 2) && i.cfg.intOut != 2).foldl (fun d i =>
    raiseEv (d.onXce fun x => { (x.onInt i.num fun i => { i with st := 3 }).count 5 1 with lost := true }) EV.xceIntLost [a4 i.num]) d
  d.onXce fun x => { x with acc := [] }

/-- The frequency engine, the beamformer and the sub-bands in their reset state; commands that wait for a flush answer. -/
def signalLost (d : Dev) : Dev :=
  let d := (List.range 4).foldl chainCut d
  let d := { d with
    rx := d.rx.map fun x => { x with sbs := List.replicate 4 {}, meters := List.replicate 5 {}, flushed := 0 }
    tx := d.tx.map fun x => { x with sbs := List.replicate 4 {}, windowCounted := false, openSince := none }
    fre := List.replicate 8 {}, chains := [.fresh 0, .fresh 1, .fresh 2, .fresh 3]
    outs := [], ins := [] }
  let d := (List.range 64).foldl feFromTx d
  complete d (fun r => match r.wait with
      | .rxFlush _ _ => true
      | .txFlush _ => true
      | .freFlush _ _ => true
      | _ => false)
    fun r => match r.wait with
      | .rxFlush _ n => { fields := [fld 4 n] }
      | .freFlush _ n => { fields := [fld 4 n] }
      | _ => {}

/-- R213, R236, R461: D3 goes off: every sub-band stops, the front-ends are OFF, the receive ports in their reset state. -/
def receiveLost (d : Dev) : Dev :=
  let d := (pathSbs (2 ^ 64 - 1) 15).foldl (fun d (p, s) =>
    let x := (d.rxPath p).sb s
    let y := (d.txPath p).sb s
    let d := if x.on && !x.flushing then rxStop d p s else d
    if y.on && !y.flushing then txStop d p s else d) d
  let d := calLost { d with
    dpd := { d.dpd with obs := List.replicate 4 {} }
    fe := d.fe.map fun f => { ({} : Fe) with txProtSeen := f.txProtSeen }
    rx := d.rx.map fun x => { ({} : RxPath) with meters := x.meters, sbs := x.sbs, flushed := x.flushed } }
  complete d (fun r => match r.wait with
      | .portCheck _ _ _ => true
      | _ => false) fun _ => { status := ST.domainOff }

/-- R595: a domain is cut: its blocks lose their state, under the stopping rules of their chapters. -/
def cutBlocks (d : Dev) (dom : Nat) : Dev :=
  match dom with
  | 2 =>
    let d := { d with syn := {}, bcn := { d.bcn with txUntil := none, listenOpen := false, lock := none, held := none } }
    complete d (fun r => match r.wait with
        | .synLock => true
        | .synCal _ => true
        | _ => false) fun _ => { status := ST.domainOff }
  | 3 => receiveLost d
  | 4 =>
    let d := (List.range 64).foldl countMuted d
    { d with
      tx := d.tx.map fun x => { ({} : TxPath) with
        compTable := x.compTable, sbs := x.sbs, openSince := x.openSince, windowCounted := x.windowCounted }
      gov := { d.gov with hardSeen := [false, false, false], softSeen := [false, false, false] } }
  | 5 => (List.range 64).foldl (fun d p => feFromTx (countMuted d p) p) d
  | 6 => coresLost (calLost (dpdLost (signalLost (storeLost (storeLost d 1) 4))))
  | 7 =>
    let d := storeLost (regionFrees (xceHalt d true)) 2
    let d := stopDone (if d.xce.on then d.onXce fun x => { x with on := false, stopping := some 0 } else d)
    let x := d.xce
    { d with xce := { ({} : Xce) with
        acc := x.acc, integs := x.integs, nextInteg := x.nextInteg, buffer := x.buffer, lastInputs := x.lastInputs, inputCounts := x.inputCounts } }
  | 8 =>
    let d := weaveLeave d
    let d := (List.range 32).foldl (fun d n => if (nth d.lanes n).st = 5 then leaveUp d n 0 3 false else d) d
    { d with lanes := List.replicate 32 {}, quads := List.replicate 8 false }
  | 9 =>
    let d := storeLost (integsLost (regionFrees (xceHalt d false))) 3
    { d with
      mem := { ({} : Memory) with cells := d.mem.cells, stores := upd d.mem.stores 3 fun _ => { period := 3600 } }
      lnk := { d.lnk with bulk := d.lnk.bulk.filter fun o => !o.inDram }
      gov := { d.gov with log := [] } }
  | _ => d

/-- R516: the domain of a master. -/
def masterDomain (m : Nat) : Nat := nth [1, 1, 6, 6, 6, 6, 6, 6, 6, 6, 1, 8, 7, 6, 1] m

/-- R534: with its domain cut, the drain of its masters is over. -/
def mastersCut (d : Dev) (dom : Nat) : Dev :=
  { d with fab := { d.fab with
      closing := d.fab.closing.filter fun c => c.1 != dom
      masters := d.fab.masters.zipIdx.map fun (m, k) => if masterDomain k = dom then { m with draining := false } else m } }

/-- R594 step 3: the power controller cuts a domain. -/
def cutDomain (d : Dev) (dom : Nat) : Dev :=
  if domOn d dom then
    let d := setDomain (cutBlocks d dom) dom false
    mastersCut (d.onPwr fun p => { p with borrowed := p.borrowed.filter (· != dom) }) dom
  else d

/-! ### Restarts -/

/-- R607, R646, R655: D1 to D9 lose everything; D0 keeps NVM and fuses, the shutdown record, its counters and sticky bits,
the housekeeping channels and the settings of its bias DACs. A cold restart (`cold`) starts D0's settings afresh too. -/
def Dev.restart (d : Dev) (cold : Bool) : Dev :=
  let d := nvmStop d
  let p := d.pwr
  let chans := p.chans.map fun c => { c with sum := 0, count := 0, lo := 0, hi := 0, hotRun := 0, below105 := none }
  let base : Pwr := if cold then { ({} : Pwr) with chans := chans } else
    { p with
        state := 1, target := 1, steps := [], transEnd := 0, borrowed := []
        domains := [true, false, false, false, false, false, false, false, false, false]
        plan := { unit := p.unitLevel, paths := p.pathLevels }, plans := [] }
  { ident := d.ident, free := d.free, nvm := d.nvm
    tmb := { cyc := d.tmb.cyc }
    gov := { sets := d.gov.sets, journal := d.gov.journal, entries := d.gov.entries }
    tx := d.tx.map fun x => { compTable := x.compTable }
    mem := { cells := d.mem.cells.filter fun c => decide (nvmBase ≤ c.1) && decide (c.1 < nvmBase + nvmSize) }
    pwr := { base with
      record := p.record, counts := p.counts, failSeen := p.failSeen, ovSeen := p.ovSeen, uvSeen := p.uvSeen, ppsFight := p.ppsFight
      powered := p.powered, down := p.down, failed := p.failed, failAt := p.failAt, due := p.due, brokenSeen := p.brokenSeen
      dacs := if cold then dacsReset.zipIdx.map fun (x, n) => { x with code := nth d.nvm.safe n, safe := nth d.nvm.safe n }
        else p.dacs.map fun x => { x with code := x.safe, queue := [] } } }

/-- R644 step 2, R646: the boot begins: D1 is switched on. -/
def beginBoot (d : Dev) (cause : Nat) : Dev :=
  { d with
    ctl := { d.ctl with phase := .rom, cause := cause }
    pwr := { d.pwr with steps := [(1, true)], target := 2, down := false } }

/-- R600, R607, R590: thermal shutdown and power fail: every DAC at its safe code at once, D3 to D9 and then D1 and D2 cut,
the record kept in D0. -/
def shutdown (d : Dev) (cause channel : Nat) (reading : Int) : Dev :=
  let r : ShutRec := { cause := cause, channel := channel, reading := reading, axis := d.axis }
  let d := (List.range 136).foldl (fun d n => d.onDac n fun x => { x with code := x.safe, queue := [], safeSeen := true }) d
  let d := (d.pwrCount 5 136).restart false
  { d with
    ctl := { d.ctl with phase := .held }
    pwr := { d.pwr with down := true, due := true, record := r } }

/-- R32 OFF: the input is lost: no domain is on, and nothing but NVM and fuses remains. -/
def unpowered (d : Dev) : Dev :=
  let r := d.restart true
  { r with
    ctl := { r.ctl with phase := .held }
    pwr := { ({} : Pwr) with state := 0, target := 0, domains := List.replicate 10 false, dacs := d.pwr.dacs, failed := d.pwr.failed, failAt := d.pwr.failAt } }

/-- R590: after a power fail the bulk capacitance holds D0 for 20 ms; when it fails later, while the input stays out of range, is a free
value (log entry 117). -/
def supplyTick (d : Dev) : Dev :=
  if d.pwr.failed && domOn d 0 && decide (d.pwr.failAt + tickHz / 50 ≤ d.now) then
    let (x, d) := d.fresh 1
    if x = 0 then d else unpowered d
  else d

end Sys2Proof.Machine
end

