-- ==== Sys2Proof/Machine/Stakes.lean ====
section
/-! DEFINITION. The stake queue and the launch buffers (R61 to R78): what each action names, its delay d and its trigger
(R62, R63), the checks and the commit of a submission (R64 to R67, R680), prefetch (R69), the deferral limit (R71),
cancelling (R72), BANK-SWAP (R498), the freeing of banks (R75), timed launches (R76 to R78), and MEM-FREQ-SET (R512). -/

namespace Sys2Proof.Machine

/-! ### What a stake names -/

/-- The instances of a BANK-SWAP class (R498); none for a class the table does not give. -/
def bankInstances (cls : Nat) : Nat := nth [0, 256, 256, 8, 8, 64, 4, 1, 1] cls

/-- The action a BANK-SWAP class stands for, and that action's target (R498). -/
def bankAction (cls inst : Nat) : Nat × Nat :=
  match cls with
  | 1 => (0x0303, inst % 4 * 64 + inst / 4)
  | 2 => (0x0403, inst % 4 * 64 + inst / 4)
  | 3 => (0x0502, inst / 4 * 256 + inst % 4 * 64)
  | 4 => (0x0501, inst / 4 * 256 + inst % 4 * 64)
  | 5 => (0x0901, inst)
  | 6 => (0x0601, inst * 64)
  | 7 => (0x0701, 0)
  | _ => (0x0802, 0)

end Sys2Proof.Machine

namespace Sys2Proof

open Machine

/-- R498: a stake as the equivalent action reads it. -/
def Stake.equiv (k : Stake) : Stake :=
  if k.action = 0x0110 then
    let (a, t) := bankAction (k.target / 4096) (k.target % 4096)
    { k with action := a, target := t, argument := 0 }
  else k

/-- R680: whether a chapter defines the action, and for BANK-SWAP the class. -/
def Stake.known (k : Stake) : Bool :=
  if k.action = 0x0110 then decide (0 < bankInstances (k.target / 4096))
  else [0x0100, 0x0301, 0x0302, 0x0303, 0x0304, 0x0305, 0x0306, 0x0401, 0x0402, 0x0403, 0x0404, 0x0405, 0x0501, 0x0502, 0x0601,
    0x0701, 0x0702, 0x0801, 0x0802, 0x0901, 0x0A01, 0x0B01, 0x0B20, 0x0B21, 0x0B22, 0x0C01, 0x0E01, 0x0E02, 0x0F01, 0x0F02,
    0x0F03].contains k.action

end Sys2Proof

namespace Sys2Proof.Machine

/-- The bias DACs of a bank, 0 BD, 1 BL, 2 BM (R598), and those a bias stake names. -/
def dacsOf (bank : Nat) : List Nat := (List.range (if bank = 2 then 8 else 64)).map (bank * 64 + ·)
def biasDacs (target : Nat) : List Nat :=
  if target.testBit 8 then dacsOf (target / 64 % 4) else [target / 64 % 4 * 64 + target % 64]

/-- R680: whether a target names a block of its action; bits a layout reserves are zero. -/
def targetOk (k : Stake) : Bool :=
  let t := k.target
  match k.action with
  | 0x0100 => true
  | 0x0110 => decide (t % 4096 < bankInstances (t / 4096))
  | 0x0901 => t / 64 % 512 == 0
  | 0x0601 => t % 64 == 0 && decide (t < 256)
  | 0x0501 => t % 64 == 0 && decide (t < 512)
  | 0x0502 => t % 64 == 0 && decide (t < 512)
  | 0x0E01 => decide (4 ≤ t) && decide (t < 8)
  | 0x0E02 => decide (4 ≤ t) && decide (t < 8)
  | 0x0F01 => decide (t < 512) && decide (t / 64 % 4 < 3) && (t.testBit 8 || t / 64 % 4 != 2 || decide (t % 64 < 8))
  | 0x0F02 => decide (t < 512) && decide (t / 64 % 4 < 3) && (t.testBit 8 || t / 64 % 4 != 2 || decide (t % 64 < 8))
  | a => if a / 256 = 3 ∨ a / 256 = 4 then t / 256 % 64 == 0 else t == 0

/-- Whether an action's argument lies in its range. -/
def argumentOk (k : Stake) : Bool :=
  let a := k.argument
  match k.action with
  | 0x0305 => decide (a % 256 ≤ 31)
  | 0x0501 => decide (a % 128 ≤ 64)
  | 0x0B01 => decide (a % 256 < 8)
  | 0x0B20 => a % 2 ^ 31 == 0
  | 0x0F01 => decide (bitsOf a 17 16 < 3) && (bitsOf a 17 16 != 1 || k.target / 64 % 4 == 0)
  | _ => true

/-- R601: whether a BIAS-STEP holds a BD code whose voltage lies above the gate floor. -/
def aboveFloor (d : Dev) (k : Stake) : Bool :=
  k.action == 0x0F01 && bitsOf k.argument 17 16 == 0 &&
    (biasDacs k.target).any fun n => decide (n < 64) && decide (k.argument % 65536 < (nth d.pwr.dacs n).floor)

/-- The blocks a stake counts against under R67, as class and instance: the classes of R498, and 9 receive front-ends, 10
calibration, 11 synthesis, 12 beacons, 13 memory, 14 signal cores, 15 bias DACs, 16 housekeeping. MARK names none. -/
def stakeBlocks (k : Stake) : List (Nat × Nat) :=
  let k := k.equiv
  let t := k.target
  match k.action with
  | 0x0305 => (namedPaths t).map fun p => (9, p)
  | 0x0501 => [(4, t / 256 * 4 + t / 64 % 4)]
  | 0x0502 => [(3, t / 256 * 4 + t / 64 % 4)]
  | 0x0601 => [(6, t / 64)]
  | 0x0901 => (namedPaths t).map fun p => (5, p)
  | 0x0F01 => (biasDacs t).map fun n => (15, n)
  | 0x0F02 => (biasDacs t).map fun n => (15, n)
  | 0x0F03 => [(16, 0)]
  | a =>
    match a / 256 with
    | 3 => (named t).map fun (p, s) => (1, p * 4 + s)
    | 4 => (named t).map fun (p, s) => (2, p * 4 + s)
    | 7 => [(7, 0)]
    | 8 => [(8, 0)]
    | 0x0A => [(10, 0)]
    | 0x0B => [(if a = 0x0B01 then 11 else 12, 0)]
    | 0x0C => [(13, 0)]
    | 0x0E => [(14, t)]
    | _ => []

/-! ### Delays and triggers -/

/-- R62: whether an action takes effect by sample stamp. -/
def byStamp (k : Stake) : Bool :=
  match k.action with
  | 0x0305 => false
  | 0x0501 => decide (k.target < 256)
  | 0x0502 => decide (k.target < 256)
  | 0x0B21 => true
  | 0x0B22 => true
  | a => [3, 6, 7, 8].contains (a / 256)

/-- R62: the delay d of an action that acts at the antenna or at a bias DAC: 126 ticks for predistortion and 79 for a hop
are the sums of the bounds of R226 after the block. -/
def stakeDelay (d : Dev) (k : Stake) : Nat :=
  match k.action with
  | 0x0305 => Config.attenDelay
  | 0x0501 => if k.target < 256 then 0 else txStakeDelay d (0x8000 + k.target % 256)
  | 0x0502 => if k.target < 256 then 0 else txStakeDelay d (0x8000 + k.target % 256)
  | 0x0901 => 126
  | 0x0B01 => 79
  | 0x0B20 => bcnDelay
  | 0x0F01 => if k.target / 64 % 4 = 2 then 512 else 1024
  | 0x0F02 => if k.target / 64 % 4 = 2 then 512 else 1024
  | a => if a / 256 = 4 then txStakeDelay d k.target else 0

/-- R62, R475, R598: the trigger of a stake at a position: P - d, P for an action by stamp or without a reference point, P' - d
for a beacon, and the last queue step at or before P - d for a bias DAC. -/
def stakeTrigger (d : Dev) (stake : Stake) (pos : Nat) : Nat :=
  let k := stake.equiv
  let p := if k.action = 0x0B20 then pos + bcnSpread d k.argument else pos
  let t := p - stakeDelay d k
  if k.action = 0x0F01 ∨ k.action = 0x0F02 then t / 512 * 512 else t

/-- The trigger a stake has been prefetched with, or would have now. -/
def QStake.trigger (d : Dev) (q : QStake) : Nat := q.trig.getD (stakeTrigger d q.stake q.pos)

/-- The first trigger of a queued stake at or after `lo`. -/
def QStake.trigFrom (d : Dev) (q : QStake) (lo : Nat) : Option Nat :=
  let k := q.stake.equiv
  let from_ := if k.action = 0x0F01 ∨ k.action = 0x0F02 then ceilDiv lo 512 * 512 else lo
  let sp := if k.action = 0x0B20 then bcnSpread d k.argument else 0
  (q.nextAt (from_ + stakeDelay d k - sp)).map (stakeTrigger d q.stake)

/-- A position after which the triggers of some stakes only repeat what came before it: the last of those that end, and one
common period of those that do not. -/
def repeatHorizon (d : Dev) (l : List QStake) : Nat :=
  let ends := l.map fun x => x.pos + x.times.getD 1 * x.stake.repeatPeriod
  let period := (l.filter fun x => x.times.isNone).foldl (fun m x => Nat.lcm m x.stake.repeatPeriod) 512
  ends.foldl max 0 + period + (l.map fun x => stakeDelay d x.stake.equiv + bcnSpread d x.stake.argument).sum + prefetchLead

/-! ### Submission -/

/-- The free entries of the queue (R66). -/
def stakesFree (d : Dev) : Nat := 4096 - (queued d).length

/-- R678, class 0x02xx: what is wrong with an entry's values. -/
def stakeBad (d : Dev) (stake : Stake) : Option Nat :=
  let k := stake.equiv
  (firstBad [
    (stake.flags % 32 != 0, ST.badArg), (!stake.known, ST.badAction),
    (stake.deferrable && stake.action != 0x0405 && stake.action != 0x0B20, ST.badAction),
    (!targetOk stake || !argumentOk k, ST.badArg),
    (stake.repeats && decide (stake.repeatPeriod < minLead), ST.badPosition),
    (aboveFloor d k, ST.pwrArg)]).map (·.status)

/-- R285: whether a TOP-SWAP lies within its crossfade of another queued for its slot. -/
def topOverlap (d : Dev) (prior : List QStake) (n : QStake) : Bool :=
  let k := n.stake.equiv
  let span := k.argument % 128
  (prior.filter fun q => q.stake.equiv.action == 0x0501 && q.stake.equiv.target == k.target).any fun q =>
    (n.upto (repeatHorizon d [q, n])).any fun y => (q.nextAt (y - span)).any fun x => decide (x ≤ y + span)

/-- R455: whether the standby is, or by the hop before will be, at a hop's profile. -/
def hopOk (d : Dev) (prior : List QStake) (k : Stake) : Bool :=
  let p := k.argument % 256
  ((d.syn.sbState == 2 || d.syn.sbState == 3) && d.syn.sbProfile == p) ||
    (p == d.syn.profile && prior.any fun q => q.stake.action == 0x0B01 && decide (q.pos < k.position))

/-- R652: whether an entry would change what quickset holds. -/
def touchesQuickset (stake : Stake) : Bool :=
  let k := stake.equiv
  stake.tag / 65536 == 0x5153 ||
    (match k.action with
      | 0x0305 => false
      | 0x0501 => k.target == 0
      | 0x0502 => k.target == 0
      | a => if a / 256 = 3 then k.target.testBit 14 || k.target / 64 % 4 == 0 else a / 256 == 7 || a / 256 == 8)

/-- R678, class 0x03xx: what the state holds against an entry, `prior` being the stakes before it. -/
def stakeRefused (d : Dev) (own : Bool) (prior : List QStake) (q : QStake) : Option Nat :=
  let k := q.stake.equiv
  let slot := nth d.fre (k.target / 256 * 4 + k.target / 64 % 4)
  (firstBad [
    (!own && qsHeld d && touchesQuickset q.stake, ST.quickset),
    (k.action == 0x0501 && !slot.top.cur.loaded && !slot.top.shd.loaded, ST.topEmpty),
    (k.action == 0x0501 && topOverlap d prior q, ST.topOverlap),
    (k.action == 0x0701 && !weaveSwapOk d, ST.weaveState),
    (k.action == 0x0B01 && !hopOk d prior k, ST.synStandby),
    (k.action == 0x0F02 && (biasDacs k.target).any (fun n => (nth d.pwr.dacs n).ramp.isEmpty), ST.biasNoRamp),
    (decide (stakeTrigger d q.stake q.pos < d.axis + minLead), ST.late)]).map (·.status)

/-- R67: whether more than 8 of some stakes have triggers in 2,048 consecutive ticks that hold `t`. A stake has at most one
there, its period being 7,865 ticks or more (R61). -/
def crowded (d : Dev) (l : List QStake) (t : Nat) : Bool :=
  (t :: l.filterMap fun x => x.trigFrom d (t + 1 - prefetchLead)).any fun w =>
    decide (w ≤ t) && decide (t < w + prefetchLead)
      && decide (8 < (l.filter fun x => (x.trigFrom d w).any fun u => decide (u < w + prefetchLead)).length)

/-- R67: the first of the new stakes that takes a block beyond its limit at one of its triggers. -/
def firstDense (d : Dev) (old new : List QStake) : Option Nat :=
  new.zipIdx.findSome? fun (q, i) =>
    let all := old ++ new.take (i + 1)
    if (stakeBlocks q.stake).any fun b =>
        let l := all.filter fun x => (stakeBlocks x.stake).contains b
        decide (8 < l.length) && (q.upto (repeatHorizon d l)).any fun p => crowded d l (stakeTrigger d q.stake p)
    then some i else none

/-- The entries of a submission as the queue would hold them. -/
def asQueued (d : Dev) (l : List Stake) : List QStake :=
  l.zipIdx.map fun (k, i) => { stake := k, order := d.tmb.nextOrder + i, pos := k.position, left := if k.repeats then k.repeatCount else 0 }

/-- R66: the earliest trigger in the queue. -/
def earliest (d : Dev) : Nat := (((queued d).map (·.trigger d)).min?).getD d.axis

/-- The refusal of a submission, which names an entry. -/
def nameEntry (e : Option (Nat × Nat)) : Option Reply := e.map fun (st, i) => { status := st, fields := [fld 2 0, fld 2 i] }

/-- R64, R67, R678, R680, class 0x02xx: the checks of a submission's values. The refusal names the first entry that fails the check
whose status it carries. -/
def submitArgs (d : Dev) (l : List Stake) : Option Reply :=
  Checks.orElse (nameEntry (l.zipIdx.findSome? fun (k, i) => (stakeBad d k).map fun st => (st, i)))
    (nameEntry ((firstDense d (queued d) (asQueued d l)).map fun i => (ST.stakeDense, i)))

/-- R64 to R66, R678, classes 0x03xx and 0x04xx: what the state and the queue hold against a submission, `own` being the unit's. -/
def submitState (d : Dev) (own : Bool) (l : List Stake) : Option Reply :=
  let qs := asQueued d l
  Checks.orElse (nameEntry (qs.zipIdx.findSome? fun (q, i) => (stakeRefused d own (queued d ++ qs.take i) q).map fun st => (st, i)))
    (if stakesFree d < l.length then
      some { status := ST.stakeFull, retry := ticksUs (earliest d - d.axis), hint := earliest d, fields := [fld 2 (stakesFree d), fld 2 (stakesFree d)] }
    else none)

/-- R64 to R67, R678, R680: the checks of a submission. -/
def submitCheck (d : Dev) (own : Bool) (l : List Stake) : Option Reply := Checks.orElse (submitArgs d l) (submitState d own l)

/-- The entries commit; a calibration step they overtake is given up (R427). -/
def commitStakes (d : Dev) (l : List Stake) : Dev :=
  calRecheck (d.onTmb fun t => { t with stakes := t.stakes ++ asQueued d l, nextOrder := t.nextOrder + l.length })

/-- STAKE-SUBMIT (R64 to R67, R680). -/
def execStakeSubmit (h : Hdr) (entries : List Stake) : Meaning :=
  hostCmd (cmd 0x0120 [2, 2]) h (.stakeSubmit h entries)
    (fun d => Checks.orElse (firstBad [(entries.isEmpty || decide (64 < entries.length), ST.badArg)]) (submitCheck d false entries))
    (fun d => let d := commitStakes d entries; { dev := d, reply := { fields := [fld 2 (stakesFree d), fld 2 0xFFFF] } })

/-- R72: whether a stake's trigger lies less than the prefetch distance ahead, so that it has been prefetched. -/
def QStake.taken (d : Dev) (q : QStake) : Bool := decide (q.trigger d < d.axis + prefetchLead)

/-- STAKE-CANCEL (R72): entries within the prefetch distance stay for the repetition at hand and lose the later ones. -/
def execStakeCancel (h : Hdr) (tag mask : Nat) : Meaning :=
  let hit (q : QStake) : Bool := Nat.land q.stake.tag mask == Nat.land tag mask
  hostCmd (cmd 0x0121 [2, 2]) h (.stakeCancel h tag mask)
    (fun d => firstBad [(qsHeld d && (queued d).any (fun q => hit q && q.stake.tag / 65536 == 0x5153), ST.quickset)])
    (fun d =>
      let all := (queued d).filter hit
      let stay (q : QStake) : Bool := q.taken d || d.tmb.heldStakes.any fun x => x.order == q.order
      let gone := (all.filter fun q => !stay q).length
      let once (k : Stake) : Stake := { k with flags := if k.repeats then k.flags - 64 else k.flags }
      { dev := d.onTmb fun t =>
          { t with
            stakes := t.stakes.filterMap fun q => if !hit q then some q else if q.taken d then some { q with stake := once q.stake } else none },
        reply := { fields := [fld 2 gone, fld 2 (all.length - gone)] } })

/-- Queue entries in trigger order, equal triggers in commit order. -/
def stakesInOrder (d : Dev) (l : List QStake) : List QStake :=
  let before (a b : QStake) : Bool := decide (a.trigger d < b.trigger d) || (a.trigger d == b.trigger d && decide (a.order ≤ b.order))
  let rec ins (q : QStake) : List QStake → List QStake
    | [] => [q]
    | x :: r => if before q x then q :: x :: r else x :: ins q r
  l.foldr ins []

/-- A queue entry as R61 lays it out, at the position of its next repetition. -/
def stakeFields (q : QStake) : List Field :=
  let k := q.stake
  [fld 8 q.pos, fld 2 k.action, fld 2 k.target, fld 1 k.flags, fld 1 k.deferLimit, fld 2 (if k.repeatCount = 0 then 0 else q.left), fld 4 k.repeatPeriod,
    fld 4 k.tag, fld 8 k.argument]

/-- STAKE-LIST (R79). -/
def execStakeList (h : Hdr) (first count : Nat) : Meaning :=
  query (ask 0x0122) h (.stakeList h first count) (fun _ => firstBad [(count == 0 || decide (64 < count), ST.badArg)]) fun d =>
    (((stakesInOrder d (queued d)).drop first).take count).flatMap stakeFields

/-- The settings in force that the delay of an action by stamp depends on: those of the sub-bands or of the slot it names. -/
def stampSettings (d : Dev) (k : Stake) : List Nat :=
  match k.action / 256 with
  | 3 => (named k.target).flatMap fun (p, s) =>
      let c := ((d.rxPath p).sb s).banks.cur.cfg.chain
      [c.profile, c.aSections, c.aFactor, c.bFactor, c.bTaps, c.bDelay, c.windowMode, c.cRatio] ++ c.aLength
  | 5 =>
    let c := (nth d.fre (k.target / 64 % 4)).cfg
    [c.mode, c.log2, c.taps, c.oversample, c.window, c.mu, c.cpType]
  | _ => []

/-- AXIS-DELAYS (R62): for an action by stamp the manual gives no number, and the answer is a free constant of the action, its
target and the settings in force. -/
def execAxisDelays (h : Hdr) (action target : Nat) : Meaning :=
  let k : Stake := { (default : Stake) with action := action, target := target }
  query (ask 0x0112 [4]) h (.axisDelays h action target)
    (fun _ => firstBad [(!k.known, ST.badAction), (!targetOk k, ST.badArg)])
    (fun d => [fld 4 (if byStamp k.equiv then Config.stampDelay action target (stampSettings d k.equiv) else stakeDelay d k.equiv)])

/-! ### Prefetch, marks, deferral -/

/-- R231: with `gate_mode` 1 the gates of what a prefetched stake will radiate go to their on codes. -/
def gatesAhead (d : Dev) (q : QStake) : Dev :=
  match q.stake.action with
  | 0x0401 => (txLivePaths d q).foldl (fun d p => gateOnAt d p q.pos) d
  | 0x0405 => (txLivePaths d q).foldl (fun d p => gateOnAt d p q.pos) d
  | 0x0B20 => gateOnAt d d.bcn.cfg.txPath (q.pos + bcnSpread d q.stake.argument)
  | _ => d

/-- STAKE_PREFETCH (R67, R69): the first stake within the prefetch distance takes its trigger, with the delay d in force. -/
def execStakePrefetch : Meaning := onDev fun d =>
  match stakesInOrder d (d.tmb.stakes.filter fun q => q.trig.isNone && decide (q.trigger d < d.axis + prefetchLead)) with
  | [] => d
  | q :: _ =>
    let t := q.trigger d
    gatesAhead (d.onTmb fun b =>
      { b with stakes := b.stakes.map fun x => if x.order == q.order then { x with trig := some t, late := decide (t < d.axis) } else x }) q

/-- STAKE_DEFER_EXPIRY (R71): the first held stake past its limit is dropped; a beacon dropped is counted (R476). -/
def execStakeDeferExpiry : Meaning := onDev fun d =>
  match d.tmb.heldStakes.find? (fun q => decide (q.limit < d.axis)) with
  | none => d
  | some q =>
    let d := raiseDropped (d.onTmb fun t => { t with heldStakes := t.heldStakes.filter fun x => !(x.order == q.order && x.pos == q.pos) }) q
    if q.stake.action = 0x0B20 then bcnCount d 2 else d

/-- MARK (R61). -/
def execMark : Meaning :=
  onDev (stakeAct 0x0100 (fun _ _ => true) lateDrop fun d q => raiseEv d EV.stakeMark [a4 q.stake.tag, a8 q.pos])

/-! ### Banks -/

/-- R498: whether the equivalent action of a BANK-SWAP can act, and the swap. -/
def bankAble (d : Dev) (q : QStake) : Bool :=
  match q.stake.action with
  | 0x0303 => rxAble d q
  | 0x0403 => txAble d q
  | 0x0502 => freAble d q
  | 0x0501 => freAble d q
  | 0x0901 => domOn d 6
  | 0x0601 => chainAble d q
  | 0x0701 => weaveSwapOk d && domOn d 8
  | _ => d.xce.on
def bankSwap (d : Dev) (q : QStake) : Dev :=
  match q.stake.action with
  | 0x0303 => rxEach (rxSwapOne q) d q
  | 0x0403 => txSwaps d q
  | 0x0502 => freSwap d q
  | 0x0501 => topSwap 0 d q
  | 0x0901 => (namedPaths q.stake.target).foldl (dpdSwapOne q.pos q.stake.tag) d
  | 0x0601 => chainSwap d q
  | 0x0701 => weaveSwap d q
  | _ => xceSwap d q

/-- A queue entry as its equivalent action reads it (R498). -/
def QStake.equiv (q : QStake) : QStake := { q with stake := q.stake.equiv }

/-- BANK_SWAP (R498). -/
def execBankSwap : Meaning := onDev (stakeAct 0x0110 (fun d q => bankAble d q.equiv) lateDrop fun d q => bankSwap d q.equiv)

/-- R75: EV_BANK_FREE for a bank that has freed. -/
def freed (d : Dev) (now : Bool) (f : Dev → Dev) : Dev := if now then raiseEv (f d) EV.bankFree [] else d

/-- BANK_FREE (R75): the former bank of a block of R498 has freed. -/
def execBankFree (cls inst : Nat) : Meaning := onDev fun d =>
  if bankInstances cls ≤ inst then d
  else
    let a := d.axis
    match cls with
    | 1 => freed d (((d.rxPath (inst / 4)).sb (inst % 4)).banks.freed a) (·.onRxSb (inst / 4) (inst % 4) fun x => { x with banks := { x.banks with freeAt := none } })
    | 2 => freed d (((d.txPath (inst / 4)).sb (inst % 4)).banks.freed a) (·.onTxSb (inst / 4) (inst % 4) fun x => { x with banks := { x.banks with freeAt := none } })
    | 3 => freed d ((nth d.fre inst).banks.freed a) (·.onFre inst fun x => { x with banks := { x.banks with freeAt := none } })
    | 4 => freed d ((nth d.fre inst).top.freed a) (·.onFre inst fun x => { x with top := { x.top with freeAt := none } })
    | 5 => freed d ((d.dpdPath inst).banks.freed a) (·.onDpdPath inst fun x => { x with banks := { x.banks with freeAt := none } })
    | 6 => freed d ((nth d.chains inst).banks.freed a) (·.onChain inst fun x => { x with banks := { x.banks with freeAt := none } })
    | 7 => freed d (d.weave.banks.freed a) (·.onWeave fun x => { x with banks := { x.banks with freeAt := none } })
    | _ => freed d (d.xce.banks.freed a) (·.onXce fun x => { x with banks := { x.banks with freeAt := none } })

/-! ### Launches -/

/-- LAUNCH-QUEUE (R62, R64, R76). -/
def execLaunchQueue (h : Hdr) (lane position : Nat) (frame : List Nat) : Meaning :=
  hostCmd (cmd 0x0130 [1]) h (.launchQueue h lane position frame)
    (fun d =>
      Checks.orElse (firstBad [(decide (31 < lane) || frame.isEmpty || decide (9216 < frame.length), ST.badArg),
        (decide (position < d.axis + launchDelay d lane + minLead), ST.late)])
        (match freeBuffer d.tmb.launches with
          | some _ => none
          | none =>
            let p := ((d.tmb.launches.map (·.pos)).min?).getD d.axis
            some { status := ST.launchFull, retry := ticksUs (p - d.axis), hint := p }))
    (fun d =>
      let b := (freeBuffer d.tmb.launches).getD 0
      { dev := d.onTmb fun t => { t with launches := t.launches ++ [⟨b, lane, position, .frame frame⟩] }, reply := { fields := [fld 1 b] } })

/-- LAUNCH-CANCEL (R78). -/
def execLaunchCancel (h : Hdr) (buffer : Nat) : Meaning :=
  hostCmd (cmd 0x0131 [1]) h (.launchCancel h buffer) noCheck
    (fun d =>
      if d.tmb.launches.any (·.buffer == buffer) then
        { dev := giveBuffer (d.onTmb fun t => { t with launches := t.launches.filter fun l => l.buffer != buffer }) buffer, reply := { fields := [fld 1 1] } }
      else { dev := d, reply := { fields := [fld 1 0] } })

/-! ### The memory's set-point -/

/-- MEM-FREQ-SET (R512): a MEM-FREQ stake of tag 0 is submitted under the rules of every stake. -/
def execMemFreqSet (h : Hdr) (setpoint position : Nat) : Meaning :=
  let k : Stake := { (default : Stake) with position := position, action := 0x0C01, argument := setpoint }
  hostCmd (cmd 0x0C08) h (.memFreqSet h setpoint position)
    (fun d => (Checks.orElse (firstBad [(decide (1 < setpoint), ST.memArg)])
      (Checks.orElse (submitArgs d [k])
        (Checks.orElse (firstBad [(!domOn d 9, ST.domainOff), (anyPortOn d, ST.memPortsOn)]) (submitState d false [k])))).map fun r => { r with fields := [] })
    (just fun d => commitStakes d [k])

end Sys2Proof.Machine
end

