-- ==== Sys2Proof/Machine/Quickset.lean ====
section
/-! DEFINITION. Chapter 19: what quickset sets up (R647 to R649), how it begins once its DRAM is ready (R644), and how it stops
(R653). -/

namespace Sys2Proof.Machine

/-! ### The configuration of R648 -/

/-- The receive configuration of sub-band S0, per variant: standard 192 taps, stage C bypassed, continuous window, towards the
frequency engine. -/
def qsRx (v : Variant) : RxCfg :=
  let base : ChainPar := { bFactor := 4, bShift := 17, bTaps := 192 }
  let wide : ChainPar := { base with aSections := 2, aLength := [4, 4, 0, 0, 0], aFactor := 4, aShift := 4 }
  let chain : ChainPar := match v with
    | .l => { base with rf := 1060000000, profile := 2, aSections := 1, aLength := [2, 0, 0, 0, 0], aFactor := 2, aShift := 1 }
    | .m => { wide with rf := 3250000000 }
    | .h => { wide with rf := 5800000000 }
    | .a => { wide with rf := 1400000000 }
  { chain := chain, consumers := 1 }

/-- The band position, the centre of path 0's DAC, the beacon's frequency and path 0's `fs_power` in 0.01 dBm (R648). -/
def qsBand (v : Variant) : Nat := if v = .m then 2 else 0
def qsDac (v : Variant) : Nat :=
  match v with
  | .l => 1700000000
  | .h => 4600000000
  | _ => 3250000000
def qsBeaconFreq (v : Variant) : Nat :=
  match v with
  | .l => 1360000000
  | .m => 3550000000
  | .h => 6100000000
  | .a => 1700000000
def qsPower (v : Variant) : Int := if v = .a then -400 else 2000

/-- Receive slot S0 (R648); `rq` is `rq_shift_4`. -/
def qsFre (rq : Nat) : FreCfg :=
  { mode := 1, log2 := 8, taps := 8, pfbShift := 17, fftShift := 0x00F0, eqGroup := 16, nCh := 256, rq4 := rq, consumers := 2 }

/-- The beacon (R649, R478). -/
def qsBcn (v : Variant) : BcnCfg :=
  { freq := qsBeaconFreq v, tailLen := 0, rxFlags := 128, rxFreq := qsBeaconFreq v, dest := 15 }

/-- The coppice of one unit and the correlator (R649). The deadline and the epoch are not given. -/
def qsBank (d : Dev) (deadline epoch : Nat) : WeaveBank :=
  let b : WeaveBank := {
    hdr := { id := 65535, epoch := epoch, format := 4, maxGroups := 4, n1 := 1, n2 := 1, n3 := 1, members := 1, deadline := deadline }
    members := { unit := d.nvm.unitNumber, flags := 0xC0, count := 256 } :: List.replicate 255 {}
    complete := true }
  { b with region := weaveRegion b }
def qsXce : XceCfg := { tiles := 2, dest := 15, reportLane := 0xFF }

/-- Destination entry 15 (R649). -/
def qsDest : Dest := { eth := 0x03005A000080, set := true }

/-! ### What a failed store leaves out (R647) -/

/-- Whether the frequency engine, and the correlator, can run. -/
def qsEngine (d : Dev) : Bool := !storeFailed d 1 && !storeFailed d 4
def qsCorrelates (d : Dev) : Bool := qsEngine d && !storeFailed d 2 && !storeFailed d 3

/-! ### Starting -/

/-- R644: quickset runs from the first whole second once its DRAM, regions 1 to 41, is initialised. -/
def qsRun (d : Dev) : Dev :=
  if d.qs.state = 1 ∧ d.qs.elements ≠ 0 ∧ (!qsCorrelates d || !(d.mem.initing.any fun k => decide (k ≤ 41))) = true then
    calRecheck (qsPlace { d with qs := { d.qs with state := 2 } })
  else d

/-- R415, R434, R644: the calibration runs ADC-TRIM and RX-ALIGN are queued, each unless it is pending. -/
def qsCalibrate (d : Dev) : Dev :=
  [1, 3].foldl (fun d k =>
    if d.cal.runs.any fun r => r.kind == k then d else d.onCal fun c => { c with runs := c.runs ++ [{ kind := k, since := d.now, asked := d.now }] }) d

/-- R648, R649: the receive paths, the slot, the coppice, the correlator, the beacon, the time sources and the destination take
quickset's settings. -/
def startQuickset (d : Dev) : Dev :=
  let v := d.ident.variant
  let (rq, d) := d.fresh 1
  let (dl, d) := d.fresh 3
  let (ep, d) := d.fresh 2
  let d := qsCalibrate d
  let d := { d with syn := { d.syn with profile := (qsRx v).chain.profile } }
  let d := (List.range 64).foldl (fun d p =>
    let d := d.onRx p fun x => { x with band := qsBand v, atten := 0, overMode := 0, bias := 0 }
    let d := d.onRxSb p 0 fun s => { s with
      on := true, banks := .both { cfg := qsRx v }, win := false, ncoRef := none, disc := false, flushing := false, txZeroed := false }
    if (nth d.fe p).st = 1 then d else rxReplace d p) d
  let d := if qsEngine d then d.onFre 0 fun f => { f with
      on := true, flushing := false, cfg := qsFre (rq % 16), banks := .both { rq4 := rq % 16 } } else d
  let d := if qsCorrelates d then
      let b := qsBank d (1 + dl % 16777215) ep
      (d.onWeave fun w => { w with on := true, banks := { cur := b, shd := {}, index := w.banks.index }, swapAt := d.axis }).onXce fun x => { x with
        on := true, banks := { Banks.both qsXce with index := x.banks.index }, shdNew := false, nextInteg := 0, integs := x.integs.filter (·.st == 1)
        forming := none, ready := [], cuts := [], stopping := none }
    else d
  let d := d.onBcn fun b => { b with cfg := qsBcn v, lock := none, held := none }
  let d := d.onTmb fun t =>
    { t with
      srvA := { t.srvA with domain := 24 }, srvB := { t.srvB with domain := 25 }
      prio := [1, 2, 0, 0], revertive := false }
  let d := d.onLnk fun l => { l with dests := upd l.dests 15 fun _ => qsDest }
  let d := qsPorts (reEnable { d with qs := { d.qs with state := 1, elements := 3, restarted := false, stopping := false, keep := 0 } })
  let d := raiseEv d EV.quickset [a4 1]
  let d := ([1, 2, 3, 4].filter (storeFailed d)).foldl (fun d n => raiseEv d EV.quicksetFault [a4 n]) d
  qsRun d

/-- R426, R648: path 0 takes its transmit settings when D4 is turned on for quickset's beacon; its gates are placed under R476. -/
def qsPath0 (d : Dev) : Dev :=
  if d.qs.state = 0 then d
  else d.onTx 0 fun x => { x with fsPower := qsPower d.ident.variant, dacCentre := qsDac d.ident.variant, gateMode := 1 }

/-- R653: what the keep mask does not keep stops under its own chapter's rules. -/
def qsExit (d : Dev) (keep : Nat) : Dev :=
  let drop (k : Stake) : Bool := k.tag / 65536 == 0x5153 && !(keep.testBit 1 && k.action == 0x0B20)
  let once (k : Stake) : Stake := { k with flags := k.flags - k.flags / 64 % 2 * 64 }
  let d := d.onTmb fun t =>
    { t with
      stakes := t.stakes.filterMap fun q => if !drop q.stake then some q else if q.taken d then some { q with stake := once q.stake } else none }
  let d := if keep.testBit 1 then d
    else d.onBcn fun b => { b with cfg := { b.cfg with rxFlags := b.cfg.rxFlags % 128 }, lock := none, held := none }
  let d := weaveLeave d
  let d := if d.xce.integs.any (fun i => i.st == 0) || !drained d.xce then stopDone (d.onXce fun x => { x with on := false, stopping := some 0 })
    else d.onXce fun x => { x with on := false }
  let d := if keep.testBit 0 || !(nth d.fre 0).on then d else freStop d 0
  if keep.testBit 0 then d
  else (List.range 64).foldl (fun d p => let s := (d.rxPath p).sb 0; if s.on && !s.flushing then rxStop d p 0 else d) d

/-- QUICKSET-EXIT (R653): the response follows the last stop. -/
def execQuicksetExit (h : Hdr) (keep : Nat) : Meaning :=
  hostCmd (cmd 0x0080) h (.quicksetExit h keep)
    (fun d => firstBad [(decide (3 < keep), ST.sysArg), (d.qs.state == 0 || d.qs.stopping, ST.sysState)])
    (fun d =>
      let d := qsExit d keep
      if qsStopped d then { dev := qsOff d }
      else { dev := { d with qs := { d.qs with stopping := true, keep := keep } }, wait := some .quickset })

end Sys2Proof.Machine
end

