-- ==== Sys2Proof/Machine/Governor.lean ====
section
/-! DEFINITION. Chapter 6, the energy governor (R241 to R249): its step, its classes, its logs, and the mismatch mute. -/

namespace Sys2Proof.Machine

def Dev.onGov (d : Dev) (f : Gov → Gov) : Dev := { d with gov := f d.gov }

/-- The steps of 16 ticks in a window of `w` us (R242). -/
def windowSteps (w : Nat) : Nat := w * 12288 / 100

/-- The sum over some ports of a step's energies, in fJ. -/
def stepEnergy (ports e : List Nat) : Nat := (ports.map fun p => nth e p).sum

/-- R241, R242: an energy in fJ with the margin of 0.1 dB steps. -/
def withMargin (margin e : Nat) : Nat := e * decPow (10 * margin) / 2 ^ 64

/-- R242: the energy of a ceiling within its window, in fJ. -/
def ceilEnergy (h : List (List Nat)) (i : Nat) (c : CeilPar) : Nat :=
  withMargin c.margin ((h.take (windowSteps c.w)).map (stepEnergy (ceilPorts i))).sum

/-- R244: the thresholds H, S and L of a ceiling, in fJ. -/
def CeilPar.hard (c : CeilPar) : Nat := c.c - c.r
def CeilPar.softAt (c : CeilPar) : Nat := c.soft * c.hard / 256
def CeilPar.releaseAt (c : CeilPar) : Nat := c.release * c.hard / 256

/-- R245: the gain of an attenuation in dB, 0 for a hard mute. -/
def gainOf (att : Nat) : Nat := if att = 255 then 0 else (decPow (-50 * (att : Int)) * 32768 + 2 ^ 63) / 2 ^ 64

/-- R249: a journal entry, at most one per second per group. -/
def govJournal (d : Dev) (group kind : Nat) : Dev :=
  match nth d.gov.lastJournal group with
  | some t => if d.now < t + tickHz then d else put
  | none => put
where
  put := journal (d.onGov fun g => { g with
      journal := (g.journal ++ [(⟨d.axis, group, kind⟩ : GovJournal)]).drop (g.journal.length + 1 - 4096), entries := g.entries + 1
      lastJournal := upd g.lastJournal group fun _ => some d.now })
    1 0x0006 (0x100 + d.gov.entries % 4096) (bytesOf [fld 8 d.axis, fld 1 group, fld 1 kind])
    (.govEntry (if d.gov.journal.length < 4096 then none else d.gov.journal.head?))

/-- The groups a ceiling's ports stand in. -/
def ceilGroups (i : Nat) : List Nat := if i = 66 then [0, 1] else if i < 64 then [i / 32] else if i < 66 then [i - 64] else [(i - 67) / 32]

/-- R245: one ceiling at one step. `old` is the step that left its window. -/
def ceilStep (new : List Nat) (d : Dev) (i : Nat) : Dev :=
  match ceilPar d.ident.variant d.gov.sets (fsPowers d) i with
  | none => d.onGov fun g => { g with ceils := upd g.ceils i fun _ => {} }
  | some c =>
    let e := ceilEnergy d.gov.history i c
    let left := withMargin c.margin (stepEnergy (ceilPorts i) (nth d.gov.history (windowSteps c.w)))
    let inn := withMargin c.margin (stepEnergy (ceilPorts i) new)
    let x := nth d.gov.ceils i
    let d := d.onGov fun g => { g with peaks := upd g.peaks i fun p => max p (e * 65536 / c.c) }
    let set (d : Dev) (y : Ceil) : Dev := d.onGov fun g => { g with ceils := upd g.ceils i fun _ => y }
    let mark (d : Dev) (hard : Bool) : Dev := d.onGov fun g =>
      if 64 ≤ i ∧ i ≤ 66 then
        (if hard then { g with hardSeen := upd g.hardSeen (i - 64) fun _ => true } else { g with softSeen := upd g.softSeen (i - 64) fun _ => true })
      else g
    if c.hard ≤ e then
      if x.att = 255 then d
      else
        let d := mark (set (d.onGov fun g => { g with hards := g.hards + 1 }) { att := 255, st := 2, last := some d.now }) true
        (ceilGroups i).foldl (fun d g => govJournal d g 1) (raiseEv d EV.govHard [a4 (ceilCode i), a4 (e / 1000000)])
    else if c.softAt ≤ e ∧ left < inn ∧ x.att < 254 then
      let d := mark (set (d.onGov fun g => { g with softs := g.softs + 1 }) { att := x.att + 1, st := 1, last := x.last }) false
      if x.st = 1 then d else raiseEv d EV.govSoft [a4 (ceilCode i), a4 (e / 1000000)]
    else if e < c.releaseAt ∧ 0 < x.att ∧ x.last.all (fun t => decide (t + c.w * 1966080 / 8000 ≤ d.now)) then
      let d := set d { att := x.att - 1, st := if x.att = 1 then 0 else 3, last := some d.now }
      if x.att = 1 then raiseEv d EV.govRelease [a4 (ceilCode i)] else d
    else d

/-- R245: the gain of each port is the smallest any of its ceilings demands; R246: adaptation stays paused for W after
it has returned to full; each pause of a path counts once (R406). -/
def setGains (d : Dev) : Dev :=
  (List.range 64).foldl (fun d p =>
    let att := ([p, 64 + p / 32, 66, 67 + p].map fun i => (nth d.gov.ceils i).att).foldl max 0
    let g := gainOf att
    let w := match ceilPar d.ident.variant d.gov.sets (fsPowers d) p with
      | some c => c.w
      | none => 1000
    let old := (d.txPath p).gain
    let d := if g = 0 ∧ old ≠ 0 then countMuted d p else d
    let d := if g < 32768 ∧ old = 32768 ∧ (d.txPath p).adaptHeld.isNone ∧ (d.dpdPath p).adapts then dpdCount d p 7 else d
    d.onTx p fun x => { x with
      gain := g, adaptHeld := if g < 32768 then none else if old < 32768 then some (d.now + ceilDiv (w * 1966080) 1000) else x.adaptHeld }) d

/-- GOVERNOR_STEP (R241, R242, R245): the energies of the last 16 ticks of the governed composites, in fJ per port without margin, enter
the windows, and every ceiling acts; `pos` is the axis position at which they end. -/
def execGovernorStep (pos : Nat) : Meaning := onDev fun d =>
  if d.axis ≠ pos ∨ d.axis % 16 ≠ 0 ∨ d.gov.stepped = some d.axis then d
  else
    let energy := (List.range 64).map fun p => pathEnergy d p 16
    let d := d.onGov fun g => { g with stepped := some d.axis, history := (energy :: g.history).take 122881 }
    setGains ((List.range 131).foldl (ceilStep energy) d)

/-- ADAPTATION_RESUME (R246). -/
def execAdaptationResume (path : Nat) : Meaning := onDev fun d =>
  match (d.txPath path).adaptHeld with
  | some t => if t ≤ d.now ∧ (d.txPath path).gain = 32768 then d.onTx path fun x => { x with adaptHeld := none } else d
  | none => d

/-- GOV_MISMATCH (R247): mutes as R234, with its own event, and is journaled (R249). -/
def execGovMismatch (path : Nat) : Meaning := onDev fun d =>
  if radiates d path then govJournal (raiseEv (txProtect d path 2) EV.govMismatch [a4 path]) (path / 32) 2 else d

/-- C of a group in nJ, 0 for Open. -/
def groupC (g : GovSet) : Nat := (govC g).getD 0 / 1000000

/-- GOV_LOG_RECORD (R249): the record of a second. -/
def execGovLogRecord : Meaning := onDev fun d =>
  if d.now < d.gov.logged + tickHz then d
  else d.onGov fun g =>
    let r : GovRec := ⟨d.axis, g.sets.map fun s => (s.cls, groupC s), g.peaks, g.softs, g.hards⟩
    let n := if domOn d 9 then 86400 else 64
    { g with logged := d.now, log := (g.log ++ [r]).drop (g.log.length + 1 - n), peaks := List.replicate 131 0, softs := 0, hards := 0 }

/-- The bytes of a log record in its object: axis position (8), per group class (1) and C in nJ (4), the peaks of the
131 ceilings (2 each, saturating), soft steps (4) and hard mutes (4). -/
def govRecBytes (r : GovRec) : List Nat :=
  bytesOf ([fld 8 r.axis] ++ (r.cls.flatMap fun c => [fld 1 c.1, fld 4 c.2]) ++ (r.peaks.map fun p => fld 2 (min p 65535)) ++ [fld 4 r.softs, fld 4 r.hards])

/-- Whether any window of a group is open (R248). -/
def groupOpen (d : Dev) (g : Nat) : Bool := (List.range 32).any fun k => txOpenNow d (32 * g + k)

/-- The checks of GOV-CLASS-SET. -/
def govClassSetCheck (group cls p w e margin soft release : Nat) (d : Dev) : Option Reply :=
  let new : GovSet := ⟨cls, if cls = 4 then p else 0, if cls = 4 then w else 0, if cls = 4 then e else 0, margin, soft, release⟩
  let raises := match govC (nth d.gov.sets group), govC new with
    | some a, some b => decide (a < b)
    | some _, none => true
    | none, _ => false
  firstBad [(decide (1 < group), ST.badArg),
    (decide (4 < cls) || decide (30 < margin) || decide (soft < 128) || decide (243 < soft) || decide (release < 26) || decide (204 < release)
      || decide (soft ≤ release)
      || (cls == 4 && (decide (p < 10) || decide (50000 < p) || decide (w < 1) || decide (1000 < w) || decide (e < 1) || decide (50000 < e)))
      || !reserveOk d.ident.variant (upd d.gov.sets group fun _ => new) (fsPowers d), ST.govClass),
    (raises && groupOpen d group, ST.txActive)]

/-- GOV-CLASS-SET (R241, R242, R244, R248). -/
def execGovClassSet (h : Hdr) (group cls p w e margin soft release : Nat) : Meaning :=
  let new : GovSet := ⟨cls, if cls = 4 then p else 0, if cls = 4 then w else 0, if cls = 4 then e else 0, margin, soft, release⟩
  hostCmd (cmd 0x0410 [4, 4]) h (.govClassSet h group cls p w e margin soft release)
    (govClassSetCheck group cls p w e margin soft release)
    (fun d =>
      let d := journal (d.onGov fun g => { g with sets := upd g.sets group fun _ => new }) 1 0x0006 group
        (bytesOf [fld 1 cls, fld 4 new.p, fld 2 new.w, fld 4 new.e, fld 1 margin, fld 2 soft, fld 2 release]) (.govClass group (nth d.gov.sets group))
      let d := govJournal (raiseEv d EV.govClass [a4 group, a4 cls]) group 3
      let par := ceilPar d.ident.variant d.gov.sets (fsPowers d) (64 + group)
      { dev := d, reply := { fields := [fld 4 (groupC new), fld 4 ((par.map (·.r)).getD 0 / 1000000)] } })

/-- TXC_GOV_GROUP_n, n = 0 for AC1, 1 for AC2, 2 for the sum. -/
def govGroup (d : Dev) (n : Nat) : Nat :=
  let g := if n = 2 then stricter (nth d.gov.sets 0) (nth d.gov.sets 1) else nth d.gov.sets n
  let e := match ceilPar d.ident.variant d.gov.sets (fsPowers d) (64 + n) with
    | some c => min 65535 (ceilEnergy d.gov.history (64 + n) c * 65536 / c.c)
    | none => 0
  g.cls * 2 ^ 29 + (nth d.gov.ceils (64 + n)).st * 2 ^ 27 + b2n (nth d.gov.hardSeen n) * 2 ^ 26 + b2n (nth d.gov.softSeen n) * 2 ^ 25 + e

/-- GOV-STATUS. -/
def execGovStatus (h : Hdr) : Meaning :=
  query (ask 0x0411 (List.replicate 12 4 ++ [2])) h (.govStatus h) noCheck fun d =>
    [0, 1, 2].map (fun n => fld 4 (govGroup d n)) ++
      ([0, 1, 2].flatMap fun n => match ceilPar d.ident.variant d.gov.sets (fsPowers d) (64 + n) with
        | some c => [fld 4 (c.hard / 1000000), fld 4 (c.softAt / 1000000), fld 4 (c.releaseAt / 1000000)]
        | none => [fld 4 0, fld 4 0, fld 4 0]) ++ [fld 2 (min 65535 d.gov.loopOhms)]

/-- GOV-LOG-READ (R249): an outbound object of kind 0x0F with the records from an axis position on. -/
def execGovLogRead (h : Hdr) (first count : Nat) : Meaning :=
  hostCmd (ask 0x0412 [2, 4]) h (.govLogRead h first count) noCheck
    (fun d =>
      let rs := (d.gov.log.filter fun r => decide (first ≤ r.axis)).take count
      let (n, d) := addOut d h.session 0x0F (rs.flatMap govRecBytes) [] (domOn d 9)
      { dev := d, reply := { fields := [fld 2 n, fld 4 rs.length] } })

end Sys2Proof.Machine
end

