-- ==== Sys2Proof/Machine/Registers.lean ====
section
/-! DEFINITION. The register space (R9 to R11, R14): the status words of the chapters 15 to 18, the register at an address,
the word a read returns, and what a write does by the access code of each field. -/

namespace Sys2Proof.Machine

/-! ### Words of the chapters 15 to 18 -/

/-- FAB_MST_STATUS_n (R531): its oldest held request. -/
def mstStatus (d : Dev) (n : Nat) : Nat :=
  let m := nth d.fab.masters n
  let w := d.fab.waiting.find? fun w => w.req.master == n
  let (code, target, cycles) := match w with
    | some w => (w.code, w.target, min 65535 ((d.now - w.since) / 2))
    | none => (0, 0, 0)
  code * 2 ^ 28 + target * 2 ^ 25 + b2n (nth m.sticky 0) * 2 ^ 24 + b2n m.draining * 2 ^ 23 + b2n (nth m.sticky 1) * 2 ^ 22
    + b2n (nth m.sticky 2) * 2 ^ 21 + b2n (nth m.sticky 3) * 2 ^ 20 + cycles


/-- DMA_CH_CTL_n and DMA_CH_STATUS_n. -/
def DmaCh.ctlWord (c : DmaCh) : Nat :=
  b2n c.enable * 2 ^ 31 + c.prio * 2 ^ 29 + b2n c.halt * 2 ^ 28 + c.maxOut * 2 ^ 24 + c.owner * 2 ^ 20
def DmaCh.statusWord (c : DmaCh) : Nat :=
  c.st * 2 ^ 29 + c.last * 2 ^ 26 + b2n c.half * 2 ^ 25 + b2n c.full * 2 ^ 24 + b2n c.error * 2 ^ 23 + b2n c.stopped * 2 ^ 22
    + b2n c.thornSeen * 2 ^ 21 + c.descCount % 65536

/-- DMA_CH_CSUM_n: the running checksum (R542): the CRC-32C so far, or the folded ones'-complement sum inverted. -/
def DmaCh.csum (c : DmaCh) : Nat :=
  match c.fetched.map fun f => bitsOf f.ctl 21 20 with
  | some 2 => 65535 - c.sum % 65536
  | some 1 => Nat.xor c.crc 0xFFFFFFFF
  | _ => 0

/-- CTL_CORE_STATUS_n (R582). -/
def Core.statusWord (c : Core) : Nat :=
  c.st * 2 ^ 29 + c.cause * 2 ^ 25 + b2n c.asatSeen * 2 ^ 24 + b2n c.lsatSeen * 2 ^ 23 + b2n c.thornSeen * 2 ^ 22
    + b2n (decide (0 < Nat.land c.istat c.imask)) * 2 ^ 21 + c.xfers.length * 2 ^ 17 + c.pc % 16384

/-- CTL_BOOT_STATUS. -/
def bootStatus (d : Dev) : Nat :=
  let c := d.ctl
  let staged := (nth d.nvm.images (1 - d.nvm.active)).valid
  c.source * 2 ^ 30 + b2n c.trial * 2 ^ 29 + b2n c.debug * 2 ^ 28 + b2n c.reloadSeen * 2 ^ 27 + b2n (!d.nvm.jobs.isEmpty) * 2 ^ 26
    + b2n c.treeGen.isSome * 2 ^ 25 + b2n staged * 2 ^ 24 + d.nvm.fwCounter * 2 ^ 16 + d.nvm.appletCounter * 2 ^ 8
    + ((d.nvm.owners.zipIdx.map fun (o, k) => b2n o.enrolled * 2 ^ k).sum) * 16

/-- PWR_STATUS. -/
def pwrStatus (d : Dev) : Nat :=
  let p := d.pwr
  p.state * 2 ^ 29 + ((p.domains.zipIdx.map fun (b, k) => b2n b * 2 ^ k).sum) * 2 ^ 19 + b2n (!p.steps.isEmpty) * 2 ^ 18
    + b2n (decide (0 < p.capLevel)) * 2 ^ 17 + b2n p.failSeen * 2 ^ 16 + b2n p.ovSeen * 2 ^ 15 + b2n p.uvSeen * 2 ^ 14 + b2n p.ppsFight * 2 ^ 13

/-- R605: the internal diodes. -/
def internalDiodes : List Nat := (List.range 80).map (· + 1) ++ [201, 202, 203, 204]

/-- A temperature that a channel shows, in 0.01 °C: none while its conversion shows it open or shorted, or above 150 °C
(R607). -/
def Chan.temp? (c : Chan) : Option Int := if c.fault = 0 ∧ c.last ≤ 15000 then some c.last else none

/-- The hottest internal diode: its channel and reading (PWR_THERM_STATUS, THERM-STATUS). -/
def hottest (d : Dev) : Nat × Int :=
  (internalDiodes.foldl (fun (m : Option (Nat × Int)) n =>
    match (nth d.pwr.chans n).temp?, m with
    | some t, some (_, x) => if x < t then some (n, t) else m
    | some t, none => some (n, t)
    | none, _ => m) none).getD (0, 0)

/-- R603, R605, R609: whether a broken sensor or the suspect converters force level 8. -/
def forced8 (d : Dev) : Bool :=
  d.pwr.suspect || ((List.range 12).any fun k => (nth d.pwr.chans (69 + k)).broken)
    || (List.range 4).any fun k => (nth d.pwr.exts k).enabled && (nth d.pwr.chans (81 + k)).broken

/-- PWR_THERM_STATUS. -/
def thermStatus (d : Dev) : Nat :=
  let p := d.pwr
  p.unitLevel * 2 ^ 28 + p.capLevel * 2 ^ 24 + b2n (forced8 d) * 2 ^ 23 + b2n p.suspect * 2 ^ 22 + b2n p.brokenSeen * 2 ^ 21
    + b2n (p.plans.any fun x => decide (frameNo d d.axis < x.frame)) * 2 ^ 20 + (hottest d).1 * 2 ^ 12

/-- PWR_BIAS_n. -/
def Dac.word (x : Dac) : Nat :=
  x.span * 2 ^ 30 + b2n (x.code == x.safe) * 2 ^ 29 + min 32 x.queue.length * 2 ^ 23 + b2n x.overflow * 2 ^ 22 + b2n x.safeSeen * 2 ^ 21 + x.code

/-! ### DMA channels: enable, disable, doorbell (R546, R549) -/

def Dev.onChan (d : Dev) (n : Nat) (f : DmaCh → DmaCh) : Dev := { d with dma := upd d.dma n f }

/-- R576: an interrupt source of a core becomes pending; a core that waits for one goes on. -/
def coreIrq (d : Dev) (n bit : Nat) : Dev :=
  { d with cores := upd d.cores n fun c =>
      let c := { c with istat := Nat.lor c.istat (2 ^ bit) }
      if c.st = 3 ∧ c.waitx = false ∧ 0 < Nat.land c.istat c.imask then { c with st := 2 } else c }

/-- R536, R576: an interrupt of a channel reaches the core it is assigned to. -/
def chanIrq (d : Dev) (n : Nat) : Dev :=
  let o := (nth d.dma n).owner
  if 4 ≤ o ∧ o ≤ 7 then
    if nth (nth d.cores o).chans 0 = n then coreIrq d o 2 else if nth (nth d.cores o).chans 1 = n then coreIrq d o 3 else d
  else d

/-- R549: setting `enable` starts a channel at the descriptor that DMA_CH_DESC_n holds. -/
def chanEnable (d : Dev) (n : Nat) : Dev :=
  if (nth d.dma n).enable then d
  else d.onChan n fun c => { c with enable := true, st := 1, fetched := none, reread := false, resid := 0, i0 := 0, i1 := 0, i2 := 0, pos := 0 }

/-- A number as little-endian bytes. -/
def leBytes (n v : Nat) : List Nat := (List.range n).map fun i => v / 256 ^ i % 256

/-- R541, R543, R547: the writeback of bytes 56 to 63 of the descriptor at work, when it asks for one: `done`, the status code
and the result, thorned where a byte it covers was (R542). -/
def writeBack (d : Dev) (n code : Nat) (done : Bool) : Dev :=
  let c := nth d.dma n
  match c.fetched with
  | none => d
  | some f =>
    let a := c.desc + 56
    let ok := match storeOf a with
      | some s => domOn d (storeDomain s) && s != 5
      | none => false
    if f.ctl.testBit 16 && ok then
      writeSpan d a (leBytes 4 (f.ctl % 2 ^ 24 + code * 2 ^ 28 + b2n done * 2 ^ 31) ++ leBytes 4 c.csum) (if c.sumThorn then [a] else []) []
    else d

/-- R547: a channel stops with an error code at a burst boundary: EV_DMA_ERROR, or EV_DMA_DOMAIN for code 3, for a host
channel (R536). -/
def chanStop (d : Dev) (n code : Nat) : Dev :=
  let d := (writeBack d n code false).onChan n fun c => { c with st := 6, last := code, error := true, reread := false }
  let d := chanIrq d n
  if (nth d.dma n).owner = 1 then raiseEv d (if code = 3 then EV.dmaDomain else EV.dmaError) [a4 n, a4 code] else d

/-- R549: clearing `enable` stops a channel at a burst boundary, its residual counts frozen, with status 4; EV_DMA_STOPPED
for a host channel (R536). -/
def chanDisable (d : Dev) (n : Nat) : Dev :=
  let c := nth d.dma n
  if !c.enable then d
  else
    let d := (if c.st = 2 then writeBack d n 4 false else d).onChan n fun c => { c with enable := false, st := 5, last := 4, stopped := true, reread := false }
    let d := chanIrq d n
    if c.owner = 1 then raiseEv d EV.dmaStopped [a4 n, a4 c.resid] else d

/-- R546: a doorbell adds to the append count; a parked channel will read its last link again. -/
def chanDoorbell (d : Dev) (n : Nat) : Dev :=
  d.onChan n fun c => { c with append := (c.append + 1) % 65536, reread := c.reread || c.st == 3, st := if c.st = 3 then 1 else c.st }

/-! ### The registers -/

/-- A register with a field map. -/
inductive Reg where
  | fePort (n : Nat) | feState (n : Nat) | syn | txc (n : Nat) | gov (n : Nat) | chf (n : Nat) | fre (n : Nat) | bmf (n : Nat)
  | chain (n : Nat) | dpd (n : Nat) | obs (n : Nat) | weave | collect | cal | trim (n : Nat) | time | bcn | lane (n : Nat)
  | rxeq (n : Nat) | dfe (n : Nat) | fabMode | fabErr | fabErrHi | mst (n : Nat) | prio (n : Nat) | dma (n off : Nat)
  | memErr (n : Nat) | scrub (n : Nat) | dram | sport (n : Nat) | boot | core (n : Nat) | pwr | therm | bias (n : Nat)
deriving DecidableEq, Repr

/-- The entry of a register array at an offset: `n` entries `stride` bytes apart from `base`, each at its first byte. -/
def arrayAt (base stride n off : Nat) (f : Nat → Reg) : Option Reg :=
  if base ≤ off ∧ off < base + n * stride ∧ (off - base) % stride = 0 then some (f ((off - base) / stride)) else none

/-- The first register found. -/
def firstReg (l : List (Option Reg)) : Option Reg := l.findSome? id

/-- R14: the register at an address of the register space. -/
def regAt (a : Nat) : Option Reg :=
  let off := a % 0x1000000
  match a / 0x1000000 with
  | 0x800 => firstReg [arrayAt 0x10000 0x40 64 off .fePort, arrayAt 0x20000 0x40 64 off .feState]
  | 0x801 => if off = 0x10 then some .syn else none
  | 0x803 => firstReg [arrayAt 0x10000 0x40 64 off .txc, arrayAt 0x20000 0x40 3 off .gov]
  | 0x804 => arrayAt 0x20000 0x40 256 off .chf
  | 0x805 => arrayAt 0x10000 0x40 8 off .fre
  | 0x806 => firstReg [arrayAt 0x10000 0x40 8 off .bmf, arrayAt 0x20000 0x40 4 off .chain]
  | 0x807 => firstReg [arrayAt 0x10000 0x40 64 off .dpd, arrayAt 0x20000 0x40 4 off .obs]
  | 0x808 => if off = 0x10000 then some .weave else if off = 0x10040 then some .collect else none
  | 0x809 => if off = 0x10 then some .cal else arrayAt 0x10000 0x40 128 off .trim
  | 0x80A => if off = 0x10 then some .time else if off = 0x20000 then some .bcn else none
  | 0x80B => firstReg [arrayAt 0x10000 0x100 32 off .lane, arrayAt 0x10010 0x100 32 off .rxeq, arrayAt 0x10014 0x100 32 off .dfe]
  | 0x80C =>
    if off = 0 then some .fabMode else if off = 8 then some .fabErr else if off = 0xC then some .fabErrHi
    else if 0x100000 ≤ off ∧ off < 0x102000 ∧ off % 4 = 0 ∧ off % 0x100 ≤ 0x20 then some (.dma ((off - 0x100000) / 0x100) (off % 0x100))
    else firstReg [arrayAt 0x10000 0x40 15 off .mst, arrayAt 0x10004 0x40 15 off .prio]
  | 0x80D =>
    if off = 0x20000 then some .dram
    else firstReg [arrayAt 0x10000 0x40 6 off .memErr, arrayAt 0x10004 0x40 6 off .scrub, arrayAt 0x20100 0x10 8 off .sport]
  | 0x80E => if off = 0x10 then some .boot else arrayAt 0x30000 0x40 8 off .core
  | 0x80F => if off = 0x10 then some .pwr else if off = 0x14 then some .therm else arrayAt 0x10000 0x10 136 off .bias
  | _ => none

/-- R14, R535: the domains of a register window, and of a register in it where its window spans several. DESIGN CHOICE (log entry 118):
the table of R14 gives FE D3 and D5, MEM D1 and D9, CTL D0 and D1 without saying which register lies where; the model puts every FE register
in D3, MEM_ERR_STATUS and MEM_SCRUB_RATE in D1, MEM_DRAM_STATUS and the stream ports in D9, CTL_BOOT_STATUS in D0 and the other CTL
registers in D1. -/
def windowDomain (a : Nat) : Nat :=
  match regAt a with
  | some (.obs _) => 3
  | some .dram => 9
  | some (.sport _) => 9
  | some .boot => 0
  | some (.core _) => 6
  | _ => nth [3, 2, 3, 4, 6, 6, 6, 6, 7, 6, 1, 8, 1, 1, 1, 0] (a / 0x1000000 % 16)

/-- What a read returns (R9); reserved bits are 0 (R11). -/
def regWord (d : Dev) (r : Reg) : Nat :=
  match r with
  | .fePort n => feRxPort d n
  | .feState n => feWord d n
  | .syn => synStatusWord d
  | .txc n => txPathStatus d n
  | .gov n => govGroup d n
  | .chf n => chfStatus d (n / 4) (n % 4)
  | .fre n => freStatus d n
  | .bmf n => bmfStatus d n
  | .chain n => chainStatus d n
  | .dpd n => dpdStatus d n
  | .obs n => obsStatus d n
  | .weave => weaveStatus d
  | .collect => collectStatus d
  | .cal => calStatusWord d
  | .trim n => trimWord d (n / 64) (n % 64)
  | .time => timeStatus d.tmb
  | .bcn => bcnStatusWord d
  | .lane n => laneStatus (nth d.lanes n)
  | .rxeq n => laneRxeq (nth d.lanes n)
  | .dfe n => laneDfe (nth d.lanes n)
  | .fabMode => d.fab.mode
  | .fabErr => d.fab.errAddr % 2 ^ 32
  | .fabErrHi => d.fab.errAddr / 2 ^ 32 % 256 + d.fab.errMaster * 256
  | .mst n => mstStatus d n
  | .prio n => (nth d.fab.masters n).prio
  | .dma n off =>
    let c := nth d.dma n
    match off with
    | 0x00 => c.ctlWord
    | 0x04 => c.statusWord
    | 0x08 => c.desc % 2 ^ 32
    | 0x0C => c.desc / 2 ^ 32
    | 0x14 => c.resid
    | 0x18 => c.i1 * 65536 + c.i0
    | 0x1C => c.append * 65536 + c.i2
    | 0x20 => c.csum
    | _ => 0
  | .memErr n => (nth d.mem.stores n).status
  | .scrub n => scrubRate n (nth d.mem.stores n)
  | .dram => dramStatus d
  | .sport n => sportStatus d n
  | .boot => bootStatus d
  | .core n => (nth d.cores n).statusWord
  | .pwr => pwrStatus d
  | .therm => thermStatus d
  | .bias n => (nth d.pwr.dacs n).word

/-- R9, W1C: a sticky bit after a 1 has been written to its place or not. -/
def w1c (v bit : Nat) (b : Bool) : Bool := b && !v.testBit bit

/-- The sticky bits of a list, bit k of the list at place `top` - k. -/
def w1cList (v top : Nat) (l : List Bool) : List Bool := l.zipIdx.map fun (b, k) => w1c v (top - k) b

/-- A write to DMA_CH_CTL_n. -/
def writeCtl (d : Dev) (n v : Nat) : Dev :=
  let d := d.onChan n fun c => { c with prio := bitsOf v 30 29, halt := v.testBit 28, maxOut := bitsOf v 27 24 }
  if v.testBit 31 then chanEnable d n else chanDisable d n

/-- FAB_MODE (R532): Ribel leaves the recovery layer of the boot once the matrix self-test has passed. -/
def writeFabMode (d : Dev) (v : Nat) : Dev :=
  { d with fab := { d.fab with
      mode := v % 2
      layer := if v % 2 = 1 ∧ d.fab.layer = 1 then 0 else d.fab.layer } }

/-- R9, R11: a write to a register: `ones` are the bits written as 1, `v` the word that the bytes written leave for RW
fields. -/
def regWrite (d : Dev) (r : Reg) (ones v : Nat) : Dev :=
  let c := w1c ones
  match r with
  | .fePort n => d.onRx n fun x => { x with overload := c 7 x.overload, protectSeen := c 6 x.protectSeen, portChanged := c 5 x.portChanged }
  | .feState n => d.onFe n fun x => { x with abandoned := c 22 x.abandoned, txProtSeen := c 21 x.txProtSeen }
  | .syn => d.onSyn fun x => { x with unlockSeen := c 19 x.unlockSeen, hopFailSeen := c 18 x.hopFailSeen }
  | .txc n => d.onTx n fun x => { x with gateOff := c 26 x.gateOff, sticky := w1cList ones 15 x.sticky, underrun := c 11 x.underrun }
  | .gov n => { d with gov := { d.gov with hardSeen := upd d.gov.hardSeen n (c 26), softSeen := upd d.gov.softSeen n (c 25) } }
  | .chf n => d.onRxSb (n / 4) (n % 4) fun x => { x with sticky := w1cList ones 27 x.sticky, txZeroed := c 22 x.txZeroed }
  | .fre n => d.onFre n fun x => { x with sticky := w1cList ones 26 x.sticky }
  | .bmf n => d.onFre n fun x => { x with thornApplied := c 26 x.thornApplied, swapRefused := c 25 x.swapRefused, satBeam := c 24 x.satBeam }
  | .chain n => d.onChain n fun x => { x with
      short := c 24 x.short, lateSeen := c 23 x.lateSeen, mismatch := c 22 x.mismatch, stallSeen := c 21 x.stallSeen, sat := c 20 x.sat }
  | .dpd n => d.onDpdPath n fun x => { x with sticky := w1cList ones 19 x.sticky }
  | .obs n => d.onDpd fun x => { x with obs := upd x.obs n fun o => { o with faultSeen := c 21 o.faultSeen } }
  | .weave => d.onWeave fun x => { x with
      missing := c 9 x.missing, lateSeen := c 8 x.lateSeen, shape := c 7 x.shape, stamp := c 6 x.stamp, dram := c 5 x.dram, route := c 4 x.route }
  | .collect => d.onXce fun x => { x with
      stall := c 26 x.stall, parity := c 25 x.parity, thorn := c 24 x.thorn, skip := c 23 x.skip, lost := c 22 x.lost }
  | .cal => d.onCal fun x => { x with sticky := w1cList ones 19 x.sticky }
  | .trim n => d.onCal fun x => { x with fails := upd x.fails n (c 3) }
  | .time => d.onTmb fun x => { x with steerClamped := c 6 x.steerClamped }
  | .bcn => d.onBcn fun x => { x with sticky := w1cList ones 26 x.sticky }
  | .lane n => d.onLane n fun x => { x with slip := c 9 x.slip, lockLost := c 8 x.lockLost, miswired := c 7 x.miswired }
  | .rxeq n => d.onLane n (·.setFreeze (v.testBit 9))
  | .dfe _ => d
  | .fabMode => writeFabMode d v
  | .fabErr => d
  | .fabErrHi => d
  | .mst n => { d with fab := { d.fab with masters := upd d.fab.masters n fun m => { m with
      sticky := [c 24 (nth m.sticky 0), c 22 (nth m.sticky 1), c 21 (nth m.sticky 2), c 20 (nth m.sticky 3)] } } }
  | .prio n => { d with fab := { d.fab with masters := upd d.fab.masters n fun m => { m with prio := v % 65536 } } }
  | .dma n off =>
    match off with
    | 0x00 => writeCtl d n v
    | 0x04 => d.onChan n fun x => { x with
        half := c 25 x.half, full := c 24 x.full, error := c 23 x.error, stopped := c 22 x.stopped, thornSeen := c 21 x.thornSeen }
    | 0x08 => d.onChan n fun x => if x.enable then x else { x with desc := x.desc / 2 ^ 32 * 2 ^ 32 + v / 64 % 2 ^ 26 * 64 }
    | 0x0C => d.onChan n fun x => if x.enable then x else { x with desc := v % 256 * 2 ^ 32 + x.desc % 2 ^ 32 }
    | 0x10 => chanDoorbell d n
    | _ => d
  | .memErr n => d.onMem (·.onStore n fun x => { x with sticky := w1cList ones 30 x.sticky })
  | .scrub n => d.onMem (·.onStore n fun x => if x.period = v / 65536 % 65536 then x else { x with period := v / 65536 % 65536, passStart := d.now })
  | .dram => d.onMem fun m => { m with rdSeen := c 11 m.rdSeen, ovfSeen := c 10 m.ovfSeen }
  | .sport n => d.onMem fun m => { m with ports := upd m.ports n fun p => { p with overflow := c 27 p.overflow } }
  | .boot => { d with ctl := { d.ctl with reloadSeen := c 27 d.ctl.reloadSeen } }
  | .core n => { d with cores := upd d.cores n fun x => { x with
      asatSeen := c 24 x.asatSeen, lsatSeen := c 23 x.lsatSeen, thornSeen := c 22 x.thornSeen } }
  | .pwr => d.onPwr fun p => { p with failSeen := c 16 p.failSeen, ovSeen := c 15 p.ovSeen, uvSeen := c 14 p.uvSeen, ppsFight := c 13 p.ppsFight }
  | .therm => d.onPwr fun p => { p with brokenSeen := c 21 p.brokenSeen }
  | .bias n => d.onDac n fun x => { x with
      span := if 128 ≤ n ∧ v / 2 ^ 30 ≤ 2 then v / 2 ^ 30 else x.span, overflow := c 22 x.overflow, safeSeen := c 21 x.safeSeen }

/-- A 32-bit read at an address of the register space; an address without a register reads 0 (R11). -/
def readReg (d : Dev) (a : Nat) : Nat :=
  match regAt a with
  | some r => regWord d r
  | none => 0

/-- A 32-bit write at an address of the register space, of the bytes that `mask` enables (R522). -/
def writeReg (d : Dev) (a v mask : Nat) : Dev :=
  match regAt a with
  | none => d
  | some r =>
    if mask = 0 then d
    else
      let keep (i : Nat) : Nat := (if mask.testBit i then v else regWord d r) / 256 ^ i % 256 * 256 ^ i
      let ones := ((List.range 4).map fun i => if mask.testBit i then v / 256 ^ i % 256 * 256 ^ i else 0).sum
      regWrite d r ones ((List.range 4).map keep).sum

/-- REGISTER_WRITE (R9): a write of a whole word; a window whose domain is off takes none (R535). -/
def execRegisterWrite (addr value : Nat) : Meaning := onDev fun d =>
  if domOn d (windowDomain addr) then writeReg d addr value 15 else d

/-- CHANNEL_ENABLE, CHANNEL_DISABLE, DMA_CH_DOORBELL (R546, R549): the writes to a channel's registers. -/
def execChannelEnable (chan : Nat) : Meaning := onDev fun d => chanEnable d chan
def execChannelDisable (chan : Nat) : Meaning := onDev fun d => chanDisable d chan
def execDmaChDoorbell (chan : Nat) : Meaning := onDev fun d => chanDoorbell d chan

/-- FAB_MODE (R532). -/
def execFabMode : Meaning := onDev fun d => writeFabMode d 1

end Sys2Proof.Machine
end

