-- ==== Sys2Proof/Machine/Fabric.lean ====
section
/-! DEFINITION. The bus matrix (chapter 15): decoding and paths (R516 to R519, R535), the order and holdback of requests (R523 to
R531), locks and timeouts (R525, R526), the recovery layer (R532), reset drains (R533) and the commands (R551). A request's
bursts are done together: it is answered, held, or refused as one. -/

namespace Sys2Proof.Machine

/-! ### Decoding (R483, R517, R518) -/

/-- R517: the target at an address. -/
def targetOf (a : Nat) : Option Nat :=
  if a < 0x40000 then some 6
  else if 0x100000000 ≤ a ∧ a < 0x102000000 then some 0
  else if 0x200000000 ≤ a ∧ a < 0x201000000 then some 1
  else if 0x300000000 ≤ a ∧ a < 0x308000000 then some 2
  else if 0x800000000 ≤ a ∧ a < 0x810000000 then some 4
  else if nvmBase ≤ a ∧ a < nvmBase + nvmSize then some 5
  else if 0x1000000000 ≤ a ∧ a < 0x2000000000 then some 3
  else none

/-- R518: the targets a master has a path to. -/
def pathsFrom (m : Nat) : List Nat :=
  match m with
  | 0 => [0, 1, 2, 3, 4, 5, 6, 7]
  | 14 => [0, 1, 2, 3, 4, 5, 6, 7]
  | 1 => [0, 3, 4, 5, 6, 7]
  | 10 => [0, 1, 2, 3, 4, 5]
  | 11 => [0, 3, 4]
  | 12 => [2, 3, 4]
  | 13 => [0, 3]
  | _ => if m ≤ 5 then [0, 1, 2, 3, 4] else [0, 1, 2, 3]

/-- R559: whether a span lies in a window of a core, `write` asking for a read-write one. -/
def windowMay (c : Core) (a n : Nat) (write : Bool) : Bool :=
  c.img.windows.any fun w => decide ((if write then 2 else 1) ≤ w.access) && decide (w.base ≤ a) && decide (a + n ≤ w.base + w.size * 65536)

/-- R518, R559: an applet's master is bound to the windows of its core. -/
def boundOk (d : Dev) (r : FabReq) : Bool := r.master < 6 || 9 < r.master || windowMay (nth d.cores (r.master - 2)) r.addr r.len r.write

/-- R516: the ordering slots of a master, and whether it takes read responses in issue order. -/
def slotsOf (m : Nat) : Nat := nth [16, 8, 8, 8, 8, 8, 8, 8, 8, 8, 64, 32, 16, 16, 4] m
def inOrder (m : Nat) : Bool := m == 11 || m == 13 || m == 14

/-- R517: the domain of a target at an address. -/
def targetDomain (t a : Nat) : Nat := if t = 4 then windowDomain a else nth [1, 6, 7, 9, 1, 0, 1, 0] t

/-- R534: whether the fabric has closed a domain that goes off. -/
def closed (d : Dev) (dom : Nat) : Bool := d.fab.closing.any fun c => c.1 == dom && decide (c.2 ≤ d.now)

/-- How the matrix takes a request: an error response (0 decode, 1 domain off, 2 faulted target), held under a code of R530,
or served at a target. -/
inductive Taken where
  | error (kind : Nat)
  | held (code target : Nat)
  | served (target : Nat)
deriving DecidableEq, Repr

/-- R519, R511: whether a span of a target can be reached. -/
def reachable (d : Dev) (t a n : Nat) : Bool :=
  targetOf (a + n - 1) == some t && (t != 3 || (addressable d.mem a && addressable d.mem (a + n - 1)
    && (regionOf a == regionOf (a + n - 1) || !nth d.mem.prot (regionOf a)) && (!d.mem.selfRefresh || d.mem.autoExit)))

/-- R519, R523 to R532, R592: what becomes of a request behind the requests held before it, `imposed` being the condition that
the ports and queues put on it. -/
def takeReq (d : Dev) (older : List FabWait) (r : FabReq) (imposed : Nat) : Taken :=
  match targetOf r.addr with
  | none => .error 0
  | some t =>
    let dom := targetDomain t r.addr
    let mine := older.filter fun w => w.req.master == r.master
    if !(pathsFrom r.master).contains t || !boundOk d r || !reachable d t r.addr r.len || (r.master == 14 && !d.ctl.debug) then .error 0
    else if !domOn d dom || closed d dom then .error 1
    else if (nth d.fab.targets t).faulted then .error 2
    else if d.fab.layer ≠ 0 ∧ ¬((r.master = 0 ∨ r.master = 14) ∧ 4 ≤ t ∧ r.len = 4) then .held 7 t
    else if (nth d.fab.masters r.master).draining then .held 6 t
    else if slotsOf r.master ≤ mine.length then .held 3 t
    else if r.write && mine.any (fun w => w.req.write && w.target != t) then .held 1 t
    else if !r.write && inOrder r.master && mine.any (fun w => !w.req.write && w.target != t) then .held 2 t
    else if (nth d.fab.targets t).lock.any (fun l => l.1 != r.master) then .held 5 t
    else if mine.any (fun w => w.target == t && w.req.write) then .held 8 t
    else if t = 3 ∧ (d.mem.selfRefresh ∨ d.mem.initing.contains (regionOf r.addr)) then .held 8 t
    else if imposed ≠ 0 then .held imposed t
    else .served t

/-! ### Answers -/

/-- The unit with one master, or one target, changed. -/
def Dev.onMaster (d : Dev) (m : Nat) (f : Master → Master) : Dev := { d with fab := { d.fab with masters := upd d.fab.masters m f } }
def Dev.onTarget (d : Dev) (t : Nat) (f : Target → Target) : Dev := { d with fab := { d.fab with targets := upd d.fab.targets t f } }

/-- The 8-byte words that a span touches. -/
def wordsOf (a n : Nat) : List Nat := (List.range (ceilDiv (a % 8 + n) 8)).map fun k => a / 8 * 8 + 8 * k

/-- R519: the error response: read data thorned, write data dropped. -/
def errorResp (r : FabReq) : FabResp :=
  if r.write then { error := true } else { data := List.replicate r.len 0, thorn := wordsOf r.addr r.len, error := true }

/-- R519, R526, R535: a request answered with an error response, recorded and counted by its kind. -/
def fabError (d : Dev) (r : FabReq) (kind : Nat) : Dev :=
  let d := d.onMaster r.master fun m => { m with
    resp := errorResp r, sticky := upd m.sticky (if kind = 2 then 2 else 1) fun _ => true, counts := upd m.counts kind (· + 1) }
  let d := { d with fab := { d.fab with errAddr := r.addr, errMaster := r.master } }
  if kind = 2 then d else raiseLimited d EV.fabDecode r.master [a4 r.master, a8 r.addr]

/-- The register words that a span touches, read or written (R9). -/
def regWords (a n : Nat) : List Nat := (List.range (ceilDiv (a % 4 + n) 4)).map fun k => a / 4 * 4 + 4 * k

/-- R517, R527: a target performs a request. -/
def perform (d : Dev) (t : Nat) (r : FabReq) : FabResp × Dev :=
  let th := r.thorn.map fun k => r.addr / 8 * 8 + 8 * k
  match t, r.write with
  | 4, true =>
    ({}, (regWords r.addr r.len).foldl (fun d w =>
      let on (i : Nat) : Bool := decide (r.addr ≤ w + i) && decide (w + i < r.addr + r.data.length) && !r.off.contains (w + i - r.addr)
      let v := ((List.range 4).map fun i => if on i then nth r.data (w + i - r.addr) % 256 * 256 ^ i else 0).sum
      writeReg d w v ((List.range 4).map fun i => if on i then 2 ^ i else 0).sum) d)
  | 4, false =>
    let bytes := (regWords r.addr r.len).flatMap fun w => (List.range 4).map fun i => readReg d w / 256 ^ i % 256
    ({ data := (bytes.drop (r.addr % 4)).take r.len }, d)
  | 5, true => ({}, d)
  | 5, false => ({ data := (List.range r.len).map fun i => (d.mem.byte (r.addr + i)).toNat }, d)
  | 6, true => ({}, d)
  | _, true => ({}, writeSpan d r.addr r.data th r.off)
  | _, false =>
    let (bytes, ths, d) := readSpan d r.addr r.len
    ({ data := bytes, thorn := ths }, d)

/-- R525: the lock of a target after a request has been served at `now`. -/
def lockAfter (l : Option (Nat × Nat × Nat)) (r : FabReq) (now : Nat) : Option (Nat × Nat × Nat) :=
  if r.lock && !r.write then some (r.master, r.addr / 512, now)
  else l.filter fun l => !(l.1 == r.master && r.write && r.addr / 512 == l.2.1)

/-- R523, R525, R532: a target after a request of a master has been served: its lock and its last grant. -/
def relock (d : Dev) (t : Nat) (r : FabReq) : Dev :=
  let d := d.onTarget t fun x => { x with last := r.master, lock := lockAfter x.lock r d.now }
  { d with fab := { d.fab with lastGrant := d.now } }

/-- R525: whether a target's lock is a master's own, on the block of an address. -/
def ownLock (l : Option (Nat × Nat × Nat)) (r : FabReq) : Bool := l.any fun l => l.1 == r.master && l.2.1 == r.addr / 512

/-- R525: a locked write that finds no lock of its own, or one taken more than 64 cycles ago, is lost. -/
def lockMissed (d : Dev) (t : Nat) (r : FabReq) : Bool :=
  r.lock && r.write && !(ownLock (nth d.fab.targets t).lock r && (nth d.fab.targets t).lock.any fun l => decide (d.now ≤ l.2.2 + 128))

/-- R525: an error response for a lock lost. -/
def lockLost (d : Dev) (m : Nat) (r : FabReq) : Dev :=
  d.onMaster m fun x => { x with resp := errorResp r, sticky := upd x.sticky 3 fun _ => true, counts := upd x.counts 3 (· + 1) }

/-- R525: a locked write comes late: a lock still there is released and the loss counted; one that LOCK_TIMEOUT has released has been counted
before (DESIGN CHOICE, log entry 125). -/
def lockLate (d : Dev) (t : Nat) (r : FabReq) : Dev :=
  if ownLock (nth d.fab.targets t).lock r then (lockLost d r.master r).onTarget t fun x => { x with lock := none }
  else d.onMaster r.master fun x => { x with resp := errorResp r, sticky := upd x.sticky 3 fun _ => true }

/-- A request that is not held is answered. -/
def answer (d : Dev) (r : FabReq) (k : Taken) : Dev :=
  match k with
  | .error e => fabError d r e
  | .held _ _ => d
  | .served t =>
    if lockMissed d t r then lockLate d t r
    else
      let (resp, d) := perform d t r
      (relock d t r).onMaster r.master fun m => { m with resp := resp }

/-! ### Held requests (R523, R530) -/

/-- The priority of a held request at its target (R523). -/
def prioOf (d : Dev) (w : FabWait) : Nat := if w.aged then 3 else (nth d.fab.masters w.req.master).prio / 4 ^ w.target % 4

/-- R523: the turn of a master after the last grant of a target. -/
def turnOf (d : Dev) (w : FabWait) : Nat := (w.req.master + 29 - (nth d.fab.targets w.target).last) % 15

/-- The held requests that can go now, with their places in the queue. -/
def goable (d : Dev) : List (Nat × FabWait × Taken) :=
  d.fab.waiting.zipIdx.filterMap fun (w, k) =>
    match takeReq d (d.fab.waiting.take k) w.req (if w.imposed then w.code else 0) with
    | .held _ _ => none
    | t => some (k, w, t)

/-- R523: the next of them: the highest priority, then the turn of the masters. -/
def nextGrant (d : Dev) : Option (Nat × FabWait × Taken) :=
  (goable d).foldl (fun m x => match m with
    | none => some x
    | some y =>
      if prioOf d y.2.1 < prioOf d x.2.1 ∨ (prioOf d y.2.1 = prioOf d x.2.1 ∧ turnOf d x.2.1 < turnOf d y.2.1) then some x else some y) none

/-- Held requests are served while any can go, at most `fuel` of them. -/
def fabServe : Nat → Dev → Dev
  | 0, d => d
  | n + 1, d =>
    match nextGrant d with
    | none => d
    | some (k, w, t) => fabServe n (answer { d with fab := { d.fab with waiting := d.fab.waiting.eraseIdx k } } w.req t)

/-- R530: the conditions of held requests are looked at again, and those that remain show their codes. -/
def fabWake (d : Dev) : Dev :=
  let d := fabServe d.fab.waiting.length d
  let code (w : FabWait) (k : Nat) : Nat :=
    match takeReq d (d.fab.waiting.take k) w.req (if w.imposed then w.code else 0) with
    | .held c _ => c
    | _ => w.code
  { d with fab := { d.fab with waiting := d.fab.waiting.zipIdx.map fun (w, k) => { w with code := code w k } } }

/-- A request enters the matrix: answered, or held. -/
def fabIssue (d : Dev) (r : FabReq) : Dev :=
  match takeReq d d.fab.waiting r r.hold with
  | .held c t => { d with fab := { d.fab with waiting := d.fab.waiting ++ [{ req := r, code := c, target := t, since := d.now, imposed := c == r.hold }] } }
  | k => fabWake (answer d r k)

/-- FABRIC_REQUEST (R519 to R530): 1 to 64 beats of a master whose domain is on; a master of a domain that closes issues nothing new (R534).
Issued again without its condition, a request held for it goes on. -/
def execFabricRequest (req : FabReq) : Meaning := onDev fun d =>
  let dom := masterDomain req.master
  if req.len = 0 ∨ 4096 < req.len ∨ 14 < req.master ∨ !domOn d dom ∨ closed d dom then d
  else if d.fab.waiting.any (fun w => w.imposed && w.req == { req with hold := w.req.hold }) && req.hold == 0 then
    fabWake { d with fab := { d.fab with waiting := d.fab.waiting.map fun w =>
      if w.imposed && w.req == { req with hold := w.req.hold } then { w with imposed := false } else w } }
  else fabIssue d req

/-- AGE_LIMIT (R523). -/
def execAgeLimit (master : Nat) : Meaning := onDev fun d =>
  { d with fab := { d.fab with waiting := d.fab.waiting.map fun w =>
      if w.req.master = master ∧ w.since + 2 * d.fab.ageLimit ≤ d.now then { w with aged := true } else w } }

/-- LOCK_TIMEOUT (R525): 64 cycles after the read the lock is released, and the write that missed them draws an error. -/
def execLockTimeout (target : Nat) : Meaning := onDev fun d =>
  match (nth d.fab.targets target).lock with
  | none => d
  | some (m, b, since) =>
    if d.now < since + 128 then d
    else fabWake ((lockLost d m { master := m, addr := b * 512, len := 8, write := true }).onTarget target fun x => { x with lock := none })

/-- R526: whether a held request has waited at its target for the target's timeout. -/
def timedOut (d : Dev) (w : FabWait) : Bool :=
  [4, 5, 8].contains w.code && decide (w.since + ceilDiv ((nth d.fab.targets w.target).timeout * tickHz) 1000000 ≤ d.now)

/-- TARGET_TIMEOUT (R526): the target is marked faulted, and the request of the master that it has not answered takes an error. -/
def execTargetTimeout (target master : Nat) : Meaning := onDev fun d =>
  if 7 < target ∨ (nth d.fab.targets target).faulted then d
  else match d.fab.waiting.find? fun w => w.req.master == master && w.target == target && timedOut d w with
    | none => d
    | some w =>
      let d := { d with fab := { d.fab with waiting := d.fab.waiting.erase w } }
      let d := raiseEv (d.onTarget target fun x => { x with faulted := true }) EV.fabTimeout [a4 target, a4 master]
      fabWake (fabError d w.req 2)

/-- R533: the requests of a master that wait are discarded and its locks released. -/
def discard (d : Dev) (m : Nat) : Dev :=
  { d with fab := { d.fab with
    waiting := d.fab.waiting.filter fun w => w.req.master != m
    targets := d.fab.targets.map fun t => if t.lock.any (fun l => l.1 == m) then { t with lock := none } else t } }

/-- R533: the bursts of a master in progress have been completed in its place. -/
def drainDone (d : Dev) (m : Nat) : Dev :=
  raiseEv (d.onMaster m fun x => { x with
    draining := false, sticky := upd x.sticky 0 fun _ => true, counts := upd x.counts 4 (· + 1) }) EV.fabResetDrain [a4 m]

/-- MASTER_RESET (R533): the drain of the bursts in progress is over at the next tick of the axis clock, and until then the master's requests
are held back. -/
def execMasterReset (master : Nat) (inProgress : Bool) : Meaning := onDev fun d =>
  if 14 < master then d
  else fabWake (if inProgress then (discard d master).onMaster master fun x => { x with draining := true } else discard d master)

/-- R533: whether a drain of a master ends at this tick; one of a domain that closes ends with the cut (R534). -/
def drainEnds (d : Dev) (m : Nat) : Bool := (nth d.fab.masters m).draining && !d.fab.closing.any fun c => c.1 == masterDomain m

/-- R533: the drains in progress end, and the requests held back for them go on. -/
def drainTick (d : Dev) : Dev :=
  match (List.range 15).filter (drainEnds d) with
  | [] => d
  | l => fabWake (l.foldl drainDone d)

/-- R534: the masters of a domain that closes issue nothing new, and their bursts drain. -/
def closeMasters (d : Dev) (dom : Nat) : Dev :=
  ((List.range 15).filter fun m => masterDomain m = dom).foldl (fun d m => (discard d m).onMaster m fun x => { x with draining := true }) d

/-- R532: recovery begins: every master is drained, the recovery layer is in force. -/
def enterRecovery (d : Dev) : Dev :=
  let d := (List.range 15).foldl (fun d m =>
    let busy := drainEnds d m || d.fab.targets.any fun t => t.lock.any fun l => l.1 == m
    if busy then drainDone (discard d m) m else discard d m) d
  raiseEv { d with fab := { d.fab with layer := 2, layerSince := d.now, entries := sat32 (d.fab.entries + 1) } } EV.fabRecovery [a4 1]

/-- MATRIX_HANG (R532): for 1 ms no target has granted while requests waited. -/
def execMatrixHang : Meaning := onDev fun d =>
  if d.fab.layer = 0 ∧ d.fab.lastGrant + 1966080 ≤ d.now ∧ d.fab.waiting.any (fun w => decide (w.since + 1966080 ≤ d.now)) then enterRecovery d else d

/-- RECOVERY_EXIT (R532): the sparse matrix returns when it passes its self-test; FAB-RECOVER answers its time. -/
def execRecoveryExit (pass : Bool) : Meaning := onDev fun d =>
  if d.fab.layer ≠ 2 ∨ !pass then d
  else
    let us := ticksUs (d.now - d.fab.layerSince)
    let d := raiseEv { d with fab := { d.fab with layer := 0 } } EV.fabRecovery [a4 2]
    fabWake (complete d (fun r => r.wait == .fabRecover) fun _ => { fields := [fld 4 us] })

/-- REGION_INIT_DONE (R486, R592): the requests that waited for the region go on. -/
def execRegionInitDone (region : Nat) : Meaning := onDev fun d => qsRun (fabWake (regionDone d region))

/-- SELF_REFRESH_EXIT (R511): the request that made the controllers leave self-refresh goes on. -/
def execSelfRefreshExit : Meaning := onDev fun d =>
  if d.mem.selfRefresh && d.mem.autoExit && domOn d 9 then fabWake (d.onMem fun m => { m with selfRefresh := false }) else d

/-! ### Commands (R551) -/

/-- FAB-STATUS. -/
def execFabStatus (h : Hdr) : Meaning :=
  query (ask 0x0D00 [4, 1, 4]) h (.fabStatus h) noCheck fun d =>
    [fld 4 d.fab.mode, fld 1 (d.fab.targets.zipIdx.map fun (t, k) => b2n t.faulted * 2 ^ k).sum, fld 4 d.fab.entries]

/-- FAB-HOLD-GET (R531). -/
def execFabHoldGet (h : Hdr) : Meaning :=
  query (ask 0x0D01 (List.replicate 15 4)) h (.fabHoldGet h) noCheck fun d => (List.range 15).map fun n => fld 4 (mstStatus d n)

/-- FAB-PRIO-SET (R523). -/
def execFabPrioSet (h : Hdr) (master prio age : Nat) : Meaning :=
  hostCmd (cmd 0x0D02) h (.fabPrioSet h master prio age)
    (fun _ => firstBad [(decide (14 < master) || decide (age < 16) || decide (4096 < age), ST.fabArg)])
    (just fun d => (d.onMaster master fun m => { m with prio := prio }) |> fun d => { d with fab := { d.fab with ageLimit := age } })

/-- FAB-TIMING-SET (R526, R534). -/
def execFabTimingSet (h : Hdr) (target timeout drain : Nat) : Meaning :=
  hostCmd (cmd 0x0D03) h (.fabTimingSet h target timeout drain)
    (fun _ => firstBad [(decide (7 < target) || decide (timeout < 1) || decide (1000 < timeout) || decide (drain < 1) || decide (1000 < drain), ST.fabArg)])
    (just fun d => (d.onTarget target fun t => { t with timeout := timeout }) |> fun d => { d with fab := { d.fab with drainLimit := drain } })

/-- FAB-TARGET-RESET (R526). -/
def execFabTargetReset (h : Hdr) (target : Nat) : Meaning :=
  hostCmd (cmd 0x0D04) h (.fabTargetReset h target) (fun _ => firstBad [(decide (7 < target), ST.fabArg)])
    (just fun d => d.onTarget target fun t => { t with faulted := false })

/-- FAB-RECOVER (R532): the response follows the self-test. -/
def execFabRecover (h : Hdr) : Meaning :=
  hostCmd (cmd 0x0D05 [4]) h (.fabRecover h) (fun d => firstBad [(d.fab.layer != 0, ST.fabRecovery)])
    fun d => { dev := enterRecovery d, wait := some .fabRecover }

/-- FAB-COUNTERS. -/
def execFabCounters (h : Hdr) (clear : Nat) : Meaning :=
  hostCmd (askClear 0x0D06 clear (List.replicate 76 4 ++ [8])) h (.fabCounters h clear) (fun _ => firstBad [(decide (1 < clear), ST.badArg)])
    fun d =>
      { dev := if clear = 1 then { d with fab := { d.fab with
          masters := d.fab.masters.map fun m => { m with counts := [0, 0, 0, 0, 0] }, forced := 0, lost := 0 } } else d
        reply := { fields := (d.fab.masters.flatMap fun m => m.counts.map fun n => fld 4 (sat32 n)) ++ [fld 4 (sat32 d.fab.forced), fld 8 d.fab.lost] } }

end Sys2Proof.Machine
end

