-- ==== Sys2Proof/Machine/Dma.lean ====
section
/-! DEFINITION. The DMA engine (R536 to R550) and its commands (R551, R552): the fetch of a descriptor, its bursts, its
completion and the chain, as master M10 of the matrix. -/

namespace Sys2Proof.Machine

/-- A little-endian number of `n` bytes at an offset. -/
def leAt (b : List Nat) (k n : Nat) : Nat := ((List.range n).map fun i => nth b (k + i) % 256 * 256 ^ i).sum

/-- A request of the engine or of a core done at once: the kind of an error response and the answer; none while it would be
held (R530). -/
def busDo (d : Dev) (r : FabReq) : Option (Option Nat × FabResp × Dev) :=
  match takeReq d d.fab.waiting r 0 with
  | .held _ _ => none
  | .error k => some (some k, errorResp r, fabError d r k)
  | .served t =>
    let (resp, d) := perform d t r
    some (none, resp, relock d t r)

/-- R547: the status code of an error response. -/
def codeOf (kind : Nat) : Nat := nth [1, 3, 2] kind

/-- R539: a descriptor from its 64 bytes. -/
def descOf (b : List Nat) : Desc :=
  { src := leAt b 0 8, dst := leAt b 8 8, elemLen := leAt b 16 2, n0 := leAt b 18 2, n1 := leAt b 20 2, n2 := leAt b 22 2
    srcS := [toSigned 32 (leAt b 24 4), toSigned 32 (leAt b 28 4), toSigned 32 (leAt b 32 4)]
    dstS := [toSigned 32 (leAt b 36 4), toSigned 32 (leAt b 40 4), toSigned 32 (leAt b 44 4)]
    link := leAt b 48 8, ctl := leAt b 56 4, result := leAt b 60 4 }

end Sys2Proof.Machine

namespace Sys2Proof

open Machine

/-- R539: the 64 bytes of a descriptor. -/
def Desc.bytes (x : Desc) : List Nat :=
  leBytes 8 x.src ++ leBytes 8 x.dst ++ leBytes 2 x.elemLen ++ leBytes 2 x.n0 ++ leBytes 2 x.n1 ++ leBytes 2 x.n2
    ++ (x.srcS ++ x.dstS).flatMap (fun s => leBytes 4 (ofSigned 32 s)) ++ leBytes 8 x.link ++ leBytes 4 x.ctl ++ leBytes 4 x.result

/-- R540: the bytes a descriptor moves, and its elements. -/
def Desc.elems (x : Desc) : Nat := x.n0 * x.n1 * x.n2
def Desc.total (x : Desc) : Nat := x.elemLen * x.elems

/-- R539 to R541: whether a descriptor's fields are valid. -/
def Desc.ok (x : Desc) : Bool :=
  decide (x.src < 2 ^ 40) && decide (x.dst < 2 ^ 40) && decide (1 ≤ x.elemLen) && decide (1 ≤ x.n0) && decide (1 ≤ x.n1) && decide (1 ≤ x.n2)
    && decide (x.link < 2 ^ 40) && x.link / 2 % 32 == 0 && decide (x.total < 2 ^ 32) && x.ctl % 65536 == 0 && bitsOf x.ctl 27 24 == 0
    && bitsOf x.ctl 21 20 != 3

/-- R540: the offset of an element by its strides. -/
def Desc.off (s : List Int) (i0 i1 i2 : Nat) : Int := i0 * nth s 0 + i1 * nth s 1 + i2 * nth s 2

/-- The lowest and the highest byte that one side of a descriptor touches. -/
def Desc.extent (x : Desc) (base : Nat) (s : List Int) : Int × Int :=
  let ends := [(x.n0, nth s 0), (x.n1, nth s 1), (x.n2, nth s 2)].map fun (n, t) => ((n : Int) - 1) * t
  (base + (ends.map fun e => min 0 e).sum, base + (ends.map fun e => max 0 e).sum + x.elemLen - 1)

end Sys2Proof

namespace Sys2Proof.Machine

/-- R537: whether a span lies where a host channel may go. -/
def hostMay (a n : Nat) : Bool :=
  (decide (0x1040000000 ≤ a) && decide (a + n ≤ 0x2000000000)) || (decide (0x200000000 ≤ a) && decide (a + n ≤ 0x201000000))
    || (decide (0x300000000 ≤ a) && decide (a + n ≤ 0x308000000)) || (decide (0x101000000 ≤ a) && decide (a + n ≤ 0x102000000))

/-- R537: whether a channel may address a span; a host's own descriptors lie where Ribel put them. -/
def chanMay (d : Dev) (c : DmaCh) (a n : Nat) (write desc : Bool) : Bool :=
  if c.owner = 1 then desc || hostMay a n
  else if 4 ≤ c.owner ∧ c.owner ≤ 7 then windowMay (nth d.cores c.owner) a n write
  else true

/-- An address of an element, beyond the address space where it is negative. -/
def elemAddr (base : Nat) (o : Int) (pos : Nat) : Nat := if (base : Int) + o < 0 then 2 ^ 41 else ((base : Int) + o).toNat + pos

/-- R546: the link of the last descriptor read again: the channel fetches the next descriptor, or stays parked. -/
def rereadLink (d : Dev) (n : Nat) : Dev :=
  let c := nth d.dma n
  match busDo d { master := 10, addr := c.desc + 48, len := 8 } with
  | none => d
  | some (some k, _, d) => chanStop d n (codeOf k)
  | some (none, r, d) =>
    let l := leAt r.data 0 8
    if l % 2 = 1 then d.onChan n fun c => { c with st := 3, reread := false }
    else d.onChan n fun c => { c with st := 1, reread := false, desc := l / 64 * 64 % 2 ^ 40, fetched := none }

/-- R539, R546: the descriptor at the channel's address is fetched and the append count sampled. -/
def fetchDesc (d : Dev) (n : Nat) : Dev :=
  let c := nth d.dma n
  if !chanMay d c c.desc 64 false true then chanStop d n 1
  else match busDo d { master := 10, addr := c.desc, len := 64 } with
    | none => d
    | some (some k, _, d) => chanStop d n (codeOf k)
    | some (none, r, d) =>
      let x := descOf r.data
      if !r.thorn.isEmpty && c.halt then chanStop d n 6
      else if !x.ok then chanStop d n 5
      else d.onChan n fun c =>
        let c := { c with
          st := 2, fetched := some x, sample := c.append, resid := x.total, i0 := 0, i1 := 0, i2 := 0, pos := 0
          thornSeen := c.thornSeen || !r.thorn.isEmpty }
        if x.ctl.testBit 19 then c else { c with crc := 0xFFFFFFFF, sum := 0, odd := false, sumThorn := false }

/-- DESCRIPTOR_FETCH (R546). -/
def execDescriptorFetch (chan : Nat) : Meaning := onDev fun d =>
  let c := nth d.dma chan
  if !c.enable || c.st != 1 then d
  else if c.reread then rereadLink d chan
  else fetchDesc d chan

/-- R542, R119: bytes taken into the running CRC-32C register. -/
def crcBytes (c : Nat) (l : List Nat) : Nat :=
  let step8 (c : Nat) : Nat := crcStep (crcStep (crcStep (crcStep (crcStep (crcStep (crcStep (crcStep c)))))))
  l.foldl (fun c b => step8 (Nat.xor c b)) c

/-- R542: bytes taken into the running ones'-complement sum of RFC 1071, and whether the next byte is an odd one. -/
def onesSum (s : Nat × Bool) (l : List Nat) : Nat × Bool :=
  l.foldl (fun (x : Nat × Bool) b =>
    let v := x.1 + (if x.2 then b else b * 256)
    ((if 65535 < v then v - 65535 else v), !x.2)) s

/-- R544: the place of the next element in loop order. -/
def elemIndex (c : DmaCh) (x : Desc) : Nat := c.i0 + x.n0 * (c.i1 + x.n1 * c.i2)

/-- R540: the channel after the element at work is done. -/
def DmaCh.nextElem (c : DmaCh) (x : Desc) : DmaCh :=
  if c.i0 + 1 < x.n0 then { c with i0 := c.i0 + 1, pos := 0 }
  else if c.i1 + 1 < x.n1 then { c with i0 := 0, i1 := c.i1 + 1, pos := 0 }
  else { c with i0 := 0, i1 := 0, i2 := c.i2 + 1, pos := 0 }

/-- R540, R542, R544: the channel after `n` bytes of the element at work have moved. -/
def DmaCh.moved (c : DmaCh) (x : Desc) (n : Nat) (r : FabResp) (half : Bool) : DmaCh :=
  let s := onesSum (c.sum, c.odd) r.data
  let c := { c with
    crc := crcBytes c.crc r.data, sum := s.1, odd := s.2, resid := c.resid - n, pos := c.pos + n
    sumThorn := c.sumThorn || !r.thorn.isEmpty, thornSeen := c.thornSeen || !r.thorn.isEmpty }
  if c.pos < x.elemLen then c else { c.nextElem x with half := c.half || half }

/-- R538, R540: the next burst of a channel: its source, its destination and its length, up to a 512-byte boundary on either side. -/
def burstOf (c : DmaCh) (x : Desc) : Nat × Nat × Nat :=
  let a := elemAddr x.src (Desc.off x.srcS c.i0 c.i1 c.i2) c.pos
  let b := elemAddr x.dst (Desc.off x.dstS c.i0 c.i1 c.i2) c.pos
  (a, b, min (x.elemLen - c.pos) (min (512 - a % 512) (512 - b % 512)))

/-- Whether the matrix would hold a request back now (R530). -/
def heldBack (d : Dev) (r : FabReq) : Bool :=
  match takeReq d d.fab.waiting r 0 with
  | .held _ _ => true
  | _ => false

/-- R538: whether a channel has a burst for the engine to grant. -/
def burstAble (d : Dev) (n : Nat) : Bool :=
  let c := nth d.dma n
  match c.fetched with
  | none => false
  | some x =>
    let (a, b, k) := burstOf c x
    c.enable && c.st == 2 && decide (c.i2 < x.n2) && !heldBack d { master := 10, addr := a, len := k } && !heldBack d { master := 10, addr := b, len := k, write := true }

/-- R538: the place of a channel after the one that had the last burst. -/
def chanTurn (d : Dev) (n : Nat) : Nat := (n + 31 - d.fab.granted) % 32

/-- R538: whether the engine grants a channel: no other with a burst has a higher priority, or its turn before this one's. -/
def burstNext (d : Dev) (n : Nat) : Bool :=
  (List.range 32).all fun k => k == n || !burstAble d k || decide ((nth d.dma k).prio < (nth d.dma n).prio)
    || ((nth d.dma k).prio == (nth d.dma n).prio && decide (chanTurn d n < chanTurn d k))

/-- R507: the bytes of a burst in DRAM that pass a stream port assigned to the channel. -/
def chanPort (d : Dev) (port chan a n : Nat) : Dev :=
  let p := nth d.mem.ports port
  if p.assign = 1 ∧ p.chan = chan ∧ storeOf a = some 3 then d.portMoves port n else d

/-- DMA_BURST (R537, R538, R540, R542, R544, R547): the next bytes of the element at work are read and written. -/
def execDmaBurst (chan : Nat) : Meaning := onDev fun d0 =>
  let c := nth d0.dma chan
  match c.fetched with
  | none => d0
  | some x =>
    if !c.enable || c.st != 2 || decide (x.n2 ≤ c.i2) || !burstNext d0 chan then d0
    else
      let (a, b, n) := burstOf c x
      let d1 := { d0 with fab := { d0.fab with granted := chan } }
      if !chanMay d0 c a n false false || !chanMay d0 c b n true false then chanStop d1 chan 1
      else match busDo d1 { master := 10, addr := a, len := n } with
        | none => d0
        | some (some k, _, d) => chanStop d chan (codeOf k)
        | some (none, r, d) =>
          if !r.thorn.isEmpty && c.halt then chanStop d chan 6
          else
            let marked (i : Nat) : Bool := r.thorn.contains ((a + i) / 8 * 8)
            let th := ((List.range n).filter marked).map fun i => (b + i) / 8 - b / 8
            match busDo d { master := 10, addr := b, len := n, write := true, data := r.data, thorn := th.eraseDups } with
            | none => d0
            | some (some k, _, d) => chanStop d chan (codeOf k)
            | some (none, _, d) =>
              let d := chanPort (chanPort d 6 chan a n) 7 chan b n
              let half := decide (x.elemLen ≤ c.pos + n) && x.ctl.testBit 22 && elemIndex c x == (x.elems + 1) / 2 - 1
              (fun d => if half then chanIrq d chan else d) (d.onChan chan (·.moved x n r half))

/-- R545, R546: a channel after a descriptor: it fetches the next, or its chain has ended: it parks, or reads its last link
again where a doorbell has come since. -/
def descNext (d : Dev) (chan : Nat) (c : DmaCh) (x : Desc) : Dev :=
  if x.link % 2 = 0 then d.onChan chan fun c => { c with st := 1, desc := x.link }
  else
    let d := if c.owner = 1 then raiseEv d EV.dmaDone [a4 chan, a4 c.csum] else d
    if c.append = c.sample then d.onChan chan fun c => { c with st := 3 }
    else rereadLink (d.onChan chan fun c => { c with st := 1, reread := true }) chan

/-- DESCRIPTOR_COMPLETE (R542, R543, R545, R546, R552). -/
def execDescriptorComplete (chan : Nat) : Meaning := onDev fun d0 =>
  let c := nth d0.dma chan
  match c.fetched with
  | none => d0
  | some x =>
    if !c.enable || c.st != 2 || decide (c.i2 < x.n2) then d0
    else
      let b := elemAddr x.dst (Desc.off x.dstS (x.n0 - 1) (x.n1 - 1) (x.n2 - 1)) x.elemLen
      let put : Option (Option Nat × Dev) :=
        if !x.ctl.testBit 18 || bitsOf x.ctl 21 20 == 0 then some (none, d0)
        else if !chanMay d0 c b 4 true false then some (some 0, d0)
        else (busDo d0 { master := 10, addr := b, len := 4, write := true, data := leBytes 4 c.csum,
                         thorn := if c.sumThorn then [0, (b % 8 + 3) / 8].eraseDups else [] }).map fun (k, _, d) => (k, d)
      match put with
      | none => d0
      | some (some k, d) => chanStop d chan (codeOf k)
      | some (none, d) =>
        let d := (writeBack d chan 0 true).onChan chan fun c => { c with
          last := 0, descCount := (c.descCount + 1) % 65536, full := c.full || x.ctl.testBit 23 }
        descNext (if x.ctl.testBit 23 then chanIrq d chan else d) chan c x

/-! ### Commands -/

/-- Where Ribel holds the descriptors of a host channel (R552). -/
def hostDescs (chan : Nat) : Nat := 0x100000000 + chan * 1024

/-- R537, R552: whether a descriptor of a host is valid. -/
def hostDescOk (x : Desc) : Bool :=
  let inside (e : Int × Int) : Bool := decide (0 ≤ e.1) && hostMay e.1.toNat 1 && hostMay e.2.toNat 1
  x.ok && x.link == 0 && inside (x.extent x.src x.srcS) && inside (x.extent x.dst x.dstS)

/-- Whether a channel can take a new chain (R552). -/
def DmaCh.isFree (c : DmaCh) : Bool := c.owner == 1 && (c.st == 0 || c.st == 5)

/-- DMA-RUN (R552). With every host channel busy the time to retry after is a free value. -/
def execDmaRun (h : Hdr) (chan : Nat) (descs : Descs) : Meaning :=
  hostCmd (cmd 0x0D10) h (.dmaRun h chan descs)
    (fun d => firstBad [
      (decide (chan < 16) || decide (23 < chan) || descs.list.isEmpty || decide (16 < descs.list.length), ST.fabArg),
      (!descs.list.all hostDescOk, ST.dmaDesc), (d.fab.layer != 0, ST.fabRecovery),
      ((d.dma.any DmaCh.isFree) && !(nth d.dma chan).isFree, ST.dmaChState)])
    fun d =>
      if !d.dma.any DmaCh.isFree then
        let (us, d) := d.fresh 4
        { dev := d, reply := { status := ST.dmaNoChannel, retry := us } }
      else
        let base := hostDescs chan
        let n := descs.list.length
        let image := descs.list.zipIdx.flatMap fun (x, k) => { x with link := base + 64 * (min (k + 1) (n - 1)) + (if k + 1 = n then 1 else 0) }.bytes
        { dev := chanEnable ((writeSpan d base image [] []).onChan chan fun c => { c with enable := false, desc := base }) chan }

/-- DMA-CH-STATUS. -/
def execDmaChStatus (h : Hdr) (chan : Nat) : Meaning :=
  query (ask 0x0D11 [4, 5, 4, 2, 2, 2, 4]) h (.dmaChStatus h chan) (fun _ => firstBad [(decide (31 < chan), ST.fabArg)]) fun d =>
    let c := nth d.dma chan
    [fld 4 c.statusWord, fld 5 c.desc, fld 4 c.resid, fld 2 c.i0, fld 2 c.i1, fld 2 c.i2, fld 4 c.csum]

/-- DMA-CH-STOP (R549, R552). -/
def execDmaChStop (h : Hdr) (chan : Nat) : Meaning :=
  hostCmd (cmd 0x0D12 [4]) h (.dmaChStop h chan)
    (fun d => firstBad [(decide (31 < chan), ST.fabArg), ((nth d.dma chan).owner != 1, ST.dmaChState)])
    fun d => { dev := chanDisable d chan, reply := { fields := [fld 4 (nth d.dma chan).resid] } }

/-- A channel is assigned to a core, or to none (R536). -/
def assignChan (d : Dev) (chan core : Nat) : Dev :=
  { d.onChan chan fun c => { c with owner := if core = 0xFF then 15 else core } with
    cores := d.cores.zipIdx.map fun (c, n) =>
      let l := c.chans.filter (· != chan)
      { c with chans := if n = core then l ++ [chan] else l } }

/-- DMA-CH-ASSIGN (R536, R552). -/
def execDmaChAssign (h : Hdr) (chan core : Nat) : Meaning :=
  hostCmd (cmd 0x0D13) h (.dmaChAssign h chan core)
    (fun d => firstBad [(decide (chan < 24) || decide (31 < chan) || (core != 0xFF && (decide (core < 4) || decide (7 < core))), ST.fabArg),
      ((nth d.dma chan).enable, ST.dmaChState)])
    (just fun d => assignChan d chan core)

end Sys2Proof.Machine
end

