-- ==== Sys2Proof/Machine/Applet.lean ====
section
/-! DEFINITION. Applets (R554, R559, R560, R579 to R587): the image, loading, starting, stopping and faulting a core, its
transfers, and the commands. -/

namespace Sys2Proof.Machine

def Dev.onCore (d : Dev) (n : Nat) (f : Core → Core) : Dev := { d with cores := upd d.cores n f }

/-- The keys of a core's data memory and program memory. -/
def dataKey (n : Nat) : Nat := localKey + n * 0x100000
def progKey (n : Nat) : Nat := dataKey n + 0x80000

/-! ### The image (R580) -/

/-- The header of an image, the windows' bases taken from the command. -/
def imageOf (b : List Nat) (bases : List Nat) : AppletImg :=
  { version := beAt b 4 4, entry := beAt b 16 2, irqEntry := beAt b 18 2, watchdog := beAt b 20 4, imaskInit := beAt b 26 1, sports := beAt b 25 1
    windows := (List.range 4).map fun k =>
      let o := 28 + 8 * k
      { size := beAt b o 4, access := beAt b (o + 4) 1, target := beAt b (o + 5) 1, base := nth bases k }
    name := (b.drop 108).take 20, hash := beAt b 60 48 }

/-- R580: whether an image's header is in range, its lengths are consistent and its sections have their hash. -/
def imageOk (b : List Nat) : Bool :=
  let prog := beAt b 10 2
  let data := beAt b 12 4
  decide (128 ≤ b.length) && beAt b 0 2 == 0x4150 && beAt b 2 1 == 1 && beAt b 3 1 == 0 && decide (1 ≤ prog) && decide (prog ≤ 16384)
    && decide (data ≤ 524288) && data % 8 == 0 && decide (beAt b 16 2 < 16384) && decide (beAt b 18 2 < 16384) && decide (beAt b 24 1 ≤ 2)
    && decide (beAt b 25 1 ≤ 3) && decide (beAt b 26 1 ≤ 0x7F) && beAt b 27 1 == 0
    && ((List.range 4).all fun k =>
      let o := 28 + 8 * k
      decide (beAt b o 4 ≤ 8192) && decide (beAt b (o + 4) 1 ≤ 2) && beAt b (o + 6) 2 == 0
        && (beAt b (o + 4) 1 == 0 || (decide (1 ≤ beAt b (o + 5) 1) && decide (beAt b (o + 5) 1 ≤ 4))))
    && b.length == 128 + 8 * prog + data + 3876 && sha384 ((b.drop 128).take (8 * prog + data)) == beAt b 60 48

/-- R581 step 3, R629: whether an image is signed by a slot that may sign applets. -/
def appletSigned (d : Dev) (b : List Nat) (hss : Bool) : Bool := (signSlot b).any (mayApplet d) && keysMatch d b && ecdsaOk b && hss

/-- Whether a window maps anything. -/
def Window.used (w : Window) : Bool := w.access != 0 && w.size != 0

/-- R559: whether a window lies wholly inside what its target and access allow. -/
def Window.placed (w : Window) : Bool :=
  let e := w.base + w.size * 65536
  w.base % 65536 == 0 && (match w.target with
    | 1 => decide (0x1040000000 ≤ w.base) && decide (e ≤ 0x2000000000)
    | 2 => decide (0x101000000 ≤ w.base) && decide (e ≤ 0x102000000)
    | 3 => w.access == 1 && decide (0x200000000 ≤ w.base) && decide (e ≤ 0x201000000)
    | _ => w.access == 1 && decide (0x300000000 ≤ w.base) && decide (e ≤ 0x308000000))

/-- Whether two windows share a byte. -/
def Window.meets (a b : Window) : Bool := decide (a.base < b.base + b.size * 65536) && decide (b.base < a.base + a.size * 65536)

/-- R559, R488: the pages of the unit's own allocations, as windows: in each region the first that no applet's window covers. -/
def ownPages (d : Dev) : List Window :=
  (allocations d).zipIdx.flatMap fun (n, k) =>
    let free := (List.range 819).filter fun i => !underWindow (dramWindows d) (0x1000000000 + k * 0x40000000 + i * 1048576)
    (free.take (ceilDiv n 1048576)).map fun i => { size := 16, access := 1, target := 1, base := 0x1000000000 + k * 0x40000000 + i * 1048576 }

/-- R559: whether an image's windows may be mapped for a core. -/
def windowsOk (d : Dev) (core : Nat) (ws : List Window) : Bool :=
  let ws := ws.filter Window.used
  let others := (d.cores.zipIdx.filter fun (_, n) => n != core).flatMap fun (c, _) => c.img.windows.filter fun w => w.used && w.access == 2
  ws.all fun w => w.placed && !(ownPages d).any w.meets && !(w.access == 2 && others.any w.meets)

/-- The free channels of 24 to 31, lowest first (R581). -/
def freeChannels (d : Dev) : List Nat := (List.range 8).map (· + 24) |>.filter fun n => (nth d.dma n).owner == 15 && !(nth d.dma n).enable

/-- R581 steps 2 to 6 on the bytes of an image. -/
def appletCheck (d : Dev) (core : Nat) (b bases : List Nat) (hss : Bool) : Option Reply :=
  let img := imageOf b bases
  firstBad [
    (!imageOk b, ST.appletImage), (!appletSigned d b hss, ST.appletSignature),
    (decide (beAt b 8 2 < d.nvm.appletCounter), ST.appletRollback),
    (!windowsOk d core img.windows, ST.appletWindow),
    (decide ((freeChannels d).length < beAt b 24 1) || (img.sports.testBit 0 && ((nth d.mem.ports 6).assign != 2 || (nth d.mem.ports 6).chan != core))
      || (img.sports.testBit 1 && ((nth d.mem.ports 7).assign != 2 || (nth d.mem.ports 7).chan != core)), ST.appletResource)]

/-- R581: an image that passed every check is loaded. -/
def appletPut (d : Dev) (core : Nat) (b bases : List Nat) : Dev :=
  let prog := 8 * beAt b 10 2
  let d := d.onMem (·.forget (dataKey core) (dataKey core + 0x100000))
  let d := writeSpan (writeSpan d (progKey core) ((b.drop 128).take prog) [] []) (dataKey core) ((b.drop (128 + prog)).take (beAt b 12 4)) [] []
  let img := imageOf b bases
  let d := d.onCore core fun c => { ({} : Core) with
    st := 1, bx := 39, imask := img.imaskInit, img := img, counts := c.counts, issued := c.issued
    loadSec := c.loadSec, loadNow := c.loadNow, loadPrev := c.loadPrev }
  ((freeChannels d).take (beAt b 24 1)).foldl (fun d n => assignChan d n core) d

/-! ### Start, stop, fault -/

/-- The cycles an applet has run since its start (R578). -/
def Core.cycles (c : Core) (now : Nat) : Nat := if c.st = 2 ∨ c.st = 3 then (now - c.startAt) / 2 else c.ran

/-- R583: an applet starts at its entry bundle. -/
def coreStart (d : Dev) (n : Nat) : Dev :=
  d.onCore n fun c => { c with
    st := 2, pc := c.img.entry, flags := 0, startAt := d.now, wdtAt := d.now, waitx := false, slot := 0, staged := [], ctl := .go
    redirects := [], inflight := [] }

/-- R583: the states a start is allowed in. -/
def Core.startable (c : Core) : Bool := c.st == 1 || c.st == 4 || c.st == 5

/-- A special register by its index (R564) written. -/
def Core.setSpec (c : Core) (i v : Nat) : Core :=
  if i < 8 then { c with p := upd c.p i fun _ => v % 2 ^ 20 }
  else if i < 16 then { c with ps := upd c.ps (i - 8) fun _ => v % 2 ^ 20 }
  else if i < 24 then { c with pm := upd c.pm (i - 16) fun _ => v % 2 ^ 20 }
  else if i < 32 then { c with pb := upd c.pb (i - 24) fun _ => v % 2 ^ 20 }
  else match i with
    | 32 => { c with lb := upd c.lb 0 fun _ => v % 16384 }
    | 33 => { c with le := upd c.le 0 fun _ => v % 16384 }
    | 34 => { c with lc := upd c.lc 0 fun _ => v }
    | 35 => { c with lb := upd c.lb 1 fun _ => v % 16384 }
    | 36 => { c with le := upd c.le 1 fun _ => v % 16384 }
    | 37 => { c with lc := upd c.lc 1 fun _ => v }
    | 38 => { c with flags := v % 64 }
    | 39 => { c with iflags := v % 64 }
    | 40 => { c with ipc := v % 16384 }
    | 41 => { c with lnk := v % 16384 }
    | 42 => { c with bx := v % 64 }
    | _ => c

/-- A bit of a word set or cleared. -/
def putBit (w bit : Nat) (on : Bool) : Nat := if w.testBit bit then (if on then w else w - 2 ^ bit) else (if on then w + 2 ^ bit else w)

/-- A result written (R572). -/
def Core.put (c : Core) (r : CoreRes) : Core :=
  match r with
  | .z n v => { c with z := upd c.z n fun _ => v }
  | .acc n re im _ => { c with a := upd c.a n fun _ => (re, im) }
  | .bx v => { c with bx := v }
  | .flag b on => { c with flags := putBit c.flags b on }
  | .spec i v => c.setSpec i v
  | .post n v => { c with p := upd c.p n fun _ => v }

/-- R572, R573: the results visible to bundle `n` and later are written, in the order of issue. -/
def Core.retire (c : Core) (n : Nat) : Core :=
  let due := c.inflight.filter fun e => decide (e.1 ≤ n)
  due.foldl (fun c e => c.put e.2) { c with inflight := c.inflight.filter fun e => decide (n < e.1) }

/-- Every result still to be written is written. -/
def Core.drain (c : Core) : Core := c.inflight.foldl (fun c e => c.put e.2) { c with inflight := [] }

/-- R549, R579, R584: the channels assigned to a core stop. -/
def stopChans (d : Dev) (n : Nat) : Dev := (nth d.cores n).chans.foldl chanDisable d

/-- R579: a core faults: no effect of the bundle at work, the results of earlier ones written, its channels stopped. -/
def coreFault (d : Dev) (n cause addr code : Nat) : Dev :=
  let d := stopChans d n
  let pc := (nth d.cores n).pc
  let d := d.onCore n fun c => { c.drain with
    st := 6, cause := cause, faultPc := pc, faultAddr := addr, faultAxis := d.axis, trap := code, ran := c.cycles d.now, staged := [], slot := 0
    redirects := [], ctl := .go, waitx := false, thornSeen := c.thornSeen || cause == 3
    counts := if cause = 3 then upd c.counts 2 (· + 1) else c.counts }
  raiseEv d EV.appletFault [a4 cause, a4 pc, a8 addr]

/-- R560, R579: the oldest transfer of a core is carried out: a read lands in data memory with its thorns; an error response
faults the core. When none is left `xfer_done` is set and a core in WAITX goes on. None while the matrix would hold it. -/
def transferDone (d : Dev) (n : Nat) : Option Dev :=
  match (nth d.cores n).xfers with
  | [] => none
  | x :: rest =>
    let r : FabReq := { master := 2 + n, addr := x.addr, len := 64, write := x.write, data := x.data, thorn := x.thorn }
    match busDo d r with
    | none => none
    | some (k, resp, d) =>
      let d := d.onCore n fun c => { c with xfers := rest, counts := upd c.counts 4 (· + 1) }
      if k.isSome then some (if (nth d.cores n).st = 2 ∨ (nth d.cores n).st = 3 then coreFault d n 6 x.addr 0 else d)
      else
        let th := resp.thorn.map fun w => dataKey n + x.off + (w - x.addr)
        let d := if x.write then d else writeSpan d (dataKey n + x.off) resp.data th []
        let d := if x.write ∨ th.isEmpty then d else d.onCore n fun c => { c with thornSeen := true, counts := upd c.counts 2 (· + 1) }
        some (if rest.isEmpty then (coreIrq d n 6).onCore n fun c => if c.st = 3 ∧ c.waitx then { c with st := 2, waitx := false } else c else d)

/-- The transfers outstanding are carried out, as far as the matrix takes them; there are at most 8. -/
def transfersDone (d : Dev) (n : Nat) : Dev := (List.range 8).foldl (fun d _ => (transferDone d n).getD d) d

/-- R584: issue ends, the results in flight are written, the transfers complete and the channels stop. A bundle of which a slot
is still to come has not been issued. -/
def coreHalt (d : Dev) (n st : Nat) : Dev :=
  let d := stopChans (transfersDone d n) n
  d.onCore n fun c => { c.drain with
    st := st, ran := c.cycles d.now, slot := 0, staged := [], redirects := [], ctl := .go, waitx := false }

/-- R584: an applet is stopped by command. -/
def appletStop (d : Dev) (n : Nat) : Dev := raiseEv (coreHalt d n 4) EV.appletStopped [a4 n]

/-! ### Commands (R586) -/

/-- R586: a core argument of an applet command is 4 to 7. -/
def coreBad (core : Nat) : Bool := decide (core < 4) || decide (7 < core)

/-- Whether a core is RUNNING or WAITING. -/
def Core.live (c : Core) : Bool := c.st == 2 || c.st == 3

/-- The applet commands that act on a core in some states. -/
def coreCmd (info : CmdInfo) (h : Hdr) (i : Instr) (core : Nat) (ok : Core → Bool) (eff : Dev → Eff) : Meaning :=
  hostCmd info h i (fun d => firstBad [(coreBad core, ST.appletArg), (!ok (nth d.cores core), ST.appletState)]) eff

/-- The checks of APPLET-LOAD. -/
def appletLoadCheck (handle core : Nat) (bases : List Nat) (hss : Bool) (d : Dev) : Option Reply :=
  Checks.orElse
    (firstBad [(coreBad core, ST.appletArg), (d.fab.layer != 0, ST.fabRecovery), ((nth d.cores core).st != 0, ST.appletState), (!domOn d 6, ST.domainOff),
      ((nth d.mem.stores 4).failed, ST.memFailed)])
    (Checks.orElse (objCheck d handle 6)
      (Checks.orElse (match d.obj? handle with
          | some o => if o.thorns.isEmpty then none else refusal ST.thorn
          | none => none)
        (appletCheck d core (objBytes d handle) bases hss)))

/-- APPLET-LOAD (R581). -/
def execAppletLoad (h : Hdr) (handle core : Nat) (bases : List Nat) (hss : Bool) : Meaning :=
  hostCmd (cmd 0x0E00 [4, 1, 1]) h (.appletLoad h handle core bases hss)
    (appletLoadCheck handle core bases hss)
    fun d =>
      let b := objBytes d handle
      let d := consume (appletPut d core b bases) handle
      let ch := (nth d.cores core).chans
      { dev := d, reply := { fields := [fld 4 (beAt b 4 4), fld 1 (ch[0]?.getD 0xFF), fld 1 (ch[1]?.getD 0xFF)] } }

/-- APPLET-START (R583). -/
def execAppletStart (h : Hdr) (core : Nat) : Meaning :=
  coreCmd (cmd 0x0E01) h (.appletStart h core) core Core.startable (just fun d => coreStart d core)

/-- APPLET-STOP (R584). -/
def execAppletStop (h : Hdr) (core : Nat) : Meaning :=
  coreCmd (cmd 0x0E02 [2, 8]) h (.appletStop h core) core Core.live fun d =>
    let d := appletStop d core
    { dev := d, reply := { fields := [fld 2 (nth d.cores core).pc, fld 8 (nth d.cores core).ran] } }

/-- APPLET-UNLOAD (R584). -/
def execAppletUnload (h : Hdr) (core : Nat) : Meaning :=
  coreCmd (cmd 0x0E03) h (.appletUnload h core) core (fun c => c.st != 0)
    (just fun d =>
      let d := freeChans (if (nth d.cores core).live then appletStop d core else d) core
      (d.onMem (·.forget (dataKey core) (dataKey core + 0x100000))).onCore core fun c => { ({} : Core) with
        counts := c.counts, issued := c.issued, loadSec := c.loadSec, loadNow := c.loadNow, loadPrev := c.loadPrev })

/-- APPLET-STATUS. -/
def execAppletStatus (h : Hdr) (core : Nat) : Meaning :=
  query (ask 0x0E04 ([4, 1, 2, 2, 5, 8, 8] ++ List.replicate 20 1)) h (.appletStatus h core) (fun _ => firstBad [(coreBad core, ST.appletArg)]) fun d =>
    let c := nth d.cores core
    [fld 4 c.statusWord, fld 1 c.cause, fld 2 c.trap, fld 2 c.faultPc, fld 5 c.faultAddr, fld 8 c.faultAxis, fld 8 (c.cycles d.now)] ++ byteFields c.img.name

/-- APPLET-MSG (R586). -/
def execAppletMsg (h : Hdr) (core : Nat) (msg : List Nat) : Meaning :=
  coreCmd (cmd 0x0E05) h (.appletMsg h core msg) core Core.live (just fun d => coreIrq (d.onCore core fun c => { c with msgIn := msg }) core 1)

/-- R585: whether a span of data memory may be asked for. -/
def memArgBad (core offset len : Nat) : Bool :=
  coreBad core || offset % 8 != 0 || len == 0 || decide (8192 < len) || decide (0x80000 < offset + len)

/-- The answer to a read of a core's data memory from an address: the bytes, or ST_THORN with them where a word carries a thorn, its mark kept
(R122). -/
def memReadOut (a : Nat) (x : List Nat × List Nat × Dev) : Eff :=
  { dev := x.2.2, reply := { status := if x.2.1.isEmpty then 0 else ST.thorn, fields := byteFields x.1, thorn := x.2.1.map fun w => (w - a) / 8 } }

/-- APPLET-MEM-READ (R585): a thorned word draws ST_THORN with the data. -/
def execAppletMemRead (h : Hdr) (core offset len : Nat) : Meaning :=
  hostCmd (ask 0x0E06 (spanWidths 8192 len [1])) h (.appletMemRead h core offset len)
    (fun d => firstBad [(memArgBad core offset len, ST.appletArg), ((nth d.cores core).live, ST.appletState), (!domOn d 6, ST.domainOff)])
    fun d => memReadOut (dataKey core + offset) (readSpan d (dataKey core + offset) len)

/-- APPLET-MEM-WRITE (R585). -/
def execAppletMemWrite (h : Hdr) (core offset : Nat) (data : List Nat) : Meaning :=
  hostCmd (cmd 0x0E07) h (.appletMemWrite h core offset data)
    (fun d => firstBad [(memArgBad core offset data.length, ST.appletArg), ((nth d.cores core).live, ST.appletState), (!domOn d 6, ST.domainOff)])
    (just fun d => writeSpan d (dataKey core + offset) data [] [])

/-- R586: the issue load of a core over the last whole second of the axis clock, in 0.1 % of one bundle per cycle. -/
def Core.load (c : Core) (now : Nat) : Nat :=
  (if c.loadSec = now / tickHz then c.loadPrev else if c.loadSec + 1 = now / tickHz then c.loadNow else 0) * 1000 / 983040000

/-- CORE-STATUS; the issue load of C0 to C3, which run Ribel, is a free value. -/
def execCoreStatus (h : Hdr) : Meaning :=
  hostCmd (ask 0x0E08 (List.replicate 8 4 ++ List.replicate 8 2)) h (.coreStatus h) noCheck fun d =>
    let (l, d') := freshMany 4 d
    { dev := d', reply := { fields := d.cores.map (fun c => fld 4 c.statusWord) ++ (l.map fun n => fld 2 (n % 1001)) ++ (d.cores.drop 4).map fun c => fld 2 (c.load d.now) } }

/-- APPLET-COUNTERS. -/
def execAppletCounters (h : Hdr) (core clear : Nat) : Meaning :=
  hostCmd (askClear 0x0E09 clear [8, 4, 4, 4, 4, 4, 4]) h (.appletCounters h core clear)
    (fun _ => firstBad [(coreBad core, ST.appletArg), (decide (1 < clear), ST.badArg)])
    fun d =>
      let c := nth d.cores core
      { dev := if clear = 1 then d.onCore core fun c => { c with bundles := 0, counts := [0, 0, 0, 0, 0, 0] } else d
        reply := { fields := fld 8 c.bundles :: c.counts.map fun n => fld 4 (sat32 n) } }

/-! ### Stakes and happenings (R560, R578, R579, R583) -/

/-- APPLET_GO (R583). -/
def execAppletGo : Meaning := onDev (stakeAct 0x0E01 (fun d q => domOn d 6 && (nth d.cores (q.stake.target % 8)).startable) (fun d _ => d)
  fun d q => coreStart d (q.stake.target % 8))

/-- APPLET_TICK (R583): a loaded applet's `tick` is set. -/
def execAppletTick : Meaning := onDev (stakeAct 0x0E02 (fun d q => domOn d 6 && (nth d.cores (q.stake.target % 8)).live) (fun d _ => d)
  fun d q => coreIrq d (q.stake.target % 8) 0)

/-- TRANSFER_DONE (R560). -/
def execTransferDone (core : Nat) : Meaning := onDev fun d => (transferDone d core).getD d

/-- TRANSFER_ERROR (R579): an error response to the transfer at an address. -/
def execTransferError (core addr : Nat) : Meaning := onDev fun d =>
  if (nth d.cores core).live && (nth d.cores core).xfers.any (·.addr == addr) then
    coreFault (d.onCore core fun c => { c with xfers := c.xfers.eraseP (·.addr == addr) }) core 6 addr 0
  else d

/-- WATCHDOG_EXPIRY (R579, R580). -/
def execWatchdogExpiry (core : Nat) : Meaning := onDev fun d =>
  let c := nth d.cores core
  if c.live && c.img.watchdog != 0 && decide (c.wdtAt + 2048 * c.img.watchdog ≤ d.now) then coreFault d core 9 0 0 else d

/-- SPORT_MARK (R578): a port's level reaches its mark. -/
def execSportMark (core port : Nat) : Meaning := onDev fun d =>
  let c := nth d.cores core
  let level := (nth d.mem.ports port).fill * 128
  if port = 6 ∧ c.live ∧ c.img.sports.testBit 0 ∧ nth c.mark 0 ≤ level then coreIrq d core 4
  else if port = 7 ∧ c.live ∧ c.img.sports.testBit 1 ∧ level ≤ nth c.mark 1 then coreIrq d core 5
  else d

end Sys2Proof.Machine
end

