-- ==== Sys2Proof/Machine/Heat.lean ====
section
/-! DEFINITION. Chapter 17, what D0 does but for domains and supply: the bias DACs (R597 to R601, R615), housekeeping (R602 to
R604), temperature sensors, shutdown and broken sensors (R605 to R609), and throttling with its gaps (R610 to R612). -/

namespace Sys2Proof.Machine

/-! ### Bias DACs -/

/-- R597: the output of a DAC in mV, rounded half to even. -/
def Dac.mv (x : Dac) : Int :=
  match x.span with
  | 0 => divHalfEven (6000 * (x.code : Int)) 65536
  | 1 => -divHalfEven (6000 * (x.code : Int)) 65536
  | _ => divHalfEven (3000 * ((x.code : Int) - 32768)) 32768

/-- R601: whether a code of a DAC lies above its gate floor; only BD has one. -/
def overFloor (d : Dev) (dac code : Nat) : Bool := decide (dac < 64) && decide (code < (nth d.pwr.dacs dac).floor)

/-- R597, R614: the DACs a command may set: BM6 and BM7 are reserved. -/
def dacBad (dac : Nat) : Bool := decide (133 < dac)

/-- The checks of BIAS-SET. -/
def biasSetCheck (dac code span : Nat) (d : Dev) : Option Reply :=
  let x := nth d.pwr.dacs dac
  let fixed := if dac < 64 then 1 else 0
  let first := (x.queue.map (·.1)).min?.getD d.axis
  Checks.orElse (firstBad [
    (dacBad dac || overFloor d dac code || decide (65535 < code), ST.pwrArg),
    (span != 0xFF && (if dac < 128 then span != fixed else decide (2 < span)), ST.pwrArg),
    (decide (dac < 64) && (d.txPath dac).gateMode == 1, ST.pwrInUse)])
    (if 32 ≤ x.queue.length then some { status := ST.biasFull, retry := ticksUs (first - d.axis), hint := first } else none)

/-- BIAS-SET (R601): one entry at the first queue step after commit. -/
def execBiasSet (h : Hdr) (dac code span : Nat) : Meaning :=
  hostCmd (cmd 0x0F10 [8]) h (.biasSet h dac code span)
    (biasSetCheck dac code span)
    (fun d =>
      let step := d.axis / 512 * 512 + 512
      let d := if span = 0xFF then d else d.onDac dac fun x => { x with span := span }
      { dev := biasPlace d dac step code, reply := { fields := [fld 8 step] } })

/-- BIAS-GET (R614). -/
def execBiasGet (h : Hdr) (dac : Nat) : Meaning :=
  query (ask 0x0F11 [4, 2, 4, 2]) h (.biasGet h dac) (fun _ => firstBad [(decide (135 < dac), ST.pwrArg)]) fun d =>
    let x := nth d.pwr.dacs dac
    [fld 4 x.word, fld 2 x.safe, sfld 4 x.mv, fld 2 (if dac < 64 then x.floor else 0)]

/-- BIAS-RAMP-LOAD (R615). -/
def execBiasRampLoad (h : Hdr) (dac : Nat) (codes : List Nat) : Meaning :=
  hostCmd (cmd 0x0F12) h (.biasRampLoad h dac codes)
    (fun d => firstBad [
      (dacBad dac || codes.isEmpty || decide (32 < codes.length) || codes.any (overFloor d dac), ST.pwrArg),
      ((queued d).any (fun q => q.stake.action == 0x0F02 && (biasDacs q.stake.target).contains dac), ST.pwrInUse)])
    (just fun d => d.onDac dac fun x => { x with ramp := codes })

/-- BIAS-SAFE-SET (R615). -/
def execBiasSafeSet (h : Hdr) (dac code : Nat) : Meaning :=
  hostCmd (cmd 0x0F13) h (.biasSafeSet h dac code)
    (fun d => firstBad [(dacBad dac || overFloor d dac code, ST.pwrArg)])
    (just fun d =>
      let d := d.onDac dac fun x => { x with safe := code }
      journal { d with nvm := { d.nvm with safe := upd d.nvm.safe dac fun _ => code } } 1 0x0005 dac (bytesOf [fld 2 code]) (.safe dac (nth d.nvm.safe dac)))

/-- BIAS_QUEUE_STEP (R598): at an axis position that is a multiple of 512 ticks the codes whose queue step has come leave the queues. -/
def execBiasQueueStep : Meaning := onDev fun d =>
  if d.axis % 512 ≠ 0 then d
  else (List.range 136).foldl (fun d n => d.onDac n fun x =>
    let due := x.queue.filter fun e => decide (e.1 ≤ d.axis)
    { x with code := due.foldl (fun _ e => e.2) x.code, queue := x.queue.filter fun e => decide (d.axis < e.1) }) d

/-- R68, R598, R599: the first prefetched bias stake enters its codes into the queues when it is of this action, one per queue step
from its own; a code that finds a queue full is dropped, and the stake takes R70, as a late one does. The modulators lie in D0, which is on
while the unit acts. -/
def biasStake (code : Nat) (codes : Dev → QStake → Nat → List Nat) (d : Dev) : Dev :=
  match stakesInOrder d (d.tmb.stakes.filter fun q => q.trig.isSome && (q.stake.action == 0x0F01 || q.stake.action == 0x0F02)) with
  | [] => d
  | q :: _ =>
    if q.stake.action ≠ code then d
    else
      let d := d.onTmb (·.advance q)
      if q.late then raiseLate d q
      else
        let dacs := biasDacs q.stake.target
        let full := dacs.any fun n => decide (32 < (nth d.pwr.dacs n).queue.length + (codes d q n).length)
        let d := dacs.foldl (fun d n =>
          (codes d q n).zipIdx.foldl (fun d (c, k) => biasPlace d n (q.trig.getD 0 + 512 * k) c) d) d
        if full then raiseLate d q else markDone d q

/-- BIAS_STEP: the code given, the path's gate on code, or the safe code. -/
def execBiasStep : Meaning := onDev (biasStake 0x0F01 fun d q n =>
  match bitsOf q.stake.argument 17 16 with
  | 0 => [q.stake.argument % 65536]
  | 1 => [gateOnCode d n]
  | _ => [(nth d.pwr.dacs n).safe])

/-- BIAS_RAMP: the loaded ramp. -/
def execBiasRamp : Meaning := onDev (biasStake 0x0F02 fun d _ n => (nth d.pwr.dacs n).ramp)

/-! ### Housekeeping -/

def Dev.onHk (d : Dev) (n : Nat) (f : Chan → Chan) : Dev := d.onPwr fun p => { p with chans := upd p.chans n f }

/-- A host window restarted (R604). -/
def Chan.restart (c : Chan) : Chan := { c with sum := 0, count := 0, lo := 0, hi := 0 }

/-- HK_LATCH (R598, R604). -/
def execHkLatch : Meaning :=
  onDev (stakeAct 0x0F03 (fun _ _ => true) (fun d _ => d) fun d _ => d.onPwr fun p => { p with chans := p.chans.map (·.restart) })

/-- R607: whether a conversion of an internal diode counts towards the comparison with 125 °C. -/
def counted (reading : Int) (openShort : Nat) : Bool := openShort == 0 && decide (reading ≤ 15000)

/-- R604, R607: a conversion enters a channel: its reading, the host window, the run of counted conversions at 125 °C and the
time since which it reads below 105 °C. -/
def Chan.convert (now : Nat) (reading : Int) (openShort : Nat) (c : Chan) : Chan :=
  let ok := counted reading openShort
  { c with
    last := reading, fault := openShort, sum := c.sum + reading, count := sat32 (c.count + 1)
    lo := if c.count = 0 then reading else min c.lo reading
    hi := if c.count = 0 then reading else max c.hi reading
    hotRun := if !ok then c.hotRun else if 12500 ≤ reading then c.hotRun + 1 else 0
    below105 := if !ok then c.below105 else if 10500 ≤ reading then none else match c.below105 with
      | some t => some t
      | none => some now }

/-- R607: the shutdown sequence from a temperature, counted. -/
def heatShutdown (d : Dev) (cause chan : Nat) (reading : Int) : Dev := if d.pwr.down then d else shutdown (d.pwrCount 1 1) cause chan reading

/-- R602: whether a converter's conversion has taken its 7.8125 us since the last. -/
def conversionDue (d : Dev) (chan : Nat) : Bool := (nth d.pwr.hkAt (chan / 128)).all fun t => decide (t + 15360 ≤ d.now)

/-- HK_CONVERSION (R602, R604, R607): two consecutive counted conversions of an internal diode at 125 °C shut the unit down. -/
def execHkConversion (chan : Nat) (reading : Int) (openShort : Nat) : Meaning := onDev fun d =>
  if domOn d 0 = false ∨ 255 < chan ∨ !conversionDue d chan then d
  else
    let d := (d.onHk chan (·.convert d.now reading openShort)).onPwr fun p => { p with hkAt := upd p.hkAt (chan / 128) fun _ => some d.now }
    if internalDiodes.contains chan ∧ 2 ≤ (nth d.pwr.chans chan).hotRun then heatShutdown d 1 chan reading else d

/-- HK-READ (R604): the mean rounded half to even, 0 for an empty window. -/
def execHkRead (h : Hdr) (first count clear : Nat) : Meaning :=
  hostCmd (askClear 0x0F20 clear (spanWidths 64 count [4, 4, 4, 4])) h (.hkRead h first count clear)
    (fun _ => firstBad [(count == 0 || decide (64 < count) || decide (256 < first + count), ST.pwrArg), (decide (1 < clear), ST.badArg)])
    fun d =>
      let ns := (List.range count).map (first + ·)
      { dev := if clear = 1 then ns.foldl (fun d n => d.onHk n (·.restart)) d else d,
        reply := { fields := ns.flatMap fun n =>
          let c := nth d.pwr.chans n
          [sfld 4 (if c.count = 0 then 0 else divHalfEven c.sum c.count), sfld 4 c.lo, sfld 4 c.hi, fld 4 c.count] } }

/-- HK-STATUS (R614). -/
def execHkStatus (h : Hdr) : Meaning :=
  query (ask 0x0F21 [4, 4, 8, 4]) h (.hkStatus h) noCheck fun d =>
    [sfld 4 (10 * (nth d.pwr.chans 0).last), sfld 4 (10 * (nth d.pwr.chans 128).last), fld 8 d.pwr.rounds, fld 4 d.pwr.suspects]

/-! ### Sensors -/

/-- The remote input of a channel, when it is enabled (R606). -/
def extOf (d : Dev) (n : Nat) : Option ExtIn := if 81 ≤ n ∧ n ≤ 84 ∧ (nth d.pwr.exts (n - 81)).enabled then some (nth d.pwr.exts (n - 81)) else none

/-- R605: the sensors: the internal diodes and the remote inputs enabled. -/
def sensors (d : Dev) : List Nat := internalDiodes ++ [81, 82, 83, 84].filter fun n => (extOf d n).isSome

/-- R608: the median of the PA diodes of a connector group, doubled: the sum of the two middle readings. -/
def median2 (d : Dev) (grp : Nat) : Int :=
  let rec ins (x : Int) : List Int → List Int
    | [] => [x]
    | y :: l => if x ≤ y then x :: y :: l else y :: ins x l
  let l := ((List.range 32).map fun k => (nth d.pwr.chans (grp * 32 + k + 1)).last).foldr ins []
  nth l 15 + nth l 16

/-- R608: whether a round's reading of a sensor is bad, given the medians of the two groups. -/
def badReading (d : Dev) (med : List Int) (n : Nat) : Bool :=
  let c := nth d.pwr.chans n
  let apart (m : Nat) : Bool := decide (300 < (c.last - (nth d.pwr.chans m).last).natAbs)
  c.fault != 0 || decide (c.last < -5500) || decide (15000 < c.last) || d.pwr.suspectAll
    || (decide (1 ≤ n ∧ n ≤ 64) && decide (2 * c.last + 10000 < nth med ((n - 1) / 32)))
    || (decide (65 ≤ n ∧ n ≤ 68) && apart (n + 136)) || (decide (201 ≤ n ∧ n ≤ 204) && apart (n - 136))

/-- R605, R609: what a sensor that has just broken brings about. -/
def sensorBreaks (d : Dev) (n : Nat) : Dev :=
  let d := raiseEv (d.onPwr fun p => { p with brokenSeen := true }) EV.thermBroken [a4 n, a4 1]
  if 1 ≤ n ∧ n ≤ 64 then (if (nth d.fe (n - 1)).protTx = 0 then txProtect d (n - 1) 3 else d)
  else if 69 ≤ n ∧ n ≤ 72 then { d with mem := { d.mem with derated := true } }
  else d

/-- R608, R609: what a recovered sensor brings about: a path whose diode held it in PROTECT is released. -/
def sensorRecovers (d : Dev) (n : Nat) : Dev :=
  let d := raiseEv d EV.thermBroken [a4 n, a4 2]
  if 1 ≤ n ∧ n ≤ 64 then (if (nth d.fe (n - 1)).protTx = 3 then protectRelease d (n - 1) else d)
  else if 69 ≤ n ∧ n ≤ 72 then
    { d with mem := { d.mem with derated := [69, 70, 71, 72].any fun k => k != n && (nth d.pwr.chans k).broken } }
  else d

/-- R608: a sensor's runs of bad and of good rounds: broken after three bad ones, recovered after 1,000 good ones. -/
def judgeSensor (med : List Int) (d : Dev) (n : Nat) : Dev :=
  if badReading d med n then
    let c := nth d.pwr.chans n
    let d := d.onHk n fun c => { c with bad := c.bad + 1, good := 0, broken := c.broken || decide (2 ≤ c.bad) }
    if !c.broken && decide (2 ≤ c.bad) then sensorBreaks d n else d
  else
    let c := nth d.pwr.chans n
    let d := d.onHk n fun c => { c with bad := 0, good := c.good + 1, broken := c.broken && decide (c.good + 1 < 1000) }
    if c.broken && decide (1000 ≤ c.good + 1) then sensorRecovers d n else d

/-- R609: the first broken die diode, if there is one. -/
def brokenDie (d : Dev) : Option Nat := [65, 66, 67, 68, 201, 202, 203, 204].find? fun n => (nth d.pwr.chans n).broken

/-- R603: the two references of a round compared. -/
def judgeRefs (d : Dev) : Dev :=
  if 6 < ((nth d.pwr.chans 0).last - (nth d.pwr.chans 128).last).natAbs then
    let d := d.onPwr fun p => { p with disagree := p.disagree + 1, agree := 0 }
    if d.pwr.disagree < 3 ∨ d.pwr.suspect then d
    else raiseEv (d.onPwr fun p => { p with suspect := true, suspectSince := d.now, suspects := sat32 (p.suspects + 1) }) EV.hkSuspect []
  else d.onPwr fun p =>
    let agree := p.agree + 1
    { p with disagree := 0, agree := agree, suspect := p.suspect && decide (agree < 100), suspectAll := p.suspectAll && decide (agree < 100) }

/-- HK_SUSPECT_TIMEOUT (R603): after 1 s of suspicion every sensor counts as failing its cross-check. -/
def execHkSuspectTimeout : Meaning := onDev fun d =>
  if d.pwr.suspect ∧ d.pwr.suspectSince + tickHz ≤ d.now then d.onPwr fun p => { p with suspectAll := true } else d

/-! ### Throttle levels and gap plans -/

/-- R610: f(T) for a start temperature, both in 0.01 °C. -/
def heatLevel (start t : Int) : Nat := if t < start then 0 else min 8 (1 + ((t - start) / 200).toNat)

/-- R610: the start temperature of a sensor in 0.01 °C. -/
def startOf (d : Dev) (n : Nat) : Int :=
  match extOf d n with
  | some e => 100 * e.start
  | none => 100 * d.pwr.start

/-- R610: whether a sensor's next lower level holds now. -/
def cooler (start t : Int) (level : Nat) : Bool := decide (heatLevel start (t + 100) < level)

/-- R610: a round's level of a sensor: it rises at once, and the time its lower level has held starts or goes on. A broken
sensor, or one that shows no temperature, gives none. -/
def senseLevel (d : Dev) (n : Nat) : Dev :=
  let start := startOf d n
  d.onHk n fun c =>
    if c.broken then { c with level := 0, coolSince := none }
    else if c.fault ≠ 0 then c
    else
      let level := max c.level (heatLevel start c.last)
      { c with
        level := level
        coolSince := if !cooler start c.last level then none else match c.coolSince with
          | some t => some t
          | none => some d.now }

/-- R610, R611: the levels that now result: EV_THERM_LEVEL for each that changes, and a new plan from the first frame that
starts at least `frame_len` after now, announced with EV_THERM_GAP. -/
def relevel (d : Dev) : Dev :=
  let unitSensors := (sensors d).filter fun n => decide (64 < n)
  let unit := (unitSensors.map fun n => (nth d.pwr.chans n).level).foldl max (max d.pwr.capLevel (if forced8 d then 8 else 0))
  let paths := (List.range 64).map fun p => max unit (nth d.pwr.chans (p + 1)).level
  let oldUnit := d.pwr.unitLevel
  let oldPaths := d.pwr.pathLevels
  let follows (p : Nat) : Bool := nth paths p == unit && nth oldPaths p == oldUnit
  let moved := (List.range 64).filter fun p => nth paths p != nth oldPaths p && !follows p
  if unit = oldUnit ∧ paths = oldPaths then d
  else
    let frame := ceilDiv (d.axis + d.tmb.frameLen) d.tmb.frameLen
    let now := frameNo d d.axis
    let d := d.onPwr fun p => { p with
      unitLevel := unit, pathLevels := paths
      plan := ((p.plans.filter fun x => decide (x.frame ≤ now)).getLast?).getD p.plan
      plans := (p.plans.filter fun x => decide (now < x.frame) && x.frame != frame) ++ [{ frame := frame, unit := unit, paths := paths }] }
    let d := if unit = oldUnit then d else raiseEv d EV.thermLevel [a4 64, a4 unit]
    let d := moved.foldl (fun d p => raiseEv d EV.thermLevel [a4 p, a4 (nth paths p)]) d
    let d := if unit = oldUnit then d else raiseEv d EV.thermGap [a8 frame, a4 1, a8 0, a4 (partMask unit)]
    (List.range 9).foldl (fun d l =>
      let ps := moved.filter fun p => nth paths p == l
      if ps.isEmpty then d else raiseEv d EV.thermGap [a8 frame, a4 2, a8 ((ps.map (2 ^ ·)).sum), a4 (partMask l)]) d

/-- R238, R240: a path's correction in 0.01 dB: its table at the PA diode's temperature, linear between the 5 °C rows, and the
drain-voltage coefficient about 28 V. -/
def compTarget (d : Dev) (p : Nat) : Int :=
  let t := max 0 (min 16500 (paTemp d p + 4000))
  let i := (t / 500).toNat
  let rows := (d.txPath p).compTable.rows
  let a := (nth rows i).1
  let b := (nth rows (min 33 (i + 1))).1
  a + divHalfEven ((b - a) * (t - 500 * (i : Int))) 500
    + divHalfEven ((d.txPath p).compTable.coef * ((nth d.pwr.chans (88 + p / 32)).last - 28000)) 10000

/-- R238, R239: a path whose correction has changed takes it at its next chance. -/
def compTrack (d : Dev) (p : Nat) : Dev :=
  let t := compTarget d p
  d.onTx p fun x => { x with compPending := if t = x.comp then none else some t }

/-- HK_ROUND (R602 to R604, R608 to R611): a round of 1 ms ends: references, sensors and levels are judged, then the consumers take
its readings (R238, R399, R433). -/
def execHkRound : Meaning := onDev fun d =>
  if domOn d 0 = false ∨ d.pwr.roundAt.any (fun t => decide (d.now < t + 1966080)) then d
  else
    let d := judgeRefs (d.onPwr fun p => { p with rounds := p.rounds + 1, roundAt := some d.now })
    let med := [median2 d 0, median2 d 1]
    let d := (sensors d).foldl (judgeSensor med) d
    let d := (sensors d).foldl senseLevel d
    match brokenDie d with
    | some n => heatShutdown d 2 n (nth d.pwr.chans n).last
    | none =>
      let d := relevel d
      let d := calTemperature d
      let d := if domOn d 4 then (List.range 64).foldl compTrack d else d
      (List.range 64).foldl dpdJudge d

/-- THROTTLE_RELEASE (R610): a sensor's level falls by 1 once its lower level has held for 1 s, from 1 to 0 only 5 °C below
the start. -/
def execThrottleRelease (chan : Nat) : Meaning := onDev fun d =>
  let c := nth d.pwr.chans chan
  let start := startOf d chan
  match c.coolSince with
  | none => d
  | some t =>
    if c.level = 0 ∨ d.now < t + tickHz ∨ (c.level = 1 ∧ start - 500 ≤ c.last) ∨ !(sensors d).contains chan then d
    else relevel (d.onHk chan fun c => { c with
      level := c.level - 1, coolSince := if cooler start c.last (c.level - 1) then some d.now else none })

/-- R606: a remote input typed: EV_THERM_EXT where something is found. -/
def typeInput (d : Dev) (input kind : Nat) : Dev :=
  let d := d.onPwr fun p => { p with exts := upd p.exts input fun e => { e with kind := kind, typedAt := d.now } }
  if kind = 0 then d else raiseEv d EV.thermExt [a4 input, a4 kind]

/-- SENSOR_TYPING (R606): an enabled input that is broken is typed every 1 s. -/
def execSensorTyping (input kind : Nat) : Meaning := onDev fun d =>
  if (nth d.pwr.exts input).enabled = false ∨ 3 < kind ∨ 3 < input ∨ (nth d.pwr.chans (81 + input)).broken = false
    ∨ d.now < (nth d.pwr.exts input).typedAt + tickHz then d
  else typeInput d input kind

/-- The checks of THERM-CONFIG. -/
def thermConfigCheck (start : Nat) (inputs : ExtInputs) (_ : Dev) : Option Reply :=
  firstBad [
    (decide (start < 90) || decide (120 < start), ST.pwrArg),
    (inputs.list.any (fun e => decide (1 < e.enable) || (e.enable == 1 && (decide (e.start < 40) || decide (120 < e.start)))), ST.pwrArg)]

/-- THERM-CONFIG (R606, R610): the types it answers are what the measurement at enable finds, a free value; an input disabled
is ignored from then on. -/
def execThermConfig (h : Hdr) (start : Nat) (inputs : ExtInputs) : Meaning :=
  hostCmd (cmd 0x0F30 [1, 1, 1, 1]) h (.thermConfig h start inputs)
    (thermConfigCheck start inputs)
    (fun d =>
      let d := d.onPwr fun p => { p with start := start }
      let d := (List.range 4).foldl (fun d k =>
        let e := nth inputs.list k
        if e.enable = 1 then
          let (v, d) := d.fresh 1
          typeInput (d.onPwr fun p => { p with exts := upd p.exts k fun _ =>
            { enabled := true, start := e.start, b := if e.b = 0 then 3435 else e.b, r25 := if e.r25 = 0 then 10000 else e.r25 } }) k (v % 4)
        else (d.onPwr fun p => { p with exts := upd p.exts k fun x => { x with enabled := false, kind := 0 } }).onHk (81 + k) fun c =>
          { c with bad := 0, good := 0, broken := false, level := 0, coolSince := none }) d
      { dev := d, reply := { fields := d.pwr.exts.map fun e => fld 1 e.kind } })

/-- THERM-STATUS (R614): the plans are those of the unit; the path levels lie in nibbles, path 0 first. -/
def execThermStatus (h : Hdr) : Meaning :=
  query (ask 0x0F31 [4, 4, 32, 8, 2, 8, 2, 32]) h (.thermStatus h) noCheck fun d =>
    let now := frameNo d d.axis
    let a := planAt d now
    let b := ((d.pwr.plans.filter fun x => decide (now < x.frame)).head?).getD {}
    let broken := ((sensors d).filter fun n => (nth d.pwr.chans n).broken).map (2 ^ ·)
    [fld 4 (thermStatus d), sfld 4 (hottest d).2, fld 32 broken.sum, fld 8 a.frame, fld 2 (partMask a.unit), fld 8 b.frame, fld 2 (partMask b.unit),
     fld 32 (d.pwr.pathLevels.foldl (fun n l => 16 * n + l) 0)]

/-- R611: whether a level gives a part of the frame a gap. -/
def partGap (level part : Nat) : Bool := (gapParts.take level).contains part

/-- The paths with a gap in a part of a frame (R611, R612). -/
def gapPaths (d : Dev) (frame part : Nat) : List Nat :=
  let pl := planAt d frame
  (List.range 64).filter fun p => partGap (max pl.unit (nth pl.paths p)) part

/-- THROTTLE_GAP_START (R611, R612): at the start of a part that is a gap the gates of `gate_mode` 1 go to pinch-off as at a
close, until the gap's end; a frame with gaps is counted at its start. The operand is the part. -/
def execThrottleGapStart (part : Nat) : Meaning := onDev fun d =>
  let frame := frameNo d d.axis
  let start := frame * d.tmb.frameLen + part * (d.tmb.frameLen / 16)
  let pl := planAt d frame
  if d.axis ≠ start then d else
  let d := if part = 0 ∧ (0 < pl.unit ∨ pl.paths.any fun l => decide (0 < l)) then d.pwrCount 3 1 else d
  (gapPaths d frame part).foldl (fun d p =>
    let d := countMuted d p
    if txOpenNow d p then gateOnAt (gateOffAt d p start) p (gapEnd d p start) else d) d

/-- THROTTLE_GAP_END (R612): the paths radiate again, but for one whose gate is still at pinch-off (R231). -/
def execThrottleGapEnd (part : Nat) : Meaning := onDev fun d =>
  if d.axis ≠ frameNo d (d.axis - 1) * d.tmb.frameLen + (part + 1) * (d.tmb.frameLen / 16) then d
  else (gapPaths d (frameNo d (d.axis - 1)) part).foldl (fun d p =>
    if txOpenNow d p && !txMuted d p && !gateReady d p d.axis then
      raiseEv (d.onTx p fun x => { x with muteGate := true, gateOff := true }) EV.txGateOff [a4 p]
    else d) d

end Sys2Proof.Machine
end

