-- ==== Sys2Proof/Machine/Power.lean ====
section
/-! DEFINITION. Chapter 17, domains and supply: power states and their transitions (R592 to R596), the drain of a domain (R534),
the 48 V input and its cap (R588 to R591), restarts (R607, R646), domains borrowed (R426, R649), and PPS_OUT's drive fight
(R613). -/

namespace Sys2Proof.Machine

/-! ### Transitions (R592 to R595) -/

/-- R593: the steps from the domains that are on to a power state's; domains borrowed for a while stay. -/
def stepsTo (d : Dev) (target : Nat) : List (Nat × Bool) :=
  let want := stateDomains target
  ((onOrder.filter fun k => want.contains k && !domOn d k).map fun k => (k, true)) ++
    (onOrder.reverse.filter fun k => domOn d k && !want.contains k && !d.pwr.borrowed.contains k).map fun k => (k, false)

/-- R594 step 1: the DACs that take their safe code before D5 or D3 goes off. -/
def safeBank (dom : Nat) : List Nat := if dom = 5 then dacsOf 0 else if dom = 3 then dacsOf 1 else []

/-- R594 step 1: the position of the queue step at which the safe codes are taken. -/
def nextQueueStep (d : Dev) : Nat := d.axis / 512 * 512 + 512

/-- R594 step 1: the safe codes of a domain's DACs placed at the next queue step. -/
def placeSafe (d : Dev) (dom : Nat) : Dev :=
  (safeBank dom).foldl (fun d n => d.onDac n fun x => { x with queue := [(nextQueueStep d, x.safe)] }) d

/-- R594: when the fabric closes a domain that goes off: D5 and D3 2 us after the queue step of their safe codes. -/
def closeTime (d : Dev) (dom : Nat) : Nat := if (safeBank dom).isEmpty then d.now else d.now + (nextQueueStep d - d.axis) + 3933

/-- R594, R534: the step at hand begins: for a domain that goes off its safe codes are placed and the fabric closes it. -/
def openStep (d : Dev) : Dev :=
  match d.pwr.steps with
  | (dom, false) :: _ =>
    let d := placeSafe d dom
    fabWake (closeMasters { d with fab := { d.fab with closing := d.fab.closing ++ [(dom, closeTime d dom)] } } dom)
  | _ => d

/-- A transition to a power state begins, with the bound of R596 in us. -/
def beginTransition (d : Dev) (target bound : Nat) : Dev :=
  openStep (d.onPwr fun p => { p with
    target := target, steps := stepsTo d target, transEnd := d.now + ceilDiv (bound * tickHz) 1000000
    borrowed := p.borrowed.filter fun k => !(stateDomains target).contains k })

/-- R596: the bound of a transition in us, without forced stops. -/
def transitionUs (d : Dev) (target : Nat) : Nat :=
  ((stepsTo d target).map fun s => if s.2 then readyUs s.1 else 2 + d.fab.drainLimit).sum

/-- R596, R644, R650: a transition with no step left is complete: EV_PWR_STATE. Quickset starts in ARRAY, and is taken there. -/
def settle (d : Dev) : Dev :=
  if d.pwr.steps.isEmpty && d.ctl.phase == .running then
    let d := raiseEv (d.onPwr fun p => { p with state := p.target, transEnd := d.now }) EV.pwrState [a4 d.pwr.target]
    if d.qs.state ≠ 1 then d
    else if d.pwr.state = 4 then startQuickset d
    else beginTransition d 4 (transitionUs d 4)
  else openStep d

/-- The step at hand is done. -/
def stepDone (d : Dev) : Dev := settle (d.onPwr fun p => { p with steps := p.steps.tail })

/-- R32: with D1 cut the unit is in HOLD, and nothing of the domains above remains. -/
def toHold (d : Dev) : Dev := let d := d.restart false; { d with ctl := { d.ctl with phase := .held } }

/-- R594 step 3: the domain of the step at hand, which the fabric has drained, is cut. -/
def cutStep (d : Dev) (dom : Nat) : Dev :=
  if d.pwr.steps.head? = some (dom, false) ∧ closed d dom then
    if dom = 1 then toHold d else stepDone (cutDomain d dom)
  else d

/-- FABRIC_DRAIN_COMPLETE (R534, R594). -/
def execFabricDrainComplete (dom : Nat) : Meaning := onDev fun d => cutStep d dom

/-- DRAIN_LIMIT (R534): what is left at `drain_limit` is dropped: writes are reported lost with their count and first address. -/
def execDrainLimit (dom writes first : Nat) : Meaning := onDev fun d =>
  if d.fab.closing.any fun c => c.1 == dom && decide (c.2 + ceilDiv (d.fab.drainLimit * tickHz) 1000000 ≤ d.now) then
    let d := { d with fab := { d.fab with forced := sat32 (d.fab.forced + 1), lost := sat32 (d.fab.lost + writes) } }
    cutStep (raiseEv d EV.fabDrainForced [a8 writes, a8 first]) dom
  else d

/-! ### What a ready domain brings (R592, R595) -/

/-- R503, R504: the self-test of a domain's stores: 0 for a store that passed, else the failing pattern's index and 1. -/
def selfTests (d : Dev) (dom : Nat) (fails : List Nat) : Dev :=
  (List.range 6).foldl (fun d s =>
    if storeDomain s ≠ dom then d
    else
      let f := nth fails s
      let d := d.onMem (·.onStore s fun x => { x with failed := f != 0, failPat := f - 1 })
      if f = 0 then d else raiseEv d EV.memSelftest [a4 s, a4 (f - 1)]) d

/-- R640: the stored applets marked for it are loaded and started; one that no longer verifies raises EV_APPLET_FAULT,
with no cause, PC or address and the entry (R676). -/
def autostart (d : Dev) : Dev :=
  d.nvm.store.zipIdx.foldl (fun d (e, k) =>
    match e with
    | none => d
    | some e =>
      if !e.autostart then d
      else if storeFailed d 4 || d.fab.layer != 0 || (nth d.cores e.core).st != 0 || (appletCheck d e.core e.image e.bases e.hss).isSome then
        raiseEv d EV.appletFault [a4 0, a4 0, a8 0, a4 k]
      else coreStart (appletPut d e.core e.image e.bases) e.core) d

/-- R233: the transmit outputs start muted while the INHIBIT loop is open. -/
def txStart (d : Dev) : Dev := { d with tx := d.tx.map fun x => { x with muteInhibit := d.gov.loopOpen } }

/-- What the blocks of a domain do as it becomes ready: D1's DMA channels have the owners of R536 and the local clock starts from 0 s (R644), D2's synthesiser is locked, D3's front-ends receive (a path whose PA
diode is broken stays in PROTECT, R607), D6's paths take their saved predistortion (R404), D8's quads are powered and its
lanes set to ETH-FR1 (R644), and D9 initialises regions 1 to 63. -/
def domainStarts (d : Dev) (dom : Nat) : Dev :=
  match dom with
  | 2 => d.onSyn fun x => { x with lock := upd x.lock 0 fun _ => true, settling := false }
  | 3 => { d with fe := updAll (fun p f =>
      if (nth d.pwr.chans (p + 1)).broken then { f with st := 4, protTx := 3, txProtSeen := true } else { f with st := 1, validAt := d.now }) 0 d.fe }
  | 1 => { d with dma := dmaOwned, tmb := { cyc := d.tmb.cyc } }
  | 4 => txStart d
  | 6 => autostart (dpdRestore d)
  | 8 => (List.range 32).foldl (fun d n => startLane d n 1 0) { d with quads := List.replicate 8 true }
  | 9 => d.onMem fun m => { m with initing := (List.range 63).map (· + 1) }
  | _ => d

/-- DOMAIN_READY (R592). -/
def execDomainReady (dom : Nat) (fails : List Nat) : Meaning := onDev fun d =>
  if d.pwr.steps.head? = some (dom, true) then stepDone (fabWake (domainStarts (selfTests (setDomain d dom true) dom fails) dom)) else d

/-! ### PWR-STATE-SET (R596) -/

/-- R596: whether a configured role needs a domain of a list. -/
def rolesNeed (d : Dev) (cut : List Nat) : Bool :=
  let needs (l : List Nat) : Bool := l.any cut.contains
  let own := d.weave.banks.cur.ownEntry
  (d.weave.on && (needs [8] || (own.contributes && needs [2, 3, 6]) || (own.count != 0 && needs [7, 9])))
    || (d.chains.any (·.on) && needs [6, 8]) || (d.xce.on && needs [7, 9])
    || (needs [2, 3, 6] && d.rx.any fun x => x.sbs.any fun s => s.on && !s.flushing)
    || (needs [2, 4, 6] && d.tx.any fun x => x.sbs.any fun s => s.on && !s.flushing)

/-- R596: with force each block that needs a domain stops under its own chapter's rules. -/
def forceStops (d : Dev) (cut : List Nat) : Dev :=
  let needs (l : List Nat) : Bool := l.any cut.contains
  let own := d.weave.banks.cur.ownEntry
  let d := if needs [8] || (own.contributes && needs [2, 3, 6]) || (own.count != 0 && needs [7, 9]) then weaveLeave d else d
  let d := if needs [6, 8] then (List.range 4).foldl chainLeave d else d
  let d := if needs [7, 9] && d.xce.on then stopDone ((xceHalt d false).onXce fun x => { x with on := false, stopping := some 0 }) else d
  (pathSbs (2 ^ 64 - 1) 15).foldl (fun d (p, s) =>
    let x := (d.rxPath p).sb s
    let y := (d.txPath p).sb s
    let d := if needs [2, 3, 6] && x.on && !x.flushing then rxStop d p s else d
    if needs [2, 4, 6] && y.on && !y.flushing then txStop d p s else d) d

/-- The domains that a change to a state cuts. -/
def cutBy (d : Dev) (state : Nat) : List Nat := ((stepsTo d state).filter fun s => !s.2).map (·.1)

/-- The checks of PWR-STATE-SET. -/
def pwrStateSetCheck (state force : Nat) (d : Dev) : Option Reply :=
  Checks.orElse (firstBad [
      (state == 0 || decide (5 < state), ST.pwrArg), (decide (1 < force), ST.badArg), (qsHeld d, ST.quickset),
      (force == 0 && rolesNeed d (cutBy d state), ST.pwrInUse)])
    (if d.pwr.steps.isEmpty then none else some { status := ST.pwrBusy, retry := ticksUs (d.pwr.transEnd - d.now) })

/-- PWR-STATE-SET (R596, R652): with force, the part of the answer that the stops take is a free value. -/
def execPwrStateSet (h : Hdr) (state force : Nat) : Meaning :=
  hostCmd (cmd 0x0F01 [4]) h (.pwrStateSet h state force)
    (pwrStateSetCheck state force)
    (fun d =>
      let us := transitionUs d state
      let stops := force == 1 && rolesNeed d (cutBy d state)
      let (extra, d) := if stops then d.fresh 3 else (0, d)
      let d := if stops then forceStops d (cutBy d state) else d
      let d := beginTransition d state (us + extra)
      { dev := if d.pwr.steps.isEmpty then settle d else d, reply := { fields := [fld 4 (us + extra)] } })

/-! ### Supply (R588 to R591) -/

/-- R588, R644: the unit starts from its supply; nothing but NVM and fuses remains from before. -/
def powerUp (d : Dev) : Dev :=
  let c := d.restart true
  let fresh : Pwr := { powered := true, dacs := c.pwr.dacs }
  beginBoot { c with pwr := fresh, tmb := {} } 0

/-- POWER_GOOD (R588, R644): a unit that has not been started starts. -/
def execPowerGood : Meaning := onDev fun d => if d.pwr.powered then d else powerUp d

/-- R590: the power-fail sequence. -/
def powerFail (d : Dev) (mv : Nat) (ov : Bool) : Dev :=
  let d := d.onPwr fun p => { p with failSeen := true, ovSeen := p.ovSeen || ov, uvSeen := p.uvSeen || !ov }
  let d := shutdown ((raiseEv d EV.pwrFail [a4 mv]).pwrCount 0 1) 3 85 mv
  d.onPwr fun p => { p with failed := true, failAt := d.now }

/-- UNDERVOLTAGE (R588, R590). -/
def execUndervoltage (mv : Nat) : Meaning := onDev fun d => if mv < 33000 ∧ domOn d 0 ∧ d.pwr.failed = false then powerFail d mv false else d

/-- OVERVOLTAGE (R588, R590). -/
def execOvervoltage (mv : Nat) : Meaning := onDev fun d => if 62000 < mv ∧ domOn d 0 ∧ d.pwr.failed = false then powerFail d mv true else d

/-- SUPPLY_RECOVERY (R588): with the input in range for 1 s the unit restarts as at power-up, with D0's records where the bulk capacitance has
held it. -/
def execSupplyRecovery (mv : Nat) : Meaning := onDev fun d =>
  if d.pwr.failed ∧ 36000 ≤ mv ∧ mv ≤ 60000 ∧ d.pwr.failAt + tickHz ≤ d.now then
    if domOn d 0 then beginBoot ((d.restart true).onPwr fun p => { p with failed := false }) 4 else powerUp d
  else d

/-- REVERSE_POLARITY (R589): the unit operates no domain. -/
def execReversePolarity : Meaning := onDev fun d => (unpowered d).onPwr fun p => { p with failed := false }

/-- R591: the cap level after a frame whose mean input power in 0.1 W was `mean`. -/
def capAfter (cap level mean : Nat) : Nat :=
  if 10 * cap < mean then min 8 (level + 1) else if 100 * mean < 950 * cap then level - 1 else level

/-- POWER_CAP (R591): once at each frame end the cap level moves by the frame's mean input power, which is measured. -/
def execPowerCap (mean : Nat) : Meaning := onDev fun d =>
  if d.axis % d.tmb.frameLen ≠ 0 ∨ d.pwr.capAt = some d.axis then d
  else
    let old := d.pwr.capLevel
    let new := capAfter d.pwr.cap old mean
    let d := d.onPwr fun p => { p with capAt := some d.axis }
    if new = old then d
    else
      let d := raiseEv (d.onPwr fun p => { p with capLevel := new }) EV.pwrCap [a4 new]
      relevel (if old < new then d.pwrCount 2 1 else d)

/-- PWR-CAP-SET (R591, R615). -/
def execPwrCapSet (h : Hdr) (cap : Nat) : Meaning :=
  hostCmd (cmd 0x0F02) h (.pwrCapSet h cap) (fun _ => firstBad [(decide (cap < 60) || decide (290 < cap), ST.pwrArg)])
    (just fun d => d.onPwr fun p => { p with cap := cap })

/-! ### Restarts (R607, R646) -/

/-- R607: whether every internal diode that is not broken has read below 105 °C for 10 s. -/
def cooled (d : Dev) : Bool :=
  internalDiodes.all fun n =>
    let c := nth d.pwr.chans n
    c.broken || (match c.below105 with
      | some t => decide (t + 10 * tickHz ≤ d.now)
      | none => false)

/-- THERMAL_RESTART (R607): the unit restarts cold, once it has cooled; not after a broken die diode. -/
def execThermalRestart : Meaning := onDev fun d =>
  if d.pwr.down && !d.pwr.failed && d.pwr.record.cause == 1 && cooled d then beginBoot (d.restart true) 3 else d

/-- RESET_PIN (R646): asserted for 1 ms: D1 to D9 are cut at once, and the unit is held. -/
def execResetPin : Meaning := onDev fun d =>
  if domOn d 0 then
    let d := d.restart false
    { d with ctl := { d.ctl with phase := .held, cause := 1 } }
  else d

/-- RESET_RELEASE (R646): the unit that the pin held boots. -/
def execResetRelease : Meaning := onDev fun d =>
  if d.ctl.phase = .held ∧ d.ctl.cause = 1 ∧ d.pwr.failed = false then beginBoot d 1 else d

/-! ### Borrowed domains, PPS_OUT -/

/-- R426, R649: whether a domain is wanted on for a while: D4 for the steps of a calibration or for a quickset beacon, D5 for a beacon. -/
def borrowFor (d : Dev) (beacon : Bool) : Bool :=
  if beacon then d.qs.state == 2 && d.tmb.stakes.any fun q => q.stake.action == 0x0B20 else !d.cal.runs.isEmpty

/-- R426, R649: whether a borrowed domain is still at work. -/
def borrowBusy (d : Dev) (dom : Nat) : Bool := d.bcn.txUntil.any (fun t => decide (d.axis < t)) || (dom == 4 && d.cal.step.isSome)

/-- DOMAIN_BORROW (R426, R649): ahead of calibration steps or of a quickset beacon D4, for a beacon D5 too, is switched on, and
off again after them. -/
def execDomainBorrow (on beacon : Bool) : Meaning := onDev fun d =>
  let doms := if beacon then [4, 5] else [4]
  if on then
    let new := doms.filter fun k => !domOn d k
    if !domOn d 2 || new.isEmpty || !borrowFor d beacon then d
    else
      let d := new.foldl (fun d k => setDomain d k true) d
      let d := if new.contains 4 then txStart d else d
      let d := d.onPwr fun p => { p with borrowed := p.borrowed ++ new }
      fabWake (if beacon then qsPath0 d else d)
  else (d.pwr.borrowed.reverse.filter fun k => doms.contains k && !borrowBusy d k).foldl (fun d k => cutDomain (placeSafe d k) k) d

/-- PPS_FIGHT (R613). -/
def execPpsFight : Meaning := onDev fun d =>
  let d := (d.onTmb fun t => { t with ppsEnable := false, ppsLevel := false }).onPwr fun p => { p with ppsFight := true }
  raiseEv (d.pwrCount 6 1) EV.pwrPpsFight []

/-! ### Queries (R614) -/

/-- PWR-STATUS. -/
def execPwrStatus (h : Hdr) : Meaning :=
  query (ask 0x0F00 [4, 4, 4, 2, 2]) h (.pwrStatus h) noCheck fun d =>
    let r (n : Nat) : Int := (nth d.pwr.chans n).last
    [fld 4 (pwrStatus d), sfld 4 (r 85), sfld 4 (r 86), sfld 2 (r 90), fld 2 d.pwr.cap]

/-- PWR-RECORD-GET. -/
def execPwrRecordGet (h : Hdr) : Meaning :=
  query (ask 0x0F03 [1, 1, 4, 8]) h (.pwrRecordGet h) noCheck fun d =>
    let r := d.pwr.record
    [fld 1 r.cause, fld 1 r.channel, sfld 4 r.reading, fld 8 r.axis]

/-- PWR-COUNTERS. -/
def execPwrCounters (h : Hdr) (clear : Nat) : Meaning :=
  hostCmd (askClear 0x0F32 clear (List.replicate 7 4)) h (.pwrCounters h clear) (fun _ => firstBad [(decide (1 < clear), ST.badArg)])
    fun d => { dev := if clear = 1 then d.onPwr fun p => { p with
               counts := List.replicate 7 0 } else d,
               reply := { fields := d.pwr.counts.map (fld 4) } }

end Sys2Proof.Machine
end

