-- ==== Sys2Proof/Machine/Control.lean ====
section
/-! DEFINITION. Chapter 18, the control complex: reloads (R618), keys and signed objects (R620 to R622, R628), the counters (R623),
the boot chain (R624, R625, R637), debug (R626), certificate and attestation (R630 to R633), the NVM (R634 to R638), and the
updates of firmware and stored applets (R639, R640). -/

namespace Sys2Proof.Machine

def Dev.onCtl (d : Dev) (f : Ctl → Ctl) : Dev := { d with ctl := f d.ctl }

/-! ### Signed objects -/

/-- R622: the checks of a signed object, `form` saying whether its header, lengths and section hashes are right: the block, the
named slot filled and not revoked with both its keys, then both signatures. -/
def signedChecks (d : Dev) (b : List Nat) (hss form : Bool) : List (Bool × Nat) :=
  [((signSlot b).isNone || !form, ST.secObject), (!keysMatch d b, ST.keyUnknown), (!ecdsaOk b, ST.sigEcdsa), (!hss, ST.sigLms)]

/-- Whether an object is signed by an owner slot with an authority flag (R620). -/
def ownerSigned (d : Dev) (b : List Nat) (flag : Nat) : Bool :=
  (signSlot b).any fun k => decide (2 ≤ k) && (nth d.nvm.owners (k - 2)).authority.testBit flag

/-- The checks on a consumed object's bytes, once it is closed and of its kind; a thorn ends the command last (R143). -/
def withObject (d : Dev) (handle kind : Nat) (checks : List Nat → List (Bool × Nat)) : Option Reply :=
  Checks.orElse (objCheck d handle kind) <| Checks.orElse (firstBad (checks (objBytes d handle)))
    (firstBad [((d.obj? handle).any (fun x => !x.thorns.isEmpty), ST.thorn)])

/-- Free bytes: signatures that the security unit makes with keys of its own. -/
def freeBytes (d : Dev) (n : Nat) : List Nat × Dev :=
  let (v, d) := d.fresh n
  ((List.range n).map fun k => v / 256 ^ k % 256, d)

/-- The signature block of the unit's own slot U0 over `n` bytes (R621); the signatures are free values. -/
def sigBlock (d : Dev) (n : Nat) : List Nat × Dev :=
  let (sig, d) := freeBytes d 3700
  (bytesOf [fld 2 0x5347, fld 1 1, fld 1 2, fld 1 0, fld 3 0, fld 8 n] ++ (List.range 157).map (fun k => Config.unitKey k % 256) ++ [0, 0, 0] ++ sig, d)

/-- The variant in ASCII. -/
def variantByte (v : Variant) : Nat :=
  match v with
  | .l => 0x4C
  | .m => 0x4D
  | .h => 0x48
  | .a => 0x41

/-! ### Restarts and the boot chain -/

/-- R646: the unit restarts as at RESET, with a cause of R656. -/
def resetBoot (d : Dev) (cause : Nat) : Dev := beginBoot (d.restart false) cause

/-- LOCKSTEP_MISMATCH (R618): a reload starts; a second one within 1 s restarts the unit. -/
def execLockstepMismatch : Meaning := onDev fun d =>
  if d.ctl.phase ≠ .running then d
  else
    let again := match d.ctl.lastReload with
      | some t => decide (d.now < t + tickHz)
      | none => false
    if again then resetBoot d 5 else d.onCtl fun c => { c with phase := .reload, reloadSeen := true, lastReload := some d.now }

/-- RELOAD_COMPLETE (R618). -/
def execReloadComplete : Meaning := onDev fun d =>
  if d.ctl.phase = .reload then raiseEv (d.onCtl fun c => { c with phase := .running }) EV.ctlReload [] else d

/-- R627, R624: whether the ROM accepts the image in a slot. -/
def slotBoots (d : Dev) (chk : BootCheck) (k : Nat) : Bool :=
  let i := nth d.nvm.images k
  let c := nth chk.slots k
  i.valid && c.hashOk && c.keys.any (fun v => v < 2 && !nth d.nvm.revoked v) && c.ecdsa && c.hss && decide (d.nvm.fwCounter ≤ i.security)

/-- The leaves left in the bottom tree in use (R633): none once it is exhausted while the next is generated. -/
def leavesLeft (c : Ctl) : Nat := if c.treeGen.isSome ∧ c.leaf % 2 ^ 20 = 0 then 0 else 2 ^ 20 - c.leaf % 2 ^ 20

/-- R633: the next bottom tree is generated once fewer than 65,536 leaves remain. -/
def treeCheck (d : Dev) : Dev :=
  if d.ctl.treeGen.isNone ∧ leavesLeft d.ctl < 65536 then d.onCtl fun c => { c with treeGen := some d.now } else d

/-- R504, R656: the failed stores, bit n for store n. -/
def failedStores (d : Dev) : Nat := ((List.range 6).map fun n => b2n (storeFailed d n) * 2 ^ n).sum

/-- R624 step 6, R632, R637, R644: Ribel starts from a slot, tells what the boot found, and takes the unit to ARRAY and quickset. -/
def startRibel (d : Dev) (chk : BootCheck) (slot : Nat) (trial : Bool) : Dev :=
  let i := nth d.nvm.images slot
  let cause := d.ctl.cause
  let reverted := d.ctl.reverted
  let r := d.pwr.record
  let d := { d with
    ctl := { d.ctl with
      phase := .running, source := slot, trial := trial, trialSince := d.now, reverted := false, bootedAt := d.now, stopped := false
      imageVersion := i.version, secVersion := i.security, imageHash := i.hash, leaf := d.nvm.leafReserved }
    fab := { d.fab with mode := b2n chk.matrix, layer := if chk.matrix then 0 else d.fab.layer }
    qs := { d.qs with state := 1 } }
  let d := raiseEv d EV.sysBoot [a4 cause, a4 slot, a4 (failedStores d)]
  let d := raiseEv d EV.fwBoot [a4 slot, a4 (b2n trial)]
  let d := if reverted then raiseEv d EV.fwReverted [] else d
  let d := (d.nvm.lost ++ chk.discards).foldl (fun d (t, k) => raiseEv d EV.nvmDiscard [a4 t, a4 k]) (d.onNvm fun n => { n with lost := [] })
  let d := if d.pwr.due then
      raiseEv (d.onPwr fun p => { p with due := false }) EV.thermShutdown [a4 r.cause, a4 r.channel, as4 r.reading, a8 r.axis]
    else d
  treeCheck (beginTransition d 4 (transitionUs d 4))

/-- R639: the boot record changes, by a record of the security area. -/
def putBoot (d : Dev) (active : Nat) (trial : Option Nat) (attempts : Nat) : Dev :=
  journal (d.onNvm fun n => { n with active := active, trial := trial, attempts := attempts }) 0 0x0102 0
    (bytesOf [fld 1 active, fld 1 (trial.getD 0xFF), fld 2 attempts, fld 4 d.nvm.trialLimit]) (.boot d.nvm.active d.nvm.trial d.nvm.attempts)

/-- R625: the recovery loader. -/
def startLoader (d : Dev) : Dev := d.onCtl fun c => { c with phase := .loader, source := 2, bootedAt := d.now }

/-- R624 steps 3 to 5, R639: the slot that the boot record names, a trial's while attempts remain, and then the other one once. -/
def bootSlots (d : Dev) (chk : BootCheck) : Dev :=
  let (d, first, trial) := match d.nvm.trial with
    | none => (d, d.nvm.active, false)
    | some t =>
      if d.nvm.attempts = 0 then ((putBoot d d.nvm.active none 0).onCtl fun c => { c with reverted := true }, d.nvm.active, false)
      else (d, t, true)
  if slotBoots d chk first then
    startRibel (if trial then putBoot d d.nvm.active d.nvm.trial (d.nvm.attempts - 1) else d) chk first trial
  else if slotBoots d chk (1 - first) then startRibel d chk (1 - first) false
  else startLoader d

/-- BOOT (R624, R625, R646, R647): a failed ROM or SRAM stops the boot: one restart, then HOLD. A failed known-answer test halts
it. -/
def execBoot (chk : BootCheck) : Meaning := onDev fun d =>
  if d.ctl.phase ≠ .rom ∨ domOn d 1 = false ∨ !d.pwr.steps.isEmpty then d
  else if storeFailed d 0 || storeFailed d 5 then
    if d.ctl.stopped then toHold d else (resetBoot d d.ctl.cause).onCtl fun c => { c with stopped := true }
  else if !chk.kat then toHold d
  else if chk.bootSel then startLoader d
  else bootSlots d chk

/-- FW_ACTIVATION_RESTART (R639). -/
def execFwActivationRestart : Meaning := onDev fun d =>
  match d.ctl.activateAt with
  | some p => if p ≤ d.axis then resetBoot d 6 else d
  | none => d

/-- TRIAL_LIMIT (R639): a trial not committed in time gives way to the active slot. -/
def execTrialLimit : Meaning := onDev fun d =>
  if d.ctl.trial ∧ d.ctl.trialSince + d.nvm.trialLimit * tickHz ≤ d.now then
    (putBoot (resetBoot d 6) d.nvm.active none 0).onCtl fun c => { c with reverted := true }
  else d

/-! ### Attestation reports (R631 to R633) -/

/-- An outbound object of the control complex, of kind 0x0F, and the answer of its handle. -/
def answerObject (session : Nat) (x : List Nat × Dev) : Eff :=
  let r := addOut x.2 session 0x0F x.1 [] (domOn x.2 9)
  { dev := r.2, reply := { fields := [fld 2 r.1] } }

/-- R631: the header of a report. -/
def attestHeader (d : Dev) (nonce ownerHash leaf : Nat) : List Field :=
  let c := d.ctl
  [fld 2 0x4152, fld 1 1, fld 1 (b2n c.debug * 128 + b2n c.trial * 64 + (if c.source = 2 then 32 else 0)), fld 32 nonce, fld 3 d.nvm.unitNumber,
    fld 1 (variantByte d.ident.variant), fld 8 d.ident.serial, fld 8 d.axis, fld 4 c.imageVersion, fld 2 c.secVersion, fld 2 d.nvm.fwCounter,
    fld 2 d.nvm.appletCounter, fld 2 0, fld 48 c.imageHash, fld 48 ownerHash]
    ++ ([4, 5, 6, 7].map fun k => let x := nth d.cores k; fld 48 (if x.st = 0 then 0 else x.img.hash)) ++ [fld 8 leaf, fld 4 0]

/-- The signatures of the last second (R633). -/
def recentSigned (d : Dev) : List Nat := d.ctl.signed.filter fun t => decide (d.now < t + tickHz)

/-- R632: the leaves of each level as a record holds them. -/
def leafData (n : Nat) : List Nat := bytesOf [fld 4 (n / 2 ^ 20), fld 4 (n % 2 ^ 20)]

/-- R632: the next unreserved leaf moves on, by a record of the security area. -/
def reserveTo (d : Dev) (leaf : Nat) : Dev :=
  journal (d.onNvm fun n => { n with leafReserved := leaf }) 0 0x0101 0 (leafData leaf) (.leaf d.nvm.leafReserved)

/-- R632: the leaf in use lies under a reservation, 1,024 leaves at a time. -/
def reserveLeaf (d : Dev) : Dev := if d.ctl.leaf < d.nvm.leafReserved then d else reserveTo d (d.ctl.leaf + 1024)

/-- R632: whether a reservation still waits for its commit word. -/
def leafPending (d : Dev) : Bool :=
  d.nvm.jobs.any fun j => match j.goal with
    | .record _ type _ _ => type == 0x0101
    | _ => false

/-- R620, R628: the owner slot table with its `enrol_count`, as its record holds them. -/
def ownerTable (n : Nvm) : List Nat :=
  bytesOf ((n.owners.flatMap fun o => [fld 1 (b2n o.enrolled), fld 1 o.authority, fld 48 o.ecdsa, fld 48 o.hss]) ++ [fld 8 n.enrolCount])

/-- R631: the report; the signatures are free values. -/
def attestBytes (d : Dev) (nonce : Nat) : List Nat × Dev :=
  let hdr := bytesOf (attestHeader d nonce (sha384 (ownerTable d.nvm)) d.ctl.leaf)
  let (blk, d) := sigBlock d 368
  (hdr ++ blk, d)

/-- R633: a leaf is used. -/
def useLeaf (d : Dev) (nonce : Nat) : Dev :=
  treeCheck (d.onCtl fun c => { c with leaf := c.leaf + 1, signed := recentSigned d ++ [d.now], nonce := some (nonce / 256 ^ 28 % 256 ^ 4) })

/-- R632: the reports that waited for a reservation are signed. -/
def attestGo (d : Dev) : Dev :=
  if leafPending d then d
  else (List.range 4).foldl (fun d c =>
    match (nth d.lnk.mail c).running with
    | some r => (match r.wait with
      | .attest nonce =>
        let x := attestBytes d nonce
        let e := answerObject r.hdr.session (x.1, useLeaf x.2 nonce)
        complete e.dev (fun y => y.hdr.channel == c && y.wait == .attest nonce) fun _ => e.reply
      | _ => d)
    | none => d) d

/-- LMS_TREE_READY (R633): the next bottom tree is in use, under a committed reservation (R632). -/
def execLmsTreeReady : Meaning := onDev fun d =>
  if d.ctl.treeGen.isNone then d
  else
    let leaf := ceilDiv d.ctl.leaf (2 ^ 20) * 2 ^ 20
    let d := d.onCtl fun c => { c with treeGen := none, leaf := leaf }
    raiseEv (if leaf ≤ d.nvm.leafReserved then d else reserveTo d leaf) EV.lmsTree []

/-! ### The NVM controller (R634, R635) -/

/-- The host area (R634): its offset and size; the applet store's offset and the size of an entry. -/
def hostArea : Nat := 0x12800000
def hostSize : Nat := 0x0D800000
def storeArea : Nat := 0x08800000
def entrySize : Nat := 0x400000

/-- The blocks of a span of `n` bytes. -/
def blocksFor (off n : Nat) : List Nat := (List.range (ceilDiv n 0x40000)).map fun k => off + 0x40000 * k

/-- Bytes programmed, and a block erased. -/
def nvmProgram (d : Dev) (off : Nat) (b : List Nat) : Dev :=
  d.onMem fun m => b.zipIdx.foldl (fun m (x, i) => m.put (nvmBase + off + i) (BitVec.ofNat 8 x)) m
def nvmErase (d : Dev) (off : Nat) : Dev := d.onMem (·.forget (nvmBase + off) (nvmBase + off + 0x40000))

/-- Whether a piece of work stages an image. -/
def NvmJob.stages (j : NvmJob) : Bool :=
  match j.goal with
  | .stage _ _ => true
  | _ => false

/-- The unit with one piece of work changed. -/
def Dev.onJob (d : Dev) (k : Nat) (f : NvmJob → NvmJob) : Dev := d.onNvm fun n => { n with jobs := upd n.jobs k f }

/-- A command that waits for a piece of work of an area answers. -/
def nvmAnswer (d : Dev) (area : Nat) (r : Reply) : Dev := complete d (fun x => x.wait == .nvm area) fun _ => r

/-- The data of an entry record (R640). -/
def entryData (e : Option StoreEntry) : List Nat :=
  match e with
  | none => []
  | some e => bytesOf ([fld 1 e.core, fld 1 (b2n e.autostart), fld 2 0] ++ e.bases.map (fld 8) ++ [fld 4 e.image.length])

/-- R640: an entry of the applet store changes, by a record that the command waits for. -/
def putEntry (d : Dev) (k : Nat) (e : Option StoreEntry) : Dev :=
  journal (d.onNvm fun n => { n with store := upd n.store k fun _ => e }) 1 0x0009 k (entryData e) (.store k (nth d.nvm.store k)) true

/-- R640, R642: a piece of work that is done brings about its goal: an image its slot-valid record, an applet its entry record; a committed
record lets go on what waits for it. -/
def jobDone (d : Dev) (k : Nat) : Dev :=
  let j := nth d.nvm.jobs k
  if j.busy then d
  else
    let gone := d.onNvm fun n => { n with jobs := n.jobs.eraseIdx k }
    match j.goal with
    | .stage s img =>
      if nth d.nvm.images s = img then d
      else journal (d.onNvm fun n => { n with images := upd n.images s fun _ => img }) 1 0x0008 s
        (bytesOf [fld 1 s, fld 3 0, fld 48 img.hash, fld 4 img.length]) (.image s (nth d.nvm.images s))
    | .record seq _ _ answers =>
      let d := attestGo (gone.onNvm fun n => { n with logs := n.logs.map (·.mark 1 [seq]) })
      if answers then nvmAnswer d 2 {} else d
    | .reclaim b => gone.onNvm fun n => { n with logs := upd n.logs j.area fun g => { g with recs := g.recs.filter (·.block != b) } }
    | .host => nvmAnswer gone j.area {}
    | .store e c a bases image hss =>
      let entry : StoreEntry := { core := c, autostart := a == 1, bases := bases, image := image, hss := hss }
      putEntry gone e (some entry)
    | .unstore e => putEntry gone e none

/-- R635: an erase or a page program that fails its verify: a host's ends with ST_NVM_FAULT; the page of a record goes to the next free page of
its area; an erase, and a page of a slot or of the applet store, whose place is fixed, is tried again: DESIGN CHOICE (log entry 120). -/
def nvmFails (d : Dev) (k : Nat) : Dev :=
  let j := nth d.nvm.jobs k
  let d := raiseEv d EV.nvmFault []
  if j.area = 3 then nvmAnswer (d.onNvm fun n => { n with jobs := n.jobs.eraseIdx k }) 3 { status := ST.nvmFault }
  else if j.area ≤ 1 ∧ j.erases.isEmpty then
    d.onNvm fun n =>
      let n := n.room j.area 1
      let g := nth n.logs j.area
      { n with
        logs := upd n.logs j.area fun g => { g with next := g.next + 1 }
        jobs := upd n.jobs k fun j => { j with pages := j.pages.mapIdx fun i p => if i = 0 then (areaStart j.area + (g.cur * 64 + g.next) * 4096, p.2) else p } }
  else d

/-- ERASE_COMPLETE (R635). -/
def execEraseComplete (ok : Bool) : Meaning := onDev fun d =>
  match nvmNext d with
  | none => d
  | some k =>
    match (nth d.nvm.jobs k).erases with
    | [] => d
    | b :: l => if ok then jobDone ((nvmErase d b).onJob k fun j => { j with erases := l }) k else nvmFails d k

/-- NVM_PAGE_PROGRAM (R635). -/
def execNvmPageProgram (ok : Bool) : Meaning := onDev fun d =>
  match nvmNext d with
  | none => d
  | some k =>
    match (nth d.nvm.jobs k).erases, (nth d.nvm.jobs k).pages with
    | [], (o, b) :: l => if ok then jobDone ((nvmProgram d o b).onJob k fun j => { j with pages := l, done := j.done + 1 }) k else nvmFails d k
    | _, _ => d

/-- Whether a record of a type still waits for its commit word. -/
def recPending (d : Dev) (type : Nat) : Bool :=
  d.nvm.jobs.any fun j => match j.goal with
    | .record _ t _ _ => t == type
    | _ => false

/-- FW_STAGED (R639): the image is written and its slot-valid record committed. -/
def execFwStaged : Meaning := onDev fun d =>
  match d.nvm.jobs.findIdx? fun j => !j.busy && j.stages with
  | none => d
  | some k =>
    match (nth d.nvm.jobs k).goal with
    | .stage s _ => if recPending d 0x0008 then d else raiseEv (d.onNvm fun n => { n with jobs := n.jobs.eraseIdx k }) EV.fwStaged [a4 s]
    | _ => d

/-- R635: the time the work under way can still take at most, in us. -/
def nvmLeft (d : Dev) : Nat := (d.nvm.jobs.map fun j => 150000 * j.erases.length + 2000 * j.pages.length).sum

/-- ST_SEC_BUSY while work of an area, or a record that a command of it waits for, is under way. -/
def areaBusy (d : Dev) (area : Nat) : Option Reply :=
  let holds (j : NvmJob) : Bool := j.area == area || (area == 2 && match j.goal with
    | .record _ _ _ answers => answers
    | _ => false)
  if d.nvm.jobs.any holds then some { status := ST.secBusy, retry := nvmLeft d } else none

/-- NVM-READ (R641). -/
def execNvmRead (h : Hdr) (offset len : Nat) : Meaning :=
  query (ask 0x1020 (spanWidths 8192 len [1])) h (.nvmRead h offset len)
    (fun _ => firstBad [(len == 0 || decide (8192 < len) || decide (hostSize < offset + len), ST.secArg)]) fun d =>
      (List.range len).map fun i => fld 1 (d.mem.byte (nvmBase + hostArea + offset + i)).toNat

/-- Whether the pages of a span are erased. -/
def pagesErased (d : Dev) (off n : Nat) : Bool :=
  (List.range (ceilDiv n 4096 * 4096)).all fun i => d.mem.byte (nvmBase + off + i) == 0xFF#8

/-- The checks of NVM-WRITE. -/
def nvmWriteCheck (offset : Nat) (data : List Nat) (d : Dev) : Option Reply :=
  Checks.orElse (firstBad [
    (offset % 4096 != 0 || data.isEmpty || decide (8192 < data.length) || decide (hostSize < offset + data.length), ST.secArg),
    (!pagesErased d (hostArea + offset) data.length, ST.secState)]) (areaBusy d 3)

/-- NVM-WRITE (R641, R642): the rest of its last page stays erased. -/
def execNvmWrite (h : Hdr) (offset : Nat) (data : List Nat) : Meaning :=
  hostCmd (cmd 0x1021) h (.nvmWrite h offset data)
    (nvmWriteCheck offset data)
    (fun d => { dev := d.onNvm fun n => { n with jobs := n.jobs ++ [{ pages := pagesOf (hostArea + offset) data }] }, wait := some (.nvm 3) })

/-- The checks of NVM-ERASE. -/
def nvmEraseCheck (offset : Nat) (d : Dev) : Option Reply :=
  Checks.orElse (firstBad [(offset % 0x40000 != 0 || decide (hostSize < offset + 0x40000), ST.secArg)]) (areaBusy d 3)

/-- NVM-ERASE (R641). -/
def execNvmErase (h : Hdr) (offset : Nat) : Meaning :=
  hostCmd (cmd 0x1022) h (.nvmErase h offset)
    (nvmEraseCheck offset)
    (fun d => { dev := d.onNvm fun n => { n with jobs := n.jobs ++ [{ erases := [hostArea + offset] }] }, wait := some (.nvm 3) })

/-! ### Firmware (R627, R639) -/

/-- R627: whether a firmware image's header is in range, its lengths are consistent and its sections have their hashes. -/
def fwForm (b : List Nat) : Bool :=
  let lens := (List.range 4).map fun k => beAt b (12 + 4 * k) 4
  let part (k : Nat) : List Nat := (b.drop (256 + (lens.take k).sum)).take (nth lens k)
  decide (256 ≤ b.length) && beAt b 0 2 == 0x4657 && beAt b 2 1 == 1 && beAt b 3 1 % 64 == 0 && beAt b 10 2 == 0 && beAt b 224 32 == 0
    && lens.all (· % 8 == 0) && decide (lens.sum ≤ 2 ^ 25) && decide (beAt b 28 4 < lens.headD 0) && b.length == 256 + lens.sum + 3876
    && (List.range 4).all fun k => sha384 (part k) == beAt b (32 + 48 * k) 48

/-- The slot that a new image goes into. -/
def inactive (d : Dev) : Nat := 1 - d.nvm.active

/-- The checks of FW-LOAD. -/
def fwLoadCheck (handle : Nat) (hss : Bool) (d : Dev) : Option Reply :=
  Checks.orElse
    (withObject d handle 5 fun b =>
      [((signSlot b).isNone || !fwForm b, ST.secObject), (!(signSlot b).any (fun k => decide (k < 2)), ST.keyUnknown)] ++ signedChecks d b hss true ++ [(decide (beAt b 8 2 < d.nvm.fwCounter), ST.rollback)])
    (areaBusy d 2)

/-- FW-LOAD (R631, R639). -/
def execFwLoad (h : Hdr) (handle : Nat) (hss : Bool) : Meaning :=
  hostCmd { cmd 0x1010 [1, 4] with loader := true } h (.fwLoad h handle hss)
    (fwLoadCheck handle hss)
    (fun d =>
      let b := objBytes d handle
      let s := inactive d
      let off := 0x00800000 + s * 0x04000000
      let img : ImageSlot := { valid := true, version := beAt b 4 4, security := beAt b 8 2, hash := sha384 (b.take (b.length - 3876)), signer := (signSlot b).getD 0, revoke := beAt b 3 1, length := b.length }
      let job : NvmJob := { area := 2, erases := blocksFor off b.length, pages := pagesOf off b, goal := .stage s img }
      let d := (consume d handle).onNvm fun n => { n with images := upd n.images s fun _ => {}, jobs := n.jobs ++ [job] }
      { dev := d, reply := { fields := [fld 1 s, fld 4 img.version] } })

/-- The checks of FW-ACTIVATE. -/
def fwActivateCheck (position : Nat) (d : Dev) : Option Reply :=
  firstBad [(position != 0 && decide (position ≤ d.axis), ST.secArg),
    (!(nth d.nvm.images (inactive d)).valid || d.ctl.trial, ST.secState)]

/-- FW-ACTIVATE (R639, R642). -/
def execFwActivate (h : Hdr) (position : Nat) : Meaning :=
  hostCmd { cmd 0x1011 with loader := true } h (.fwActivate h position)
    (fwActivateCheck position)
    (just fun d =>
      (putBoot d d.nvm.active (some (1 - d.nvm.active)) 2).onCtl fun c =>
        { c with activateAt := some (if position = 0 then d.axis else position) })

/-- The checks of FW-COMMIT. -/
def fwCommitCheck (raise : Nat) (d : Dev) : Option Reply :=
  firstBad [(decide (1 < raise), ST.secArg), (!d.ctl.trial, ST.secState)]

/-- FW-COMMIT (R627, R639, R642): the trial slot becomes active; a revoke flag takes effect when the other vendor key signed. -/
def execFwCommit (h : Hdr) (raise : Nat) : Meaning :=
  hostCmd (cmd 0x1012) h (.fwCommit h raise)
    (fwCommitCheck raise)
    (just fun d =>
      let i := nth d.nvm.images d.ctl.source
      let up := raise == 1 && decide (d.nvm.fwCounter < i.security)
      let d := (putBoot (d.onCtl fun c => { c with trial := false }) d.ctl.source none 0).onNvm fun n => { n with
        revoked := [nth n.revoked 0 || (i.revoke.testBit 7 && i.signer == 1), nth n.revoked 1 || (i.revoke.testBit 6 && i.signer == 0)]
        fwCounter := if up then i.security else n.fwCounter }
      if up then raiseEv d EV.rollback [a4 0, a4 i.security] else d)

/-- FW-STATUS: the boot record as active slot, trial slot or 0xFF, attempts left and `trial_limit`. -/
def execFwStatus (h : Hdr) : Meaning :=
  query (ask 0x1013 [1, 4, 2, 1, 4, 2, 8, 4]) h (.fwStatus h) noCheck fun d =>
    let done := (d.nvm.jobs.map fun j => match j.goal with
      | .stage _ _ => j.done
      | _ => 0).sum
    ((d.nvm.images.take 2).flatMap fun i => [fld 1 (b2n i.valid), fld 4 i.version, fld 2 i.security])
      ++ [fld 1 d.nvm.active, fld 1 (d.nvm.trial.getD 0xFF), fld 2 d.nvm.attempts, fld 4 d.nvm.trialLimit, fld 4 done]

/-! ### The applet store (R640) -/

/-- The checks of APPLET-STORE. -/
def appletStoreCheck (handle entry core autostart : Nat) (hss : Bool) (d : Dev) : Option Reply :=
  Checks.orElse
    (firstBad [(decide (7 < entry) || coreBad core || decide (1 < autostart), ST.secArg), (d.fab.layer != 0, ST.fabRecovery)])
    (Checks.orElse
      (withObject d handle 6 fun b =>
        [(!imageOk b, ST.appletImage), (!appletSigned d b hss, ST.appletSignature), (decide (beAt b 8 2 < d.nvm.appletCounter), ST.appletRollback)])
      (areaBusy d 2))

/-- APPLET-STORE (R640, R532): the response follows the entry record. -/
def execAppletStore (h : Hdr) (handle entry core autostart : Nat) (bases : List Nat) (hss : Bool) : Meaning :=
  hostCmd (cmd 0x1014) h (.appletStore h handle entry core autostart bases hss)
    (appletStoreCheck handle entry core autostart hss)
    (fun d =>
      let b := objBytes d handle
      let off := storeArea + entry * entrySize
      let job : NvmJob := { area := 2, erases := blocksFor off entrySize, pages := pagesOf off b, goal := .store entry core autostart bases b hss }
      { dev := (consume d handle).onNvm fun n => { n with store := upd n.store entry fun _ => none, jobs := n.jobs ++ [job] }, wait := some (.nvm 2) })

/-- APPLET-STORE-ERASE. -/
def execAppletStoreErase (h : Hdr) (entry : Nat) : Meaning :=
  hostCmd (cmd 0x1015) h (.appletStoreErase h entry)
    (fun d => Checks.orElse (firstBad [(decide (7 < entry), ST.secArg)]) (areaBusy d 2))
    (fun d =>
      let job : NvmJob := { area := 2, erases := blocksFor (storeArea + entry * entrySize) entrySize, goal := .unstore entry }
      { dev := d.onNvm fun n => { n with jobs := n.jobs ++ [job] }, wait := some (.nvm 2) })

/-! ### Keys and counters -/

/-- R628: whether an owner-key change is well formed. -/
def keyForm (b : List Nat) (serial : Nat) : Bool :=
  let op := beAt b 3 1
  b.length == 4060 && beAt b 0 2 == 0x4F4B && beAt b 2 1 == 1 && decide (1 ≤ op) && decide (op ≤ 3) && decide (beAt b 4 1 ≤ 3) && decide (beAt b 5 1 ≤ 7)
    && beAt b 6 2 == 0 && beAt b 181 3 == 0 && (op == 1 || beAt b 24 157 == 0) && (op == 3 || beAt b 8 8 == 0 || beAt b 8 8 == serial)

/-- R628: the signer an owner-key change needs, and the status that refuses another. -/
def keySigner (d : Dev) (b : List Nat) : List (Bool × Nat) :=
  if beAt b 3 1 = 3 then [(!((signSlot b).any (fun k => decide (k < 2)) && keysMatch d b) || beAt b 8 8 != d.ident.serial, ST.keyUnknown)]
  else if d.nvm.owners.any (·.enrolled) then [(!keysMatch d b, ST.keyUnknown), (!ownerSigned d b 0, ST.keyAuthority)]
  else [(beAt b 3 1 != 1 || (b.drop 24).take 157 != (b.drop 200).take 157, ST.keyUnknown)]

/-- The checks of KEY-CHANGE. -/
def keyChangeCheck (handle : Nat) (hss : Bool) (d : Dev) : Option Reply :=
  let b := objBytes d handle
  Checks.orElse (withObject d handle 7 fun b =>
      ((signSlot b).isNone || !keyForm b d.ident.serial, ST.secObject) :: keySigner d b
        ++ [(!ecdsaOk b, ST.sigEcdsa), (!hss, ST.sigLms), (decide (beAt b 16 8 ≤ d.nvm.enrolCount), ST.secReplay)])
    (firstBad [(beAt b 3 1 == 2 && (nth d.nvm.owners (beAt b 4 1)).authority.testBit 0
      && !(d.nvm.owners.zipIdx.any fun (o, k) => k != beAt b 4 1 && o.authority.testBit 0), ST.secState)])

/-- KEY-CHANGE (R620, R628). -/
def execKeyChange (h : Hdr) (handle : Nat) (hss : Bool) : Meaning :=
  hostCmd (cmd 0x1001) h (.keyChange h handle hss)
    (keyChangeCheck handle hss)
    (just fun d =>
      let b := objBytes d handle
      let slot := beAt b 4 1
      let pub := (b.drop 24).take 97
      let old := NvmOld.owners d.nvm.owners d.nvm.enrolCount
      let d := (consume d handle).onNvm fun n => { n with
        enrolCount := beAt b 16 8
        owners := match beAt b 3 1 with
          | 1 => upd n.owners slot fun _ => { enrolled := true, ecdsa := sha384 pub, hss := sha384 ((b.drop 121).take 60), authority := beAt b 5 1, pub := pub }
          | 2 => upd n.owners slot fun _ => {}
          | _ => List.replicate 4 {} }
      raiseEv (journal d 0 0x0100 0 (ownerTable d.nvm ++ d.nvm.owners.flatMap (·.pub)) old) EV.keyChange [a4 (beAt b 3 1), a4 slot])

/-- KEY-LIST: 0 empty, 1 filled, 2 revoked. -/
def execKeyList (h : Hdr) : Meaning :=
  query (ask 0x1002 ((List.range 6).flatMap fun _ => [1, 1, 96])) h (.keyList h) noCheck fun d =>
    ((List.range 2).flatMap fun k =>
      [fld 1 (if nth d.nvm.revoked k then 2 else 1), fld 1 0, fld 96 ((nth d.ident.vendor k).1 * 2 ^ 384 + (nth d.ident.vendor k).2 % 2 ^ 384)])
      ++ d.nvm.owners.flatMap fun o => [fld 1 (b2n o.enrolled), fld 1 o.authority, fld 96 (o.ecdsa * 2 ^ 384 + o.hss)]

/-- The checks of ROLLBACK-SET. -/
def rollbackSetCheck (counter value : Nat) (d : Dev) : Option Reply :=
  let now := if counter = 0 then d.nvm.fwCounter else d.nvm.appletCounter
  firstBad [(decide (1 < counter) || decide (255 < value) || decide (value < now) || (counter == 0 && decide (d.ctl.secVersion < value)), ST.secArg)]

/-- ROLLBACK-SET (R623, R642). -/
def execRollbackSet (h : Hdr) (counter value : Nat) : Meaning :=
  hostCmd (cmd 0x1003 [1]) h (.rollbackSet h counter value)
    (rollbackSetCheck counter value)
    (fun d =>
      let now := if counter = 0 then d.nvm.fwCounter else d.nvm.appletCounter
      let d' := d.onNvm fun n => if counter = 0 then { n with fwCounter := value } else { n with appletCounter := value }
      { dev := if value = now then d' else raiseEv d' EV.rollback [a4 counter, a4 value], reply := { fields := [fld 1 value] } })

/-! ### Certificate, attestation, debug -/

/-- R630: the certificate. Which vendor slot signed it is not given: slot 0, DESIGN CHOICE (log entry 94). -/
def certBytes (d : Dev) : List Nat :=
  bytesOf [fld 2 0x4943, fld 1 1, fld 2 0, fld 8 d.ident.serial, fld 1 (variantByte d.ident.variant), fld 3 0]
    ++ (List.range 157).map (fun k => Config.unitKey k % 256) ++ bytesOf [fld 2 0, fld 8 Config.issued, fld 8 0]
    ++ bytesOf [fld 2 0x5347, fld 1 1, fld 1 0, fld 1 0, fld 3 0, fld 8 192] ++ (List.range 157).map (fun k => Config.certificate k % 256)
    ++ [0, 0, 0] ++ (List.range 3700).map fun k => Config.certificate (157 + k) % 256

/-- CERT-READ (R630). -/
def execCertRead (h : Hdr) : Meaning :=
  hostCmd (ask 0x1004 [2]) h (.certRead h) noCheck fun d => answerObject h.session (certBytes d, d)

/-- The checks of ATTEST. -/
def attestCheck (d : Dev) : Option Reply :=
  if leavesLeft d.ctl = 0 then
    some { status := ST.secBusy, retry := ticksUs ((d.ctl.treeGen.getD d.now) + 180 * tickHz - d.now) }
  else if 20 ≤ (recentSigned d).length then
    some { status := ST.secBusy, retry := ticksUs ((recentSigned d).headD d.now + tickHz - d.now) }
  else none

/-- ATTEST (R631 to R633): a report whose leaf no committed reservation covers waits for one. -/
def execAttest (h : Hdr) (nonce : Nat) : Meaning :=
  hostCmd (cmd 0x1005 [2]) h (.attest h nonce)
    attestCheck
    (fun d =>
      let d := reserveLeaf d
      if leafPending d then { dev := d, wait := some (.attest nonce) }
      else
        let x := attestBytes d nonce
        answerObject h.session (x.1, useLeaf x.2 nonce))

/-- The checks of DEBUG-AUTH. -/
def debugAuthCheck (handle : Nat) (hss : Bool) (d : Dev) : Option Reply :=
  withObject d handle 0x0F fun b =>
    signedChecks d b hss (decide (3892 ≤ b.length) && beAt b 0 4 == 0x44420000 && beAt b 4 8 == d.ident.serial && d.ctl.nonce == some (beAt b 12 4))
      ++ [(!ownerSigned d b 2, ST.keyAuthority)]

/-- DEBUG-AUTH (R626). -/
def execDebugAuth (h : Hdr) (handle : Nat) (hss : Bool) : Meaning :=
  hostCmd (cmd 0x1006) h (.debugAuth h handle hss)
    (debugAuthCheck handle hss)
    (just fun d => raiseEv ((consume d handle).onCtl fun c => { c with debug := true }) EV.debug [])

/-- SEC-STATUS. -/
def execSecStatus (h : Hdr) : Meaning :=
  query (ask 0x1000 [4, 8, 4, 8]) h (.secStatus h) noCheck fun d =>
    [fld 4 (bootStatus d), fld 8 d.ctl.leaf, fld 4 (leavesLeft d.ctl), fld 8 d.nvm.enrolCount]

end Sys2Proof.Machine
end

