-- ==== Sys2Proof/Machine/Cores.lean ====
section
/-! DEFINITION. The bundles of signal cores C4 to C7 (R556 to R578): each operation of a slot is a command of its own, and the
three slots of a bundle come in the order MAC, ALU, load/store. A command acts only on a RUNNING core whose next slot holds just
that operation in the bundle at PC; the load/store slot closes the bundle. -/

namespace Sys2Proof.Machine

/-! ### Values (R556, R566 to R570) -/

/-- The components of a Z register's word, and the word of two components. -/
def zI (v : Nat) : Int := toSigned 16 (v / 65536)
def zQ (v : Nat) : Int := toSigned 16 (v % 65536)
def zWord (i q : Int) : Nat := ofSigned 16 i * 65536 + ofSigned 16 q

/-- R569: a value shifted right by k, rounded convergently, before its saturation. -/
def rnd (v : Int) (k : Nat) : Int := if k = 0 then v else divHalfEven v (2 ^ k)

/-- How many of two components a symmetric limit changes. -/
def satCount (m : Int) (a b : Int) : Nat := b2n (satSym m a != a) + b2n (satSym m b != b)

/-- R570: the redundant sign bits of a value of `w` bits. -/
def signBits (w : Nat) (v : Int) : Nat :=
  let u := if 0 ≤ v then v.toNat else (-v - 1).toNat
  if u = 0 then w - 1 else w - 2 - Nat.log2 u

/-- The largest magnitude of an accumulator component (R567). -/
def accMax : Int := 2 ^ 39 - 1

/-- R563, R566: the product under a conj code. -/
def product (x y cj : Nat) : Int × Int :=
  let (a, b) := (zI x, if cj = 2 then -zQ x else zQ x)
  let (c, e) := (zI y, if cj = 1 then -zQ y else zQ y)
  let im := a * e + b * c
  (a * c - b * e, if cj = 3 then -im else im)

/-- A Z register, and R572: an accumulator as the next MAC or MSU finds it: the last such result that is still to be written. -/
def Core.zr (c : Core) (n : Nat) : Nat := nth c.z n
def Core.accFwd (c : Core) (n : Nat) : Int × Int :=
  ((c.inflight.filterMap fun e => match e.2 with
    | .acc m re im true => if m = n then some (re, im) else none
    | _ => none).getLast?).getD (nth c.a n)

/-- A special register by its index (R564). -/
def Core.spec (c : Core) (i : Nat) : Nat :=
  if i < 8 then nth c.p i
  else if i < 16 then nth c.ps (i - 8)
  else if i < 24 then nth c.pm (i - 16)
  else if i < 32 then nth c.pb (i - 24)
  else match i with
    | 32 => nth c.lb 0
    | 33 => nth c.le 0
    | 34 => nth c.lc 0
    | 35 => nth c.lb 1
    | 36 => nth c.le 1
    | 37 => nth c.lc 1
    | 38 => c.flags
    | 39 => c.iflags
    | 40 => c.ipc
    | 41 => c.lnk
    | _ => c.bx

/-! ### Bundles (R562 to R565) -/

/-- The three slots of a bundle. -/
def macSlot (w : Nat) : Nat := w / 2 ^ 44 % 2 ^ 20
def aluSlot (w : Nat) : Nat := w / 2 ^ 22 % 2 ^ 22
def lsSlot (w : Nat) : Nat := w % 2 ^ 22

/-- Whether a slot holds an operation with fields: the value of `width` bits from `low` on, for each. -/
def slotIs (s : Nat) (fields : List (Nat × Nat × Nat)) : Bool := fields.all fun (low, width, v) => s / 2 ^ low % 2 ^ width == v

/-- R563: a MAC slot without a reserved op or reserved bits set. -/
def macOk (s : Nat) : Bool := decide (s / 2 ^ 16 ≤ 0xC) && s % 4 == 0

/-- R564: an ALU slot without a reserved op, reserved bits set, or a reserved special register. -/
def aluOk (s : Nat) : Bool :=
  let op := s / 2 ^ 16
  if op = 0x00 ∨ op = 0x11 then s % 2 ^ 16 == 0
  else if op ≤ 0x13 then s % 2 == 0
  else if 0x20 ≤ op ∧ op ≤ 0x22 then true
  else if op = 0x28 ∨ op = 0x29 then decide (s % 64 ≤ 42)
  else if 0x30 ≤ op ∧ op ≤ 0x33 then bitsOf s 15 14 == 0
  else if op = 0x36 then !s.testBit 14
  else if op = 0x37 then s % 2 ^ 15 == 0
  else if op = 0x34 ∨ op = 0x35 ∨ (0x38 ≤ op ∧ op ≤ 0x3C) then s % 2 ^ 16 == 0
  else op == 0x3D && bitsOf s 15 11 == 0

/-- R565: a load/store slot without a reserved op, and with an even z for LDD and STD. -/
def lsOk (s : Nat) : Bool := s / 2 ^ 18 != 0xF && !((s / 2 ^ 18 == 2 || s / 2 ^ 18 == 4) && s.testBit 13)

/-- Whether a core takes a command for a slot now. -/
def Core.takes (d : Dev) (n slot : Nat) : Bool :=
  let c := nth d.cores n
  decide (4 ≤ n) && decide (n < 8) && domOn d 6 && c.st == 2 && c.slot == slot

/-- R576: whether an interrupt is to be taken at this bundle boundary. -/
def Core.irqDue (c : Core) : Bool :=
  c.flags.testBit 1 && decide (0 < Nat.land c.istat c.imask) && c.inflight.isEmpty && c.redirects.isEmpty && c.slot == 0

/-- What a slot's operation computes: its results with their latencies, components saturated in accumulators, under R569, and in
lanes, and what becomes of the control flow. -/
structure SlotOut where
  res : List (Nat × CoreRes) := []
  accSats : Nat := 0
  roundSats : Nat := 0
  laneSats : Nat := 0
  ctl : CoreCtl := .go

/-- A slot's results staged. -/
def Core.stage (c : Core) (o : SlotOut) (slot : Nat) : Core :=
  { c with
    slot := slot, staged := c.staged ++ o.res, accSats := c.accSats + o.accSats, roundSats := c.roundSats + o.roundSats
    laneSats := c.laneSats + o.laneSats, ctl := if o.ctl = .go then c.ctl else o.ctl }

/-- The bytes of the bundle at a core's PC with their thorns, and what reading them leaves. -/
def codeAt (d : Dev) (core : Nat) : List Nat × List Nat × Dev := readSpan d (progKey core + 8 * (nth d.cores core).pc) 8

/-- Whether the three slots of a bundle hold no reserved encoding. -/
def bundleOk (w : Nat) : Bool := macOk (macSlot w) && aluOk (aluSlot w) && lsOk (lsSlot w)

/-- A bundle read: it faults where its word is thorned or uncorrectable (4) or holds a reserved encoding (1), and else its MAC
operation is done. -/
def openBundle (d : Dev) (core : Nat) (fields : List (Nat × Nat × Nat)) (f : Core → SlotOut) (x : List Nat × List Nat × Dev) : Dev :=
  if !x.2.1.isEmpty then coreFault x.2.2 core 4 0 0
  else if !bundleOk (be x.1) then coreFault x.2.2 core 1 0 0
  else if !slotIs (macSlot (be x.1)) fields then d
  else x.2.2.onCore core fun c => { c with bundle := be x.1 }.stage (f c) 1

/-- The MAC slot opens a bundle. -/
def runMac (core : Nat) (fields : List (Nat × Nat × Nat)) (f : Core → SlotOut) : Meaning := onDev fun d =>
  if !Core.takes d core 0 || (nth d.cores core).irqDue then d else openBundle d core fields f (codeAt d core)

/-- The ALU slot of the bundle at work. -/
def runAlu (core : Nat) (fields : List (Nat × Nat × Nat)) (f : Core → SlotOut) : Meaning := onDev fun d =>
  let c := nth d.cores core
  if !Core.takes d core 1 || !slotIs (aluSlot c.bundle) fields then d else d.onCore core fun c => c.stage (f c) 2

/-! ### Closing a bundle (R572 to R575) -/

/-- R575: the loop-end tests after the bundle at PC, level 1 before level 0: the core after them, and where issue goes when a loop
repeats. `la0` and `la1` are the loop levels active at the bundle. -/
def Core.loopEnd (c : Core) (pc : Nat) (la0 la1 : Bool) : Core × Option Nat :=
  let level (c : Core) (n : Nat) : Core × Option Nat :=
    if 1 < nth c.lc n then ({ c with lc := upd c.lc n (· - 1) }, some (nth c.lb n))
    else ({ c with lc := upd c.lc n fun _ => 0, flags := putBit c.flags (2 + n) false }, none)
  let (c, t) := if la1 && nth c.le 1 == pc then level c 1 else (c, none)
  if t.isSome then (c, t) else if la0 && nth c.le 0 == pc then level c 0 else (c, none)

/-- A bundle closes: its results take their latencies, those due are written, and issue goes on at a redirect that falls due, at a
loop's begin, at a skip, or at the next bundle. RETI takes IPC and IFLAGS as they are at the redirect (R577). -/
def Core.close (c : Core) : Core :=
  let i := c.issued + 1
  let taken : List (Nat × Nat × Bool) := match c.ctl with
    | .branch t => [(2, t, false)]
    | .reti => [(2, c.ipc, true)]
    | _ => []
  let reds : List (Nat × Nat × Bool) := c.redirects.map (fun (r : Nat × Nat × Bool) => (r.1 - 1, r.2.1, r.2.2)) ++ taken
  let fired := reds.find? fun r => r.1 == 0
  let la0 := c.flags.testBit 2
  let la1 := c.flags.testBit 3
  let pc := c.pc
  let x := { c with
    inflight := c.inflight ++ c.staged.map fun (r : Nat × CoreRes) => (c.issued + r.1, r.2)
    issued := i, bundles := c.bundles + 1, slot := 0, staged := [], redirects := reds.filter fun r => r.1 != 0 }.retire i
  let x := { x with
    flags := Nat.lor x.flags ((if 0 < c.accSats then 16 else 0) + (if 0 < c.roundSats + c.laneSats then 32 else 0))
    asatSeen := x.asatSeen || decide (0 < c.accSats), lsatSeen := x.lsatSeen || decide (0 < c.roundSats + c.laneSats)
    satcnt := sat32 (x.satcnt + c.roundSats), accSats := 0, roundSats := 0, laneSats := 0
    counts := upd (upd x.counts 0 (· + c.accSats)) 1 (· + (c.roundSats + c.laneSats)) }
  match fired with
  | some (_, t, r) => { x with pc := (if r then x.ipc else t) % 16384, flags := if r then x.iflags else x.flags, ctl := .go }
  | none =>
    let (x, t) := x.loopEnd pc la0 la1
    let next := match t, c.ctl with
      | some t, _ => t
      | none, .skip t => t
      | none, _ => pc + 1
    { x with pc := next % 16384, ctl := .go }

/-- R586: a bundle counted in its second of the axis clock. -/
def Core.tally (c : Core) (now : Nat) : Core :=
  let s := now / tickHz
  if c.loadSec = s then { c with loadNow := c.loadNow + 1 }
  else { c with loadSec := s, loadPrev := if c.loadSec + 1 = s then c.loadNow else 0, loadNow := 1 }

/-- The bundle at work closes, and WAIT, WAITX or HALT takes effect (R564, R584). -/
def closeBundle (d : Dev) (n : Nat) : Dev :=
  let c := nth d.cores n
  let sat := decide (0 < c.accSats + c.roundSats + c.laneSats)
  let d := (d.onCore n Core.close).onCore n (·.tally d.now)
  let d := if sat then raiseLimited d EV.appletSat n [a4 n] else d
  match c.ctl with
  | .wait => d.onCore n fun x => if Nat.land x.istat x.imask = 0 then { x.drain with st := 3 } else x
  | .waitx => d.onCore n fun x => if x.xfers.isEmpty then x else { x.drain with st := 3, waitx := true }
  | .halt => raiseEv (coreHalt d n 5) EV.appletExit [a4 n]
  | _ => d

/-! ### The load/store slot (R557, R558, R560, R565) -/

/-- R557: an address register after its post-modify. -/
def Core.stepped (c : Core) (p : Nat) : Nat :=
  let s := toSigned 20 (nth c.ps p)
  if nth c.pm p = 0 then (((nth c.p p : Int) + s) % 2 ^ 20).toNat
  else (((nth c.pb p : Int) + ((nth c.p p : Int) - nth c.pb p + s) % (nth c.pm p)) % 2 ^ 20).toNat

/-- The post-modify that an access asks for. -/
def Core.post (c : Core) (p : Nat) (u : Bool) : List (Nat × CoreRes) := if u then [(1, .post p (c.stepped p))] else []

/-- R558, R565: the data address of an access, when it is aligned and inside data memory. -/
def Core.dataAddr (c : Core) (p : Nat) (off : Int) (size align : Nat) : Option Nat :=
  let a : Int := (nth c.p p : Int) + off * size
  if 0 ≤ a ∧ a + size ≤ 0x80000 ∧ a % align = 0 then some a.toNat else none

/-- The address that a fault reports. -/
def Core.faultAt (c : Core) (p : Nat) (off : Int) (size : Nat) : Nat := ofSigned 40 ((nth c.p p : Int) + off * size)

/-- What a load/store operation does: a fault (cause, address), nothing while it must wait, or the unit with its effect and the results to
stage. -/
inductive LsOut where
  | fault (cause addr : Nat) (d : Dev)
  | stall (d : Dev)
  | done (o : SlotOut) (d : Dev)

/-- The load/store slot of the bundle at work, which closes it: a precise fault leaves nothing of the bundle (R579). -/
def runLs (core : Nat) (sel : Core → Nat → Bool) (f : Dev → Core → LsOut) : Meaning := onDev fun d =>
  let c := nth d.cores core
  if !Core.takes d core 2 || !sel c (lsSlot c.bundle) then d
  else match f d c with
    | .fault cause addr d => coreFault d core cause addr 0
    | .stall d => d
    | .done o d => closeBundle (d.onCore core fun c => c.stage o 0) core

/-- The fields of an access. -/
def lsFields (op z p : Nat) (u : Bool) (off : Int) : List (Nat × Nat × Nat) :=
  [(18, 4, op), (13, 5, z), (10, 3, p), (9, 1, b2n u), (0, 9, ofSigned 9 off)]

/-- R579: what a load makes of the bytes it reads: a thorned word faults (3). -/
def loadOut (a : Nat) (f : List Nat → SlotOut) (x : List Nat × List Nat × Dev) : LsOut :=
  if x.2.1.isEmpty then .done (f x.1) x.2.2 else .fault 3 a x.2.2

/-- A load of `size` bytes (R565): a thorned word faults (3). -/
def runLoad (core op size align z p : Nat) (u : Bool) (off : Int) (f : List Nat → List (Nat × CoreRes)) : Meaning :=
  runLs core (fun _ s => slotIs s (lsFields op z p u off)) fun d c =>
    match c.dataAddr p off size align with
    | none => .fault 2 (c.faultAt p off size) d
    | some a => loadOut a (fun b => { res := f b ++ c.post p u }) (readSpan d (dataKey core + a) size)

/-- A store of bytes (R565). -/
def runStore (core op size align z p : Nat) (u : Bool) (off : Int) (bytes : Core → List Nat) (sats : Core → Nat) : Meaning :=
  runLs core (fun _ s => slotIs s (lsFields op z p u off)) fun d c =>
    match c.dataAddr p off size align with
    | none => .fault 2 (c.faultAt p off size) d
    | some a => .done { res := c.post p u, roundSats := sats c } (writeSpan d (dataKey core + a) (bytes c) [] [])

/-- A word as `n` big-endian bytes. -/
def beBytes (n v : Nat) : List Nat := (List.range n).map fun i => v / 256 ^ (n - 1 - i) % 256

/-- A component of `w` bits, its most negative code read as the most negative value (R150). -/
def compOfBits (w v : Nat) : Int := max (1 - 2 ^ (w - 1)) (toSigned w v)

/-! ### Apertures and transfers (R559, R560) -/

/-- The fabric address that an aperture address names, when `n` bytes there lie in a declared window that allows the access. -/
def Core.aperture (c : Core) (va n : Nat) (write : Bool) : Option Nat :=
  if va < 0x80000000 then none
  else
    let w := nth c.img.windows ((va - 0x80000000) / 0x20000000)
    let o := (va - 0x80000000) % 0x20000000
    if (if write then 2 else 1) ≤ w.access ∧ o + n ≤ w.size * 65536 then some (w.base + o) else none

/-- R560: what a transfer takes from data memory as it is queued: the 64 bytes of a write, with their thorns. -/
def xferIn (write : Bool) (d : Dev) (a : Nat) : List Nat × List Nat × Dev := if write then readSpan d a 64 else ([], [], d)

/-- XRD and XWR: the checks in the order window (5), local address (2), ninth transfer (7). -/
def runXfer (core op z p : Nat) (u : Bool) (off : Int) (write : Bool) : Meaning :=
  runLs core (fun _ s => slotIs s (lsFields op z p u off)) fun d c =>
    let va := c.zr z
    match c.aperture va 64 write, c.dataAddr p off 64 64 with
    | none, _ => .fault 5 va d
    | some _, none => if va % 64 ≠ 0 then .fault 5 va d else .fault 2 (c.faultAt p off 64) d
    | some fa, some a =>
      if va % 64 ≠ 0 then .fault 5 va d
      else if 8 ≤ c.xfers.length then .fault 7 va d
      else
        let x := xferIn write d (dataKey core + a)
        .done { res := c.post p u } (x.2.2.onCore core fun c => { c with
          xfers := c.xfers ++ [{ write := write, addr := fa, off := a, data := x.1, thorn := x.2.1.map fun w => (w - (dataKey core + a)) / 8 }] })

/-! ### The I/O space (R576, R578) -/

/-- R578: the ring address at which a stream port's next 32 bits lie. -/
def Core.ringAt (c : Core) (k : Nat) (write : Bool) : Option Nat :=
  let r := nth c.ring k
  if r % 65536 = 0 then none else c.aperture (r / 65536 * 65536 + nth c.ringPos k) 4 write

/-- The ring position after one word. -/
def Core.ringNext (c : Core) (k : Nat) : Core :=
  { c with ringPos := upd c.ringPos k fun x => (x + 4) % max 4 (nth c.ring k % 65536 * 65536) }

/-- R578: the next 32 bits of stream port 6, a free value where its ring gives none. -/
def sportPop (d : Dev) (n : Nat) : Nat × Dev :=
  let c := nth d.cores n
  if !c.img.sports.testBit 0 then (0, d)
  else
    let d' := d.onCore n fun c => c.ringNext 0
    match c.ringAt 0 false with
    | some a =>
      if domOn d 9 ∧ storeOf a = some 3 then
        let (b, _, d'') := readSpan (d'.portMoves 6 4) a 4
        (be b, d'')
      else d'.fresh 4
    | none => d'.fresh 4

/-- R578: 32 bits pushed to stream port 7. -/
def sportPush (d : Dev) (n v : Nat) : Dev :=
  let c := nth d.cores n
  if !c.img.sports.testBit 1 then d
  else
    let d' := d.onCore n fun c => c.ringNext 1
    match c.ringAt 1 true with
    | some a => if domOn d 9 ∧ storeOf a = some 3 then writeSpan (d'.portMoves 7 4) a (beBytes 4 v) [] [] else d'
    | none => d'

/-- R578: the register of an assigned DMA channel at an offset, from 0x100 and from 0x140. -/
def Core.chanReg (c : Core) (o : Nat) : Option (Nat × Nat) := c.chans[(o - 0x100) / 0x40]?.map fun n => (n, (o - 0x100) % 0x40)

/-- R578: the word an I/O read returns and what reading does; none at an offset without a register. -/
def ioRead (d : Dev) (n o : Nat) : Option (Nat × Dev) :=
  let c := nth d.cores n
  if o = 0x000 then some (c.istat, d)
  else if o = 0x004 then some (c.imask, d)
  else if o = 0x008 then some (d.axis % 2 ^ 32, d.onCore n fun c => { c with axisHi := d.axis / 2 ^ 32 % 2 ^ 32 })
  else if o = 0x00C then some (c.axisHi, d)
  else if o = 0x010 then some (c.cycles d.now % 2 ^ 32, d.onCore n fun c => { c with cycHi := c.cycles d.now / 2 ^ 32 % 2 ^ 32 })
  else if o = 0x014 then some (c.cycHi, d)
  else if o = 0x018 then some (c.xfers.length, d)
  else if o = 0x01C then some (0, d)
  else if o = 0x020 then some (c.satcnt, d)
  else if 0x040 ≤ o ∧ o ≤ 0x06C then some (nth c.msgIn ((o - 0x040) / 4), d)
  else if 0x080 ≤ o ∧ o ≤ 0x0AC then some (nth c.msgOut ((o - 0x080) / 4), d)
  else if o = 0x0C0 then some (0, d)
  else if 0x100 ≤ o ∧ o < 0x180 then
    some (match c.chanReg o with
      | some (k, r) => if r ≤ 0x20 then regWord d (.dma k r) else 0
      | none => 0, d)
  else if o = 0x200 then some (sportPop d n)
  else if o = 0x210 then some (0, d)
  else if o = 0x204 then some ((nth d.mem.ports 6).fill * 128, d)
  else if o = 0x214 then some ((nth d.mem.ports 7).fill * 128, d)
  else if o = 0x208 then some (nth c.mark 0, d)
  else if o = 0x218 then some (nth c.mark 1, d)
  else if o = 0x20C then some (nth c.ring 0, d)
  else if o = 0x21C then some (nth c.ring 1, d)
  else none

/-- R578: MSG_SEND: MSG_OUT as the arguments of EV_APPLET_MSG, dropped and counted within 100 us of the last send. -/
def msgSend (d : Dev) (n : Nat) : Dev :=
  let c := nth d.cores n
  if c.lastSend.any fun t => decide (d.now < t + 196608) then d.onCore n fun c => { c with counts := upd c.counts 5 (· + 1) }
  else raiseEv (d.onCore n fun c => { c with lastSend := some d.now }) EV.appletMsg (c.msgOut.map a4)

/-- R578: what an I/O write does; none at an offset without a register. -/
def ioWrite (d : Dev) (n o v : Nat) : Option Dev :=
  if o = 0x000 then some (d.onCore n fun c => { c with istat := c.istat - Nat.land c.istat v })
  else if o = 0x004 then some (d.onCore n fun c => { c with imask := v % 128 })
  else if o ≤ 0x018 then (if o % 4 = 0 then some d else none)
  else if o = 0x01C then some (d.onCore n fun c => { c with wdtAt := d.now })
  else if o = 0x020 then some d
  else if 0x040 ≤ o ∧ o ≤ 0x06C then some d
  else if 0x080 ≤ o ∧ o ≤ 0x0AC then some (d.onCore n fun c => { c with msgOut := upd c.msgOut ((o - 0x080) / 4) fun _ => v })
  else if o = 0x0C0 then some (msgSend d n)
  else if 0x100 ≤ o ∧ o < 0x180 then
    some (match (nth d.cores n).chanReg o with
      | some (k, r) => if r ≤ 0x20 then regWrite d (.dma k r) v v else d
      | none => d)
  else if o = 0x200 then some d
  else if o = 0x210 then some (sportPush d n v)
  else if o = 0x204 ∨ o = 0x214 then some d
  else if o = 0x208 ∨ o = 0x218 then some (d.onCore n fun c => { c with mark := upd c.mark (if o = 0x208 then 0 else 1) fun _ => v })
  else if o = 0x20C ∨ o = 0x21C then
    some (d.onCore n fun c => { c with
      ring := upd c.ring (if o = 0x20C then 0 else 1) fun _ => v, ringPos := upd c.ringPos (if o = 0x20C then 0 else 1) fun _ => 0 })
  else none

/-- R561: the transfers of a core are carried out as far as its last write, as the matrix takes them. -/
def writesFirst (d : Dev) (n : Nat) : Dev :=
  (List.range 8).foldl (fun d _ => if (nth d.cores n).xfers.any (·.write) then (transferDone d n).getD d else d) d

/-- R561: an access to the registers of an assigned channel is issued after every earlier write of the core has been accepted. -/
def inOrderIo (d : Dev) (n o : Nat) (f : Dev → LsOut) : LsOut :=
  if 0x100 ≤ o ∧ o < 0x180 then
    let d := writesFirst d n
    if (nth d.cores n).xfers.any (·.write) || (nth d.cores n).st != 2 then .stall d else f d
  else f d

/-- An I/O read into a Z register (R565, R572), picked by its slot. -/
def runIoRead (core z : Nat) (o : Int) (sel : Nat → Bool) : Meaning :=
  runLs core (fun _ s => slotIs s [(18, 4, 0xB), (13, 5, z), (0, 9, ofSigned 9 o)] && sel s) fun d _ =>
    if o < 0 then .fault 2 (ofSigned 40 (o * 4)) d
    else inOrderIo d core (o.toNat * 4) fun d =>
      match ioRead d core (o.toNat * 4) with
      | some (v, d) => .done { res := [(4, .z z v)] } d
      | none => .fault 2 (o.toNat * 4) d

/-- An I/O write of a Z register (R565), picked by its slot and the value it writes. -/
def runIoWrite (core : Nat) (o : Int) (sel : Core → Nat → Bool) : Meaning :=
  runLs core (fun c s => slotIs s [(18, 4, 0xC), (0, 9, ofSigned 9 o)] && sel c s) fun d c =>
    if o < 0 then .fault 2 (ofSigned 40 (o * 4)) d
    else inOrderIo d core (o.toNat * 4) fun d =>
      match ioWrite d core (o.toNat * 4) (c.zr (bitsOf (lsSlot c.bundle) 17 13)) with
      | some d => .done {} d
      | none => .fault 2 (o.toNat * 4) d

/-! ### The MAC slot (R563) -/

/-- R567: a result of an accumulator operation, saturated. -/
def accOut (a : Nat) (re im : Int) (fwd : Bool) : SlotOut :=
  { res := [(3, .acc a (satSym accMax re) (satSym accMax im) fwd)], accSats := satCount accMax re im }

/-- MAC slot: no operation. -/
def execMacNop (core : Nat) : Meaning :=
  runMac core [(16, 4, 0x0)] fun _ => {}

/-- MUL. -/
def execMul (core a x y cj : Nat) : Meaning :=
  runMac core [(16, 4, 0x1), (14, 2, a), (9, 5, x), (4, 5, y), (2, 2, cj)] fun c =>
    let p := product (c.zr x) (c.zr y) cj
    { res := [(3, .acc a p.1 p.2 false)] }

/-- MAC (R567, R572). -/
def execMac (core a x y cj : Nat) : Meaning :=
  runMac core [(16, 4, 0x2), (14, 2, a), (9, 5, x), (4, 5, y), (2, 2, cj)] fun c =>
    let p := product (c.zr x) (c.zr y) cj
    let v := c.accFwd a
    accOut a (v.1 + p.1) (v.2 + p.2) true

/-- MSU (R567, R572). -/
def execMsu (core a x y cj : Nat) : Meaning :=
  runMac core [(16, 4, 0x3), (14, 2, a), (9, 5, x), (4, 5, y), (2, 2, cj)] fun c =>
    let p := product (c.zr x) (c.zr y) cj
    let v := c.accFwd a
    accOut a (v.1 - p.1) (v.2 - p.2) true

/-- ACLR. -/
def execAclr (core a : Nat) : Meaning :=
  runMac core [(16, 4, 0x4), (14, 2, a)] fun _ => { res := [(3, .acc a 0 0 false)] }

/-- AMOV (R568). -/
def execAmov (core a y : Nat) : Meaning :=
  runMac core [(16, 4, 0x5), (14, 2, a), (4, 5, y)] fun c => { res := [(3, .acc a (nth c.a (y % 4)).1 (nth c.a (y % 4)).2 false)] }

/-- AADD (R568). -/
def execAadd (core a y : Nat) : Meaning :=
  runMac core [(16, 4, 0x6), (14, 2, a), (4, 5, y)] fun c => accOut a ((nth c.a a).1 + (nth c.a (y % 4)).1) ((nth c.a a).2 + (nth c.a (y % 4)).2) false

/-- ASHR (R568). -/
def execAshr (core a k : Nat) : Meaning :=
  runMac core [(16, 4, 0x7), (14, 2, a), (4, 5, k)] fun c => { res := [(3, .acc a ((nth c.a a).1 / 2 ^ k) ((nth c.a a).2 / 2 ^ k) false)] }

/-- ASHL (R568). -/
def execAshl (core a k : Nat) : Meaning :=
  runMac core [(16, 4, 0x8), (14, 2, a), (4, 5, k)] fun c => accOut a ((nth c.a a).1 * 2 ^ k) ((nth c.a a).2 * 2 ^ k) false

/-- ALD (R568). -/
def execAld (core a x k : Nat) : Meaning :=
  runMac core [(16, 4, 0x9), (14, 2, a), (9, 5, x), (4, 5, k)] fun c => accOut a (zI (c.zr x) * 2 ^ k) (zQ (c.zr x) * 2 ^ k) false

/-- RND (R569). -/
def execRnd (core a x k : Nat) : Meaning :=
  runMac core [(16, 4, 0xA), (14, 2, a), (9, 5, x), (4, 5, k)] fun c =>
    let i := rnd (nth c.a a).1 k
    let q := rnd (nth c.a a).2 k
    { res := [(3, .z x (zWord (satSym 32767 i) (satSym 32767 q)))], roundSats := satCount 32767 i q }

/-- ANORM (R570). -/
def execAnorm (core a x : Nat) : Meaning :=
  runMac core [(16, 4, 0xB), (14, 2, a), (9, 5, x)] fun c => { res := [(3, .z x (min (signBits 40 (nth c.a a).1) (signBits 40 (nth c.a a).2)))] }

/-- AEXP (R570). -/
def execAexp (core a : Nat) : Meaning :=
  runMac core [(16, 4, 0xC), (14, 2, a)] fun c => { res := [(1, .bx (min c.bx (min (signBits 40 (nth c.a a).1) (signBits 40 (nth c.a a).2))))] }

/-! ### The ALU slot (R564) -/

/-- A result into a Z register; in lanes with symmetric saturation; and R569's shift of a word's components. -/
def zOut (d v : Nat) : SlotOut := { res := [(1, .z d v)] }
def lanesOut (d : Nat) (i q : Int) : SlotOut :=
  { res := [(1, .z d (zWord (satSym 32767 i) (satSym 32767 q)))], laneSats := satCount 32767 i q }
def shiftOut (d v k : Nat) : SlotOut :=
  let i := rnd (zI v) k
  let q := rnd (zQ v) k
  { res := [(1, .z d (zWord (satSym 32767 i) (satSym 32767 q)))], roundSats := satCount 32767 i q }

/-- R570: the smaller count of a word's components. -/
def zNorm (v : Nat) : Nat := min (signBits 16 (zI v)) (signBits 16 (zQ v))

/-- ALU slot: no operation. -/
def execAluNop (core : Nat) : Meaning :=
  runAlu core [(16, 6, 0x00)] fun _ => {}

/-- ADDL. -/
def execAddl (core d ra rb : Nat) : Meaning :=
  runAlu core [(16, 6, 0x01), (11, 5, d), (6, 5, ra), (1, 5, rb)] fun c => lanesOut d (zI (c.zr ra) + zI (c.zr rb)) (zQ (c.zr ra) + zQ (c.zr rb))

/-- SUBL. -/
def execSubl (core d ra rb : Nat) : Meaning :=
  runAlu core [(16, 6, 0x02), (11, 5, d), (6, 5, ra), (1, 5, rb)] fun c => lanesOut d (zI (c.zr ra) - zI (c.zr rb)) (zQ (c.zr ra) - zQ (c.zr rb))

/-- NEGL. -/
def execNegl (core d ra : Nat) : Meaning :=
  runAlu core [(16, 6, 0x03), (11, 5, d), (6, 5, ra)] fun c => lanesOut d (-zI (c.zr ra)) (-zQ (c.zr ra))

/-- CONJ. -/
def execConj (core d ra : Nat) : Meaning :=
  runAlu core [(16, 6, 0x04), (11, 5, d), (6, 5, ra)] fun c => lanesOut d (zI (c.zr ra)) (-zQ (c.zr ra))

/-- SWAP. -/
def execSwap (core d ra : Nat) : Meaning :=
  runAlu core [(16, 6, 0x05), (11, 5, d), (6, 5, ra)] fun c => zOut d (c.zr ra % 65536 * 65536 + c.zr ra / 65536)

/-- SHRL (R569). -/
def execShrl (core d ra k : Nat) : Meaning :=
  runAlu core [(16, 6, 0x06), (11, 5, d), (6, 5, ra), (1, 5, k)] fun c => shiftOut d (c.zr ra) k

/-- SHLL. -/
def execShll (core d ra k : Nat) : Meaning :=
  runAlu core [(16, 6, 0x07), (11, 5, d), (6, 5, ra), (1, 5, k)] fun c => lanesOut d (zI (c.zr ra) * 2 ^ k) (zQ (c.zr ra) * 2 ^ k)

/-- SHRV (R569). -/
def execShrv (core d ra rb : Nat) : Meaning :=
  runAlu core [(16, 6, 0x08), (11, 5, d), (6, 5, ra), (1, 5, rb)] fun c => shiftOut d (c.zr ra) (c.zr rb % 32)

/-- ADDW. -/
def execAddw (core d ra rb : Nat) : Meaning :=
  runAlu core [(16, 6, 0x09), (11, 5, d), (6, 5, ra), (1, 5, rb)] fun c => zOut d ((c.zr ra + c.zr rb) % 2 ^ 32)

/-- SUBW. -/
def execSubw (core d ra rb : Nat) : Meaning :=
  runAlu core [(16, 6, 0x0A), (11, 5, d), (6, 5, ra), (1, 5, rb)] fun c => zOut d ((c.zr ra + 2 ^ 32 - c.zr rb) % 2 ^ 32)

/-- AND. -/
def execAnd (core d ra rb : Nat) : Meaning :=
  runAlu core [(16, 6, 0x0B), (11, 5, d), (6, 5, ra), (1, 5, rb)] fun c => zOut d (Nat.land (c.zr ra) (c.zr rb))

/-- OR. -/
def execOr (core d ra rb : Nat) : Meaning :=
  runAlu core [(16, 6, 0x0C), (11, 5, d), (6, 5, ra), (1, 5, rb)] fun c => zOut d (Nat.lor (c.zr ra) (c.zr rb))

/-- XOR. -/
def execXor (core d ra rb : Nat) : Meaning :=
  runAlu core [(16, 6, 0x0D), (11, 5, d), (6, 5, ra), (1, 5, rb)] fun c => zOut d (Nat.xor (c.zr ra) (c.zr rb))

/-- MOV. -/
def execMov (core d ra : Nat) : Meaning :=
  runAlu core [(16, 6, 0x0E), (11, 5, d), (6, 5, ra)] fun c => zOut d (c.zr ra)

/-- NORM (R570). -/
def execNorm (core d ra : Nat) : Meaning :=
  runAlu core [(16, 6, 0x0F), (11, 5, d), (6, 5, ra)] fun c => zOut d (zNorm (c.zr ra))

/-- EXP (R570). -/
def execExp (core ra : Nat) : Meaning :=
  runAlu core [(16, 6, 0x10), (6, 5, ra)] fun c => { res := [(1, .bx (min c.bx (zNorm (c.zr ra))))] }

/-- EXPC. -/
def execExpc (core : Nat) : Meaning :=
  runAlu core [(16, 6, 0x11)] fun _ => { res := [(1, .bx 39)] }

/-- CMPLT. -/
def execCmplt (core ra rb : Nat) : Meaning :=
  runAlu core [(16, 6, 0x12), (6, 5, ra), (1, 5, rb)] fun c => { res := [(1, .flag 0 (decide (toSigned 32 (c.zr ra) < toSigned 32 (c.zr rb))))] }

/-- CMPEQ. -/
def execCmpeq (core ra rb : Nat) : Meaning :=
  runAlu core [(16, 6, 0x13), (6, 5, ra), (1, 5, rb)] fun c => { res := [(1, .flag 0 (c.zr ra == c.zr rb))] }

/-- LIL. -/
def execLil (core d : Nat) (imm : Int) : Meaning :=
  runAlu core [(16, 6, 0x20), (11, 5, d), (0, 11, ofSigned 11 imm)] fun _ => zOut d (ofSigned 32 imm)

/-- LIS. -/
def execLis (core d : Nat) (imm : Int) : Meaning :=
  runAlu core [(16, 6, 0x21), (11, 5, d), (0, 11, ofSigned 11 imm)] fun c => zOut d (c.zr d * 2048 % 2 ^ 32 + ofSigned 11 imm)

/-- ADDI. -/
def execAddi (core d : Nat) (imm : Int) : Meaning :=
  runAlu core [(16, 6, 0x22), (11, 5, d), (0, 11, ofSigned 11 imm)] fun c => zOut d ((c.zr d + ofSigned 32 imm) % 2 ^ 32)

/-- MVTS (R572). -/
def execMvts (core ra sr : Nat) : Meaning :=
  runAlu core [(16, 6, 0x28), (6, 5, ra), (0, 6, sr)] fun c => { res := [(if sr = 38 ∨ sr = 42 then 1 else 2, .spec sr (c.zr ra))] }

/-- MVFS. -/
def execMvfs (core d sr : Nat) : Meaning :=
  runAlu core [(16, 6, 0x29), (11, 5, d), (0, 6, sr)] fun c => zOut d (c.spec sr)

/-- JMP (R574). -/
def execJmp (core tgt : Nat) : Meaning :=
  runAlu core [(16, 6, 0x30), (0, 14, tgt)] fun _ => { ctl := .branch tgt }

/-- JF (R574). -/
def execJf (core tgt : Nat) : Meaning :=
  runAlu core [(16, 6, 0x31), (0, 14, tgt)] fun c => { ctl := if c.flags.testBit 0 then .branch tgt else .go }

/-- JNF (R574). -/
def execJnf (core tgt : Nat) : Meaning :=
  runAlu core [(16, 6, 0x32), (0, 14, tgt)] fun c => { ctl := if c.flags.testBit 0 then .go else .branch tgt }

/-- CALL (R574). -/
def execCall (core tgt : Nat) : Meaning :=
  runAlu core [(16, 6, 0x33), (0, 14, tgt)] fun c => { res := [(1, .spec 41 (c.pc + 3))], ctl := .branch tgt }

/-- RET (R574). -/
def execRet (core : Nat) : Meaning :=
  runAlu core [(16, 6, 0x34)] fun c => { ctl := .branch c.lnk }

/-- RETI (R574). -/
def execReti (core : Nat) : Meaning :=
  runAlu core [(16, 6, 0x35)] fun _ => { ctl := .reti }

/-- LOOP (R575). -/
def execLoop (core level tgt : Nat) : Meaning :=
  runAlu core [(16, 6, 0x36), (15, 1, level), (0, 14, tgt)] fun c =>
    let set := [(1, CoreRes.spec (32 + 3 * level) (c.pc + 1)), (1, .spec (33 + 3 * level) tgt)]
    if nth c.lc level = 0 then { res := set ++ [(1, .flag (2 + level) false)], ctl := .skip (tgt + 1) }
    else { res := set ++ [(1, .flag (2 + level) true)] }

/-- LOOPX (R575). -/
def execLoopx (core level : Nat) : Meaning :=
  runAlu core [(16, 6, 0x37), (15, 1, level)] fun _ => { res := [(1, .flag (2 + level) false)] }

/-- EI. -/
def execEi (core : Nat) : Meaning :=
  runAlu core [(16, 6, 0x38)] fun _ => { res := [(1, .flag 1 true)] }

/-- DI. -/
def execDi (core : Nat) : Meaning :=
  runAlu core [(16, 6, 0x39)] fun _ => { res := [(1, .flag 1 false)] }

/-- WAIT. -/
def execWait (core : Nat) : Meaning :=
  runAlu core [(16, 6, 0x3A)] fun _ => { ctl := .wait }

/-- WAITX. -/
def execWaitx (core : Nat) : Meaning :=
  runAlu core [(16, 6, 0x3B)] fun _ => { ctl := .waitx }

/-- HALT. -/
def execHalt (core : Nat) : Meaning :=
  runAlu core [(16, 6, 0x3C)] fun _ => { ctl := .halt }

/-- TRAP: a fault with its code (R579). -/
def execTrap (core : Nat) (imm : Int) : Meaning := onDev fun d =>
  let c := nth d.cores core
  if !Core.takes d core 1 || !slotIs (aluSlot c.bundle) [(16, 6, 0x3D), (0, 11, ofSigned 11 imm)] then d
  else coreFault d core 8 0 (ofSigned 16 imm)

/-! ### The load/store slot (R565) -/

/-- Load/store slot: no operation. -/
def execLsNop (core : Nat) : Meaning := runLs core (fun _ s => slotIs s [(18, 4, 0)]) fun d _ => .done {} d

/-- LDZ. -/
def execLdz (core z p : Nat) (u : Bool) (off : Int) : Meaning :=
  runLoad core 1 4 4 z p u off fun b => [(4, .z z (be b))]

/-- LDD. -/
def execLdd (core z p : Nat) (u : Bool) (off : Int) : Meaning :=
  runLoad core 2 8 8 z p u off fun b => [(4, .z z (be (b.take 4))), (4, .z (z + 1) (be (b.drop 4)))]

/-- STZ. -/
def execStz (core z p : Nat) (u : Bool) (off : Int) : Meaning :=
  runStore core 3 4 4 z p u off (fun c => beBytes 4 (c.zr z)) (fun _ => 0)

/-- STD. -/
def execStd (core z p : Nat) (u : Bool) (off : Int) : Meaning :=
  runStore core 4 8 8 z p u off (fun c => beBytes 4 (c.zr z) ++ beBytes 4 (c.zr (z + 1))) (fun _ => 0)

/-- LDH. -/
def execLdh (core z p : Nat) (u : Bool) (off : Int) : Meaning :=
  runLoad core 5 2 2 z p u off fun b => [(4, .z z (be b * 65536))]

/-- STH. -/
def execSth (core z p : Nat) (u : Bool) (off : Int) : Meaning :=
  runStore core 6 2 2 z p u off (fun c => beBytes 2 (c.zr z / 65536)) (fun _ => 0)

/-- LD4. -/
def execLd4 (core z p : Nat) (u : Bool) (off : Int) : Meaning :=
  runLoad core 7 1 1 z p u off fun b => [(4, .z z (zWord (compOfBits 4 (be b / 16)) (compOfBits 4 (be b % 16))))]

/-- LD8. -/
def execLd8 (core z p : Nat) (u : Bool) (off : Int) : Meaning :=
  runLoad core 8 2 2 z p u off fun b => [(4, .z z (zWord (compOfBits 8 (be b / 256)) (compOfBits 8 (be b % 256))))]

/-- LD12. -/
def execLd12 (core z p : Nat) (u : Bool) (off : Int) : Meaning :=
  runLoad core 9 3 1 z p u off fun b => [(4, .z z (zWord (compOfBits 12 (be b / 4096)) (compOfBits 12 (be b % 4096))))]

/-- ST12. -/
def execSt12 (core z p : Nat) (u : Bool) (off : Int) : Meaning :=
  runStore core 0xA 3 1 z p u off (fun c => beBytes 3 (ofSigned 12 (satSym 2047 (rnd (zI (c.zr z)) 4)) * 4096 + ofSigned 12 (satSym 2047 (rnd (zQ (c.zr z)) 4)))) (fun c => satCount 2047 (rnd (zI (c.zr z)) 4) (rnd (zQ (c.zr z)) 4))

/-- XRD and XWR (R560). -/
def execXrd (core z p : Nat) (u : Bool) (off : Int) : Meaning := runXfer core 0xD z p u off false
def execXwr (core z p : Nat) (u : Bool) (off : Int) : Meaning := runXfer core 0xE z p u off true

/-- IORD and IOWR (R578). -/
def execIord (core z : Nat) (off : Int) : Meaning := runIoRead core z off fun _ => true
def execIowr (core z : Nat) (off : Int) : Meaning := runIoWrite core off fun _ s => slotIs s [(13, 5, z)]

/-- The registers of the I/O space whose access is a row of its own (R578): IORD of AXIS_LO, CYC_LO and SPORT_DATA of port 6. -/
def execAxisLo (core z : Nat) : Meaning := runIoRead core z 2 fun _ => true
def execCycLo (core z : Nat) : Meaning := runIoRead core z 4 fun _ => true
def execSportDataPop (core z : Nat) : Meaning := runIoRead core z 0x80 fun _ => true

/-- IOWR of a value to WDT, to MSG_SEND and to SPORT_DATA of port 7 (R578). -/
def execWdt (core value : Nat) : Meaning := runIoWrite core 7 fun c s => c.zr (bitsOf s 17 13) == value
def execMsgSend (core value : Nat) : Meaning := runIoWrite core 0x30 fun c s => c.zr (bitsOf s 17 13) == value
def execSportDataPush (core value : Nat) : Meaning := runIoWrite core 0x84 fun c s => c.zr (bitsOf s 17 13) == value

/-- INTERRUPT_ENTRY (R576). -/
def execInterruptEntry (core : Nat) : Meaning := onDev fun d =>
  if Core.takes d core 0 && (nth d.cores core).irqDue then
    d.onCore core fun c => { c with
      ipc := c.pc, iflags := c.flags, flags := putBit (putBit (putBit c.flags 1 false) 2 false) 3 false, pc := c.img.irqEntry
      counts := upd c.counts 3 (· + 1) }
  else d

end Sys2Proof.Machine
end

