-- ==== Sys2Proof/Machine/Sampling.lean ====
section
/-! DEFINITION. What a tick's samples do to the state: the saturations counted and the meters kept on receive (R190, R201), those of
the frequency engine (R266), and the cut-through frames that leave (R198, R205 to R208); and the requantiser's levels (R268). -/

namespace Sys2Proof.Machine

/-! ### The sub-bands and the meters -/

/-- R190: a tick's saturated samples of a receive sub-band counted, with the sticky bits and the event. -/
def rxTick (d : Dev) (n : Nat) : Dev :=
  let p := n / 4
  let s := n % 4
  let x := rxChain d p s
  let l := (samplesIn x.k d.axis).map x.sats
  let sat (j : Nat) : Nat := (l.map fun v => nth v j).sum
  if sat 0 + sat 1 + sat 2 = 0 then d
  else raiseLimited (d.onRxSb p s fun y => { y with
    counts := y.counts.zipIdx.map fun (c, j) => sat32 (c + sat j), sticky := y.sticky.zipIdx.map fun (b, j) => b || decide (0 < sat j) })
    EV.rxSat n [a4 p, a4 s]

/-- R201: a window of a meter with more samples: their squares, and how many were clipped or saturated. -/
def MeterWin.take (m : MeterWin) (squares : List Nat) (clips : Nat) : MeterWin :=
  { m with sum := m.sum + squares.sum, peak := squares.foldl max m.peak, count := m.count + squares.length, clips := m.clips + clips }

/-- R174, R199: an ADC sample of a path as its wideband meter takes it. -/
def portSample (d : Dev) (p n : Nat) : Int :=
  if (d.rxPath p).zeroFrom.isSome ∨ hopSpan d d.axis ∨ d.now < (nth d.fe p).validAt then 0
  else max (-2048) (min 2047 (Config.adc p (timeN16 d.tmb.epoch) (kNow d) n (frontOf d p)))

/-- R651: a path's wideband mean is kept for every whole second. -/
def secondTick (d : Dev) : Dev :=
  if d.axis % tickHz = 0 then { d with rx := d.rx.map fun x => { x with secLast := x.secNow, secNow := { start := d.axis } } } else d

/-- R201: the meters of a path take a tick's samples: the wideband meter its ADC samples, each sub-band's meter its outputs. -/
def pathMeters (d : Dev) (p : Nat) (x : RxPath) : RxPath :=
  let ns := samplesIn (kNow d) d.axis
  let wide := ns.map (portSample d p)
  let outs (s : Nat) : List (Cx × Nat) :=
    if !(x.sb s).on then []
    else let c := rxChain d p s; ns.filterMap fun n => (c.out n).map fun v => (v.1, (c.sats n).sum)
  { x with
    secNow := x.secNow.take (wide.map fun v => v.natAbs ^ 2) 0
    meters := x.meters.zipIdx.map fun (m, i) =>
      if i = 4 then { m with win := m.win.take (wide.map fun v => v.natAbs ^ 2) (wide.filter fun v => v == -2048 || v == 2047).length }
      else { m with win := m.win.take ((outs i).map fun v => Cx.norm v.1) ((outs i).filter fun v => decide (0 < v.2)).length } }

/-- R201: the meters run while the front-ends and the paths are on and the synthesiser is settled. -/
def meterTick (d : Dev) : Dev := if !domOn d 3 || !domOn d 6 || d.syn.settling then d else { d with rx := updAll (pathMeters d) 0 d.rx }

/-! ### The frequency engine's counts -/

/-- The first group of a slot at or after a position, and the one after a group, by stamp. -/
def slotFirst (d : Dev) (n pos : Nat) : Option Nat :=
  if n < 4 then firstGroup d n pos
  else
    let f := (nth d.fre n).cfg
    let c := slotChain d (n - 4)
    let k := max 1 (profileK d c.profile)
    match f.mode with
    | 2 => some (nextBoundary f pos)
    | 1 => some (spectrumPos k c f (spectrumFrom k c f (spectrumAt k c f pos)))
    | _ => some (inputPos k c (inputAt k c pos))
def slotNext (d : Dev) (n g : Nat) : Nat := if n < 4 then groupPos d n g 1 else (layerTiming d { num := 0, base := 0, layer := true, sb := n - 4, paths := [], format := 0, depth := 0 }).pos g 1

/-- R266: the samples that a group saturates on a path of a receive slot: window and FFT, equaliser, F12, F8, F4; F8 and F4 where a weave
or a stream takes them. -/
def rxGroupSats (d : Dev) (sb p : Nat) (g : Group) : List Nat :=
  let raw := rawChannels d sb p g
  let eq := (List.range g.set.cfg.nCh).map (equalised g p raw.1)
  let used (format : Nat) : Bool :=
    (d.weave.on && d.weave.banks.cur.hdr.sb == sb && d.weave.banks.cur.hdr.format == format)
      || d.outs.any fun o => o.kind == .channel && o.sb == sb && o.format == format && o.paths.contains p
  let sum (b : Bool) (f : Cx → Cx × Nat) : Nat := if b then (eq.map fun v => (f v.1).2).sum else 0
  [raw.2, satElements eq, sum (g.set.cfg.consumers.testBit 0) to12, sum (used 5) (toF8 g), sum (used 4) (toF4 g), 0]

/-- R264, R269: the samples that a group saturates on a path of a transmit slot: the transform, and the overlap-add of a symbol. -/
def txGroupSats (d : Dev) (sb p g next : Nat) : List Nat :=
  let f := (valAt (nth d.sig.fre (4 + sb)) g).cfg
  let c := ((d.txPath p).sb sb).banks.cur.cfg.chain
  let k := max 1 (profileK d c.profile)
  let fft := if f.mode = 0 then 0 else ((synthesised d sb p g fun _ => 0).1.map (·.2)).sum
  let first := inputAt k c g
  let lap := if f.mode = 2 then ((List.range (inputAt k c next - first).toNat).map fun (j : Nat) => (ofdmInput d sb p k c f (first + j)).2).sum else 0
  [fft, 0, 0, 0, 0, lap]

/-- R279, R280: whether a group saturates a beam, or a path's or layer's sample. -/
def beamSat (d : Dev) (n stamp : Nat) (g : Option Group) : Bool :=
  let f := nth d.fre n
  if !f.beamsOn then false
  else match g with
    | some g => let ch := allChannels d n g
      (List.range f.beams).any fun b => (List.range g.set.cfg.nCh).any fun i => decide (0 < (beamOut g ch b i).2)
    | none => (List.range 64).any fun p => (List.range f.cfg.nCh).any fun i => decide (0 < (layered d (n - 4) p stamp i).2)

/-- R287: whether the beams or path outputs of a group are formed with a thorned weight. -/
def beamThorned (d : Dev) (n stamp : Nat) (g : Option Group) : Bool :=
  (nth d.fre n).beamsOn && (match g with
    | some g => g.set.thorn
    | none => decide (4 ≤ n) && (valAt (nth d.sig.fre n) stamp).thorn)

/-- R266, R287: the saturations of a group counted, with the sticky bits and the events; EV_BMF_SAT at most once per second per slot as
EV_FRE_SAT: DESIGN CHOICE (log entry 121). -/
def countGroup (d : Dev) (n stamp next : Nat) (g : Option Group) : Dev :=
  let per := (List.range 64).map fun p =>
    if n < 4 then
      (match g with
        | some g => if ((d.rxPath p).sb n).on && (g.chain.at_ (g.sample g.newest)).bank.cfg.consumers.testBit 0 then rxGroupSats d n p g else [0, 0, 0, 0, 0, 0]
        | none => [0, 0, 0, 0, 0, 0])
    else let s := (d.txPath p).sb (n - 4); if s.on && s.banks.cur.cfg.source == 1 then txGroupSats d (n - 4) p stamp next else [0, 0, 0, 0, 0, 0]
  let any (js : List Nat) : Bool := per.any fun l => js.any fun j => decide (0 < nth l j)
  let beam := beamSat d n stamp g
  let d := d.onFre n fun f => { f with
    counts := f.counts.zipIdx.map fun (l, p) => l.zipIdx.map fun (c, j) => sat32 (c + nth (nth per p) j),
    sticky := (f.sticky.zip [any [0], any [1], any [2, 3, 4, 5]]).map fun (a, b) => a || b, satBeam := f.satBeam || beam }
  let d := if any [0, 1, 2, 3, 4, 5] then raiseLimited d EV.freSat n [a4 (n / 4), a4 (n % 4)] else d
  let d := if beam then raiseLimited d EV.bmfSat n [a4 (n / 4), a4 (n % 4)] else d
  if beamThorned d n stamp g then raiseLimited (d.onFre n fun f => { f with thornApplied := true }) EV.topThorn n [a4 (n / 4), a4 (n % 4)] else d

/-- Whether a group of a slot is formed by the present tick: all its inputs have come, or its stamp has. -/
def slotFormed (d : Dev) (n g : Nat) : Bool :=
  if n < 4 then (groupOf d n g).any fun x => decide (adcTick x.chain.k (x.sample x.newest) ≤ d.axis) else decide (g ≤ d.axis)

/-- R266: the groups of a slot that a tick completes, eight at most in mode 0 (R25). -/
def countGroups (n : Nat) : Nat → Dev → Dev
  | 0, d => d
  | k + 1, d =>
    match nth d.sig.due n with
    | none => d
    | some g =>
      if slotFormed d n g then
        let next := slotNext d n g
        let d := countGroup d n g next (if n < 4 then groupOf d n g else none)
        countGroups n k { d with sig := { d.sig with due := upd d.sig.due n fun _ => some next, counted := upd d.sig.counted n fun _ => some g } }
      else d

/-- R266: a slot's tick. A slot that stops, or whose groups no longer stand where they did, finds its next one anew. -/
def freTick (d : Dev) (n : Nat) : Dev :=
  let put (v : Option Nat) (d : Dev) : Dev := { d with sig := { d.sig with due := upd d.sig.due n fun _ => v } }
  if !(nth d.fre n).on then (if (nth d.sig.due n).isSome then put none d else d)
  else match nth d.sig.due n with
    | none => put (slotFirst d n d.axis) d
    | some g => countGroups n 8 (if decide (n < 4) && (groupOf d n g).isNone then put (slotFirst d n (g + 1)) d else d)

/-- FRE-LEVEL-GET (R268): the root-mean-square of a component of the F4 and F8 codes over each equaliser group of the last group formed: that it is the
last one is a DESIGN CHOICE (log entry 114). A transmit slot has no requantiser: its levels are free values. -/
def execFreLevelGet (h : Hdr) (dir sb path first count : Nat) : Meaning :=
  hostCmd (ask 0x0505 (spanWidths 512 count [2, 2])) h (.freLevelGet h dir sb path first count)
    (fun d => firstBad [
      (decide (1 < dir) || decide (3 < sb) || decide (63 < path) || decide (count < 1) || decide (512 < count)
        || decide ((nth d.fre (slotNo dir sb)).cfg.eqGroups < first + count), ST.badArg),
      (!(nth d.fre (slotNo dir sb)).on, ST.freDisabled)])
    (fun d =>
      if dir = 1 then
        let (l, d) := freshMany (2 * count) d
        { dev := d, reply := { fields := l.map (fld 2) } }
      else
        let rms (l : List Cx) : Nat := Nat.sqrt ((l.map Cx.norm).sum * 65536 / max 1 (2 * l.length))
        let vals := (List.range count).flatMap fun k =>
          match (nth d.sig.counted sb).bind (groupOf d sb) with
          | none => [0, 0]
          | some g =>
            let l := ((channelsOf d sb path g).drop ((first + k) * g.set.cfg.perGroup)).take g.set.cfg.perGroup
            [rms (l.map fun v => (toF4 g v.1).1), rms (l.map fun v => (toF8 g v.1).1)]
        { dev := d, reply := { fields := vals.map (satfld 2 ·) } })

/-! ### Cut-through frames -/

/-- A cut-through sender's outputs as a raw stream of one path in F12. -/
def CutOut.stream (c : CutOut) (p s : Nat) : OutStream :=
  { num := 0, base := 0, kind := .raw, sb := s, paths := [p], format := 1, dest := 0, port := 0, elements := 1, since := c.since, next := c.next, disc := c.disc }

/-- R206: a cut-through frame: its header and its samples in F12. -/
def cutBytes (p s : Nat) (c : CutOut) (l : List Feed) (last disc : Bool) : List Nat :=
  let sat := l.any fun f => f.sat || decide (0 < ((f.elems.map fun e => (elementFields 1 e).2).sum))
  bytesOf [fld 8 ((l.head?.map (·.stamp)).getD 0), fld 1 p, fld 1 (s * 64), fld 2 l.length,
      fld 1 (b2n last * 128 + b2n disc * 64 + b2n (l.any (·.flushed)) * 32 + b2n sat * 16 + (l.head?.map (·.bank)).getD 0 * 8), fld 1 1, fld 2 (c.seq % 65536)]
    ++ groupsBytes 1 (l.map (·.elems))

/-- R205 to R208: the cut-through frame of a sub-band that is full, or that a bank swap, the end of a window or the end of the sending closes
early. It leaves whole (log entry 115). -/
def cutTick (d : Dev) (n : Nat) : Dev :=
  let p := n / 4
  let s := n % 4
  match ((d.rxPath p).sb s).cut with
  | none => d
  | some c =>
    let o := c.stream p s
    let put (v : Option CutOut) (d : Dev) : Dev := d.onRxSb p s fun x => { x with cut := v }
    match nextGroup d o with
    | none => if c.closing then put none d else d
    | some (g, jumped) =>
      let (l, e) := gatherFeeds d o c.samples g
      let ended := missed d o e
      if l.isEmpty ∨ (l.length < c.samples && !(feed d o e).isSome && !ended && !c.closing) then d
      else
        let last := ended || c.closing
        let d := countFormat d o l
        put (if c.closing then none else some { c with seq := c.seq + 1, next := some e, disc := last })
          (d.sendFrame c.lane 4 (cutBytes p s c l last (c.disc || jumped)))

/-! ### A tick -/

/-- The histories and counts of a tick. -/
def sampleTick (d : Dev) : Dev :=
  let d := (((d.each 256 rxSeen observeRx).each 256 txSeen observeTx).each 8 freSeen observeFre).each 64 pathSeen observePath
  let d := d.each 256 (fun d n => ((d.rxPath (n / 4)).sb (n % 4)).on) rxTick
  let d := d.each 256 (fun d n => ((d.rxPath (n / 4)).sb (n % 4)).cut.isSome) cutTick
  let d := (List.range 4).foldl bcastTick (d.ins.foldl (fun d o => underrunTick d o (if o.layer then EV.layerUnderrun else EV.txUnderrun)
    (if o.layer then layerTiming d o else streamTiming d o)) d)
  let d := meterTick (secondTick ((List.range 8).foldl freTick d))
  ((d.each 64 (fun d p => (d.txPath p).sbs.any (·.on)) txTick).each 64 trBusy trTick).each 64 (fun d p => (d.txPath p).muteFrom.isSome) muteTick

end Sys2Proof.Machine
end

