-- ==== Sys2Proof/Machine/System.lean ====
section
/-! DEFINITION. Chapter 19, the system commands (R656, R657) and quickset's start by command and report (R649, R651, R654). -/

namespace Sys2Proof.Machine

/-- The checks of QUICKSET-ENTER. -/
def quicksetEnterCheck (d : Dev) : Option Reply :=
  firstBad [
    (d.qs.state != 0 || d.weave.on || d.chains.any (·.on) || d.xce.on || d.tx.any (fun x => x.sbs.any (·.on)), ST.sysState)]

/-- QUICKSET-ENTER (R654): it proceeds as at boot; from another power state the unit goes to ARRAY first. -/
def execQuicksetEnter (h : Hdr) : Meaning :=
  hostCmd (cmd 0x0081) h (.quicksetEnter h)
    quicksetEnterCheck
    (just fun d =>
      if !d.pwr.steps.isEmpty then { d with qs := { d.qs with state := 1 } }
      else if d.pwr.state = 4 then startQuickset d
      else beginTransition { d with qs := { d.qs with state := 1 } } 4 (transitionUs d 4))

/-- QUICKSET-STATUS. -/
def execQuicksetStatus (h : Hdr) : Meaning :=
  query (ask 0x0082 [1, 1, 4, 8]) h (.quicksetStatus h) noCheck fun d => [fld 1 d.qs.state, fld 1 d.qs.elements, fld 4 d.qs.integrations, fld 8 d.qs.lastReport]

/-- UNIT-NUMBER-SET (R657, R27): quickset's coppice of one takes the new number. -/
def execUnitNumberSet (h : Hdr) (number : Nat) : Meaning :=
  hostCmd (cmd 0x0083) h (.unitNumberSet h number)
    (fun d => firstBad [(decide (262143 < number), ST.sysArg), ((d.weave.on && !qsHeld d) || d.chains.any (·.on), ST.sysState)])
    (just fun d =>
      let d := journal (d.onNvm fun n => { n with unitNumber := number }) 1 0x0001 0 (bytesOf [fld 4 number]) (.unit d.nvm.unitNumber)
      if d.weave.on then
        d.onWeave fun w => { w with banks := { w.banks with cur := { w.banks.cur with members := upd w.banks.cur.members 0 fun m => { m with unit := number } } } }
      else d)

/-- SYS-RESET (R657). -/
def execSysReset (h : Hdr) (position : Nat) : Meaning :=
  hostCmd (cmd 0x0084) h (.sysReset h position) (fun d => firstBad [(position != 0 && decide (position ≤ d.axis), ST.sysArg)])
    (just fun d => d.onCtl fun c => { c with resetAt := some (if position = 0 then d.axis else position, h.session, h.channel, h.seq) })

/-- SYS_RESET_AFTER_RESPONSE (R657): the restart asked for, once its response has left. -/
def execSysResetAfterResponse : Meaning := onDev fun d =>
  match d.ctl.resetAt with
  | some (p, session, channel, seq) => if p ≤ d.axis ∧ answered d session channel seq then resetBoot d 2 else d
  | none => d

/-- SYS-STATUS. -/
def execSysStatus (h : Hdr) : Meaning :=
  query (ask 0x0085 [1, 1, 1, 4]) h (.sysStatus h) noCheck fun d =>
    [fld 1 d.ctl.cause, fld 1 d.ctl.source, fld 1 (failedStores d), fld 4 ((d.now - d.ctl.bootedAt) / tickHz)]

/-! ### The report (R651) -/

/-- A temperature of the report: 0x8000 for a sensor disabled or broken. -/
def reportTemp (d : Dev) (n : Nat) : Field :=
  let c := nth d.pwr.chans n
  if c.broken ∨ !(sensors d).contains n then fld 2 0x8000 else satfld 2 c.last

/-- A die diode's, the mean of its junctions. -/
def reportDie (d : Dev) (k : Nat) : Field :=
  let a := nth d.pwr.chans (65 + k)
  let b := nth d.pwr.chans (201 + k)
  if a.broken ∨ b.broken then fld 2 0x8000 else satfld 2 (divHalfEven (a.last + b.last) 2)

/-- The wideband mean of a path over the last whole second, at its port (R201). -/
def reportWide (d : Dev) (p : Nat) : Field :=
  let w := (d.rxPath p).secLast
  satfld 2 (meterLevel true w.sum w.count + fullScalePort d.ident.variant (d.rxPath p).atten + (trimOf d 0 p).1.gain)

/-- The head of the report for an integration, bytes 0 to 1,319. -/
def reportHead (d : Dev) (i : Integ) : List Field :=
  let r (n : Nat) : Int := (nth d.pwr.chans n).last
  let acc := d.xce.acc.filter fun a => a.integ == i.num
  let flags := b2n (d.qs.restarted || i.cutShort) * 128 + b2n (d.cal.fails.any id) * 64 + b2n (d.pwr.pathLevels.any fun l => decide (0 < l)) * 32
  let heard := d.qs.heard.flatten
  let rx0 := d.rxPath 0
  [fld 3 d.nvm.unitNumber, fld 1 (variantByte d.ident.variant), fld 8 d.ident.serial, fld 1 (b2n d.tmb.traced), fld 1 d.tmb.active, fld 1 d.pwr.state,
    fld 1 flags, fld 8 i.first, fld 4 ((acc.map (·.samples)).foldl max 0), fld 4 ((acc.map (·.stalled)).foldl max 0), fld 1 d.syn.profile,
    fld 1 rx0.band, fld 1 rx0.atten, fld 1 (nth d.fre 0).banks.cur.rq4, fld 5 (rx0.sb 0).banks.cur.cfg.chain.rf, fld 1 ((acc.map (·.flags)).foldl Nat.lor 0),
    fld 2 256, fld 4 1920000, fld 4 d.ctl.imageVersion, sfld 2 (r 90), fld 2 d.qs.heardNow, fld 8 0,
    fld 4 (pwrStatus d), fld 4 (thermStatus d), fld 4 (timeStatus d.tmb), fld 4 (bootStatus d)]
    ++ ((List.range 6).map fun n => fld 4 (nth d.mem.stores n).status)
    ++ [fld 4 (collectStatus d), fld 4 (synStatusWord d), fld 4 (calStatusWord d), fld 4 (bcnStatusWord d), sfld 4 (r 85), fld 4 0]
    ++ ((List.range 64).flatMap fun p => [fld 4 (feRxPort d p), fld 4 (chfStatus d p 0)])
    ++ ((List.range 64).map (reportWide d))
    ++ ((List.range 64).map fun p => reportTemp d (p + 1)) ++ ((List.range 4).map (reportDie d)) ++ ((List.range 16).map fun k => reportTemp d (69 + k))
    ++ (d.lanes.map fun l => fld 4 (laneStatus l)) ++ heard ++ [fld (256 - fieldBytes heard) 0]

/-- R649: the integration whose report is due: closed, not yet reported, its spread offset passed. Without a correlator a report
is due every second. -/
def reportDue (d : Dev) : Option Integ :=
  if d.qs.state ≠ 2 then none
  else if qsCorrelates d then
    if d.qs.closedAt + d.ident.serial % 1000 * 983040 ≤ d.axis then d.xce.integs.find? fun i => i.st == 1 && i.handle == 0 else none
  else if d.qs.lastReport + tickHz ≤ d.axis then some { num := 0 }
  else none

/-- A report goes to destination 15 on every ETH lane that is UP and on the service port; with a timed slot its lane alone carries it
(R159, R160). -/
def sendEverywhere (d : Dev) (kind axis : Nat) (body : List Field) : Dev :=
  let slotted := d.lnk.slots.any (·.kind == kind)
  let d := if slotted then sendReport d kind axis 15 0 body else d
  ((List.range 33).filter fun p => portUp d p && (!slotted || decide (32 ≤ p))).foldl (fun d p => reportNow d kind axis 15 p (bytesOf body) []) d

/-- R369: the visibility of inputs p and q of a channel in an integration's accumulators, and the samples in it. -/
def visibility (d : Dev) (i : Integ) (c p q : Nat) : (Int × Int) × Nat :=
  match d.xce.acc.find? fun a => a.integ == i.num && a.channel == c && a.block == q / 32 * (q / 32 + 1) / 2 + p / 32 with
  | some a => (nth a.vals (32 * (p % 32) + q % 32), a.samples)
  | none => ((0, 0), 0)

/-- R651: the spectra: the power of each channel of each path per sample, relative to one F4 code. -/
def reportSpectra (d : Dev) (i : Integ) : List Field :=
  (List.range 64).flatMap fun p => (List.range 256).map fun c => let v := visibility d i c p p; satfld 2 (Config.decibel v.1.1.toNat v.2)

/-- R651: the covariance of each channel, for every p ≤ q. -/
def reportCovariance (d : Dev) (i : Integ) : List Field :=
  (List.range 256).flatMap fun c => (List.range 64).flatMap fun p => (List.range (64 - p)).flatMap fun k =>
    let v := (visibility d i c p (p + k)).1
    [satfld 4 v.1, satfld 4 v.2]

/-- R647, R651: a report's fields: its head, the spectra and the covariance. Without a correlator the covariance is zero, and the spectra are
free values while the frequency engine runs (log entry 127), else zero. -/
def reportFields (d : Dev) (i : Integ) : List Field × Dev :=
  let (spectra, d) := d.fresh 32768
  (reportHead d i ++ (if qsCorrelates d then reportSpectra d i else [fld 32768 (if qsEngine d then spectra else 0)])
    ++ (if qsCorrelates d then reportCovariance d i else [fld 4259840 0]), d)

/-- QUICKSET_REPORT (R647, R649, R651). -/
def execQuicksetReport : Meaning := onDev fun d =>
  match reportDue d with
  | none => d
  | some i =>
    let x := reportFields d i
    let d := sendEverywhere x.2 0x0080 i.first x.1
    { d with
      xce := { d.xce with integs := d.xce.integs.map fun x => if x.num == i.num && x.st == 1 && x.handle == 0 then { x with st := 2 } else x }
      qs := { d.qs with restarted := false, reported := some i.num, lastReport := d.axis, heardNow := 0 } }

end Sys2Proof.Machine
end

