-- ==== Sys2Proof/Machine/Dispatch.lean ====
section
/-! DEFINITION. The dispatch: one arm per command, each one direct call of its meaning. -/

namespace Sys2Proof.Machine

/-- What a command does to the state (everything but the queue of waiting commands). -/
def exec (i : Instr) (s : State) : Host.Outcome State Fault Refusal :=
  match i with
  | .discover h => Sys2Proof.Machine.execDiscover h s
  | .sessionOpen h role takeover keepalive maxPayload => Sys2Proof.Machine.execSessionOpen h role takeover keepalive maxPayload s
  | .sessionAuth h key sig => Sys2Proof.Machine.execSessionAuth h key sig s
  | .sessionClose h => Sys2Proof.Machine.execSessionClose h s
  | .sessionKeepalive h => Sys2Proof.Machine.execSessionKeepalive h s
  | .sessionStatus h => Sys2Proof.Machine.execSessionStatus h s
  | .sessionList h => Sys2Proof.Machine.execSessionList h s
  | .sessionEvict h target => Sys2Proof.Machine.execSessionEvict h target s
  | .eventSubscribe h mask minSev => Sys2Proof.Machine.execEventSubscribe h mask minSev s
  | .eventGet h first count => Sys2Proof.Machine.execEventGet h first count s
  | .bulkOpen h kind len crc => Sys2Proof.Machine.execBulkOpen h kind len crc s
  | .bulkStatus h handle => Sys2Proof.Machine.execBulkStatus h handle s
  | .bulkClose h handle => Sys2Proof.Machine.execBulkClose h handle s
  | .bulkAbort h handle => Sys2Proof.Machine.execBulkAbort h handle s
  | .bulkRead h handle offset len pace => Sys2Proof.Machine.execBulkRead h handle offset len pace s
  | .bulkResend h handle offset len => Sys2Proof.Machine.execBulkResend h handle offset len s
  | .destSet h index eth ipv ip udp maxPayload => Sys2Proof.Machine.execDestSet h index eth ipv ip udp maxPayload s
  | .reportSlotSet h kind dest lane period offset window => Sys2Proof.Machine.execReportSlotSet h kind dest lane period offset window s
  | .reportSlotGet h kind => Sys2Proof.Machine.execReportSlotGet h kind s
  | .linkEncapSet h enc => Sys2Proof.Machine.execLinkEncapSet h enc s
  | .linkEncapGet h => Sys2Proof.Machine.execLinkEncapGet h s
  | .linkCounters h port clear => Sys2Proof.Machine.execLinkCounters h port clear s
  | .quicksetExit h keep => Sys2Proof.Machine.execQuicksetExit h keep s
  | .quicksetEnter h => Sys2Proof.Machine.execQuicksetEnter h s
  | .quicksetStatus h => Sys2Proof.Machine.execQuicksetStatus h s
  | .unitNumberSet h number => Sys2Proof.Machine.execUnitNumberSet h number s
  | .sysReset h position => Sys2Proof.Machine.execSysReset h position s
  | .sysStatus h => Sys2Proof.Machine.execSysStatus h s
  | .timeGet h => Sys2Proof.Machine.execTimeGet h s
  | .timeSourceSet h pa pb pl pp revertive qual => Sys2Proof.Machine.execTimeSourceSet h pa pb pl pp revertive qual s
  | .ptpConfig h dom number lane dest => Sys2Proof.Machine.execPtpConfig h dom number lane dest s
  | .ptpStatus h dom => Sys2Proof.Machine.execPtpStatus h dom s
  | .timeSwitch h source => Sys2Proof.Machine.execTimeSwitch h source s
  | .timeSlewSet h limit maxOffset => Sys2Proof.Machine.execTimeSlewSet h limit maxOffset s
  | .timeStep h source setAxis epoch frameLen => Sys2Proof.Machine.execTimeStep h source setAxis epoch frameLen s
  | .laneTimeConfig h lane role asym => Sys2Proof.Machine.execLaneTimeConfig h lane role asym s
  | .laneTimeStatus h => Sys2Proof.Machine.execLaneTimeStatus h s
  | .ppsConfig h enable width comp tod => Sys2Proof.Machine.execPpsConfig h enable width comp tod s
  | .refConfig h enable => Sys2Proof.Machine.execRefConfig h enable s
  | .axisSet h epoch frameLen => Sys2Proof.Machine.execAxisSet h epoch frameLen s
  | .axisGet h => Sys2Proof.Machine.execAxisGet h s
  | .axisDelays h action target => Sys2Proof.Machine.execAxisDelays h action target s
  | .stakeSubmit h entries => Sys2Proof.Machine.execStakeSubmit h entries s
  | .stakeCancel h tag mask => Sys2Proof.Machine.execStakeCancel h tag mask s
  | .stakeList h first count => Sys2Proof.Machine.execStakeList h first count s
  | .launchQueue h lane position frame => Sys2Proof.Machine.execLaunchQueue h lane position frame s
  | .launchCancel h buffer => Sys2Proof.Machine.execLaunchCancel h buffer s
  | .laneConfig h lane mode fec unit plane tag force => Sys2Proof.Machine.execLaneConfig h lane mode fec unit plane tag force s
  | .laneStatus h lane => Sys2Proof.Machine.execLaneStatus h lane s
  | .laneEqGet h lane => Sys2Proof.Machine.execLaneEqGet h lane s
  | .laneEqSet h lane freeze => Sys2Proof.Machine.execLaneEqSet h lane freeze s
  | .lanePrbs h lane pattern gen chk force => Sys2Proof.Machine.execLanePrbs h lane pattern gen chk force s
  | .lanePrbsRead h lane clear => Sys2Proof.Machine.execLanePrbsRead h lane clear s
  | .laneLoopback h lane kind force => Sys2Proof.Machine.execLaneLoopback h lane kind force s
  | .laneReset h lane => Sys2Proof.Machine.execLaneReset h lane s
  | .quadPower h quad on force => Sys2Proof.Machine.execQuadPower h quad on force s
  | .laneCounters h lane clear => Sys2Proof.Machine.execLaneCounters h lane clear s
  | .rxPathSet h mask band atten bias overload => Sys2Proof.Machine.execRxPathSet h mask band atten bias overload s
  | .rxPathGet h path => Sys2Proof.Machine.execRxPathGet h path s
  | .rxSubbandSet h mask sb cfg => Sys2Proof.Machine.execRxSubbandSet h mask sb cfg s
  | .rxSubbandGet h path sb bank => Sys2Proof.Machine.execRxSubbandGet h path sb bank s
  | .rxSubbandDisable h mask sbMask => Sys2Proof.Machine.execRxSubbandDisable h mask sbMask s
  | .rxCoefLoad h handle mask sb => Sys2Proof.Machine.execRxCoefLoad h handle mask sb s
  | .rxStreamSet h stream sb mask format dest lane groups => Sys2Proof.Machine.execRxStreamSet h stream sb mask format dest lane groups s
  | .rxStreamStop h stream => Sys2Proof.Machine.execRxStreamStop h stream s
  | .rxCutSet h path sb lane ctFrame on => Sys2Proof.Machine.execRxCutSet h path sb lane ctFrame on s
  | .rxMeterGet h path meter clear => Sys2Proof.Machine.execRxMeterGet h path meter clear s
  | .rxCounters h path clear => Sys2Proof.Machine.execRxCounters h path clear s
  | .portCheck h mask position => Sys2Proof.Machine.execPortCheck h mask position s
  | .txPathSet h mask fsPower dacCentre sumShift ramp gateMode => Sys2Proof.Machine.execTxPathSet h mask fsPower dacCentre sumShift ramp gateMode s
  | .txPathGet h path => Sys2Proof.Machine.execTxPathGet h path s
  | .txSubbandSet h mask sb cfg => Sys2Proof.Machine.execTxSubbandSet h mask sb cfg s
  | .txSubbandGet h path sb bank => Sys2Proof.Machine.execTxSubbandGet h path sb bank s
  | .txSubbandDisable h mask sbMask => Sys2Proof.Machine.execTxSubbandDisable h mask sbMask s
  | .txCoefLoad h handle mask sb => Sys2Proof.Machine.execTxCoefLoad h handle mask sb s
  | .txStreamSet h stream sb mask format => Sys2Proof.Machine.execTxStreamSet h stream sb mask format s
  | .txStreamStop h stream => Sys2Proof.Machine.execTxStreamStop h stream s
  | .txCutSet h lane path sb on => Sys2Proof.Machine.execTxCutSet h lane path sb on s
  | .txMute h mask mute immediate => Sys2Proof.Machine.execTxMute h mask mute immediate s
  | .txCompLoad h handle => Sys2Proof.Machine.execTxCompLoad h handle s
  | .txProtectClear h mask => Sys2Proof.Machine.execTxProtectClear h mask s
  | .txCounters h path clear => Sys2Proof.Machine.execTxCounters h path clear s
  | .govClassSet h group cls p w e margin soft release => Sys2Proof.Machine.execGovClassSet h group cls p w e margin soft release s
  | .govStatus h => Sys2Proof.Machine.execGovStatus h s
  | .govLogRead h first count => Sys2Proof.Machine.execGovLogRead h first count s
  | .freSet h dir sb cfg => Sys2Proof.Machine.execFreSet h dir sb cfg s
  | .freGet h dir sb bank => Sys2Proof.Machine.execFreGet h dir sb bank s
  | .freDisable h dir sbMask => Sys2Proof.Machine.execFreDisable h dir sbMask s
  | .freEqLoad h handle => Sys2Proof.Machine.execFreEqLoad h handle s
  | .freWindowLoad h handle dir sb => Sys2Proof.Machine.execFreWindowLoad h handle dir sb s
  | .freLevelGet h dir sb path first count => Sys2Proof.Machine.execFreLevelGet h dir sb path first count s
  | .freCounters h dir sb path clear => Sys2Proof.Machine.execFreCounters h dir sb path clear s
  | .freStreamSet h base sb mask format dest lane => Sys2Proof.Machine.execFreStreamSet h base sb mask format dest lane s
  | .freStreamStop h base => Sys2Proof.Machine.execFreStreamStop h base s
  | .topiaryAlloc h caps => Sys2Proof.Machine.execTopiaryAlloc h caps s
  | .topiaryLoad h handle => Sys2Proof.Machine.execTopiaryLoad h handle s
  | .topiaryGet h dir sb => Sys2Proof.Machine.execTopiaryGet h dir sb s
  | .beamSet h dir sb on beams bmShift beamOut => Sys2Proof.Machine.execBeamSet h dir sb on beams bmShift beamOut s
  | .beamStreamSet h base sb firstBeam count format dest lane => Sys2Proof.Machine.execBeamStreamSet h base sb firstBeam count format dest lane s
  | .beamStreamStop h base => Sys2Proof.Machine.execBeamStreamStop h base s
  | .layerStreamSet h base sb count format => Sys2Proof.Machine.execLayerStreamSet h base sb count format s
  | .layerStreamStop h base => Sys2Proof.Machine.execLayerStreamStop h base s
  | .chainSet h cfg => Sys2Proof.Machine.execChainSet h cfg s
  | .chainGet h sb bank => Sys2Proof.Machine.execChainGet h sb bank s
  | .chainLeave h sb => Sys2Proof.Machine.execChainLeave h sb s
  | .chainDeliverSet h sb base format rootShift dest lane => Sys2Proof.Machine.execChainDeliverSet h sb base format rootShift dest lane s
  | .chainDeliverStop h sb => Sys2Proof.Machine.execChainDeliverStop h sb s
  | .chainStatus h sb => Sys2Proof.Machine.execChainStatus h sb s
  | .chainCounters h sb clear => Sys2Proof.Machine.execChainCounters h sb clear s
  | .weaveSet h hdr laneMap => Sys2Proof.Machine.execWeaveSet h hdr laneMap s
  | .weaveMembers h first entries => Sys2Proof.Machine.execWeaveMembers h first entries s
  | .weaveGet h bank => Sys2Proof.Machine.execWeaveGet h bank s
  | .weaveMembersGet h bank first count => Sys2Proof.Machine.execWeaveMembersGet h bank first count s
  | .weaveLeave h => Sys2Proof.Machine.execWeaveLeave h s
  | .weaveStatus h first count => Sys2Proof.Machine.execWeaveStatus h first count s
  | .weaveCounters h clear => Sys2Proof.Machine.execWeaveCounters h clear s
  | .xceSet h cfg => Sys2Proof.Machine.execXceSet h cfg s
  | .xceGet h bank => Sys2Proof.Machine.execXceGet h bank s
  | .xceStop h => Sys2Proof.Machine.execXceStop h s
  | .xceIntGet h number => Sys2Proof.Machine.execXceIntGet h number s
  | .xceInputsGet h first count => Sys2Proof.Machine.execXceInputsGet h first count s
  | .xceCounters h clear => Sys2Proof.Machine.execXceCounters h clear s
  | .dpdSet h mask cfg => Sys2Proof.Machine.execDpdSet h mask cfg s
  | .dpdGet h path => Sys2Proof.Machine.execDpdGet h path s
  | .dpdCoefLoad h handle apply => Sys2Proof.Machine.execDpdCoefLoad h handle apply s
  | .dpdCoefRead h mask bank => Sys2Proof.Machine.execDpdCoefRead h mask bank s
  | .dpdRequest h mask overBound => Sys2Proof.Machine.execDpdRequest h mask overBound s
  | .dpdMetricGet h path => Sys2Proof.Machine.execDpdMetricGet h path s
  | .dpdObsStatus h => Sys2Proof.Machine.execDpdObsStatus h s
  | .dpdCounters h path clear => Sys2Proof.Machine.execDpdCounters h path clear s
  | .dpdReset h mask => Sys2Proof.Machine.execDpdReset h mask s
  | .dpdSave h mask => Sys2Proof.Machine.execDpdSave h mask s
  | .calConfig h kinds dT maxInterval runLimit starveLimit => Sys2Proof.Machine.execCalConfig h kinds dT maxInterval runLimit starveLimit s
  | .calRun h kinds position => Sys2Proof.Machine.execCalRun h kinds position s
  | .calStatus h => Sys2Proof.Machine.execCalStatus h s
  | .calAbort h => Sys2Proof.Machine.execCalAbort h s
  | .calTrimGet h dir path => Sys2Proof.Machine.execCalTrimGet h dir path s
  | .calTableRead h profile band => Sys2Proof.Machine.execCalTableRead h profile band s
  | .calTableLoad h handle => Sys2Proof.Machine.execCalTableLoad h handle s
  | .calSave h => Sys2Proof.Machine.execCalSave h s
  | .otaSet h partners => Sys2Proof.Machine.execOtaSet h partners s
  | .otaGet h index => Sys2Proof.Machine.execOtaGet h index s
  | .calCounters h clear => Sys2Proof.Machine.execCalCounters h clear s
  | .synStatus h => Sys2Proof.Machine.execSynStatus h s
  | .profileDefine h slot k => Sys2Proof.Machine.execProfileDefine h slot k s
  | .profileSet h profile => Sys2Proof.Machine.execProfileSet h profile s
  | .synPrelock h profile => Sys2Proof.Machine.execSynPrelock h profile s
  | .synCal h mask => Sys2Proof.Machine.execSynCal h mask s
  | .feStateGet h path => Sys2Proof.Machine.execFeStateGet h path s
  | .bcnSet h cfg => Sys2Proof.Machine.execBcnSet h cfg s
  | .bcnGet h => Sys2Proof.Machine.execBcnGet h s
  | .bcnDataSet h data => Sys2Proof.Machine.execBcnDataSet h data s
  | .bcnStatus h => Sys2Proof.Machine.execBcnStatus h s
  | .bcnCounters h clear => Sys2Proof.Machine.execBcnCounters h clear s
  | .memStatus h => Sys2Proof.Machine.execMemStatus h s
  | .memRegionSet h region prot => Sys2Proof.Machine.execMemRegionSet h region prot s
  | .memRegionGet h => Sys2Proof.Machine.execMemRegionGet h s
  | .memScrubSet h store period => Sys2Proof.Machine.execMemScrubSet h store period s
  | .memScrubRange h start len => Sys2Proof.Machine.execMemScrubRange h start len s
  | .memInject h addr kind bit => Sys2Proof.Machine.execMemInject h addr kind bit s
  | .memPortSet h port weight assign chan => Sys2Proof.Machine.execMemPortSet h port weight assign chan s
  | .memPortStatus h port => Sys2Proof.Machine.execMemPortStatus h port s
  | .memFreqSet h setpoint position => Sys2Proof.Machine.execMemFreqSet h setpoint position s
  | .memSelfrefresh h enter autoExit => Sys2Proof.Machine.execMemSelfrefresh h enter autoExit s
  | .memRowdisturbSet h limit gap cool => Sys2Proof.Machine.execMemRowdisturbSet h limit gap cool s
  | .memCounters h store clear => Sys2Proof.Machine.execMemCounters h store clear s
  | .memSelftestGet h => Sys2Proof.Machine.execMemSelftestGet h s
  | .fabStatus h => Sys2Proof.Machine.execFabStatus h s
  | .fabHoldGet h => Sys2Proof.Machine.execFabHoldGet h s
  | .fabPrioSet h master prio age => Sys2Proof.Machine.execFabPrioSet h master prio age s
  | .fabTimingSet h target timeout drain => Sys2Proof.Machine.execFabTimingSet h target timeout drain s
  | .fabTargetReset h target => Sys2Proof.Machine.execFabTargetReset h target s
  | .fabRecover h => Sys2Proof.Machine.execFabRecover h s
  | .fabCounters h clear => Sys2Proof.Machine.execFabCounters h clear s
  | .dmaRun h chan descs => Sys2Proof.Machine.execDmaRun h chan descs s
  | .dmaChStatus h chan => Sys2Proof.Machine.execDmaChStatus h chan s
  | .dmaChStop h chan => Sys2Proof.Machine.execDmaChStop h chan s
  | .dmaChAssign h chan core => Sys2Proof.Machine.execDmaChAssign h chan core s
  | .appletLoad h handle core bases hss => Sys2Proof.Machine.execAppletLoad h handle core bases hss s
  | .appletStart h core => Sys2Proof.Machine.execAppletStart h core s
  | .appletStop h core => Sys2Proof.Machine.execAppletStop h core s
  | .appletUnload h core => Sys2Proof.Machine.execAppletUnload h core s
  | .appletStatus h core => Sys2Proof.Machine.execAppletStatus h core s
  | .appletMsg h core msg => Sys2Proof.Machine.execAppletMsg h core msg s
  | .appletMemRead h core offset len => Sys2Proof.Machine.execAppletMemRead h core offset len s
  | .appletMemWrite h core offset data => Sys2Proof.Machine.execAppletMemWrite h core offset data s
  | .coreStatus h => Sys2Proof.Machine.execCoreStatus h s
  | .appletCounters h core clear => Sys2Proof.Machine.execAppletCounters h core clear s
  | .pwrStatus h => Sys2Proof.Machine.execPwrStatus h s
  | .pwrStateSet h state force => Sys2Proof.Machine.execPwrStateSet h state force s
  | .pwrCapSet h cap => Sys2Proof.Machine.execPwrCapSet h cap s
  | .pwrRecordGet h => Sys2Proof.Machine.execPwrRecordGet h s
  | .biasSet h dac code span => Sys2Proof.Machine.execBiasSet h dac code span s
  | .biasGet h dac => Sys2Proof.Machine.execBiasGet h dac s
  | .biasRampLoad h dac codes => Sys2Proof.Machine.execBiasRampLoad h dac codes s
  | .biasSafeSet h dac code => Sys2Proof.Machine.execBiasSafeSet h dac code s
  | .hkRead h first count clear => Sys2Proof.Machine.execHkRead h first count clear s
  | .hkStatus h => Sys2Proof.Machine.execHkStatus h s
  | .thermConfig h start inputs => Sys2Proof.Machine.execThermConfig h start inputs s
  | .thermStatus h => Sys2Proof.Machine.execThermStatus h s
  | .pwrCounters h clear => Sys2Proof.Machine.execPwrCounters h clear s
  | .secStatus h => Sys2Proof.Machine.execSecStatus h s
  | .keyChange h handle hss => Sys2Proof.Machine.execKeyChange h handle hss s
  | .keyList h => Sys2Proof.Machine.execKeyList h s
  | .rollbackSet h counter value => Sys2Proof.Machine.execRollbackSet h counter value s
  | .certRead h => Sys2Proof.Machine.execCertRead h s
  | .attest h nonce => Sys2Proof.Machine.execAttest h nonce s
  | .debugAuth h handle hss => Sys2Proof.Machine.execDebugAuth h handle hss s
  | .fwLoad h handle hss => Sys2Proof.Machine.execFwLoad h handle hss s
  | .fwActivate h position => Sys2Proof.Machine.execFwActivate h position s
  | .fwCommit h raise => Sys2Proof.Machine.execFwCommit h raise s
  | .fwStatus h => Sys2Proof.Machine.execFwStatus h s
  | .appletStore h handle entry core autostart bases hss => Sys2Proof.Machine.execAppletStore h handle entry core autostart bases hss s
  | .appletStoreErase h entry => Sys2Proof.Machine.execAppletStoreErase h entry s
  | .nvmRead h offset len => Sys2Proof.Machine.execNvmRead h offset len s
  | .nvmWrite h offset data => Sys2Proof.Machine.execNvmWrite h offset data s
  | .nvmErase h offset => Sys2Proof.Machine.execNvmErase h offset s
  | .undefinedOpcode h op => Sys2Proof.Machine.execUndefinedOpcode h op s
  | .linkEncapApply => Sys2Proof.Machine.execLinkEncapApply s
  | .sysResetAfterResponse => Sys2Proof.Machine.execSysResetAfterResponse s
  | .portMeasurement path loss phase => Sys2Proof.Machine.execPortMeasurement path loss phase s
  | .swiosPacketDropped port fcsOk pkt => Sys2Proof.Machine.execSwiosPacketDropped port fcsOk pkt s
  | .bulkFragment session rx handle offset data thorn => Sys2Proof.Machine.execBulkFragment session rx handle offset data thorn s
  | .hostStreamPacket session rx pkt => Sys2Proof.Machine.execHostStreamPacket session rx pkt s
  | .layerStreamPacket session rx pkt => Sys2Proof.Machine.execLayerStreamPacket session rx pkt s
  | .priorityFlowControl port prio pause => Sys2Proof.Machine.execPriorityFlowControl port prio pause s
  | .sessionTimeout session => Sys2Proof.Machine.execSessionTimeout session s
  | .evtPacketSend session => Sys2Proof.Machine.execEvtPacketSend session s
  | .spreadResponse buffer => Sys2Proof.Machine.execSpreadResponse buffer s
  | .reportSlot kind => Sys2Proof.Machine.execReportSlot kind s
  | .streamPacketSend req => Sys2Proof.Machine.execStreamPacketSend req s
  | .bulkDone handle => Sys2Proof.Machine.execBulkDone handle s
  | .ptpAnnounce dom port msg => Sys2Proof.Machine.execPtpAnnounce dom port msg s
  | .ptpSync dom master slave corr => Sys2Proof.Machine.execPtpSync dom master slave corr s
  | .delayReq dom => Sys2Proof.Machine.execDelayReq dom s
  | .announceTimeout dom => Sys2Proof.Machine.execAnnounceTimeout dom s
  | .syncLoss dom => Sys2Proof.Machine.execSyncLoss dom s
  | .servoQualify source => Sys2Proof.Machine.execServoQualify source s
  | .holdoverExpiry source => Sys2Proof.Machine.execHoldoverExpiry source s
  | .timeBlockSend lane => Sys2Proof.Machine.execTimeBlockSend lane s
  | .timeBlock lane code flags ps arrival => Sys2Proof.Machine.execTimeBlock lane code flags ps arrival s
  | .timeReply lane ctl code traced seq hi lo => Sys2Proof.Machine.execTimeReply lane ctl code traced seq hi lo s
  | .timeBlockTimeout => Sys2Proof.Machine.execTimeBlockTimeout s
  | .laneResidualFault => Sys2Proof.Machine.execLaneResidualFault s
  | .ppsInEdge offset => Sys2Proof.Machine.execPpsInEdge offset s
  | .ppsInTimeout => Sys2Proof.Machine.execPpsInTimeout s
  | .ppsOutRise => Sys2Proof.Machine.execPpsOutRise s
  | .ppsOutFall => Sys2Proof.Machine.execPpsOutFall s
  | .refInLoss => Sys2Proof.Machine.execRefInLoss s
  | .esmcQuality lane quality => Sys2Proof.Machine.execEsmcQuality lane quality s
  | .revertiveSwitch source => Sys2Proof.Machine.execRevertiveSwitch source s
  | .slewDone => Sys2Proof.Machine.execSlewDone s
  | .stakePrefetch => Sys2Proof.Machine.execStakePrefetch s
  | .stakeDeferExpiry => Sys2Proof.Machine.execStakeDeferExpiry s
  | .mark => Sys2Proof.Machine.execMark s
  | .bankSwap => Sys2Proof.Machine.execBankSwap s
  | .launchTrigger buffer => Sys2Proof.Machine.execLaunchTrigger buffer s
  | .bankFree cls inst => Sys2Proof.Machine.execBankFree cls inst s
  | .identSend lane => Sys2Proof.Machine.execIdentSend lane s
  | .fillSend lane => Sys2Proof.Machine.execFillSend lane s
  | .ident lane code unit plane tag crc => Sys2Proof.Machine.execIdent lane code unit plane tag crc s
  | .fill lane => Sys2Proof.Machine.execFill lane s
  | .fillInsertion lane => Sys2Proof.Machine.execFillInsertion lane s
  | .elasticSlip lane => Sys2Proof.Machine.execElasticSlip lane s
  | .laserStable reading => Sys2Proof.Machine.execLaserStable reading s
  | .clockRecoveryLock lane => Sys2Proof.Machine.execClockRecoveryLock lane s
  | .equaliserAdapted lane eq => Sys2Proof.Machine.execEqualiserAdapted lane eq s
  | .blockLock found => Sys2Proof.Machine.execBlockLock found s
  | .noAlignment lane => Sys2Proof.Machine.execNoAlignment lane s
  | .lockLost lane window => Sys2Proof.Machine.execLockLost lane window s
  | .lossOfSignal lane power => Sys2Proof.Machine.execLossOfSignal lane power s
  | .lossOfSignalClear lane power => Sys2Proof.Machine.execLossOfSignalClear lane power s
  | .laneTakeDown lane => Sys2Proof.Machine.execLaneTakeDown lane s
  | .prbsLock found => Sys2Proof.Machine.execPrbsLock found s
  | .prbsLockLoss lane window errs syms => Sys2Proof.Machine.execPrbsLockLoss lane window errs syms s
  | .adcOverload path clips => Sys2Proof.Machine.execAdcOverload path clips s
  | .rxProtectEntry path => Sys2Proof.Machine.execRxProtectEntry path s
  | .rxProtectExit path => Sys2Proof.Machine.execRxProtectExit path s
  | .biasFoldback path => Sys2Proof.Machine.execBiasFoldback path s
  | .biasRetry path held => Sys2Proof.Machine.execBiasRetry path held s
  | .rxFlushDone path sb outputs => Sys2Proof.Machine.execRxFlushDone path sb outputs s
  | .rxOpen => Sys2Proof.Machine.execRxOpen s
  | .rxClose => Sys2Proof.Machine.execRxClose s
  | .rxSwap => Sys2Proof.Machine.execRxSwap s
  | .ncoReset => Sys2Proof.Machine.execNcoReset s
  | .attenStep => Sys2Proof.Machine.execAttenStep s
  | .meterLatch => Sys2Proof.Machine.execMeterLatch s
  | .cutThroughFrame lane frame => Sys2Proof.Machine.execCutThroughFrame lane frame s
  | .txOpen => Sys2Proof.Machine.execTxOpen s
  | .txClose => Sys2Proof.Machine.execTxClose s
  | .txSwap => Sys2Proof.Machine.execTxSwap s
  | .txNcoReset => Sys2Proof.Machine.execTxNcoReset s
  | .txTone => Sys2Proof.Machine.execTxTone s
  | .inhibitLoopOpen ohms => Sys2Proof.Machine.execInhibitLoopOpen ohms s
  | .inhibitLoopClosed ohms => Sys2Proof.Machine.execInhibitLoopClosed ohms s
  | .portFault path => Sys2Proof.Machine.execPortFault path s
  | .governorStep pos => Sys2Proof.Machine.execGovernorStep pos s
  | .adaptationResume path => Sys2Proof.Machine.execAdaptationResume path s
  | .govMismatch path => Sys2Proof.Machine.execGovMismatch path s
  | .govLogRecord => Sys2Proof.Machine.execGovLogRecord s
  | .compensationStep path => Sys2Proof.Machine.execCompensationStep path s
  | .txFlushDone path sb => Sys2Proof.Machine.execTxFlushDone path sb s
  | .topSwap => Sys2Proof.Machine.execTopSwap s
  | .freSwap => Sys2Proof.Machine.execFreSwap s
  | .freFlushDone dir sb groups => Sys2Proof.Machine.execFreFlushDone dir sb groups s
  | .chainSwap => Sys2Proof.Machine.execChainSwap s
  | .chainSumFrame lane frame => Sys2Proof.Machine.execChainSumFrame lane frame s
  | .chainFrameStart sb group index => Sys2Proof.Machine.execChainFrameStart sb group index s
  | .chainStall sb child block => Sys2Proof.Machine.execChainStall sb child block s
  | .chainBroadcastFrame lane frame => Sys2Proof.Machine.execChainBroadcastFrame lane frame s
  | .chainReport sb => Sys2Proof.Machine.execChainReport sb s
  | .weaveSwap => Sys2Proof.Machine.execWeaveSwap s
  | .covCut => Sys2Proof.Machine.execCovCut s
  | .weaveFrameSend req => Sys2Proof.Machine.execWeaveFrameSend req s
  | .weaveFrame lane frame => Sys2Proof.Machine.execWeaveFrame lane frame s
  | .weaveDeadline group => Sys2Proof.Machine.execWeaveDeadline group s
  | .passStart => Sys2Proof.Machine.execPassStart s
  | .roundEnd => Sys2Proof.Machine.execRoundEnd s
  | .collectorDrain dump => Sys2Proof.Machine.execCollectorDrain dump s
  | .intCut => Sys2Proof.Machine.execIntCut s
  | .xceSwap => Sys2Proof.Machine.execXceSwap s
  | .integrationClose => Sys2Proof.Machine.execIntegrationClose s
  | .integrationReadout => Sys2Proof.Machine.execIntegrationReadout s
  | .dpdSwap => Sys2Proof.Machine.execDpdSwap s
  | .dpdSlotStart => Sys2Proof.Machine.execDpdSlotStart s
  | .captureComplete obs nmse oobLo oobHi valid => Sys2Proof.Machine.execCaptureComplete obs nmse oobLo oobHi valid s
  | .noCapture obs => Sys2Proof.Machine.execNoCapture obs s
  | .solveComplete obs factorOk predicted coefs => Sys2Proof.Machine.execSolveComplete obs factorOk predicted coefs s
  | .captureAgeExpiry path => Sys2Proof.Machine.execCaptureAgeExpiry path s
  | .dpdThorn path => Sys2Proof.Machine.execDpdThorn path s
  | .dpdAutosave path => Sys2Proof.Machine.execDpdAutosave path s
  | .calInterval => Sys2Proof.Machine.execCalInterval s
  | .calStep => Sys2Proof.Machine.execCalStep s
  | .calHold => Sys2Proof.Machine.execCalHold s
  | .calSolveComplete results => Sys2Proof.Machine.execCalSolveComplete results s
  | .calTrimWrite => Sys2Proof.Machine.execCalTrimWrite s
  | .calRunTimeout => Sys2Proof.Machine.execCalRunTimeout s
  | .calStarved => Sys2Proof.Machine.execCalStarved s
  | .synLock which => Sys2Proof.Machine.execSynLock which s
  | .settlingEnd => Sys2Proof.Machine.execSettlingEnd s
  | .lossOfLock which => Sys2Proof.Machine.execLossOfLock which s
  | .synHop => Sys2Proof.Machine.execSynHop s
  | .synRecalibration tune => Sys2Proof.Machine.execSynRecalibration tune s
  | .synSwap => Sys2Proof.Machine.execSynSwap s
  | .bcnTx => Sys2Proof.Machine.execBcnTx s
  | .beaconEnd => Sys2Proof.Machine.execBeaconEnd s
  | .bcnListenOpen => Sys2Proof.Machine.execBcnListenOpen s
  | .bcnListenClose => Sys2Proof.Machine.execBcnListenClose s
  | .preambleDetect energy axis => Sys2Proof.Machine.execPreambleDetect energy axis s
  | .syncWordTimeout => Sys2Proof.Machine.execSyncWordTimeout s
  | .beaconHeader hdr => Sys2Proof.Machine.execBeaconHeader hdr s
  | .beaconPacketEnd pkt => Sys2Proof.Machine.execBeaconPacketEnd pkt s
  | .noiseFloorReport mean low => Sys2Proof.Machine.execNoiseFloorReport mean low s
  | .scrub store addr => Sys2Proof.Machine.execScrub store addr s
  | .scrubRangeDone store => Sys2Proof.Machine.execScrubRangeDone store s
  | .regionInitDone region => Sys2Proof.Machine.execRegionInitDone region s
  | .refresh ctrl bank due => Sys2Proof.Machine.execRefresh ctrl bank due s
  | .rowDisturb ctrl bank hit requester => Sys2Proof.Machine.execRowDisturb ctrl bank hit requester s
  | .coolDownEnd ctrl bank requester => Sys2Proof.Machine.execCoolDownEnd ctrl bank requester s
  | .streamPortPanic port filled => Sys2Proof.Machine.execStreamPortPanic port filled s
  | .memFreq => Sys2Proof.Machine.execMemFreq s
  | .selfRefreshExit => Sys2Proof.Machine.execSelfRefreshExit s
  | .fabricRequest req => Sys2Proof.Machine.execFabricRequest req s
  | .ageLimit master => Sys2Proof.Machine.execAgeLimit master s
  | .lockTimeout target => Sys2Proof.Machine.execLockTimeout target s
  | .targetTimeout target master => Sys2Proof.Machine.execTargetTimeout target master s
  | .matrixHang => Sys2Proof.Machine.execMatrixHang s
  | .recoveryExit pass => Sys2Proof.Machine.execRecoveryExit pass s
  | .fabMode => Sys2Proof.Machine.execFabMode s
  | .masterReset master inProgress => Sys2Proof.Machine.execMasterReset master inProgress s
  | .fabricDrainComplete dom => Sys2Proof.Machine.execFabricDrainComplete dom s
  | .drainLimit dom writes first => Sys2Proof.Machine.execDrainLimit dom writes first s
  | .dmaChDoorbell chan => Sys2Proof.Machine.execDmaChDoorbell chan s
  | .channelEnable chan => Sys2Proof.Machine.execChannelEnable chan s
  | .channelDisable chan => Sys2Proof.Machine.execChannelDisable chan s
  | .descriptorFetch chan => Sys2Proof.Machine.execDescriptorFetch chan s
  | .dmaBurst chan => Sys2Proof.Machine.execDmaBurst chan s
  | .descriptorComplete chan => Sys2Proof.Machine.execDescriptorComplete chan s
  | .registerWrite addr value => Sys2Proof.Machine.execRegisterWrite addr value s
  | .macNop core => Sys2Proof.Machine.execMacNop core s
  | .mul core a x y cj => Sys2Proof.Machine.execMul core a x y cj s
  | .mac core a x y cj => Sys2Proof.Machine.execMac core a x y cj s
  | .msu core a x y cj => Sys2Proof.Machine.execMsu core a x y cj s
  | .aclr core a => Sys2Proof.Machine.execAclr core a s
  | .amov core a y => Sys2Proof.Machine.execAmov core a y s
  | .aadd core a y => Sys2Proof.Machine.execAadd core a y s
  | .ashr core a k => Sys2Proof.Machine.execAshr core a k s
  | .ashl core a k => Sys2Proof.Machine.execAshl core a k s
  | .ald core a x k => Sys2Proof.Machine.execAld core a x k s
  | .rnd core a x k => Sys2Proof.Machine.execRnd core a x k s
  | .anorm core a x => Sys2Proof.Machine.execAnorm core a x s
  | .aexp core a => Sys2Proof.Machine.execAexp core a s
  | .aluNop core => Sys2Proof.Machine.execAluNop core s
  | .addl core d ra rb => Sys2Proof.Machine.execAddl core d ra rb s
  | .subl core d ra rb => Sys2Proof.Machine.execSubl core d ra rb s
  | .negl core d ra => Sys2Proof.Machine.execNegl core d ra s
  | .conj core d ra => Sys2Proof.Machine.execConj core d ra s
  | .swap core d ra => Sys2Proof.Machine.execSwap core d ra s
  | .shrl core d ra k => Sys2Proof.Machine.execShrl core d ra k s
  | .shll core d ra k => Sys2Proof.Machine.execShll core d ra k s
  | .shrv core d ra rb => Sys2Proof.Machine.execShrv core d ra rb s
  | .addw core d ra rb => Sys2Proof.Machine.execAddw core d ra rb s
  | .subw core d ra rb => Sys2Proof.Machine.execSubw core d ra rb s
  | .and core d ra rb => Sys2Proof.Machine.execAnd core d ra rb s
  | .or core d ra rb => Sys2Proof.Machine.execOr core d ra rb s
  | .xor core d ra rb => Sys2Proof.Machine.execXor core d ra rb s
  | .mov core d ra => Sys2Proof.Machine.execMov core d ra s
  | .norm core d ra => Sys2Proof.Machine.execNorm core d ra s
  | .exp core ra => Sys2Proof.Machine.execExp core ra s
  | .expc core => Sys2Proof.Machine.execExpc core s
  | .cmplt core ra rb => Sys2Proof.Machine.execCmplt core ra rb s
  | .cmpeq core ra rb => Sys2Proof.Machine.execCmpeq core ra rb s
  | .lil core d imm => Sys2Proof.Machine.execLil core d imm s
  | .lis core d imm => Sys2Proof.Machine.execLis core d imm s
  | .addi core d imm => Sys2Proof.Machine.execAddi core d imm s
  | .mvts core ra sr => Sys2Proof.Machine.execMvts core ra sr s
  | .mvfs core d sr => Sys2Proof.Machine.execMvfs core d sr s
  | .jmp core tgt => Sys2Proof.Machine.execJmp core tgt s
  | .jf core tgt => Sys2Proof.Machine.execJf core tgt s
  | .jnf core tgt => Sys2Proof.Machine.execJnf core tgt s
  | .call core tgt => Sys2Proof.Machine.execCall core tgt s
  | .ret core => Sys2Proof.Machine.execRet core s
  | .reti core => Sys2Proof.Machine.execReti core s
  | .loop core level tgt => Sys2Proof.Machine.execLoop core level tgt s
  | .loopx core level => Sys2Proof.Machine.execLoopx core level s
  | .ei core => Sys2Proof.Machine.execEi core s
  | .di core => Sys2Proof.Machine.execDi core s
  | .wait core => Sys2Proof.Machine.execWait core s
  | .waitx core => Sys2Proof.Machine.execWaitx core s
  | .halt core => Sys2Proof.Machine.execHalt core s
  | .trap core imm => Sys2Proof.Machine.execTrap core imm s
  | .lsNop core => Sys2Proof.Machine.execLsNop core s
  | .ldz core z p u off => Sys2Proof.Machine.execLdz core z p u off s
  | .ldd core z p u off => Sys2Proof.Machine.execLdd core z p u off s
  | .stz core z p u off => Sys2Proof.Machine.execStz core z p u off s
  | .std core z p u off => Sys2Proof.Machine.execStd core z p u off s
  | .ldh core z p u off => Sys2Proof.Machine.execLdh core z p u off s
  | .sth core z p u off => Sys2Proof.Machine.execSth core z p u off s
  | .ld4 core z p u off => Sys2Proof.Machine.execLd4 core z p u off s
  | .ld8 core z p u off => Sys2Proof.Machine.execLd8 core z p u off s
  | .ld12 core z p u off => Sys2Proof.Machine.execLd12 core z p u off s
  | .st12 core z p u off => Sys2Proof.Machine.execSt12 core z p u off s
  | .iord core z off => Sys2Proof.Machine.execIord core z off s
  | .iowr core z off => Sys2Proof.Machine.execIowr core z off s
  | .xrd core z p u off => Sys2Proof.Machine.execXrd core z p u off s
  | .xwr core z p u off => Sys2Proof.Machine.execXwr core z p u off s
  | .transferDone core => Sys2Proof.Machine.execTransferDone core s
  | .transferError core addr => Sys2Proof.Machine.execTransferError core addr s
  | .watchdogExpiry core => Sys2Proof.Machine.execWatchdogExpiry core s
  | .interruptEntry core => Sys2Proof.Machine.execInterruptEntry core s
  | .wdt core value => Sys2Proof.Machine.execWdt core value s
  | .msgSend core value => Sys2Proof.Machine.execMsgSend core value s
  | .axisLo core z => Sys2Proof.Machine.execAxisLo core z s
  | .cycLo core z => Sys2Proof.Machine.execCycLo core z s
  | .sportDataPop core z => Sys2Proof.Machine.execSportDataPop core z s
  | .sportDataPush core value => Sys2Proof.Machine.execSportDataPush core value s
  | .appletGo => Sys2Proof.Machine.execAppletGo s
  | .appletTick => Sys2Proof.Machine.execAppletTick s
  | .powerGood => Sys2Proof.Machine.execPowerGood s
  | .undervoltage mv => Sys2Proof.Machine.execUndervoltage mv s
  | .overvoltage mv => Sys2Proof.Machine.execOvervoltage mv s
  | .supplyRecovery mv => Sys2Proof.Machine.execSupplyRecovery mv s
  | .reversePolarity => Sys2Proof.Machine.execReversePolarity s
  | .powerCap mean => Sys2Proof.Machine.execPowerCap mean s
  | .domainReady dom fails => Sys2Proof.Machine.execDomainReady dom fails s
  | .biasQueueStep => Sys2Proof.Machine.execBiasQueueStep s
  | .biasStep => Sys2Proof.Machine.execBiasStep s
  | .biasRamp => Sys2Proof.Machine.execBiasRamp s
  | .hkLatch => Sys2Proof.Machine.execHkLatch s
  | .hkConversion chan reading openShort => Sys2Proof.Machine.execHkConversion chan reading openShort s
  | .hkRound => Sys2Proof.Machine.execHkRound s
  | .hkSuspectTimeout => Sys2Proof.Machine.execHkSuspectTimeout s
  | .sensorTyping input kind => Sys2Proof.Machine.execSensorTyping input kind s
  | .thermalRestart => Sys2Proof.Machine.execThermalRestart s
  | .throttleRelease chan => Sys2Proof.Machine.execThrottleRelease chan s
  | .throttleGapStart part => Sys2Proof.Machine.execThrottleGapStart part s
  | .throttleGapEnd part => Sys2Proof.Machine.execThrottleGapEnd part s
  | .ppsFight => Sys2Proof.Machine.execPpsFight s
  | .resetPin => Sys2Proof.Machine.execResetPin s
  | .resetRelease => Sys2Proof.Machine.execResetRelease s
  | .boot chk => Sys2Proof.Machine.execBoot chk s
  | .lockstepMismatch => Sys2Proof.Machine.execLockstepMismatch s
  | .reloadComplete => Sys2Proof.Machine.execReloadComplete s
  | .lmsTreeReady => Sys2Proof.Machine.execLmsTreeReady s
  | .nvmPageProgram ok => Sys2Proof.Machine.execNvmPageProgram ok s
  | .fwStaged => Sys2Proof.Machine.execFwStaged s
  | .fwActivationRestart => Sys2Proof.Machine.execFwActivationRestart s
  | .trialLimit => Sys2Proof.Machine.execTrialLimit s
  | .quicksetReport => Sys2Proof.Machine.execQuicksetReport s
  | .servicePortLink up => Sys2Proof.Machine.execServicePortLink up s
  | .dhcpReply addr => Sys2Proof.Machine.execDhcpReply addr s
  | .refInReturn ppb => Sys2Proof.Machine.execRefInReturn ppb s
  | .observerFault obs faulty => Sys2Proof.Machine.execObserverFault obs faulty s
  | .eraseComplete ok => Sys2Proof.Machine.execEraseComplete ok s
  | .domainBorrow on beacon => Sys2Proof.Machine.execDomainBorrow on beacon s
  | .sportMark core port => Sys2Proof.Machine.execSportMark core port s

end Sys2Proof.Machine
end

