-- ==== Sys2Proof/Machine/Idle.lean ====
section
/-! DEFINITION. What the unit does by itself: it starts a command that waits in a mailbox (R130, R132), and otherwise a tick of
the axis clock passes (R22, R37). -/

namespace Sys2Proof.Machine

/-- R130: the classes in the order of service. -/
def serviceOrder : List Nat := [0, 1, 3, 2]

/-- R618, R625: mailboxes are served while Ribel or the recovery loader runs. -/
def serves (d : Dev) : Bool := d.ctl.phase == .running || d.ctl.phase == .loader

/-- R130, R132: the class served next: the first free one, in the order of service, with a command waiting. -/
def nextClass (d : Dev) : Option Nat :=
  if serves d then serviceOrder.find? fun c => (nth d.lnk.mail c).running.isNone && !(nth d.lnk.mail c).queue.isEmpty else none

/-- The command that starts next, and the unit with its entry taken out of the mailbox. -/
def mailStart (d : Dev) : Option (Instr × Dev) :=
  match nextClass d with
  | none => none
  | some c =>
    match (nth d.lnk.mail c).queue with
    | [] => none
    | e :: q => some (e.instr, (d.onMail c fun m => { m with queue := q }).onLnk fun l => { l with admitted := true })

/-- R227: the tones of a path that have ended; its front-end leaves TX when nothing else is open. -/
def toneOver (d : Dev) (x : TxSb) : Bool := x.tone.any fun t => decide (t.stop ≤ d.axis)
def tonesEnd (d : Dev) (p : Nat) : Dev :=
  feFromTx (d.onTx p fun x => { x with sbs := x.sbs.map fun s => if toneOver d s then { s with tone := none } else s }) p

/-- One tick of the axis clock, 3,125 / 6,144 ns: its samples pass, tones end, the lanes and ports go on, dumps that
waited for a lane leave (R376), measurements through the air grow stale (R439), and the drains of masters end (R533). -/
def idle (d : Dev) : Dev :=
  let d := (sampleTick d).onTmb fun t => { t with clock := t.clock + 3125, cyc := t.cyc + 1 }
  supplyTick <| drainTick <| otaStale <| flushOut <| linkTick <|
    (d.each 64 (fun d p => (d.txPath p).sbs.any (toneOver d)) tonesEnd).each 32 laneBusy laneTick

end Sys2Proof.Machine
end

