-- ==== Sys2Proof/Safety.lean ====
section
/-! DEFINITION. The terms the claims use: when a host's command starts and what it finds (R121, R130 to R136, R678), what it
means that a command completes, begins or happens, and the invariant of a run. -/

namespace Sys2Proof.Machine

/-! ### A host's command starts -/

/-- A packet counted on its port and, from the bound address of its session, the keepalive timer restarted (R129, R168). -/
def received (d : Dev) (h : Hdr) : Dev :=
  let e := d.onLnk fun l => { l with ports := upd l.ports h.port fun c => { c with received := c.received + 1 } }
  if bound d h then heard e h else e

/-- The unit after the packet steps of R121, as far as they change it: the packet counted, the keepalive timer restarted, the
sequence number taken. A command that its class starts from the mailbox has passed them before. -/
def found (d : Dev) (h : Hdr) : Dev :=
  if d.lnk.admitted then d.onLnk fun l => { l with admitted := false }
  else takeSeq (received d h) h

/-- R113, R114, R121, R128, R136: a packet that passes the packet steps: its port is up, it is carried as Swios, it names the unit's number or is a broadcast, it comes from the
bound address of its session (or names session 0 where the opcode allows that), its channel is valid, it is not thorned and its
sequence number is fresh. -/
def reaches (d : Dev) (h : Hdr) (info : CmdInfo) : Bool :=
  portUp d h.port && carried d h.src h.wire && (if h.broadcast then bound d h || (info.opcode == 0 && h.session == 0) else h.unit == d.nvm.unitNumber)
    && (bound d h || (info.opens && h.session == 0)) && decide (h.channel ≤ 3) && !h.thorn && decide (seqCase (received d h) h = .fresh)

/-- R131: a packet that passes the packet steps and finds a mailbox entry and its class free. -/
def arrives (d : Dev) (h : Hdr) (info : CmdInfo) : Bool :=
  reaches d h info && entryFree (received d h) h && (nth (received d h).lnk.mail h.channel).running.isNone
    && (nth (received d h).lnk.mail h.channel).queue.isEmpty

/-- R678 steps 1 to 3: a command starts and is neither refused for its flags, its length, its role or its spread block, nor a dry
run (R133). -/
def starts (d : Dev) (h : Hdr) (info : CmdInfo) : Bool :=
  d.ctl.phase == .running && (d.lnk.admitted || arrives d h info) && !h.reservedFlags && h.lengthOk
    && (info.observer || isOwner d h || (info.opens && h.session == 0)) && !(h.spread.any fun b => !spreadOk b) && !h.dryRun

/-! ### What a command does -/

/-- A host's command completes with status 0: the unit it leaves, its response sent and kept, and its result fields stand in a
relation to the unit it found. -/
def completes (i : Instr) (s : State) (h : Hdr) (info : CmdInfo) (rel : Dev → Dev → List Field → Prop) : Prop :=
  ∃ d fields, exec i s = .next { s with dev := finish d h info { fields := fields } (found s.dev h).now } ∧ rel (found s.dev h) d fields

/-- A host's command begins: its class executes it until what it waits for comes about (R132). -/
def begins (i : Instr) (s : State) (h : Hdr) (w : Wait) (rel : Dev → Dev → Prop) : Prop :=
  ∃ d r, exec i s = .next { s with dev := d.onMail h.channel fun c => { c with running := some r } }
    ∧ r.hdr = h ∧ r.wait = w ∧ r.discard = false ∧ rel (found s.dev h) d

/-- What is not a host's command happens: the unit after it stands in a relation to the unit before it. -/
def happens (i : Instr) (s : State) (rel : Dev → Dev → Prop) : Prop :=
  ∃ d, exec i s = .next { s with dev := d } ∧ rel s.dev d

/-- R68, R70, R71: a stake of an action is the next to act: no held stake of the action can act, it is the first due in trigger
order, its trigger had not passed at prefetch, and its target can act. -/
def due (code : Nat) (able : Dev → QStake → Bool) (d : Dev) (q : QStake) : Bool :=
  (d.tmb.heldStakes.find? fun x => x.stake.action == code && decide (d.axis ≤ x.limit) && able d x).isNone
    && decide (firstDue d = some q) && q.stake.action == code && !q.late && able (d.onTmb (·.advance q)) q

/-! ### Bundles -/

/-- R562, R576, R579: the MAC slot of a running core comes next and no interrupt is to be taken; the bundle at its PC is not
thorned, holds no reserved encoding, and holds this operation in its MAC slot. -/
def macNext (d : Dev) (core : Nat) (fields : List (Nat × Nat × Nat)) : Bool :=
  Core.takes d core 0 && !(nth d.cores core).irqDue && (codeAt d core).2.1.isEmpty && bundleOk (be (codeAt d core).1)
    && slotIs (macSlot (be (codeAt d core).1)) fields

/-- The unit with the bundle at a core's PC fetched. -/
def fetched (d : Dev) (core : Nat) : Dev := (codeAt d core).2.2.onCore core fun c => { c with bundle := be (codeAt d core).1 }

/-- The ALU slot, the load/store slot of the bundle at work comes next and holds this operation. -/
def aluNext (d : Dev) (core : Nat) (fields : List (Nat × Nat × Nat)) : Bool :=
  Core.takes d core 1 && slotIs (aluSlot (nth d.cores core).bundle) fields
def lsNext (d : Dev) (core : Nat) (fields : List (Nat × Nat × Nat)) : Bool :=
  Core.takes d core 2 && slotIs (lsSlot (nth d.cores core).bundle) fields

/-! ### A run -/

/-- What every step keeps: the stores stand in their canonical form, addresses rising and no entry equal to what an unlisted
address reads as. -/
abbrev Inv (s : State) : Prop := s.dev.mem.wf = true

end Sys2Proof.Machine
end

