-- ==== Sys2Proof/Certificates/Slice0/Obligations.lean ====
section
/-! DEFINITION. The statements for the provers, chapter by chapter of the manual: what each command of the table does when
its conditions hold, and what every step keeps. -/

open Sys2Proof Sys2Proof.Machine

/-- The session commands do what chapter 4 says: opening, granting the owner role, closing, evicting, subscribing, and the
session queries. (R123, R125, R127, R129, R153, R168, R169.) -/
def Obligations.SessionCommands : Prop :=
  (∀ (s : State) (h : Hdr),
      starts s.dev h ({ opcode := 0x0000, observer := true, opens := true, loader := true, widths := [3, 1, 8, 4, 1, 1, 1, 6, 4] }) = true →
      completes (.discover h) s h ({ opcode := 0x0000, observer := true, opens := true, loader := true, widths := [3, 1, 8, 4, 1, 1, 1, 6, 4] }) fun d d' fs => d' = d ∧ fs.take 3 = [fld 3 d.nvm.unitNumber, fld 1 (variantCode d.ident.variant), fld 8 d.ident.serial]) ∧
  (∀ (s : State) (h : Hdr) (role takeover keepalive maxPayload : Nat),
      starts s.dev h ({ opcode := 0x0001, opens := true, loader := true, widths := [1, 1, 32] }) = true →
      role ≤ 1 ∧ takeover ≤ 1 ∧ keepalive ≤ 600 →
      (maxPayload = 0 ∨ (512 ≤ maxPayload ∧ maxPayload ≤ 8960 ∧ maxPayload % 64 = 0)) →
      s.dev.lnk.sessions.length < 8 →
      (role = 1 → s.dev.nvm.owners.any (·.enrolled) = false ∧ (found s.dev h).owner? = none) →
      ∃ n, n = freeSession (found s.dev h) ∧ exec (.sessionOpen h role takeover keepalive maxPayload) s = .next { s with
        dev := finish (raiseEv ((found s.dev h).onLnk fun l => { l with sessions := l.sessions ++ [{
            num := n, owner := role == 1, addr := h.src, port := h.port, keepalive := if keepalive = 0 then 10 else keepalive,
            maxPayload := maxPayload, lastHeard := s.dev.now, takeover := takeover == 1,
            header := n * 2 ^ 18 + s.dev.nvm.unitNumber }] })
          EV.sessionOpen [a4 n, a4 (b2n (role == 1))]) h { opcode := 0x0001, opens := true, loader := true, widths := [1, 1, 32] }
          { fields := [fld 1 n, fld 1 0, fld 32 0], session := some n } s.dev.now }) ∧
  (∀ (s : State) (h : Hdr) (key : Nat) (sig : EcdsaSig) (x : Session) (n : Nat),
      starts s.dev h (ask 0x0002) = true →
      key ≤ 3 ∧ (nth s.dev.nvm.owners key).enrolled = true →
      ecdsaVerify (nth s.dev.nvm.owners key).pub (sha384 (bytesOf [fld 32 n, fld 3 x.header])) sig.r sig.s = true →
      (found s.dev h).session? h.session = some x ∧ x.nonce = some n ∧ (found s.dev h).owner? = none →
      completes (.sessionAuth h key sig) s h (ask 0x0002) fun d d' fs => d' = d.onLnk (·.onSession h.session fun s => { s with owner := true, nonce := none, authFails := 0 }) ∧ fs = []) ∧
  (∀ (s : State) (h : Hdr),
      starts s.dev h (ask 0x0003) = true →
      completes (.sessionClose h) s h (ask 0x0003) fun d d' fs => d' = closeSession d h.session 1 ∧ fs = []) ∧
  (∀ (s : State) (h : Hdr),
      starts s.dev h (ask 0x0004 [8]) = true →
      completes (.sessionKeepalive h) s h (ask 0x0004 [8]) fun d d' fs => d' = d ∧ fs = [fld 8 d.axis]) ∧
  (∀ (s : State) (h : Hdr) (x : Session),
      starts s.dev h (ask 0x0005 [1, 1, 1, 1, 1, 4, 4, 4, 4, 4, 4, 4, 4]) = true →
      (found s.dev h).session? h.session = some x →
      completes (.sessionStatus h) s h (ask 0x0005 [1, 1, 1, 1, 1, 4, 4, 4, 4, 4, 4, 4, 4]) fun d d' fs => d' = d ∧ fs = [fld 1 (b2n x.owner)] ++ d.lnk.mail.map (fun c => fld 1 (c.queuedBy x.num)) ++
        [fld 4 x.lostTotal, fld 4 x.crcErrors, fld 4 x.headerErrors, fld 4 x.misaddressed, fld 4 x.noSession, fld 4 x.thorned,
          fld 4 x.busyRefusals, fld 4 x.bcastRefusals]) ∧
  (∀ (s : State) (h : Hdr),
      starts s.dev h (ask 0x0006 [1]) = true →
      completes (.sessionList h) s h (ask 0x0006 [1]) fun d d' fs => d' = d ∧ fs.head? = some (fld 1 d.lnk.sessions.length) ∧ fs.length = 1 + 5 * d.lnk.sessions.length) ∧
  (∀ (s : State) (h : Hdr) (target : Nat) (x : Session),
      starts s.dev h (cmd 0x0007) = true →
      (found s.dev h).session? target = some x ∧ x.owner = false →
      completes (.sessionEvict h target) s h (cmd 0x0007) fun d d' fs => d' = closeSession d target 4 ∧ fs = []) ∧
  (∀ (s : State) (h : Hdr) (mask minSev : Nat),
      starts s.dev h (ask 0x0010) = true →
      mask < 2 ^ 17 ∧ minSev ≤ 3 →
      completes (.eventSubscribe h mask minSev) s h (ask 0x0010) fun d d' fs => d' = d.onLnk (·.onSession h.session fun s => { s with mask := mask, minSev := minSev }) ∧ fs = [])

/-- Bulk objects: opening, filling, closing, reading and ending them do what chapter 4 says. (R140, R141, R142, R143, R144,
R129.) -/
def Obligations.BulkCommands : Prop :=
  (∀ (s : State) (h : Hdr) (kind len crc : Nat),
      starts s.dev h ({ opcode := 0x0020, loader := true, widths := [2, 2] }) = true →
      kindIn kind = true ∧ 0 < len →
      stageFits (found s.dev h) len = true →
      completes (.bulkOpen h kind len crc) s h ({ opcode := 0x0020, loader := true, widths := [2, 2] }) fun d d' fs => d' = d.onLnk (fun l => { l with
        bulk := l.bulk ++ [{ handle := newHandle d, kind := kind, len := len, crc := crc, inDram := domOn d 9, session := h.session,
                             frag := fragSize (payloadFor d h.session h.port) }],
        nextHandle := newHandle d % 65535 + 1 }) ∧ fs = [fld 2 (newHandle d), fld 2 (fragSize (payloadFor d h.session h.port))]) ∧
  (∀ (s : State) (h : Hdr) (handle : Nat) (o : BulkObj),
      starts s.dev h ({ opcode := 0x0021, observer := true, loader := true, widths := [8, 8, 8] }) = true →
      (s.dev.obj? handle = some o ∧ (o.session = h.session ∨ o.session = 0)) →
      completes (.bulkStatus h handle) s h ({ opcode := 0x0021, observer := true, loader := true, widths := [8, 8, 8] }) fun d d' fs => d' = d ∧ fs = [fld 8 o.received, fld 8 o.firstMissing, fld 8 (o.len - o.received)]) ∧
  (∀ (s : State) (h : Hdr) (handle : Nat) (o : BulkObj),
      starts s.dev h ({ opcode := 0x0022, loader := true }) = true →
      (s.dev.obj? handle = some o ∧ (o.session = h.session ∨ o.session = 0)) →
      (o.closed = true ∨ (o.len ≤ o.received ∧ crc32c o.bytes = o.crc)) →
      completes (.bulkClose h handle) s h ({ opcode := 0x0022, loader := true }) fun d d' fs => d' = d.onLnk (fun l => { l with bulk := l.bulk.map fun b => if b.handle == handle then { b with closed := true } else b }) ∧ fs = []) ∧
  (∀ (s : State) (h : Hdr) (handle : Nat) (o : BulkObj),
      starts s.dev h ({ opcode := 0x0023, loader := true }) = true →
      (s.dev.obj? handle = some o ∧ (o.session = h.session ∨ o.session = 0)) →
      completes (.bulkAbort h handle) s h ({ opcode := 0x0023, loader := true }) fun d d' fs => d' = d.onLnk (fun l => { l with
        bulk := l.bulk.filter fun b => b.handle != handle,
        transfers := l.transfers.filter fun t => t.2 != handle }) ∧ fs = []) ∧
  (∀ (s : State) (h : Hdr) (handle offset len pace : Nat) (o : BulkObj),
      starts s.dev h (ask 0x0024) = true →
      (s.dev.obj? handle = some o ∧ (o.session = h.session ∨ o.session = 0)) →
      0 < len ∧ offset + len ≤ o.len ∧ o.closed = true →
      completes (.bulkRead h handle offset len pace) s h (ask 0x0024) fun d d' fs => d' = startTransfer (d.onLnk fun l => { l with bulk := l.bulk.map fun b =>
        if b.handle == handle then { b with pace := pace, read := b.read || b.len == offset + len } else b }) h handle offset len pace ∧ fs = []) ∧
  (∀ (s : State) (h : Hdr) (handle offset len : Nat) (o : BulkObj),
      starts s.dev h (ask 0x0025) = true →
      (s.dev.obj? handle = some o ∧ (o.session = h.session ∨ o.session = 0)) →
      0 < len ∧ offset + len ≤ o.len ∧ o.closed = true →
      completes (.bulkResend h handle offset len) s h (ask 0x0025) fun d d' fs => d' = startTransfer d h handle offset len o.pace ∧ fs = []) ∧
  (∀ (s : State) (handle : Nat) (t : Nat × Nat),
      ((s.dev.lnk.ports.any fun c => c.queue.any fun w => w.handle == handle) = false) →
      s.dev.lnk.transfers.find? (·.2 == handle) = some t →
      happens (.bulkDone handle) s fun d d' => d' = raiseEv (d.onLnk fun l => { l with transfers := l.transfers.erase t }) EV.bulkDone [a4 handle]) ∧
  (∀ (s : State) (session : Nat) (rx : PktIn) (handle offset : Nat) (data thorn : List Nat) (o : BulkObj),
      (dataIn s.dev session rx (12 + data.length)).2 = true →
      s.dev.obj? handle = some o ∧ o.session = session ∧ o.outbound = false ∧ o.closed = false →
      fragOk o offset data.length = true ∧ o.frags.any (·.off == offset) = false →
      happens (.bulkFragment session rx handle offset data thorn) s fun d d' => d' = (dataIn d session rx (12 + data.length)).1.onLnk fun l => { l with bulk := l.bulk.map fun b =>
        if b.handle == handle then { b with frags := b.frags ++ [⟨offset, data, thorn.filter fun w => decide (w < ceilDiv data.length 8)⟩] } else b })

/-- What chapter 4 lets happen by itself: event packets, timeouts, dropped packets, report slots, spread responses, pauses
and settings taking effect. (R121, R129, R138, R155, R156, R160, R164, R115, R613, R169, R170.) -/
def Obligations.LinkEvents : Prop :=
  (∀ (s : State) (h : Hdr) (first count : Nat),
      starts s.dev h (ask 0x0011 [2]) = true →
      1 ≤ count ∧ count ≤ 64 →
      completes (.eventGet h first count) s h (ask 0x0011 [2]) fun d d' fs => d' = noteLost d h.session ∧ fs = fld 2 ((d.lnk.history.filter fun r => decide ((r.num + 2 ^ 32 - first) % 2 ^ 32 < 2 ^ 31)).take count).length
        :: ((d.lnk.history.filter fun r => decide ((r.num + 2 ^ 32 - first) % 2 ^ 32 < 2 ^ 31)).take count).flatMap recFields) ∧
  (∀ (s : State) (session : Nat) (x : Session) (l : List EvRec),
      s.dev.session? session = some x ∧ x.lost = 0 ∧ portUp s.dev x.port = true →
      l = packetRecs (payloadFor s.dev x.num x.port) x.queue ∧ l ≠ [] →
      happens (.evtPacketSend session) s fun d d' => d' = noteLost ((d.onLnk (·.onSession x.num fun y => { y with queue := y.queue.drop l.length })).sendPkt x.port
        (if l.any (·.sev == 3) then 1 else 2) x.addr 2 (if l.any (·.sev == 3) then 0x10 else 0) x.num ((l.map (·.sev)).foldl max 0) (bytesOf (l.flatMap recFields))) x.num) ∧
  (∀ (s : State) (session : Nat) (x : Session),
      s.dev.session? session = some x ∧ x.lastHeard + x.keepalive * tickHz ≤ s.dev.now →
      happens (.sessionTimeout session) s fun d d' => d' = closeSession d session 2) ∧
  (∀ (s : State) (port : Nat) (fcsOk : Bool) (pkt : RawPkt),
      portUp s.dev port = true ∧ fcsOk = false →
      happens (.swiosPacketDropped port fcsOk pkt) s fun d d' => d' = d.onLnk fun l => { l with ports := upd l.ports port fun c => { c with fcsErrors := c.fcsErrors + 1 } }) ∧
  (∀ (s : State) (port : Nat) (fcsOk : Bool) (pkt : RawPkt) (n : Nat),
      portUp s.dev port = true ∧ fcsOk = true ∧ carried s.dev pkt.src pkt.wire = true ∧ dropStep s.dev pkt = some n →
      happens (.swiosPacketDropped port fcsOk pkt) s fun d d' => d' = d.onLnk fun l => countDrop l port (beAt pkt.bytes 4 3 / 2 ^ 18 % 16) n) ∧
  (∀ (s : State) (port : Nat) (fcsOk : Bool) (pkt : RawPkt),
      (portUp s.dev port = true ∧ fcsOk = true ∧ (carried s.dev pkt.src pkt.wire = false ∨ dropStep s.dev pkt = none)) →
      happens (.swiosPacketDropped port fcsOk pkt) s fun d d' => d' = d) ∧
  (∀ (s : State) (kind : Nat) (x : RepSlot) (r : PendReport) (b : Nat),
      s.dev.lnk.slots.find? (·.kind == kind) = some x ∧ nextSlot s.dev x ≤ s.dev.axis + minLead ∧ x.done ≠ some (nextSlot s.dev x) →
      (s.dev.lnk.reports.find? (fun y => y.kind == kind && decide (y.ready + minLead ≤ nextSlot s.dev x)) = some r) →
      reportLaunches s.dev < 64 ∧ freeBuffer s.dev.tmb.launches = some b →
      ∃ e, e = s.dev.onLnk (fun l => { l with slots := l.slots.map fun y => if y.kind == kind then { y with done := some (nextSlot s.dev x) } else y }) ∧
      happens (.reportSlot kind) s fun _ d' => d' = placeParts (e.onLnk fun l => { l with
        reports := l.reports.erase r, repParts := l.repParts ++ slotParts e x (nextSlot s.dev x) r })) ∧
  (∀ (s : State) (kind : Nat) (x : RepSlot),
      s.dev.lnk.slots.find? (·.kind == kind) = some x ∧ nextSlot s.dev x ≤ s.dev.axis + minLead ∧ x.done ≠ some (nextSlot s.dev x) →
      (s.dev.lnk.reports.find? (fun y => y.kind == kind && decide (y.ready + minLead ≤ nextSlot s.dev x)) = none) →
      happens (.reportSlot kind) s fun d d' => d' = raiseEv (d.onLnk fun l => { l with slots := l.slots.map fun y => if y.kind == kind then { y with done := some (nextSlot d x) } else y })
        EV.reportMiss [a4 kind]) ∧
  (∀ (s : State) (buffer : Nat) (l : Launch) (r : Rsp),
      s.dev.tmb.launches.find? (·.buffer == buffer) = some l ∧ l.what = .response r →
      s.dev.axis = l.pos - launchDelay s.dev l.lane ∧ portUp s.dev l.lane = true →
      ∃ e, e = s.dev.onTmb (fun t => { t with launches := t.launches.erase l }) ∧ happens (.spreadResponse buffer) s fun _ d' =>
      d' = giveBuffer ((r.frames e 0 l.pos).foldl (fun d f => d.start l.lane (wireBits f.size) (.frame l.lane f)) e) l.buffer) ∧
  (∀ (s : State) (buffer : Nat) (l : Launch) (r : Rsp),
      s.dev.tmb.launches.find? (·.buffer == buffer) = some l ∧ l.what = .response r →
      (l.pos - launchDelay s.dev l.lane ≤ s.dev.axis ∧ (s.dev.axis ≠ l.pos - launchDelay s.dev l.lane ∨ portUp s.dev l.lane = false)) →
      happens (.spreadResponse buffer) s fun d d' => d' = giveBuffer (raiseEv (d.onTmb fun t => { t with launches := t.launches.erase l }) EV.launchMiss [a4 l.buffer, a4 l.lane, a8 l.pos]) l.buffer) ∧
  (∀ (s : State) (port prio : Nat) (pause : Bool),
      prio = 3 →
      happens (.priorityFlowControl port prio pause) s fun d d' => d' = d.onLnk fun l => { l with ports := upd l.ports port fun c => { c with paused := pause } }) ∧
  (∀ (s : State) (e : Encap) (ses ch q : Nat),
      s.dev.lnk.newEncap = some (e, ses, ch, q) ∧ answered s.dev ses ch q = true →
      happens .linkEncapApply s fun d d' => d' = d.onLnk fun l => { l with encap := e, newEncap := none, dhcpAddr := if e.ipv4Mode = 2 then l.dhcpAddr else 0 }) ∧
  (∀ (s : State) (addr : Nat),
      s.dev.lnk.encap.ipv4Mode = 2 →
      happens (.dhcpReply addr) s fun d d' => d' = d.onLnk fun l => { l with dhcpAddr := addr }) ∧
  (∀ (s : State) (up : Bool),
      happens (.servicePortLink up) s fun d d' => d' = d.onLnk fun l => { l with svcUp := up }) ∧
  (∀ (s : State) (h : Hdr) (op : Nat),
      (s.dev.ctl.phase = .running ∧ (s.dev.lnk.admitted = true ∨ arrives s.dev h { opcode := op, unknown := true } = true)) →
      happens (.undefinedOpcode h op) s fun d d' => d' = finish (found d h) h { opcode := op, unknown := true } { status := ST.badOpcode } d.now)

/-- Destinations, report slots, the encapsulation and the port counters: what their commands set and answer. (R157, R158,
R159, R168, R169, R115.) -/
def Obligations.ReportsAndCounters : Prop :=
  (∀ (s : State) (h : Hdr) (index eth ipv ip udp maxPayload : Nat),
      starts s.dev h (cmd 0x0030) = true →
      (index ≤ 15 ∧ (ipv = 0 ∨ ipv = 4 ∨ ipv = 6)) →
      (maxPayload = 0 ∨ (512 ≤ maxPayload ∧ maxPayload ≤ 8960 ∧ maxPayload % 64 = 0)) →
      completes (.destSet h index eth ipv ip udp maxPayload) s h (cmd 0x0030) fun d d' fs => d' = d.onLnk (fun l => { l with dests := upd l.dests index fun _ =>
        ⟨eth, ipv, if ipv = 0 then 0 else ip, if ipv = 0 then 0 else udp, maxPayload, true⟩ }) ∧ fs = []) ∧
  (∀ (s : State) (h : Hdr) (kind dest lane period offset window n : Nat),
      starts s.dev h (cmd 0x0031) = true →
      reportBody kind = some n ∧ dest ≤ 15 ∧ lane ≤ 31 ∧ offset < period →
      reportTicks (found s.dev h) dest lane n ≤ window →
      completes (.reportSlotSet h kind dest lane period offset window) s h (cmd 0x0031) fun d d' fs => d' = d.onLnk (fun l => { l with slots := l.slots.filter (·.kind != kind) ++ [⟨kind, dest, lane, period, offset, window, none⟩] }) ∧ fs = []) ∧
  (∀ (s : State) (h : Hdr) (kind : Nat) (x : RepSlot),
      starts s.dev h (ask 0x0032 [2, 1, 1, 4, 4, 4]) = true →
      (reportBody kind).isSome = true ∧ s.dev.lnk.slots.find? (·.kind == kind) = some x →
      completes (.reportSlotGet h kind) s h (ask 0x0032 [2, 1, 1, 4, 4, 4]) fun d d' fs => d' = d ∧ fs = [fld 2 kind, fld 1 x.dest, fld 1 x.lane, fld 4 x.period, fld 4 x.offset, fld 4 x.window]) ∧
  (∀ (s : State) (h : Hdr) (enc : Encap),
      starts s.dev h (cmd 0x0040) = true →
      enc.vlan ≤ 4094 ∧ enc.ipv4Mode ≤ 2 ∧ enc.prefixLen ≤ 32 →
      completes (.linkEncapSet h enc) s h (cmd 0x0040) fun d d' fs => d' = d.onLnk (fun l => { l with newEncap := some (enc, h.session, h.channel, h.seq) }) ∧ fs = []) ∧
  (∀ (s : State) (h : Hdr),
      starts s.dev h (ask 0x0041 [2, 2, 2, 1, 4, 1, 4, 16, 16]) = true →
      completes (.linkEncapGet h) s h (ask 0x0041 [2, 2, 2, 1, 4, 1, 4, 16, 16]) fun d d' fs => d' = d ∧ fs = [fld 2 d.lnk.encap.etherType, fld 2 d.lnk.encap.udpPort, fld 2 d.lnk.encap.vlan,
        fld 1 d.lnk.encap.ipv4Mode, fld 4 d.lnk.encap.ipv4, fld 1 d.lnk.encap.prefixLen, fld 4 d.lnk.encap.gateway,
        fld 16 d.lnk.encap.ipv6, fld 16 (linkLocal d.ident.mac)]) ∧
  (∀ (s : State) (h : Hdr) (port clear : Nat),
      starts s.dev h (askClear 0x0042 clear [8, 8, 8, 8, 8, 8, 8]) = true →
      ((port ≤ 31 ∨ port = 0xFF) ∧ clear ≤ 1) →
      completes (.linkCounters h port clear) s h (askClear 0x0042 clear [8, 8, 8, 8, 8, 8, 8]) fun d d' fs => d' = (if clear = 1 then d.onLnk fun l => { l with ports := upd l.ports (portOf port) fun c => { paused := c.paused, ingress := c.ingress, pausing := c.pausing, queue := c.queue, line := c.line, share := c.share } } else d) ∧
      fs = [fld 8 (nth d.lnk.ports (portOf port)).received, fld 8 (nth d.lnk.ports (portOf port)).sent, fld 8 (nth d.lnk.ports (portOf port)).crcErrors,
        fld 8 (nth d.lnk.ports (portOf port)).headerErrors, fld 8 (nth d.lnk.ports (portOf port)).misaddressed,
        fld 8 (nth d.lnk.ports (portOf port)).pauseSent, fld 8 (nth d.lnk.ports (portOf port)).groupsDropped])

/-- The time and axis commands do what chapter 2 says: sources, servos, slewing, stepping, PPS, the reference and the axis.
(R39, R42, R44, R47, R49, R50, R51, R52, R54, R57, R80, R681.) -/
def Obligations.TimeCommands : Prop :=
  (∀ (s : State) (h : Hdr),
      starts s.dev h (ask 0x0100 [6, 4, 2, 8, 4, 8, 8, 8, 8]) = true →
      completes (.timeGet h) s h (ask 0x0100 [6, 4, 2, 8, 4, 8, 8, 8, 8]) fun d d' fs => d' = d ∧ fs = timeFields (clkTime d.tmb.clock) ++ [fld 8 d.axis, fld 4 (timeStatus d.tmb)]
        ++ [1, 2, 3, 4].map (fun c => satfld 8 (if (d.tmb.srv c).st = 0 then 0 else (d.tmb.srv c).offset))) ∧
  (∀ (s : State) (h : Hdr) (pa pb pl pp revertive qual : Nat),
      starts s.dev h (cmd 0x0101) = true →
      revertive ≤ 1 ∧ 1 ≤ qual ∧ qual ≤ 3600 ∧ s.dev.qs.state = 0 →
      completes (.timeSourceSet h pa pb pl pp revertive qual) s h (cmd 0x0101) fun d d' fs => d' = reEnable (d.onTmb fun t => { t with prio := [pa, pb, pl, pp], revertive := revertive == 1, qualTime := qual }) ∧ fs = []) ∧
  (∀ (s : State) (h : Hdr) (dom number lane dest : Nat),
      starts s.dev h (cmd 0x0102) = true →
      (dom ≤ 1 ∧ 24 ≤ number ∧ number ≤ 43 ∧ (lane ≤ 31 ∨ lane = 0xFF) ∧ dest ≤ 1 ∧ s.dev.qs.state = 0) →
      (s.dev.tmb.srv (dom + 1)).st = 0 →
      completes (.ptpConfig h dom number lane dest) s h (cmd 0x0102) fun d d' fs => d' = d.onTmb (·.setSrv (dom + 1) fun x => { x with
        domain := number, port := if lane = 0xFF then 32 else lane, dest := dest,
        measured := none, residual := 0, goodSince := none, rates := [] }) ∧ fs = []) ∧
  (∀ (s : State) (h : Hdr) (dom : Nat),
      starts s.dev h (ask 0x0103 [1, 8, 1, 8, 8, 8]) = true →
      dom ≤ 1 →
      completes (.ptpStatus h dom) s h (ask 0x0103 [1, 8, 1, 8, 8, 8]) fun d d' fs => d' = d ∧ fs = [fld 1 (d.tmb.srv (dom + 1)).st, fld 8 (d.tmb.srv (dom + 1)).gm, fld 1 (d.tmb.srv (dom + 1)).clkClass,
        satfld 8 (d.tmb.srv (dom + 1)).offset, satfld 8 (d.tmb.srv (dom + 1)).residual, fld 8 (d.tmb.srv (dom + 1)).delay]) ∧
  (∀ (s : State) (h : Hdr) (source : Nat),
      starts s.dev h (cmd 0x0104) = true →
      1 ≤ source ∧ source ≤ 4 ∧ (s.dev.tmb.srv source).st = 3 ∧ switchTooFar s.dev.tmb source = false →
      completes (.timeSwitch h source) s h (cmd 0x0104) fun d d' fs => d' = (if d.tmb.active = source then d else if d.tmb.traced then follow d source else firstQualify d source) ∧ fs = []) ∧
  (∀ (s : State) (h : Hdr) (limit maxOffset : Nat),
      starts s.dev h (cmd 0x0105) = true →
      1 ≤ limit ∧ limit ≤ 500 ∧ 100 ≤ maxOffset ∧ maxOffset ≤ 1000000 →
      completes (.timeSlewSet h limit maxOffset) s h (cmd 0x0105) fun d d' fs => d' = steerNow (d.onTmb fun t => { t.slewOn d.now with slewLimit := limit, switchMax := maxOffset }) ∧ fs = []) ∧
  (∀ (s : State) (h : Hdr) (source setAxis : Nat) (epoch : Time12) (frameLen : Nat),
      starts s.dev h (cmd 0x0106 [8, 2]) = true →
      1 ≤ source ∧ source ≤ 4 ∧ (s.dev.tmb.srv source).st = 3 ∧ setAxis ≤ 1 ∧ timeOk epoch = true →
      (setAxis = 1 → frameLenOk frameLen = true) →
      (epochOk (if setAxis = 1 then epoch else s.dev.tmb.epoch) (shiftClock s.dev.tmb.clock (s.dev.tmb.srv source).offset) = true) →
      completes (.timeStep h source setAxis epoch frameLen) s h (cmd 0x0106 [8, 2]) fun d d' fs => d' = ((follow (clockStep (d.onTmb fun t => { t with traced := false }) (d.tmb.srv source).offset fun t =>
          if setAxis = 1 then { t with epoch := epoch, frameLen := frameLen } else t) source).onTmb fun t => { t with traced := true }) ∧
      fs = [satfld 8 (d.tmb.srv source).offset, fld 2 (min (queued d).length 0xFFFF)]) ∧
  (∀ (s : State) (h : Hdr) (lane role : Nat) (asym : Int),
      starts s.dev h (cmd 0x0107) = true →
      lane ≤ 31 ∧ role ≤ 2 →
      s.dev.tmb.srvLane.st = 0 →
      completes (.laneTimeConfig h lane role asym) s h (cmd 0x0107) fun d d' fs => d' = reEnable (d.onTmb fun t => { t with laneNum := lane, laneRole := role, laneAsym := asym, laneTraced := false, laneArrival := d.now, laneSent := [], laneTimes := none }) ∧ fs = []) ∧
  (∀ (s : State) (h : Hdr),
      starts s.dev h (ask 0x0108 [1, 3, 4, 4]) = true →
      completes (.laneTimeStatus h) s h (ask 0x0108 [1, 3, 4, 4]) fun d d' fs => d' = d ∧ fs = [fld 1 d.tmb.srvLane.st, fld 3 d.tmb.lanePartner, satfld 4 d.tmb.laneOffset, satfld 4 d.tmb.laneRound]) ∧
  (∀ (s : State) (h : Hdr) (enable width comp tod : Nat),
      starts s.dev h (cmd 0x0109) = true →
      enable ≤ 1 ∧ 1 ≤ width ∧ width ≤ 500 →
      completes (.ppsConfig h enable width comp tod) s h (cmd 0x0109) fun d d' fs => d' = reEnable (d.onTmb fun t =>
        { t with ppsEnable := enable == 1, ppsWidth := width, ppsComp := comp, ppsTod := tod, ppsLevel := t.ppsLevel && enable == 1 }) ∧ fs = []) ∧
  (∀ (s : State) (h : Hdr) (enable : Nat),
      starts s.dev h (cmd 0x010A [4]) = true →
      enable ≤ 1 →
      completes (.refConfig h enable) s h (cmd 0x010A [4]) fun d d' fs => d' = steerNow (d.onTmb fun t => { t with refEnable := enable == 1 }.refreq) ∧ fs = [sfld 4 d.tmb.refPpb]) ∧
  (∀ (s : State) (h : Hdr) (epoch : Time12) (frameLen : Nat),
      starts s.dev h (cmd 0x0110) = true →
      timeOk epoch = true ∧ frameLenOk frameLen = true ∧ epochOk epoch s.dev.tmb.clock = true ∧ s.dev.tmb.traced = false →
      completes (.axisSet h epoch frameLen) s h (cmd 0x0110) fun d d' fs => d' = { d with sig := {}, syn := { d.syn with hop := (0, 0) } }.onTmb (fun t => { t with epoch := epoch, frameLen := frameLen }) ∧ fs = []) ∧
  (∀ (s : State) (h : Hdr),
      starts s.dev h (ask 0x0111 [8, 8, 6, 4, 2, 4]) = true →
      completes (.axisGet h) s h (ask 0x0111 [8, 8, 6, 4, 2, 4]) fun d d' fs => d' = d ∧ fs = [fld 8 d.axis, fld 8 (d.axis / d.tmb.frameLen)] ++ timeFields d.tmb.epoch ++ [fld 4 d.tmb.frameLen])

/-- The servos move between their states as chapter 2 says when an Announce, a Sync, a loss, a qualification or a timeout
comes. (R42, R43, R44, R46, R51, R52, R53, R679.) -/
def Obligations.ServoHappenings : Prop :=
  (∀ (s : State) (dom port : Nat) (msg : Announce),
      dom ≤ 1 ∧ (s.dev.tmb.srv (dom + 1)).st = 1 ∧ (s.dev.tmb.srv (dom + 1)).port = port →
      happens (.ptpAnnounce dom port msg) s fun d d' => d' = servoTo (d.onTmb (·.setSrv (dom + 1) fun x => { x with gm := msg.gm, clkClass := msg.clockClass, misses := 0 })) (dom + 1) 2) ∧
  (∀ (s : State) (dom port : Nat) (msg : Announce),
      dom ≤ 1 ∧ 2 ≤ (s.dev.tmb.srv (dom + 1)).st ∧ (s.dev.tmb.srv (dom + 1)).port = port →
      (msg.gm = (s.dev.tmb.srv (dom + 1)).gm ∨ msg.better = true) →
      ((s.dev.tmb.srv (dom + 1)).st = 3 → msg.clockClass ≤ 7) →
      happens (.ptpAnnounce dom port msg) s fun d d' => d' = d.onTmb (·.setSrv (dom + 1) fun x => { x with gm := msg.gm, clkClass := msg.clockClass, misses := 0 })) ∧
  (∀ (s : State) (dom : Nat) (master slave : Int) (corr : PtpCorr) (a b : Int),
      dom ≤ 1 ∧ 2 ≤ (s.dev.tmb.srv (dom + 1)).st →
      a = master - tenthN16 (stampCorr s.dev (s.dev.tmb.srv (dom + 1)).port).2 - corr.sync →
      b = slave - tenthN16 (stampCorr s.dev (s.dev.tmb.srv (dom + 1)).port).1 - corr.delay →
      happens (.ptpSync dom master slave corr) s fun d d' => d' = measured (d.onTmb (·.setSrv (dom + 1) fun x => { x with delay := ((a + b) / 2).toNat })) (dom + 1) ((b - a) / 2) 6553600 true
        (((d.tmb.srv (dom + 1)).clkClass == 6 || (d.tmb.srv (dom + 1)).clkClass == 7) && decide ((d.tmb.srv (dom + 1)).misses < 3))) ∧
  (∀ (s : State) (dom : Nat),
      dom ≤ 1 ∧ 2 ≤ (s.dev.tmb.srv (dom + 1)).st ∧ (s.dev.tmb.srv (dom + 1)).reqAt ≤ s.dev.now →
      happens (.delayReq dom) s fun d d' => d' = Machine.delayReq (d.onTmb (·.setSrv (dom + 1) fun x => { x with reqAt := d.now + tickHz / 16 })) (d.tmb.srv (dom + 1))) ∧
  (∀ (s : State) (dom : Nat),
      dom = 0 ∧ s.dev.tmb.srvA.st = 2 →
      happens (.announceTimeout dom) s fun d d' => d' = servoTo (d.onTmb (·.setSrv 1 fun x => { x with misses := 3 })) 1 1) ∧
  (∀ (s : State) (dom : Nat),
      dom = 1 ∧ s.dev.tmb.srvB.st = 3 →
      happens (.announceTimeout dom) s fun d d' => d' = servoTo (d.onTmb (·.setSrv 2 fun x => { x with misses := 3 })) 2 4) ∧
  (∀ (s : State) (dom : Nat),
      (dom ≤ 1 ∧ ((s.dev.tmb.srv (dom + 1)).st = 2 ∨ (s.dev.tmb.srv (dom + 1)).st = 3)) →
      (max ((s.dev.tmb.srv (dom + 1)).measured.getD 0) (if (s.dev.tmb.srv (dom + 1)).st = 2 then (s.dev.tmb.srv (dom + 1)).since else 0) + 2 * tickHz ≤ s.dev.now) →
      happens (.syncLoss dom) s fun d d' => d' = servoTo d (dom + 1) (if (d.tmb.srv (dom + 1)).st = 2 then 1 else 4)) ∧
  (∀ (s : State) (source : Nat) (e : Dev),
      1 ≤ source ∧ source ≤ 4 ∧ qualifies s.dev source = true →
      (e = [1, 2, 3, 4].foldl (fun x k => if qualifies s.dev k then servoTo x k 3 else x) s.dev ∧ e.tmb.traced = true) →
      happens (.servoQualify source) s fun d d' => d' = e) ∧
  (∀ (s : State) (source : Nat) (e : Dev) (c : Nat),
      1 ≤ source ∧ source ≤ 4 ∧ qualifies s.dev source = true →
      (e = [1, 2, 3, 4].foldl (fun x k => if qualifies s.dev k then servoTo x k 3 else x) s.dev ∧ e.tmb.traced = false ∧ bestLocked e.tmb = some c) →
      happens (.servoQualify source) s fun d d' => d' = firstQualify e c) ∧
  (∀ (s : State) (source : Nat),
      1 ≤ source ∧ source ≤ 4 ∧ (s.dev.tmb.srv source).st = 4 ∧ (s.dev.tmb.srv source).heldSince + 3600 * tickHz ≤ s.dev.now →
      happens (.holdoverExpiry source) s fun d d' => d' = servoTo d source 1) ∧
  (∀ (s : State) (source : Nat),
      1 ≤ source ∧ source ≤ 4 ∧ s.dev.tmb.revertive = true ∧ s.dev.tmb.traced = true ∧ s.dev.tmb.active ≠ 0 ∧ s.dev.tmb.active ≠ source →
      ((s.dev.tmb.srv source).st = 3 ∧ s.dev.tmb.prioOf source ≠ 0 ∧ (s.dev.tmb.prioOf source < s.dev.tmb.prioOf s.dev.tmb.active ∨
        (s.dev.tmb.prioOf source = s.dev.tmb.prioOf s.dev.tmb.active ∧ source < s.dev.tmb.active))) →
      (s.dev.tmb.srv source).lockedSince + s.dev.tmb.qualTime * tickHz ≤ s.dev.now ∧ switchTooFar s.dev.tmb source = false →
      happens (.revertiveSwitch source) s fun d d' => d' = follow d source) ∧
  (∀ (s : State),
      s.dev.tmb.slewing = true ∧ s.dev.tmb.slewLeft.natAbs ≤ slewed s.dev.tmb s.dev.now →
      ∃ mv : Servo → Servo, (∀ x, mv x = if x.measured.all (fun m => decide (m < s.dev.tmb.slewFrom)) then { x with offset := x.offset - s.dev.tmb.slewLeft } else x) ∧
      happens .slewDone s fun d d' => d' = steerNow (d.onTmb fun t => { t with slewing := false, slewLeft := 0, srvA := mv t.srvA, srvB := mv t.srvB, srvLane := mv t.srvLane, srvPps := mv t.srvPps }))

/-- The direct lane, PPS and reference inputs act on the time state as chapter 2 says. (R44, R45, R47, R49, R50, R679.) -/
def Obligations.TimeInputs : Prop :=
  (∀ (s : State) (lane : Nat),
      timeLane s.dev lane = true ∧ s.dev.tmb.laneNext ≤ s.dev.now →
      happens (.timeBlockSend lane) s fun d d' => d' = (d.onTmb fun t => { t with
          laneSeq := (t.laneSeq + 1) % 128, laneNext := d.now + tickHz / 1000,
          laneSent := ((t.laneSeq, clockPs d) :: t.laneSent).take 128 }).send (.direct lane [Machine.timeBlock 0xB4 d.tmb.traced d.tmb.laneSeq (clockPs d)])) ∧
  (∀ (s : State) (lane code flags ps arrival : Nat),
      timeLane s.dev lane = true ∧ code = 0xB4 →
      happens (.timeBlock lane code flags ps arrival) s fun d d' => d' = partnerTraced ((d.onTmb fun t => { t with laneArrival := d.now, laneTimes := some (ps, arrival) }).send
        (.direct lane [Machine.timeBlock 0xB5 d.tmb.traced (flags % 128) arrival])) (flags.testBit 7)) ∧
  (∀ (s : State) (lane : Nat) (ctl : Bool) (code : Nat) (traced : Bool) (seq hi lo t1 t3 t4 : Nat) (o : Int),
      timeLane s.dev lane = true ∧ s.dev.tmb.laneRole = 2 ∧ s.dev.tmb.srvLane.st = 3 ∧ ctl = true ∧ code = 0xB5 ∧ traced = true →
      s.dev.tmb.laneSent.lookup (seq % 128) = some t1 ∧ s.dev.tmb.laneTimes = some (t3, t4) →
      o = childOffset t1 (hi * 2 ^ 24 + lo) t3 t4 s.dev.tmb.laneAsym →
      happens (.timeReply lane ctl code traced seq hi lo) s fun d d' => d' = measured (d.onTmb fun t => { t with
          laneTraced := true, laneOffset := o,
          laneRound := toSigned 48 (hi * 2 ^ 24 + lo + 2 ^ 48 - t1) + toSigned 48 (t4 + 2 ^ 48 - t3) }) 3 (-o * 65536 / 1000) 65536 false true) ∧
  (∀ (s : State),
      s.dev.tmb.laneArrival + tickHz / 100 ≤ s.dev.now ∧ s.dev.tmb.srvLane.st = 3 →
      happens .timeBlockTimeout s fun d d' => d' = servoTo d 3 4) ∧
  (∀ (s : State) (t : Nat),
      s.dev.tmb.srvLane.badSince = some t ∧ s.dev.tmb.srvLane.st = 3 ∧ t + tickHz / 10 ≤ s.dev.now →
      happens .laneResidualFault s fun d d' => d' = servoTo (raiseEv d EV.laneTimeFault [a4 d.tmb.laneNum]) 3 2) ∧
  (∀ (s : State) (offset : Int),
      s.dev.tmb.srvPps.st = 1 ∧ s.dev.tmb.srvPps.measured = none →
      s.dev.tmb.ppsEdge.isSome = true ∧ tickHz ≤ s.dev.now - s.dev.tmb.ppsEdge.getD 0 + 1966 ∧ s.dev.now - s.dev.tmb.ppsEdge.getD 0 ≤ tickHz + 1966 →
      happens (.ppsInEdge offset) s fun d d' => d' = servoTo (measured (d.onTmb fun t => { t with ppsEdge := some d.now, ppsTod := t.ppsTod + 1 }) 4 offset 6553600 true true) 4 2) ∧
  (∀ (s : State) (offset : Int),
      s.dev.tmb.srvPps.st = 0 →
      happens (.ppsInEdge offset) s fun d d' => d' = d.onTmb fun t => { t with ppsEdge := some d.now }) ∧
  (∀ (s : State) (t : Nat),
      s.dev.tmb.ppsEdge = some t ∧ t + 2 * tickHz ≤ s.dev.now ∧ s.dev.tmb.srvPps.st = 3 →
      happens .ppsInTimeout s fun d d' => d' = servoTo d 4 4) ∧
  (∀ (s : State),
      s.dev.tmb.ppsEnable = true ∧ ppsDue s.dev.tmb = true →
      happens .ppsOutRise s fun d d' => d' = d.onTmb fun t => { t with ppsLevel := true, ppsRose := d.now }) ∧
  (∀ (s : State),
      s.dev.tmb.ppsLevel = true ∧ s.dev.tmb.ppsRose + s.dev.tmb.ppsWidth * (tickHz / 1000) ≤ s.dev.now →
      happens .ppsOutFall s fun d d' => d' = d.onTmb fun t => { t with ppsLevel := false }) ∧
  (∀ (s : State),
      happens .refInLoss s fun d d' => d' = steerNow (d.onTmb fun t => { t with refPresent := false }.refreq)) ∧
  (∀ (s : State) (ppb : Int),
      happens (.refInReturn ppb) s fun d d' => d' = steerNow (d.onTmb fun t => { t with refPpb := ppb, refPresent := decide (ppb.natAbs ≤ 25000) }.refreq)) ∧
  (∀ (s : State) (lane : Nat) (quality : SyncEQl),
      happens (.esmcQuality lane quality) s fun d d' => d' = steerNow (d.onTmb fun t =>
        { t with syncE := if quality.prc then (t.syncE.filter fun x : Nat × Int => x.1 != lane) ++ [(lane, quality.ppb)] else t.syncE.filter fun x : Nat × Int => x.1 != lane }.refreq))

/-- The stake queue does what chapter 2 says: submission, cancelling, listing, delays, prefetch, marks, swaps and the end of
a deferral. (R61, R62, R64, R65, R66, R67, R68, R69, R71, R72, R75, R498.) -/
def Obligations.StakeQueue : Prop :=
  (∀ (s : State) (h : Hdr) (entries : List Stake),
      starts s.dev h (cmd 0x0120 [2, 2]) = true →
      1 ≤ entries.length ∧ entries.length ≤ 64 ∧ submitCheck (found s.dev h) false entries = none →
      completes (.stakeSubmit h entries) s h (cmd 0x0120 [2, 2]) fun d d' fs => d' = calRecheck (d.onTmb fun t => { t with stakes := t.stakes ++ asQueued d entries, nextOrder := t.nextOrder + entries.length }) ∧
      fs = [fld 2 (stakesFree (calRecheck (d.onTmb fun t => { t with stakes := t.stakes ++ asQueued d entries, nextOrder := t.nextOrder + entries.length }))), fld 2 0xFFFF]) ∧
  (∀ (s : State) (h : Hdr) (tag mask : Nat),
      starts s.dev h (cmd 0x0121 [2, 2]) = true →
      s.dev.qs.state = 0 →
      completes (.stakeCancel h tag mask) s h (cmd 0x0121 [2, 2]) fun d d' fs => d' = d.onTmb (fun t => { t with
        stakes := t.stakes.filterMap fun q =>
          if Nat.land q.stake.tag mask != Nat.land tag mask then some q else if q.taken d then some { q with stake := { q.stake with flags := if q.stake.repeats then q.stake.flags - 64 else q.stake.flags } } else none }) ∧
      fs = [fld 2 (((queued d).filter fun q => Nat.land q.stake.tag mask == Nat.land tag mask).filter fun q =>
              !(q.taken d || d.tmb.heldStakes.any fun x => x.order == q.order)).length,
            fld 2 (((queued d).filter fun q => Nat.land q.stake.tag mask == Nat.land tag mask).length -
              (((queued d).filter fun q => Nat.land q.stake.tag mask == Nat.land tag mask).filter fun q =>
                !(q.taken d || d.tmb.heldStakes.any fun x => x.order == q.order)).length)]) ∧
  (∀ (s : State) (h : Hdr) (first count : Nat),
      starts s.dev h (ask 0x0122) = true →
      1 ≤ count ∧ count ≤ 64 →
      completes (.stakeList h first count) s h (ask 0x0122) fun d d' fs => d' = d ∧ fs = (((stakesInOrder d (queued d)).drop first).take count).flatMap stakeFields) ∧
  (∀ (s : State) (h : Hdr) (action target : Nat) (k : Stake),
      starts s.dev h (ask 0x0112 [4]) = true →
      k = { (default : Stake) with action := action, target := target } ∧ k.known = true ∧ targetOk k = true ∧ byStamp k.equiv = false →
      completes (.axisDelays h action target) s h (ask 0x0112 [4]) fun d d' fs => d' = d ∧ fs = [fld 4 (stakeDelay d k.equiv)]) ∧
  (∀ (s : State) (h : Hdr) (action target : Nat) (k : Stake),
      starts s.dev h (ask 0x0112 [4]) = true →
      k = { (default : Stake) with action := action, target := target } ∧ k.known = true ∧ targetOk k = true ∧ byStamp k.equiv = true →
      completes (.axisDelays h action target) s h (ask 0x0112 [4]) fun d d' fs => d' = d ∧ fs = [fld 4 (Config.stampDelay action target (stampSettings d k.equiv))]) ∧
  (∀ (s : State) (q : QStake) (l : List QStake),
      (stakesInOrder s.dev (s.dev.tmb.stakes.filter fun x => x.trig.isNone && decide (x.trigger s.dev < s.dev.axis + prefetchLead)) = q :: l) →
      happens .stakePrefetch s fun d d' => d' = gatesAhead (d.onTmb fun b => { b with stakes := b.stakes.map fun x =>
        if x.order == q.order then { x with trig := some (q.trigger d), late := decide (q.trigger d < d.axis) } else x }) q) ∧
  (∀ (s : State) (q : QStake),
      (s.dev.tmb.heldStakes.find? (fun x => decide (x.limit < s.dev.axis)) = some q ∧ q.stake.action ≠ 0x0B20) →
      happens .stakeDeferExpiry s fun d d' => d' = raiseEv (d.onTmb fun t => { t with heldStakes := t.heldStakes.filter fun x => !(x.order == q.order && x.pos == q.pos) })
        EV.stakeDropped [a4 q.stake.tag, a8 q.pos]) ∧
  (∀ (s : State) (q : QStake),
      (due 0x0100 (fun _ _ => true) s.dev q = true) →
      happens .mark s fun d d' => d' = raiseEv (d.onTmb (·.advance q)) EV.stakeMark [a4 q.stake.tag, a8 q.pos]) ∧
  (∀ (s : State) (q : QStake),
      (due 0x0110 (fun e x => bankAble e x.equiv) s.dev q = true) →
      happens .bankSwap s fun d d' => d' = markDone (bankSwap (d.onTmb (·.advance q)) q.equiv) q) ∧
  (∀ (s : State) (cls inst t : Nat),
      cls = 1 ∧ inst < 256 ∧ ((s.dev.rxPath (inst / 4)).sb (inst % 4)).banks.freeAt = some t ∧ t ≤ s.dev.axis →
      happens (.bankFree cls inst) s fun d d' => d' = raiseEv (d.onRxSb (inst / 4) (inst % 4) fun x => { x with banks := { x.banks with freeAt := none } }) EV.bankFree []) ∧
  (∀ (s : State) (cls inst t : Nat),
      cls = 8 ∧ inst = 0 ∧ s.dev.xce.banks.freeAt = some t ∧ t ≤ s.dev.axis →
      happens (.bankFree cls inst) s fun d d' => d' = raiseEv (d.onXce fun x => { x with banks := { x.banks with freeAt := none } }) EV.bankFree [])

/-- Launch buffers hold, launch and give up frames, and MEM-FREQ-SET submits its stake, as chapters 2 and 14 say. (R62, R64,
R76, R77, R78, R512, R138.) -/
def Obligations.LaunchesAndFrequencySet : Prop :=
  (∀ (s : State) (h : Hdr) (lane position : Nat) (frame : List Nat) (b : Nat),
      starts s.dev h (cmd 0x0130 [1]) = true →
      lane ≤ 31 ∧ 1 ≤ frame.length ∧ frame.length ≤ 9216 ∧ s.dev.axis + launchDelay s.dev lane + minLead ≤ position →
      freeBuffer s.dev.tmb.launches = some b →
      completes (.launchQueue h lane position frame) s h (cmd 0x0130 [1]) fun d d' fs => d' = d.onTmb (fun t => { t with launches := t.launches ++ [⟨b, lane, position, .frame frame⟩] }) ∧ fs = [fld 1 b]) ∧
  (∀ (s : State) (h : Hdr) (buffer : Nat),
      starts s.dev h (cmd 0x0131 [1]) = true →
      s.dev.tmb.launches.any (·.buffer == buffer) = true →
      completes (.launchCancel h buffer) s h (cmd 0x0131 [1]) fun d d' fs => d' = giveBuffer (d.onTmb fun t => { t with launches := t.launches.filter fun l => l.buffer != buffer }) buffer ∧ fs = [fld 1 1]) ∧
  (∀ (s : State) (h : Hdr) (buffer : Nat),
      starts s.dev h (cmd 0x0131 [1]) = true →
      s.dev.tmb.launches.any (·.buffer == buffer) = false →
      completes (.launchCancel h buffer) s h (cmd 0x0131 [1]) fun d d' fs => d' = d ∧ fs = [fld 1 0]) ∧
  (∀ (s : State) (buffer : Nat) (l : Launch) (f : List Nat),
      s.dev.tmb.launches.find? (·.buffer == buffer) = some l ∧ l.what = .frame f →
      s.dev.axis = l.pos - launchDelay s.dev l.lane ∧ portUp s.dev l.lane = true →
      happens (.launchTrigger buffer) s fun d d' => d' = giveBuffer ((d.onTmb fun t => { t with launches := t.launches.erase l }).start l.lane (wireBits f.length) (.launch l.lane l.pos f)) l.buffer) ∧
  (∀ (s : State) (buffer : Nat) (l : Launch) (f : List Nat),
      s.dev.tmb.launches.find? (·.buffer == buffer) = some l ∧ l.what = .frame f →
      (l.pos - launchDelay s.dev l.lane ≤ s.dev.axis ∧ (s.dev.axis ≠ l.pos - launchDelay s.dev l.lane ∨ portUp s.dev l.lane = false)) →
      happens (.launchTrigger buffer) s fun d d' => d' = giveBuffer (raiseEv (d.onTmb fun t => { t with launches := t.launches.erase l }) EV.launchMiss [a4 l.buffer, a4 l.lane, a8 l.pos]) l.buffer) ∧
  (∀ (s : State) (buffer : Nat) (l : Launch) (f : Frame) (kind dest part parts axis n : Nat) (body thorn : List Nat) (e : Dev),
      s.dev.tmb.launches.find? (·.buffer == buffer) = some l ∧ l.what = .report kind dest part parts axis body thorn →
      s.dev.axis = l.pos - launchDelay s.dev l.lane ∧ portUp s.dev l.lane = true →
      (n, e) = (s.dev.onTmb fun t => { t with launches := t.launches.erase l }).nextSeq 5 (kind % 256) →
      f = frameTo e (nth e.lnk.dests dest).addr 0 (swios e 5 (reportPart kind part parts axis body thorn).2 0 (kind % 256) n l.pos (reportPart kind part parts axis body thorn).1) →
      happens (.launchTrigger buffer) s fun _ d' => d' = giveBuffer (e.start l.lane (wireBits f.size) (.frame l.lane f)) l.buffer) ∧
  (∀ (s : State) (h : Hdr) (setpoint position : Nat) (k : Stake),
      starts s.dev h (cmd 0x0C08) = true →
      setpoint ≤ 1 ∧ domOn s.dev 9 = true ∧ anyPortOn s.dev = false →
      k = { (default : Stake) with position := position, action := 0x0C01, argument := setpoint } →
      submitArgs (found s.dev h) [k] = none ∧ submitState (found s.dev h) false [k] = none →
      completes (.memFreqSet h setpoint position) s h (cmd 0x0C08) fun d d' fs => d' = calRecheck (d.onTmb fun t => { t with stakes := t.stakes ++ asQueued d [k], nextOrder := t.nextOrder + 1 }) ∧ fs = [])

/-- The lane commands do what chapter 3 says: configuration, power, equalisers, patterns, loopbacks, reset and the lane
queries. (R94, R99, R102, R103, R105, R106, R107, R108, R109, R110, R111.) -/
def Obligations.LaneCommands : Prop :=
  (∀ (s : State) (h : Hdr) (lane mode fec unit plane tag force : Nat),
      starts s.dev h (cmd 0x0200) = true →
      (lane ≤ 31 ∧ plane ≤ 31 ∧ mode ≤ 5 ∧ fec ≤ 1 ∧ mode ≠ 2 ∧ (mode = 1 → fec = 1)) →
      ((unit ≤ 262143 ∨ unit = 0xFFFFF) ∧ nth s.dev.quads (lane / 4) = true ∧ force = 1) →
      (nth s.dev.lanes (quadFirst lane)).mode ≠ 2 ∧ (nth s.dev.lanes lane).st = 0 →
      completes (.laneConfig h lane mode fec unit plane tag force) s h (cmd 0x0200) fun d d' fs => d' = startLane (d.onLane lane fun l => { l with expUnit := unit, expLane := plane, expTag := tag }) lane mode fec ∧ fs = []) ∧
  (∀ (s : State) (h : Hdr) (lane mode fec unit plane tag force : Nat),
      starts s.dev h (cmd 0x0200) = true →
      (lane ≤ 31 ∧ plane ≤ 31 ∧ mode ≤ 5 ∧ fec ≤ 1 ∧ mode ≠ 2 ∧ (mode = 1 → fec = 1)) →
      ((unit ≤ 262143 ∨ unit = 0xFFFFF) ∧ nth s.dev.quads (lane / 4) = true ∧ force = 1) →
      (nth s.dev.lanes (quadFirst lane)).mode ≠ 2 ∧ (nth s.dev.lanes lane).st ≠ 0 →
      completes (.laneConfig h lane mode fec unit plane tag force) s h (cmd 0x0200) fun d d' fs => d' = (d.onLane lane fun l => { l with expUnit := unit, expLane := plane, expTag := tag }).onLane lane (fun l => { l with down := some (.mode mode fec, h.session, h.channel, h.seq) }) ∧ fs = []) ∧
  (∀ (s : State) (h : Hdr) (lane : Nat),
      starts s.dev h (ask 0x0201 [4, 3, 1, 2]) = true →
      lane ≤ 31 →
      completes (.laneStatus h lane) s h (ask 0x0201 [4, 3, 1, 2]) fun d d' fs => d' = d ∧ fs = [fld 4 (laneStatus (nth d.lanes lane)), fld 3 (nth d.lanes lane).rxUnit, fld 1 (nth d.lanes lane).rxLane,
        if (nth d.lanes lane).lit then satfld 2 (nth d.lanes lane).txPower else fld 2 0x8000]) ∧
  (∀ (s : State) (h : Hdr) (lane : Nat),
      starts s.dev h (ask 0x0202 [4, 4]) = true →
      lane ≤ 31 →
      completes (.laneEqGet h lane) s h (ask 0x0202 [4, 4]) fun d d' fs => d' = d ∧ fs = [fld 4 (laneRxeq (nth d.lanes lane)), fld 4 (laneDfe (nth d.lanes lane))]) ∧
  (∀ (s : State) (h : Hdr) (lane freeze : Nat),
      starts s.dev h (cmd 0x0203) = true →
      lane ≤ 31 ∧ freeze ≤ 1 ∧ nth s.dev.quads (lane / 4) = true ∧ 2 ≤ (nth s.dev.lanes lane).st →
      completes (.laneEqSet h lane freeze) s h (cmd 0x0203) fun d d' fs => d' = d.onLane lane (fun l => { l with
          freeze := freeze == 1
          adapt := if l.adapt = 0 then 0 else if freeze = 1 then 3 else if l.adapt = 3 then (if l.st = 2 then 1 else 2) else l.adapt }) ∧ fs = []) ∧
  (∀ (s : State) (h : Hdr) (lane pattern gen chk force : Nat),
      starts s.dev h (cmd 0x0204) = true →
      lane ≤ 31 ∧ pattern ≤ 6 ∧ gen ≤ 1 ∧ chk ≤ 1 ∧ force ≤ 1 ∧ 1 ≤ gen + chk →
      (((nth s.dev.lanes lane).mode = 0 ∨ patternOk (nth s.dev.lanes lane).mode pattern = true) ∧
        (nth s.dev.lanes lane).st ≠ 0 ∧ nth s.dev.quads (lane / 4) = true) →
      (force = 1 ∨ ((nth s.dev.lanes lane).st ≠ 5 ∧ laneConfigured (found s.dev h) lane = false)) →
      completes (.lanePrbs h lane pattern gen chk force) s h (cmd 0x0204) fun d d' fs => d' = enterTest ((prbsCatch d lane).onLane lane fun l => { l with prbsPattern := pattern, prbsGen := gen == 1, prbsChk := chk == 1, prbsLock := false }) h lane ∧ fs = []) ∧
  (∀ (s : State) (h : Hdr) (lane clear : Nat) (e : Dev),
      starts s.dev h (askClear 0x0205 clear [1, 8, 8, 8]) = true →
      lane ≤ 31 ∧ clear ≤ 1 ∧ e = prbsCatch (found s.dev h) lane →
      completes (.lanePrbsRead h lane clear) s h (askClear 0x0205 clear [1, 8, 8, 8]) fun _ d' fs => d' = (if clear = 1 then e.onLane lane fun l => { l with prbsBits := 0, prbsErrs := 0, prbsSyms := 0 } else e) ∧
      fs = [fld 1 (b2n (nth e.lanes lane).prbsLock), fld 8 (nth e.lanes lane).prbsBits, fld 8 (nth e.lanes lane).prbsErrs, fld 8 (nth e.lanes lane).prbsSyms]) ∧
  (∀ (s : State) (h : Hdr) (lane kind force : Nat),
      starts s.dev h (cmd 0x0206) = true →
      lane ≤ 31 ∧ 1 ≤ kind ∧ kind ≤ 3 ∧ force ≤ 1 ∧ (nth s.dev.lanes lane).st ≠ 0 ∧ nth s.dev.quads (lane / 4) = true →
      (force = 1 ∨ ((nth s.dev.lanes lane).st ≠ 5 ∧ laneConfigured (found s.dev h) lane = false)) →
      completes (.laneLoopback h lane kind force) s h (cmd 0x0206) fun d d' fs => d' = enterTest (d.onLane lane fun l => { l with loopback := kind }) h lane ∧ fs = []) ∧
  (∀ (s : State) (h : Hdr) (lane : Nat),
      starts s.dev h (cmd 0x0207) = true →
      lane ≤ 31 ∧ nth s.dev.quads (lane / 4) = true →
      completes (.laneReset h lane) s h (cmd 0x0207) fun d d' fs => d' = d.onLane lane (fun l => { l with down := some (.restart, h.session, h.channel, h.seq), departures := [] }) ∧ fs = []) ∧
  (∀ (s : State) (h : Hdr) (quad on force : Nat),
      starts s.dev h (cmd 0x0208) = true →
      quad ≤ 7 ∧ on = 1 ∧ force ≤ 1 ∧ nth s.dev.quads quad = false →
      completes (.quadPower h quad on force) s h (cmd 0x0208) fun d d' fs => d' = [4 * quad, 4 * quad + 1, 4 * quad + 2, 4 * quad + 3].foldl (fun e n => startLane e n (nth e.lanes n).mode (nth e.lanes n).fec)
        { d with quads := upd d.quads quad fun _ => true } ∧ fs = []) ∧
  (∀ (s : State) (h : Hdr) (quad on force : Nat),
      starts s.dev h (cmd 0x0208) = true →
      (quad ≤ 7 ∧ on = 0 ∧ force = 1 ∧ ([4 * quad, 4 * quad + 1, 4 * quad + 2, 4 * quad + 3].all fun n => (nth s.dev.lanes n).st == 0) = true) →
      completes (.quadPower h quad on force) s h (cmd 0x0208) fun d d' fs => d' = { d with quads := upd d.quads quad fun _ => false } ∧ fs = []) ∧
  (∀ (s : State) (h : Hdr) (lane clear : Nat),
      starts s.dev h (askClear 0x0209 clear [8, 8, 8, 8, 4, 4]) = true →
      lane ≤ 31 ∧ clear ≤ 1 →
      completes (.laneCounters h lane clear) s h (askClear 0x0209 clear [8, 8, 8, 8, 4, 4]) fun d d' fs => d' = (if clear = 1 then d.onLane lane fun l =>
          { l with corrected := 0, uncorrectable := 0, fillIn := 0, fillOut := 0, lockLosses := 0, losCount := 0 } else d) ∧
      fs = [fld 8 (nth d.lanes lane).corrected, fld 8 (nth d.lanes lane).uncorrectable, fld 8 (nth d.lanes lane).fillIn,
        fld 8 (nth d.lanes lane).fillOut, fld 4 (nth d.lanes lane).lockLosses, fld 4 (nth d.lanes lane).losCount])

/-- A lane comes up and goes down as chapter 3 says: laser, signal, clock, equaliser, block lock, loss and take-down. (R94,
R95, R96, R97, R99, R100, R101, R102, R103.) -/
def Obligations.LaneBringUp : Prop :=
  (∀ (s : State) (reading : LaserReading),
      (nth s.dev.lanes reading.lane).lit = true ∧ (nth s.dev.lanes reading.lane).stable = false ∧ (nth s.dev.lanes reading.lane).st = 1 ∧ (nth s.dev.lanes reading.lane).los = false →
      happens (.laserStable reading) s fun d d' => d' = d.onLane reading.lane fun l => { l with stable := true, txPower := reading.power, st := 2 }) ∧
  (∀ (s : State) (lane : Nat) (power : Int),
      (nth s.dev.lanes lane).st = 1 ∧ (nth s.dev.lanes lane).los = true ∧ (nth s.dev.lanes lane).stable = true ∧ -60 < power →
      happens (.lossOfSignalClear lane power) s fun d d' => d' = d.onLane lane fun l => { l with los := false, rxPower := power, st := 2 }) ∧
  (∀ (s : State) (lane : Nat) (power : Int),
      (nth s.dev.lanes lane).st ≠ 0 ∧ (nth s.dev.lanes lane).st ≠ 5 →
      (nth s.dev.lanes lane).los = false ∧ power < -70 →
      happens (.lossOfSignal lane power) s fun d d' => d' = (raiseEv (d.onLane lane fun l => { l with st := if l.st = 8 then 8 else 1, loopback := 0, prbsGen := false, prbsChk := false, prbsLock := false })
          EV.laneDown [a4 lane, a4 1]).onLane lane fun l =>
        { l with los := true, cdr := false, blk := false, adapt := 0, rxPower := power, losCount := sat32 (l.losCount + 1), identRun := 0 }) ∧
  (∀ (s : State) (lane : Nat) (power : Int),
      (nth s.dev.lanes lane).st = 5 ∧ (nth s.dev.lanes lane).los = false ∧ power < -70 →
      happens (.lossOfSignal lane power) s fun d d' => d' = (leaveUp d lane 1 1 true).onLane lane fun l =>
        { l with los := true, cdr := false, blk := false, adapt := 0, rxPower := power, losCount := sat32 (l.losCount + 1), identRun := 0 }) ∧
  (∀ (s : State) (lane : Nat),
      (nth s.dev.lanes lane).st = 2 ∧ (nth s.dev.lanes lane).cdr = false →
      happens (.clockRecoveryLock lane) s fun d d' => d' = d.onLane lane fun l => { l with cdr := true, adapt := if l.freeze then 3 else 1 }) ∧
  (∀ (s : State) (lane : Nat) (eq : EqState),
      (nth s.dev.lanes lane).st = 2 ∧ (nth s.dev.lanes lane).cdr = true ∧ (nth s.dev.lanes lane).freeze = false →
      happens (.equaliserAdapted lane eq) s fun d d' => d' = d.onLane lane fun l => { l with eq := eq, txPower := eq.txPower, adapt := 2, st := 3, searchAt := d.now, noAlign := false }) ∧
  (∀ (s : State) (lane : Nat) (eq : EqState),
      3 ≤ (nth s.dev.lanes lane).st ∧ (nth s.dev.lanes lane).cdr = true →
      happens (.equaliserAdapted lane eq) s fun d d' => d' = d.onLane lane fun l => { l with eq := if l.freeze then l.eq else eq, txPower := eq.txPower, adapt := if l.freeze then 3 else 2 }) ∧
  (∀ (s : State) (found : LockAt),
      (nth s.dev.lanes found.lane).st = 3 ∧ laneDirect s.dev found.lane = true →
      happens (.blockLock found) s fun d d' => d' = d.onLane found.lane fun l => { l with blk := true, offset := found.offset % 66, identRun := 0, st := 4 }) ∧
  (∀ (s : State) (found : LockAt),
      (nth s.dev.lanes found.lane).st = 3 ∧ laneDirect s.dev found.lane = false →
      happens (.blockLock found) s fun d d' => d' = qsPorts (raiseEv (d.onLane found.lane fun l => { l with blk := true, offset := found.offset % 66, identRun := 0, st := 5 }) EV.laneUp [a4 found.lane, a4 0, a4 0, a4 0])) ∧
  (∀ (s : State) (lane : Nat),
      ((nth s.dev.lanes lane).st = 3 ∧ (laneDirect s.dev lane = true ∨ ((nth s.dev.lanes lane).mode = 3 ∧ (nth s.dev.lanes lane).fec = 0))) →
      (nth s.dev.lanes lane).noAlign = false ∧ (nth s.dev.lanes lane).searchAt + tickHz / 10 < s.dev.now →
      happens (.noAlignment lane) s fun d d' => d' = raiseEv (d.onLane lane fun l => { l with noAlign := true }) EV.laneDown [a4 lane, a4 4]) ∧
  (∀ (s : State) (lane : Nat) (window : LockWindow),
      (nth s.dev.lanes lane).blk = true ∧ (nth s.dev.lanes lane).st = 5 →
      (if (nth s.dev.lanes lane).fec = 0 then 16 ≤ window.invalid else window.codewords = true) →
      happens (.lockLost lane window) s fun d d' => d' = leaveUp (d.onLane lane fun l => { l with blk := false, lockLost := true, lockLosses := sat32 (l.lockLosses + 1), identRun := 0, searchAt := d.now, noAlign := false }) lane 3 2 true) ∧
  (∀ (s : State) (lane : Nat) (window : LockWindow),
      ((nth s.dev.lanes lane).blk = true ∧ ((nth s.dev.lanes lane).st = 4 ∨ (nth s.dev.lanes lane).st = 6)) →
      (if (nth s.dev.lanes lane).fec = 0 then 16 ≤ window.invalid else window.codewords = true) →
      happens (.lockLost lane window) s fun d d' => d' = d.onLane lane fun l => { l with blk := false, lockLost := true, lockLosses := sat32 (l.lockLosses + 1), identRun := 0, searchAt := d.now, noAlign := false, st := 3 }) ∧
  (∀ (s : State) (lane : Nat) (x : After × Nat × Nat × Nat),
      (nth s.dev.lanes lane).down = some x ∧ mayStop s.dev lane x = true →
      happens (.laneTakeDown lane) s fun d d' => d' = takeDown d lane x.1)

/-- What blocks on a direct lane and the pattern checker do: IDENT and FILL, the elastic buffer, and the PRBS counters.
(R89, R92, R93, R97, R98, R107.) -/
def Obligations.LaneBlocks : Prop :=
  (∀ (s : State) (lane : Nat),
      sendsBlocks s.dev lane = true →
      happens (.identSend lane) s fun d d' => d' = (d.onLane lane fun l => { l with sinceIdent := 0 }).send (.direct lane [identBlock d.nvm.unitNumber lane (nth d.lanes lane).expTag (nth d.lanes lane).blk])) ∧
  (∀ (s : State) (lane : Nat),
      sendsBlocks s.dev lane = true →
      happens (.fillSend lane) s fun d d' => d' = (d.onLane lane fun l => { l with sinceFill := 0 }).send (.direct lane [fillBlock])) ∧
  (∀ (s : State) (lane code unit plane tag crc : Nat),
      laneDirect s.dev lane = true ∧ (nth s.dev.lanes lane).blk = true →
      ((nth s.dev.lanes lane).st = 4 ∨ (nth s.dev.lanes lane).st = 5 ∨ (nth s.dev.lanes lane).st = 6) →
      code = 0xD2 ∧ crc8 (code :: bytesOf [fld 3 unit, fld 1 plane, fld 1 tag]) = crc ∧ bytesOf [fld 3 unit, fld 1 plane, fld 1 tag] = (nth s.dev.lanes lane).ident ∧ 3 ≤ (nth s.dev.lanes lane).identRun →
      happens (.ident lane code unit plane tag crc) s fun d d' => d' = identify (d.onLane lane fun l => { l with
        ident := bytesOf [fld 3 unit, fld 1 plane, fld 1 tag], identRun := 4,
        rxUnit := beAt (bytesOf [fld 3 unit, fld 1 plane, fld 1 tag]) 0 3 % 2 ^ 18, rxLane := nth (bytesOf [fld 3 unit, fld 1 plane, fld 1 tag]) 3 % 32, rxTag := nth (bytesOf [fld 3 unit, fld 1 plane, fld 1 tag]) 4 }) lane) ∧
  (∀ (s : State) (lane code unit plane tag crc : Nat),
      laneDirect s.dev lane = true ∧ (nth s.dev.lanes lane).blk = true →
      ((nth s.dev.lanes lane).st = 4 ∨ (nth s.dev.lanes lane).st = 5 ∨ (nth s.dev.lanes lane).st = 6) →
      code = 0xD2 ∧ crc8 (code :: bytesOf [fld 3 unit, fld 1 plane, fld 1 tag]) ≠ crc →
      happens (.ident lane code unit plane tag crc) s fun d d' => d' = d.onLane lane fun l => { l with identRun := 0 }) ∧
  (∀ (s : State) (lane : Nat),
      laneDirect s.dev lane = true ∧ (nth s.dev.lanes lane).blk = true →
      happens (.fill lane) s fun d d' => ∃ e, e ≤ 16 ∧ d' = { d with free := d.free + 1 }.onLane lane fun l => if 6 < e then { l with elastic := e - 1, fillOut := l.fillOut + 1 } else { l with elastic := e }) ∧
  (∀ (s : State) (lane : Nat),
      laneDirect s.dev lane = true ∧ (nth s.dev.lanes lane).blk = true →
      happens (.fillInsertion lane) s fun d d' => ∃ v, d' = { d with free := d.free + 1 }.onLane lane fun l =>
        if v % (l.elastic + 1) < 2 then { l with elastic := v % (l.elastic + 1) + 1, fillIn := l.fillIn + 1 } else { l with elastic := v % (l.elastic + 1) }) ∧
  (∀ (s : State) (lane : Nat),
      laneDirect s.dev lane = true ∧ (nth s.dev.lanes lane).blk = true →
      happens (.elasticSlip lane) s fun d d' => d' = raiseEv (d.onLane lane fun l => { l with slip := true, elastic := 4, slipAt := some d.now }) EV.laneSlip [a4 lane]) ∧
  (∀ (s : State) (found : PrbsRun),
      (nth s.dev.lanes found.lane).st = 7 ∧ (nth s.dev.lanes found.lane).prbsChk = true ∧ (nth s.dev.lanes found.lane).prbsLock = false ∧ 1024 ≤ found.run →
      happens (.prbsLock found) s fun d d' => d' = d.onLane found.lane fun l => { l with prbsLock := true, prbsFrom := d.now }) ∧
  (∀ (s : State) (lane window errs syms bits : Nat),
      (nth s.dev.lanes lane).prbsLock = true ∧ 256 < window →
      bits = (s.dev.now - (nth s.dev.lanes lane).prbsFrom) * lineRate s.dev lane / tickHz →
      happens (.prbsLockLoss lane window errs syms) s fun d d' => d' = d.onLane lane fun l => { l with
        prbsLock := false, prbsBits := min (2 ^ 64 - 1) (l.prbsBits + bits), prbsErrs := min (l.prbsErrs + min errs bits) (2 ^ 48 - 1), prbsFrom := d.now,
        prbsSyms := if l.mode = 3 ∨ l.mode = 4 then l.prbsSyms else min (l.prbsSyms + min syms (bits / 2)) (2 ^ 48 - 1) })

/-- The commands of a receive path and its sub-bands do what chapter 5 says. (R172, R174, R176, R178, R182, R191, R194,
R205, R208, R209, R211, R214.) -/
def Obligations.ReceiveCommands : Prop :=
  (∀ (s : State) (h : Hdr) (mask band atten bias overload : Nat),
      starts s.dev h (cmd 0x0300) = true →
      (band = 0xFF ∧ (atten = 0xFF ∨ atten ≤ 31) ∧ (bias = 0xFF ∨ bias ≤ 2) ∧ (overload = 0xFF ∨ overload ≤ 1) ∧ domOn s.dev 3 = true) →
      completes (.rxPathSet h mask band atten bias overload) s h (cmd 0x0300) fun d d' fs => d' = (pathsOf mask).foldl (fun e p => e.onRx p fun x => { x with
          atten := if atten = 0xFF then x.atten else atten, bias := if bias = 0xFF then x.bias else bias,
          foldback := x.foldback && (bias == 0xFF || bias == x.bias), overMode := if overload = 0xFF then x.overMode else overload }) d ∧ fs = []) ∧
  (∀ (s : State) (h : Hdr) (path : Nat),
      starts s.dev h (ask 0x0301 [4, 2, 2, 8, 4]) = true →
      path ≤ 63 →
      completes (.rxPathGet h path) s h (ask 0x0301 [4, 2, 2, 8, 4]) fun d d' fs => d' = d ∧ fs = [fld 4 (feRxPort d path), fld 2 (d.rxPath path).returnLoss, sfld 2 (d.rxPath path).reflPhase,
        fld 8 (d.rxPath path).clips, fld 4 (d.rxPath path).protects]) ∧
  (∀ (s : State) (h : Hdr) (mask sb : Nat) (cfg : RxCfg),
      starts s.dev h (cmd 0x0302) = true →
      rxSubbandSetCheck mask sb cfg (found s.dev h) = none →
      completes (.rxSubbandSet h mask sb cfg) s h (cmd 0x0302) fun d d' fs => d' = (pathsOf mask).foldl (fun e p =>
        let e := e.onRxSb p sb fun x =>
          if x.on then { x with banks := x.banks.write { cfg := cfg } }
          else { x with on := true, banks := .both { cfg := cfg }, win := false, ncoRef := none, disc := false, flushing := false, txZeroed := false }
        if (nth e.fe p).st = 1 then e else rxReplace e p) d ∧ fs = []) ∧
  (∀ (s : State) (h : Hdr) (path sb bank : Nat),
      starts s.dev h (ask 0x0303 [48, 6, 8, 8, 4]) = true →
      path ≤ 63 ∧ sb ≤ 3 ∧ bank ≤ 1 →
      completes (.rxSubbandGet h path sb bank) s h (ask 0x0303 [48, 6, 8, 8, 4]) fun d d' fs => d' = d ∧ fs = rxCfgFields (if bank = 0 then ((d.rxPath path).sb sb).banks.cur else ((d.rxPath path).sb sb).banks.shd).cfg ++
        [fld 6 (ncoWord d (if bank = 0 then ((d.rxPath path).sb sb).banks.cur else ((d.rxPath path).sb sb).banks.shd).cfg.chain),
         fld 8 (if (if bank = 0 then ((d.rxPath path).sb sb).banks.cur else ((d.rxPath path).sb sb).banks.shd).cfg.chain.aFactor = 0 ∨
            (if bank = 0 then ((d.rxPath path).sb sb).banks.cur else ((d.rxPath path).sb sb).banks.shd).cfg.chain.bFactor = 0 then 0
          else rate16 (rate768 d (if bank = 0 then ((d.rxPath path).sb sb).banks.cur else ((d.rxPath path).sb sb).banks.shd).cfg.chain)),
         fld 8 (groupDelay16 d (if bank = 0 then ((d.rxPath path).sb sb).banks.cur else ((d.rxPath path).sb sb).banks.shd).cfg.chain),
         fld 4 (chfStatus d path sb)]) ∧
  (∀ (s : State) (h : Hdr) (mask sbMask : Nat),
      starts s.dev h (cmd 0x0304 [4]) = true →
      sbMask ≤ 15 ∧ s.dev.qs.state = 0 →
      (((pathSbs mask sbMask).filter fun x => ((s.dev.rxPath x.1).sb x.2).on && !((s.dev.rxPath x.1).sb x.2).flushing) = []) →
      completes (.rxSubbandDisable h mask sbMask) s h (cmd 0x0304 [4]) fun d d' fs => d' = d ∧ fs = [fld 4 0]) ∧
  (∀ (s : State) (h : Hdr) (mask sbMask : Nat) (l : List (Nat × Nat)),
      starts s.dev h (cmd 0x0304 [4]) = true →
      sbMask ≤ 15 ∧ s.dev.qs.state = 0 →
      (l = ((pathSbs mask sbMask).filter fun x => ((s.dev.rxPath x.1).sb x.2).on && !((s.dev.rxPath x.1).sb x.2).flushing) ∧ l ≠ []) →
      begins (.rxSubbandDisable h mask sbMask) s h (.rxFlush (l.map fun x => x.1 * 4 + x.2) 0) fun d d' => d' = l.foldl (fun e x => rxStop e x.1 x.2) d) ∧
  (∀ (s : State) (h : Hdr) (handle mask sb : Nat) (o : BulkObj) (stage n : Nat) (vals : List Int),
      starts s.dev h (cmd 0x0305) = true →
      rxCoefLoadCheck handle mask sb (found s.dev h) = none →
      s.dev.obj? handle = some o ∧ coefObject o.bytes = some (stage, n, vals) →
      completes (.rxCoefLoad h handle mask sb) s h (cmd 0x0305) fun d d' fs => d' = consume ((pathsOf mask).foldl (fun e p => e.onRxSb p sb fun x => { x with banks := { x.banks with
        shd := if stage = 2 then { x.banks.shd with bCoefs := vals, cfg := { x.banks.shd.cfg with chain := { x.banks.shd.cfg.chain with bTaps := n, bCoef := 1 } } }
          else { x.banks.shd with cCoefs := vals } } }) d) handle ∧ fs = []) ∧
  (∀ (s : State) (h : Hdr) (mask position : Nat),
      starts s.dev h (cmd 0x030B (spanWidths 64 (pathsOf mask).length [1, 2, 2])) = true →
      portCheckCheck mask position (found s.dev h) = none →
      mask = 0 →
      completes (.portCheck h mask position) s h (cmd 0x030B (spanWidths 64 (pathsOf mask).length [1, 2, 2])) fun d d' fs => d' = d ∧ fs = []) ∧
  (∀ (s : State) (h : Hdr) (mask position : Nat),
      starts s.dev h (cmd 0x030B (spanWidths 64 (pathsOf mask).length [1, 2, 2])) = true →
      portCheckCheck mask position (found s.dev h) = none →
      mask ≠ 0 →
      begins (.portCheck h mask position) s h (.portCheck (pathsOf mask) (pathsOf mask) position) fun d d' => d' = d)

/-- Raw streams, cut-through, meters and counters of the receive paths do what chapter 5 says. (R145, R148, R201, R202,
R205, R206, R208, R210, R211.) -/
def Obligations.ReceiveStreams : Prop :=
  (∀ (s : State) (h : Hdr) (stream sb mask format dest lane groups : Nat),
      starts s.dev h (cmd 0x0306) = true →
      rxStreamSetCheck stream sb mask format dest lane (found s.dev h) = none →
      completes (.rxStreamSet h stream sb mask format dest lane groups) s h (cmd 0x0306) fun d d' fs => d' = { d with outs := (d.outs.filter fun o => o.num != stream) ++
          [{ num := stream, base := stream, kind := .raw, sb := sb, paths := pathsOf mask, format := format, dest := dest, port := portArg lane,
             elements := (pathsOf mask).length, perPacket := groups, since := d.axis }] } ∧ fs = []) ∧
  (∀ (s : State) (h : Hdr) (stream : Nat),
      starts s.dev h (cmd 0x0307 [8]) = true →
      (s.dev.outs.any (fun o => o.kind == .raw && o.num == stream && !o.closing) = true) →
      completes (.rxStreamStop h stream) s h (cmd 0x0307 [8]) fun d d' fs => d' = { d with outs := d.outs.map fun o => if o.kind == .raw && o.num == stream then { o with closing := true, lastDue := true } else o } ∧
      fs = [fld 8 ((d.outs.filter fun o => o.kind == .raw && o.num == stream).map (·.sent)).sum]) ∧
  (∀ (s : State) (h : Hdr) (path sb lane ctFrame on : Nat),
      starts s.dev h (cmd 0x0308) = true →
      rxCutSetCheck path sb lane ctFrame on (found s.dev h) = none →
      completes (.rxCutSet h path sb lane ctFrame on) s h (cmd 0x0308) fun d d' fs => d' = d.onRxSb path sb (fun x => { x with cut := if on = 1 then some { lane := lane, samples := ctFrame, since := d.axis } else x.cut.map fun c => { c with closing := true } }) ∧ fs = []) ∧
  (∀ (s : State) (h : Hdr) (path meter clear : Nat) (w : MeterWin) (mean : Int),
      starts s.dev h (askClear 0x0309 clear [2, 2, 2, 8, 8]) = true →
      path ≤ 63 ∧ meter ≤ 4 ∧ clear ≤ 1 →
      w = (nth (s.dev.rxPath path).meters meter).latched.getD (nth (s.dev.rxPath path).meters meter).win →
      mean = meterLevel (meter == 4) w.sum w.count →
      completes (.rxMeterGet h path meter clear) s h (askClear 0x0309 clear [2, 2, 2, 8, 8]) fun d d' fs => d' = (if clear = 1 then d.onRx path fun x => { x with meters := upd x.meters meter fun _ => { win := { start := d.axis } } } else d) ∧
      fs = [satfld 2 mean, satfld 2 (meterLevel (meter == 4) w.peak 1),
        satfld 2 (mean + fullScalePort d.ident.variant (d.rxPath path).atten + (trimOf d 0 path).1.gain), fld 8 w.count, fld 8 w.start]) ∧
  (∀ (s : State) (h : Hdr) (path clear : Nat),
      starts s.dev h (askClear 0x030A clear (List.replicate 16 4 ++ [8, 8])) = true →
      path ≤ 63 ∧ clear ≤ 1 →
      completes (.rxCounters h path clear) s h (askClear 0x030A clear (List.replicate 16 4 ++ [8, 8])) fun d d' fs => d' = (if clear = 1 then d.onRx path fun x => { x with replaced := 0, flushed := 0, sbs := x.sbs.map fun y => { y with counts := [0, 0, 0, 0] } } else d) ∧
      fs = ((d.rxPath path).sbs.flatMap fun x => x.counts.map (fld 4)) ++ [fld 8 (d.rxPath path).replaced, fld 8 (d.rxPath path).flushed]) ∧
  (∀ (s : State) (req : StreamSend) (o : OutStream) (c after : Nat) (jumped : Bool) (l : List Feed) (ps : List (List Nat)),
      s.dev.outs.find? (fun y => y.num == req.num) = some o ∧ portUp s.dev o.port = true ∧ nextGroup s.dev o = some (c, jumped) →
      gatherFeeds s.dev o (min req.groups (o.perFull s.dev)) c = (l, after) ∧ l ≠ [] →
      ps = slices s.dev o (b2n (o.closing || o.lastDue || missed s.dev o after) * 128 + b2n (o.disc || jumped) * 64 + b2n (l.any (·.flushed)) * 32 +
        b2n (l.any (·.sat)) * 16 + (l.headD ⟨0, 0, false, false, false, []⟩).bank * 8) l →
      (egressBytes s.dev o.port + (ps.map fun p => p.length + 58).sum ≤ 262144) →
      happens (.streamPacketSend req) s fun d d' => d' = pruneSums (onOut (ps.foldl (fun e p => e.sendPkt o.port 3 (nth e.lnk.dests o.dest).addr 4 0 0 (o.num % 256) p) (countFormat d o l)) req.num fun x =>
        if x.closing then none else some { x with disc := o.closing || o.lastDue || missed d o after, lastDue := false, sent := x.sent + l.length, next := some after }) o) ∧
  (∀ (s : State) (req : StreamSend) (o : OutStream) (c after : Nat) (jumped : Bool) (l : List Feed) (ps : List (List Nat)),
      s.dev.outs.find? (fun y => y.num == req.num) = some o ∧ portUp s.dev o.port = true ∧ nextGroup s.dev o = some (c, jumped) →
      gatherFeeds s.dev o (min req.groups (o.perFull s.dev)) c = (l, after) ∧ l ≠ [] →
      ps = slices s.dev o (b2n (o.closing || o.lastDue || missed s.dev o after) * 128 + b2n (o.disc || jumped) * 64 + b2n (l.any (·.flushed)) * 32 +
        b2n (l.any (·.sat)) * 16 + (l.headD ⟨0, 0, false, false, false, []⟩).bank * 8) l →
      (262144 < egressBytes s.dev o.port + (ps.map fun p => p.length + 58).sum) →
      happens (.streamPacketSend req) s fun d d' => d' = onOut (dropGroups d o l.length) req.num fun x => some { x with disc := true, next := some after })

/-- What happens on a receive path and the receive stakes do what chapter 5 says. (R174, R175, R176, R178, R186, R195, R197,
R198, R199, R201, R208, R460.) -/
def Obligations.ReceiveHappenings : Prop :=
  (∀ (s : State) (path clips : Nat),
      clips ≠ 0 ∧ domOn s.dev 3 = true ∧ (s.dev.rxPath path).overMode = 1 ∧ 16 < clips ∧ (s.dev.rxPath path).atten < 31 →
      happens (.adcOverload path clips) s fun d d' => d' = raiseEv (d.onRx path fun x => { x with clips := x.clips + clips, overload := true, atten := min 31 (x.atten + 6) }) EV.rxOverload [a4 path, a8 d.axis]) ∧
  (∀ (s : State) (path clips : Nat),
      clips ≠ 0 ∧ domOn s.dev 3 = true ∧ (s.dev.rxPath path).overMode = 0 →
      happens (.adcOverload path clips) s fun d d' => d' = raiseLimited (d.onRx path fun x => { x with clips := x.clips + clips, overload := true }) EV.rxOverload path [a4 path, a8 0]) ∧
  (∀ (s : State) (path : Nat),
      domOn s.dev 3 = true ∧ (nth s.dev.fe path).protRx = false →
      happens (.rxProtectEntry path) s fun d d' => d' = raiseEv (rxReplace ((d.onFe path fun f => { (if f.st = 1 then f.enter 4 else f) with protRx := true }).onRx path fun x =>
        { x with protects := x.protects + 1, protectSeen := true }) path) EV.rxProtect [a4 path, a4 1]) ∧
  (∀ (s : State) (path : Nat),
      (nth s.dev.fe path).protRx = true ∧ (nth s.dev.fe path).st ≠ 4 ∧ (nth s.dev.fe path).st ≠ 1 →
      happens (.rxProtectExit path) s fun d d' => d' = raiseEv (d.onFe path fun f => { f with protRx := false }) EV.rxProtect [a4 path, a4 2]) ∧
  (∀ (s : State) (path : Nat),
      (s.dev.rxPath path).bias ≠ 0 ∧ domOn s.dev 3 = true →
      happens (.biasFoldback path) s fun d d' => d' = raiseEv (d.onRx path fun x => { x with foldback := true, foldAt := d.now }) EV.rxBias [a4 path]) ∧
  (∀ (s : State) (path : Nat) (held : Bool),
      (s.dev.rxPath path).foldback = true ∧ (s.dev.rxPath path).foldAt + 196608000 ≤ s.dev.now →
      happens (.biasRetry path held) s fun d d' => d' = if held then raiseEv (d.onRx path fun x => { x with foldAt := d.now }) EV.rxBias [a4 path] else d.onRx path fun x => { x with foldback := false }) ∧
  (∀ (s : State) (path loss : Nat) (phase : Int) (c : Nat) (e : Dev),
      portMayMeasure s.dev path = true ∧ s.dev.gov.loopOpen = false ∧ e.gov.loopOpen = false →
      e = (reserveSlots s.dev s.dev.axis 39322).onRx path (fun x => { x with biasCurrent := biasNow s.dev path }) →
      c = portClassOf (e.rxPath path) false loss phase ∧ c ≠ (e.rxPath path).portClass ∧ c ≠ 1 ∧ c ≠ 2 →
      happens (.portMeasurement path loss phase) s fun _ d' => d' = (let a := raiseEv (e.onRx path fun x => { x with portClass := c, portChanged := true, returnLoss := loss, reflPhase := phase }) EV.rxPort [a4 path, a4 c]
      complete (onWaits a (portWait path)) portDone (portReply a))) ∧
  (∀ (s : State) (path sb outputs : Nat),
      ((s.dev.rxPath path).sb sb).flushing = true ∧ domOn s.dev 6 = true →
      happens (.rxFlushDone path sb outputs) s fun d d' => d' = qsExitCheck (complete (onWaits (raiseEv ((d.onRx path fun x => { x with flushed := x.flushed + outputs }).onRxSb path sb fun x =>
          { x with on := false, win := false, flushing := false, flushCount := outputs }) EV.rxFlushed [a4 path, a4 sb, a4 outputs])
        (rxFlushWait path sb outputs)) rxFlushed rxFlushReply)) ∧
  (∀ (s : State) (q : QStake),
      due 0x0301 rxAble s.dev q = true →
      happens .rxOpen s fun d d' => d' = markDone (rxEach (fun p sb e => e.onRxSb p sb fun x => { x with win := true }) (d.onTmb (·.advance q)) q) q) ∧
  (∀ (s : State) (q : QStake),
      due 0x0302 rxAble s.dev q = true →
      happens .rxClose s fun d d' => d' = markDone (rxEach (fun p sb e => (closeRaw e p sb false).onRxSb p sb fun x => { x with win := false, disc := true }) (d.onTmb (·.advance q)) q) q) ∧
  (∀ (s : State) (q : QStake),
      due 0x0303 rxAble s.dev q = true →
      happens .rxSwap s fun d d' => d' = markDone (rxEach (fun p sb e =>
        if ((e.rxPath p).sb sb).banks.thornShd ≠ 0 then raiseEv e EV.memSwapRefused [a4 q.stake.tag]
        else e.onRxSb p sb fun x => { x with banks := x.banks.swap (q.pos + rxLatency e ((e.rxPath p).sb sb).banks.cur.cfg.chain) }) (d.onTmb (·.advance q)) q) q) ∧
  (∀ (s : State) (q : QStake),
      due 0x0304 rxAble s.dev q = true →
      happens .ncoReset s fun d d' => d' = markDone (rxEach (fun p sb e => e.onRxSb p sb fun x => { x with ncoRef := some (q.pos, bitsOf q.stake.argument 63 32) }) (d.onTmb (·.advance q)) q) q) ∧
  (∀ (s : State) (q : QStake),
      (due 0x0305 (fun e _ => domOn e 3) s.dev q = true) →
      happens .attenStep s fun d d' => d' = markDone ((namedPaths q.stake.target).foldl (fun e p => e.onRx p fun x => { x with atten := q.stake.argument % 256 }) (d.onTmb (·.advance q))) q) ∧
  (∀ (s : State) (q : QStake),
      (due 0x0306 (fun e _ => domOn e 6) s.dev q = true) →
      happens .meterLatch s fun d d' => d' = markDone ((namedPaths q.stake.target).foldl (fun e p => e.onRx p fun x => { x with
          meters := ((if q.stake.target.testBit 14 then [0, 1, 2, 3] else [q.stake.target / 64 % 4]) ++ [4]).foldl
            (fun ms k => upd ms k fun m => ⟨{ start := q.pos }, some m.win⟩) x.meters }) (d.onTmb (·.advance q))) q)

/-- The commands of a transmit path and its sub-bands do what chapter 6 says. (R216, R217, R219, R220, R222, R224, R225,
R228, R231, R236, R237, R240.) -/
def Obligations.TransmitCommands : Prop :=
  (∀ (s : State) (h : Hdr) (mask : Nat) (fsPower : Int) (dacCentre sumShift ramp gateMode : Nat),
      starts s.dev h (cmd 0x0400) = true →
      txPathSetCheck mask fsPower dacCentre sumShift ramp gateMode (found s.dev h) = none →
      completes (.txPathSet h mask fsPower dacCentre sumShift ramp gateMode) s h (cmd 0x0400) fun d d' fs => d' = (pathsOf mask).foldl (fun e p =>
        let old := (e.txPath p).fsPower
        let new := if fsPower = 0x7FFF then old else fsPower
        let e := e.onTx p fun x => { x with fsPower := new, dacCentre := dacCentre, sumShift := sumShift, ramp := ramp, gateMode := gateMode }
        if new = old then e else dpdPowerStep e p (new - old)) d ∧ fs = []) ∧
  (∀ (s : State) (h : Hdr) (path : Nat),
      starts s.dev h (ask 0x0401 [4, 11, 2, 2]) = true →
      path ≤ 63 →
      completes (.txPathGet h path) s h (ask 0x0401 [4, 11, 2, 2]) fun d d' fs => d' = d ∧ fs = [fld 4 (txPathStatus d path), sfld 2 (d.txPath path).fsPower, fld 5 (d.txPath path).dacCentre, fld 1 (d.txPath path).sumShift,
        fld 2 (d.txPath path).ramp, fld 1 (d.txPath path).gateMode, satfld 2 (d.txPath path).comp, satfld 2 (divHalfEven (nth d.pwr.chans (path + 1)).last 10)]) ∧
  (∀ (s : State) (h : Hdr) (mask sb : Nat) (cfg : TxCfg),
      starts s.dev h (cmd 0x0402) = true →
      txSubbandSetCheck mask sb cfg (found s.dev h) = none →
      completes (.txSubbandSet h mask sb cfg) s h (cmd 0x0402) fun d d' fs => d' = (pathsOf mask).foldl (fun e p =>
        let e := e.onTxSb p sb fun x => if x.on && !x.flushing then { x with banks := x.banks.write { cfg := cfg } } else { on := true, banks := .both { cfg := cfg } }
        if txOpenNow e p then
          e.onTx p fun x => { x with openSince := match x.openSince with
            | some t => some t
            | none => some e.axis }
        else e) d ∧ fs = []) ∧
  (∀ (s : State) (h : Hdr) (path sb bank : Nat) (c : TxCfg),
      starts s.dev h (ask 0x0403 [48, 6, 8, 4]) = true →
      (path ≤ 63 ∧ sb ≤ 3 ∧ bank ≤ 1 ∧ c = (if bank = 0 then ((s.dev.txPath path).sb sb).banks.cur else ((s.dev.txPath path).sb sb).banks.shd).cfg) →
      c.chain.aFactor ≠ 0 ∧ c.chain.bFactor ≠ 0 ∧ adcRate (found s.dev h) c.chain.profile ≠ 0 →
      completes (.txSubbandGet h path sb bank) s h (ask 0x0403 [48, 6, 8, 4]) fun d d' fs => d' = d ∧ fs = txCfgFields c ++ [sfld 6 (divHalfEven (((c.chain.rf : Int) - (d.txPath path).dacCentre) * 2 ^ 48) (adcRate d c.chain.profile)),
        fld 8 (rate16 (rate768 d c.chain)), fld 4 (txChainDelay d c.chain + (if c.source = 1 then freTxDelay d sb (rate768 d c.chain) else 0))]) ∧
  (∀ (s : State) (h : Hdr) (mask sbMask : Nat),
      starts s.dev h (cmd 0x0404) = true →
      sbMask ≤ 15 →
      completes (.txSubbandDisable h mask sbMask) s h (cmd 0x0404) fun d d' fs => d' = (pathSbs mask sbMask).foldl (fun e x => if ((e.txPath x.1).sb x.2).on && !((e.txPath x.1).sb x.2).flushing then txStop e x.1 x.2 else e) d ∧ fs = []) ∧
  (∀ (s : State) (h : Hdr) (handle mask sb : Nat) (o : BulkObj) (stage n : Nat) (vals : List Int),
      starts s.dev h (cmd 0x0405) = true →
      txCoefLoadCheck handle mask sb (found s.dev h) = none →
      s.dev.obj? handle = some o ∧ coefObject o.bytes = some (stage, n, vals) →
      completes (.txCoefLoad h handle mask sb) s h (cmd 0x0405) fun d d' fs => d' = consume ((pathsOf mask).foldl (fun e p => e.onTxSb p sb fun x => { x with banks := { x.banks with
        shd := if stage = 2 then { x.banks.shd with bCoefs := vals, cfg := { x.banks.shd.cfg with chain := { x.banks.shd.cfg.chain with bTaps := n, bCoef := 1 } } }
          else { x.banks.shd with cCoefs := vals } } }) d) handle ∧ fs = []) ∧
  (∀ (s : State) (h : Hdr) (stream sb mask format : Nat),
      starts s.dev h (cmd 0x0406 [4]) = true →
      txStreamSetCheck stream sb mask format (found s.dev h) = none →
      completes (.txStreamSet h stream sb mask format) s h (cmd 0x0406 [4]) fun d d' fs => d' = { d with ins := (d.ins.filter fun o => o.num != stream) ++ [{
          num := stream, base := stream, layer := false, sb := sb, paths := pathsOf mask, format := format, depth := streamDepth (pathsOf mask).length format }] } ∧ fs = [fld 4 (streamDepth (pathsOf mask).length format)]) ∧
  (∀ (s : State) (h : Hdr) (stream : Nat),
      starts s.dev h (cmd 0x0407 [8, 8, 8]) = true →
      (s.dev.ins.any (fun o => !o.layer && o.num == stream) = true) →
      completes (.txStreamStop h stream) s h (cmd 0x0407 [8, 8, 8]) fun d d' fs => d' = { d with
        ins := d.ins.filter fun o => o.layer || o.num != stream
        sig := { d.sig with ended := d.sig.ended ++ (d.ins.filter fun o => !o.layer && o.num == stream).map fun o => o.play d.axis (streamTiming d o) } } ∧
      fs = [fld 8 ((((d.ins.filter fun o => !o.layer && o.num == stream).map fun o => o.play d.axis (streamTiming d o)).map fun o => o.played + o.buffered.length).sum),
        fld 8 ((((d.ins.filter fun o => !o.layer && o.num == stream).map fun o => o.play d.axis (streamTiming d o)).map (·.late)).sum),
        fld 8 ((((d.ins.filter fun o => !o.layer && o.num == stream).map fun o => o.play d.axis (streamTiming d o)).map (·.zeroFilled)).sum)]) ∧
  (∀ (s : State) (h : Hdr) (lane path sb on : Nat),
      starts s.dev h (cmd 0x0408) = true →
      txCutSetCheck lane path sb on (found s.dev h) = none →
      completes (.txCutSet h lane path sb on) s h (cmd 0x0408) fun d d' fs => d' = d.onTxSb path sb (fun x => { x with cutLane := if on = 1 then some lane else none }) ∧ fs = []) ∧
  (∀ (s : State) (h : Hdr) (mask mute immediate : Nat),
      starts s.dev h (cmd 0x0409) = true →
      mute ≤ 1 ∧ immediate ≤ 1 →
      completes (.txMute h mask mute immediate) s h (cmd 0x0409) fun d d' fs => d' = (pathsOf mask).foldl (fun e p => if mute = 1 then
          (match if immediate = 1 then none else (List.range 4).findSome? fun k => if ((e.txPath p).sb k).on then symbolEnd e p k else none with
          | some (b, _) => e.onTx p fun x => { x with hostAsked := true, muteFrom := some b }
          | none => (countMuted e p).onTx p fun x => { x with hostAsked := true, muteHost := true })
        else e.onTx p fun x => { x with hostAsked := false }) d ∧ fs = []) ∧
  (∀ (s : State) (h : Hdr) (mask : Nat),
      starts s.dev h (cmd 0x040B) = true →
      ((pathsOf mask).any (fun p => (s.dev.rxPath p).portClass == 3 || (s.dev.rxPath p).portClass == 4) = false) →
      completes (.txProtectClear h mask) s h (cmd 0x040B) fun d d' fs => d' = (pathsOf mask).foldl (fun e p => if (nth e.fe p).protTx ≠ 2 then e
        else if (nth e.pwr.chans (p + 1)).broken then e.onFe p fun f => { f with protTx := 3 } else protectRelease e p) d ∧ fs = []) ∧
  (∀ (s : State) (h : Hdr) (handle : Nat),
      starts s.dev h (cmd 0x040A) = true →
      txCompLoadCheck handle (found s.dev h) = none →
      completes (.txCompLoad h handle) s h (cmd 0x040A) fun d d' fs => d' = consume ((List.range 64).foldl (fun e p => journal (e.onTx p fun x => { x with compTable := compOf ((objBytes d handle).drop (16 + 140 * p)) }) 1 0x0007 p
          (((objBytes d handle).drop (16 + 140 * p)).take 140) (.comp p (e.txPath p).compTable)) d) handle ∧ fs = []) ∧
  (∀ (s : State) (h : Hdr) (path clear : Nat),
      starts s.dev h (askClear 0x040C clear (List.replicate 20 4)) = true →
      path ≤ 63 ∧ clear ≤ 1 →
      completes (.txCounters h path clear) s h (askClear 0x040C clear (List.replicate 20 4)) fun d d' fs => d' = (if clear = 1 then d.onTx path fun x => { x with satOut := 0, mutedWindows := 0, cutSymbols := 0, cutCrc := 0, sbs := x.sbs.map fun y => { y with counts := [0, 0, 0, 0] } } else d) ∧
      fs = ((d.txPath path).sbs.flatMap fun x => x.counts.map (fld 4)) ++ [fld 4 (d.txPath path).satOut, fld 4 (d.txPath path).mutedWindows,
        fld 4 (d.txPath path).cutSymbols, fld 4 (d.txPath path).cutCrc])

/-- What happens on a transmit path and the transmit stakes do what chapter 6 says. (R217, R218, R221, R227, R228, R229,
R230, R231, R233, R234, R236, R239.) -/
def Obligations.TransmitHappenings : Prop :=
  (∀ (s : State) (path sb : Nat),
      (((s.dev.txPath path).sb sb).flushing = true ∧ domOn s.dev 6 = true ∧ (((s.dev.txPath path).sb sb).stopAt.all fun t => decide (t ≤ s.dev.axis)) = true) →
      happens (.txFlushDone path sb) s fun d d' => d' = raiseEv (d.onTxSb path sb fun x => { x with on := false, win := false, flushing := false, stopAt := none, stopFrom := none, cutLane := none })
        EV.txFlushed [a4 path, a4 sb]) ∧
  (∀ (s : State) (path : Nat),
      txOpenNow s.dev path = false →
      happens (.compensationStep path) s fun d d' => d' = applyComp d path 100000) ∧
  (∀ (s : State) (session : Nat) (rx : PktIn) (pkt : StreamPkt) (o a b : InStream),
      (dataIn s.dev session rx (20 + pkt.data.length)).2 = true →
      (s.dev.ins.find? (fun y => y.num == pkt.num && y.layer == false) = some o) →
      pkt.format = o.format ∧ pkt.groups ≠ 0 ∧ pkt.data.length = pkt.groups * pkt.elements * elementBytes pkt.format →
      a = o.play s.dev.axis (streamTiming s.dev o) ∧ b = a.take s.dev.axis (streamTiming s.dev o) pkt ∧ b.late = o.late ∧ b.zeroFilled = o.zeroFilled →
      happens (.hostStreamPacket session rx pkt) s fun d d' => d' = { (dataIn d session rx (20 + pkt.data.length)).1 with ins := (dataIn d session rx (20 + pkt.data.length)).1.ins.map fun x => if x.num == o.num then b else x }) ∧
  (∀ (s : State) (lane : Nat) (frame : DirectFrame) (l : List (Cx × Bool)),
      laneUp s.dev lane = true ∧ laneDirect s.dev lane = true ∧ frame.cls = 4 ∧ crc32c frame.bytes = frame.crc →
      l = cutSamples ⟨frame.bytes, false, frame.bad⟩ →
      happens (.cutThroughFrame lane frame) s fun d d' => d' = (pathSbs (2 ^ 64 - 1) 15).foldl (fun e x =>
        if ((e.txPath x.1).sb x.2).on && ((e.txPath x.1).sb x.2).cutLane == some lane && ((e.txPath x.1).sb x.2).banks.cur.cfg.source == 3 then
          (e.onTxSb x.1 x.2 fun y => { y with cutIn := y.cutIn ++ l.zipIdx.map fun (v, k) =>
              (e.axis + txDelay e x.1 x.2 + k * (tickHz * rateUnit) / max 1 (rate768 e ((e.txPath x.1).sb x.2).banks.cur.cfg.chain), if v.2 then (0, 0) else v.1) }).onTx
            x.1 fun y => { y with zeroedWords := y.zeroedWords + frame.bad.length, cutCrc := y.cutCrc + 0 }
        else e) d) ∧
  (∀ (s : State) (lane : Nat) (frame : DirectFrame) (l : List (Cx × Bool)),
      laneUp s.dev lane = true ∧ laneDirect s.dev lane = true ∧ frame.cls = 4 ∧ crc32c frame.bytes ≠ frame.crc →
      l = cutSamples ⟨frame.bytes, false, frame.bad⟩ →
      happens (.cutThroughFrame lane frame) s fun d d' => d' = (pathSbs (2 ^ 64 - 1) 15).foldl (fun e x =>
        if ((e.txPath x.1).sb x.2).on && ((e.txPath x.1).sb x.2).cutLane == some lane && ((e.txPath x.1).sb x.2).banks.cur.cfg.source == 3 then
          raiseEv ((e.onTxSb x.1 x.2 fun y => { y with cutIn := y.cutIn ++ l.zipIdx.map fun (v, k) =>
              (e.axis + txDelay e x.1 x.2 + k * (tickHz * rateUnit) / max 1 (rate768 e ((e.txPath x.1).sb x.2).banks.cur.cfg.chain), if v.2 then (0, 0) else v.1) }).onTx
            x.1 fun y => { y with zeroedWords := y.zeroedWords + frame.bad.length, cutCrc := y.cutCrc + 1 }) EV.txCutCrc [a4 lane, a4 x.1, a4 x.2]
        else e) d) ∧
  (∀ (s : State) (ohms : Nat),
      2000 < ohms ∧ s.dev.gov.loopOpen = false →
      happens (.inhibitLoopOpen ohms) s fun d d' => d' = raiseEv ((List.range 64).foldl (fun e p => biasSafe ((countMuted e p).onTx p fun x => { x with muteInhibit := true }) p false true)
        { d with gov := { d.gov with loopOhms := ohms, loopOpen := true } }) EV.txInhibit [a4 1]) ∧
  (∀ (s : State) (ohms : Nat),
      ohms ≤ 2000 →
      happens (.inhibitLoopOpen ohms) s fun d d' => d' = { d with gov := { d.gov with loopOhms := ohms } }) ∧
  (∀ (s : State) (ohms : Nat),
      ohms < 500 ∧ s.dev.gov.loopOpen = true →
      happens (.inhibitLoopClosed ohms) s fun d d' => d' = raiseEv { d with gov := { d.gov with loopOhms := ohms, loopOpen := false } } EV.txInhibit [a4 2]) ∧
  (∀ (s : State) (path : Nat),
      radiates s.dev path = true →
      happens (.portFault path) s fun d d' => d' = raiseEv (txProtect d path 2) EV.txPortFault [a4 path]) ∧
  (∀ (s : State) (q : QStake),
      due 0x0401 txAble s.dev q = true →
      happens .txOpen s fun d d' => d' = markDone (noteStake (openWindows false (d.onTmb (·.advance q)) q) q) q) ∧
  (∀ (s : State) (q : QStake),
      due 0x0402 txAble s.dev q = true →
      happens .txClose s fun d d' => d' = markDone (noteStake (closeWindows (d.onTmb (·.advance q)) q) q) q) ∧
  (∀ (s : State) (q : QStake),
      due 0x0403 txAble s.dev q = true →
      happens .txSwap s fun d d' => d' = markDone (noteStake ((txLive (d.onTmb (·.advance q)) q).foldl (fun e x =>
        if ((e.txPath x.1).sb x.2).banks.thornShd ≠ 0 then raiseEv e EV.memSwapRefused [a4 q.stake.tag]
        else e.onTxSb x.1 x.2 fun y => { y with banks := y.banks.swap q.pos }) (d.onTmb (·.advance q))) q) q) ∧
  (∀ (s : State) (q : QStake),
      due 0x0404 txAble s.dev q = true →
      happens .txNcoReset s fun d d' => d' = markDone (noteStake ((txLive (d.onTmb (·.advance q)) q).foldl (fun e x => e.onTxSb x.1 x.2 fun y =>
        { y with ncoRef := some (q.pos, bitsOf q.stake.argument 63 32) }) (d.onTmb (·.advance q))) q) q) ∧
  (∀ (s : State) (q : QStake),
      due 0x0405 txAble s.dev q = true ∧ bitsOf q.stake.argument 23 8 ≠ 0 ∧ s.dev.axis ≤ q.trig.getD 0 →
      ∃ e n, e = s.dev.onTmb (·.advance q) ∧ n = bitsOf q.stake.argument 23 8 * 512 ∧ happens .txTone s fun _ d' =>
      d' = markDone (noteStake ((txLivePaths ((txLive e q).foldl (fun e x => e.onTxSb x.1 x.2 fun y =>
            { y with tone := some ⟨q.pos, q.pos + n, toSigned 32 (bitsOf q.stake.argument 63 32), bitsOf q.stake.argument 7 0⟩ }) e) q).foldl
          (fun e p => gateOffAt e p (q.pos + n))
          ((txLive e q).foldl (fun e x => e.onTxSb x.1 x.2 fun y =>
            { y with tone := some ⟨q.pos, q.pos + n, toSigned 32 (bitsOf q.stake.argument 63 32), bitsOf q.stake.argument 7 0⟩ }) e)) q) q)

/-- The energy governor's commands, its step, its mismatch mute and its log do what chapter 6 says. (R241, R242, R244, R245,
R246, R247, R248, R249.) -/
def Obligations.Governor : Prop :=
  (∀ (s : State) (h : Hdr) (group cls p w e margin soft release : Nat) (new : GovSet),
      starts s.dev h (cmd 0x0410 [4, 4]) = true →
      govClassSetCheck group cls p w e margin soft release (found s.dev h) = none →
      (new = ⟨cls, if cls = 4 then p else 0, if cls = 4 then w else 0, if cls = 4 then e else 0, margin, soft, release⟩) →
      completes (.govClassSet h group cls p w e margin soft release) s h (cmd 0x0410 [4, 4]) fun d d' fs => d' = govJournal (raiseEv (journal (d.onGov fun g => { g with sets := upd g.sets group fun _ => new }) 1 0x0006 group
          (bytesOf [fld 1 cls, fld 4 new.p, fld 2 new.w, fld 4 new.e, fld 1 margin, fld 2 soft, fld 2 release]) (.govClass group (nth d.gov.sets group)))
          EV.govClass [a4 group, a4 cls]) group 3 ∧
      fs = [fld 4 (groupC new), fld 4 (((ceilPar d'.ident.variant d'.gov.sets (fsPowers d') (64 + group)).map (·.r)).getD 0 / 1000000)]) ∧
  (∀ (s : State) (h : Hdr),
      starts s.dev h (ask 0x0411 (List.replicate 12 4 ++ [2])) = true →
      completes (.govStatus h) s h (ask 0x0411 (List.replicate 12 4 ++ [2])) fun d d' fs => d' = d ∧ fs.take 3 = [0, 1, 2].map (fun n => fld 4 (govGroup d n)) ∧ fs.drop 12 = [fld 2 (min 65535 d.gov.loopOhms)]) ∧
  (∀ (s : State) (h : Hdr) (first count : Nat),
      starts s.dev h (ask 0x0412 [2, 4]) = true →
      completes (.govLogRead h first count) s h (ask 0x0412 [2, 4]) fun d d' fs => d' = (addOut d h.session 0x0F (((d.gov.log.filter fun r => decide (first ≤ r.axis)).take count).flatMap govRecBytes) [] (domOn d 9)).2 ∧
      fs = [fld 2 (newHandle d), fld 4 ((d.gov.log.filter fun r => decide (first ≤ r.axis)).take count).length]) ∧
  (∀ (s : State) (pos : Nat) (energy : List Nat),
      s.dev.axis = pos ∧ s.dev.axis % 16 = 0 ∧ s.dev.gov.stepped ≠ some s.dev.axis →
      (energy = (List.range 64).map fun p => pathEnergy s.dev p 16) →
      happens (.governorStep pos) s fun d d' => d' = setGains ((List.range 131).foldl (ceilStep energy) (d.onGov fun g => { g with stepped := some d.axis, history := (energy :: g.history).take 122881 }))) ∧
  (∀ (s : State) (path t : Nat),
      (s.dev.txPath path).adaptHeld = some t ∧ t ≤ s.dev.now ∧ (s.dev.txPath path).gain = 32768 →
      happens (.adaptationResume path) s fun d d' => d' = d.onTx path fun x => { x with adaptHeld := none }) ∧
  (∀ (s : State) (path : Nat),
      radiates s.dev path = true →
      happens (.govMismatch path) s fun d d' => d' = govJournal (raiseEv (txProtect d path 2) EV.govMismatch [a4 path]) (path / 32) 2) ∧
  (∀ (s : State),
      s.dev.gov.logged + tickHz ≤ s.dev.now →
      happens .govLogRecord s fun d d' => d' = d.onGov fun g => { g with
        logged := d.now
        log := (g.log ++ [(⟨d.axis, g.sets.map fun x => (x.cls, groupC x), g.peaks, g.softs, g.hards⟩ : GovRec)]).drop (g.log.length + 1 - (if domOn d 9 then 86400 else 64))
        peaks := List.replicate 131 0
        softs := 0
        hards := 0 })

/-- The slots of the frequency engine are set, read, disabled and swapped as chapter 7 says. (R253, R254, R255, R260, R265,
R267, R268, R270, R271, R289, R290, R497.) -/
def Obligations.FrequencySlots : Prop :=
  (∀ (s : State) (h : Hdr) (dir sb : Nat) (cfg : FreCfg),
      starts s.dev h (cmd 0x0500 [8]) = true →
      freSetCheck dir sb cfg (found s.dev h) = none →
      completes (.freSet h dir sb cfg) s h (cmd 0x0500 [8]) fun d d' fs => d' = d.onFre (slotNo dir sb) (fun f =>
        if f.on then { f with
          banks := f.banks.write ({ eqShift := cfg.eqShift, rq4 := cfg.rq4, rq8 := cfg.rq8, g := f.banks.shd.g, h := f.banks.shd.h } : FreBank) f.banks.thornShd }
        else { f with
          on := true, flushing := false, cfg := cfg
          banks := { Banks.both ({ eqShift := cfg.eqShift, rq4 := cfg.rq4, rq8 := cfg.rq8 } : FreBank) with
            cur := { eqShift := cfg.eqShift, rq4 := cfg.rq4, rq8 := cfg.rq8, g := f.banks.cur.g, h := f.banks.cur.h }
            shd := { eqShift := cfg.eqShift, rq4 := cfg.rq4, rq8 := cfg.rq8, g := f.banks.shd.g, h := f.banks.shd.h } } }) ∧
      fs = [fld 8 (divHalfEven (((channelRate cfg (slotRate d (slotNo dir sb))).1 : Int) * 65536) (max 1 (channelRate cfg (slotRate d (slotNo dir sb))).2)).toNat]) ∧
  (∀ (s : State) (h : Hdr) (dir sb bank : Nat),
      starts s.dev h (ask 0x0501 [64, 4, 8]) = true →
      dir ≤ 1 ∧ sb ≤ 3 ∧ bank ≤ 1 →
      completes (.freGet h dir sb bank) s h (ask 0x0501 [64, 4, 8]) fun d d' fs => d' = d ∧ fs = freCfgFields (nth d.fre (slotNo dir sb)).cfg (if bank = 0 then (nth d.fre (slotNo dir sb)).banks.cur else (nth d.fre (slotNo dir sb)).banks.shd) ++
        [fld 4 (freStatus d (slotNo dir sb)), fld 8 (rate16 (slotRate d (slotNo dir sb)))]) ∧
  (∀ (s : State) (h : Hdr) (dir sbMask : Nat),
      starts s.dev h (cmd 0x0502 [4]) = true →
      dir ≤ 1 ∧ sbMask ≤ 15 ∧ s.dev.qs.state = 0 →
      ((((maskList 4 sbMask).map (slotNo dir)).filter fun n => (nth s.dev.fre n).on && !(nth s.dev.fre n).flushing) = []) →
      completes (.freDisable h dir sbMask) s h (cmd 0x0502 [4]) fun d d' fs => d' = d ∧ fs = [fld 4 0]) ∧
  (∀ (s : State) (h : Hdr) (dir sbMask : Nat) (l : List Nat),
      starts s.dev h (cmd 0x0502 [4]) = true →
      dir ≤ 1 ∧ sbMask ≤ 15 ∧ s.dev.qs.state = 0 →
      (l = (((maskList 4 sbMask).map (slotNo dir)).filter fun n => (nth s.dev.fre n).on && !(nth s.dev.fre n).flushing) ∧ l ≠ []) →
      begins (.freDisable h dir sbMask) s h (.freFlush l 0) fun d d' => d' = l.foldl freStop d) ∧
  (∀ (s : State) (h : Hdr) (handle : Nat),
      starts s.dev h (cmd 0x0503) = true →
      freEqLoadCheck handle (found s.dev h) = none →
      completes (.freEqLoad h handle) s h (cmd 0x0503) fun d d' fs => d' = consume (d.onFre ((objSlot (objBytes d handle)).getD 0) fun f =>
        { f with banks := if f.on then f.banks.write { f.banks.shd with
              g := (eqBank (objBytes d handle) f.cfg.eqGroups f.cfg.size).1, h := (eqBank (objBytes d handle) f.cfg.eqGroups f.cfg.size).2 }
            else { f.banks with
              cur := { f.banks.cur with g := (eqBank (objBytes d handle) f.cfg.eqGroups f.cfg.size).1, h := (eqBank (objBytes d handle) f.cfg.eqGroups f.cfg.size).2 }
              shd := { f.banks.shd with g := (eqBank (objBytes d handle) f.cfg.eqGroups f.cfg.size).1, h := (eqBank (objBytes d handle) f.cfg.eqGroups f.cfg.size).2 }
              thornCur := 0
              thornShd := 0 } }) handle ∧ fs = []) ∧
  (∀ (s : State) (h : Hdr) (handle dir sb : Nat) (o : BulkObj) (stage n : Nat) (vals : List Int),
      starts s.dev h (cmd 0x0504) = true →
      freWindowLoadCheck handle dir sb (found s.dev h) = none →
      s.dev.obj? handle = some o ∧ coefObject o.bytes = some (stage, n, vals) →
      completes (.freWindowLoad h handle dir sb) s h (cmd 0x0504) fun d d' fs => d' = consume (d.onFre (slotNo dir sb) fun f => { f with proto := vals }) handle ∧ fs = []) ∧
  (∀ (s : State) (h : Hdr) (sb path first count : Nat),
      starts s.dev h (ask 0x0505 (spanWidths 512 count [2, 2])) = true →
      sb ≤ 3 ∧ path ≤ 63 ∧ 1 ≤ count ∧ count ≤ 512 ∧ first + count ≤ (nth s.dev.fre (slotNo 1 sb)).cfg.eqGroups ∧ (nth s.dev.fre (slotNo 1 sb)).on = true →
      completes (.freLevelGet h 1 sb path first count) s h (ask 0x0505 (spanWidths 512 count [2, 2])) fun d d' fs => d' = (freshMany (2 * count) d).2 ∧ fs = (freshMany (2 * count) d).1.map (fld 2)) ∧
  (∀ (s : State) (h : Hdr) (sb path first count : Nat),
      starts s.dev h (ask 0x0505 (spanWidths 512 count [2, 2])) = true →
      sb ≤ 3 ∧ path ≤ 63 ∧ 1 ≤ count ∧ count ≤ 512 ∧ first + count ≤ (nth s.dev.fre (slotNo 0 sb)).cfg.eqGroups ∧ (nth s.dev.fre (slotNo 0 sb)).on = true →
      completes (.freLevelGet h 0 sb path first count) s h (ask 0x0505 (spanWidths 512 count [2, 2])) fun d d' fs => d' = d ∧ fs = ((List.range count).flatMap fun k => match (nth d.sig.counted sb).bind (groupOf d sb) with
        | none => [0, 0]
        | some g =>
          let l := ((channelsOf d sb path g).drop ((first + k) * g.set.cfg.perGroup)).take g.set.cfg.perGroup
          let rms (v : List Cx) : Nat := Nat.sqrt ((v.map Cx.norm).sum * 65536 / max 1 (2 * v.length))
          [rms (l.map fun v => (toF4 g v.1).1), rms (l.map fun v => (toF8 g v.1).1)]).map (satfld 2)) ∧
  (∀ (s : State) (h : Hdr) (dir sb path clear : Nat),
      starts s.dev h (askClear 0x0506 clear (List.replicate 6 4)) = true →
      dir ≤ 1 ∧ sb ≤ 3 ∧ path ≤ 63 ∧ clear ≤ 1 →
      completes (.freCounters h dir sb path clear) s h (askClear 0x0506 clear (List.replicate 6 4)) fun d d' fs => d' = (if clear = 1 then d.onFre (slotNo dir sb) fun f => { f with counts := upd f.counts path fun _ => [0, 0, 0, 0, 0, 0] } else d) ∧
      fs = (nth (nth d.fre (slotNo dir sb)).counts path).map (fld 4)) ∧
  (∀ (s : State) (dir sb groups : Nat),
      (nth s.dev.fre (slotNo dir sb)).flushing = false →
      happens (.freFlushDone dir sb groups) s fun d d' => d' = d) ∧
  (∀ (s : State) (dir sb groups : Nat),
      (nth s.dev.fre (slotNo dir sb)).flushing = true →
      happens (.freFlushDone dir sb groups) s fun d d' => d' = qsExitCheck (complete (onWaits (raiseEv (d.onFre (slotNo dir sb) fun f => { f with on := false, flushing := false }) EV.freFlushed [a4 dir, a4 sb])
          (freWait (slotNo dir sb) groups)) freDone freReply)) ∧
  (∀ (s : State) (q : QStake),
      due 0x0502 freAble s.dev q = true →
      happens .freSwap s fun d d' => d' = markDone (noteSlot (freSwap (d.onTmb (·.advance q)) q) q) q)

/-- Topiaries, beams and the channelised, beam and layer streams do what chapter 7 says. (R272, R273, R274, R275, R276,
R277, R278, R279, R280, R281, R284, R286.) -/
def Obligations.BeamsAndStreams : Prop :=
  (∀ (s : State) (h : Hdr) (caps : List Nat),
      starts s.dev h (cmd 0x0510 [4]) = true →
      topiaryAllocCheck caps (found s.dev h) = none →
      completes (.topiaryAlloc h caps) s h (cmd 0x0510 [4]) fun d d' fs => d' = allotPages caps d ∧ fs = [fld 4 (16777216 - (caps.map storeBytes).sum)]) ∧
  (∀ (s : State) (h : Hdr) (handle n : Nat) (t : Topiary),
      starts s.dev h (cmd 0x0511 [1]) = true →
      topiaryLoadCheck handle (found s.dev h) = none →
      objSlot (objBytes s.dev handle) = some n ∧ topiaryOf (objBytes s.dev handle) = some t ∧ (nth s.dev.fre n).on = false →
      completes (.topiaryLoad h handle) s h (cmd 0x0511 [1]) fun d d' fs => d' = consume (({ d with mem := writeTop (nth d.fre n) (1 - (nth d.fre n).top.index) (objBytes d handle) (writeTop (nth d.fre n) (nth d.fre n).top.index (objBytes d handle) d.mem) }).onFre n fun f => { f with top := if f.on then f.top.write t else { Banks.both t with index := f.top.index } }) handle ∧
      fs = [fld 1 (nth d.fre n).top.index]) ∧
  (∀ (s : State) (h : Hdr) (handle n : Nat) (t : Topiary),
      starts s.dev h (cmd 0x0511 [1]) = true →
      topiaryLoadCheck handle (found s.dev h) = none →
      objSlot (objBytes s.dev handle) = some n ∧ topiaryOf (objBytes s.dev handle) = some t ∧ (nth s.dev.fre n).on = true →
      completes (.topiaryLoad h handle) s h (cmd 0x0511 [1]) fun d d' fs => d' = consume (({ d with mem := writeTop (nth d.fre n) (1 - (nth d.fre n).top.index) (objBytes d handle) d.mem }).onFre n fun f => { f with top := if f.on then f.top.write t else { Banks.both t with index := f.top.index } }) handle ∧
      fs = [fld 1 (1 - (nth d.fre n).top.index)]) ∧
  (∀ (s : State) (h : Hdr) (dir sb : Nat),
      starts s.dev h (ask 0x0512 [4, 32, 32, 4, 4]) = true →
      dir ≤ 1 ∧ sb ≤ 3 ∧ (nth s.dev.fre (slotNo dir sb)).top.index = 0 →
      completes (.topiaryGet h dir sb) s h (ask 0x0512 [4, 32, 32, 4, 4]) fun d d' fs => d' = d ∧ fs = [fld 4 (bmfStatus d (slotNo dir sb))] ++ topHeader (slotNo dir sb) (nth d.fre (slotNo dir sb)).top.cur ++
        topHeader (slotNo dir sb) (nth d.fre (slotNo dir sb)).top.shd ++ [fld 4 (topThorns d (nth d.fre (slotNo dir sb)) 0 (nth d.fre (slotNo dir sb)).top.cur), fld 4 (topThorns d (nth d.fre (slotNo dir sb)) 1 (nth d.fre (slotNo dir sb)).top.shd)]) ∧
  (∀ (s : State) (h : Hdr) (dir sb : Nat),
      starts s.dev h (ask 0x0512 [4, 32, 32, 4, 4]) = true →
      dir ≤ 1 ∧ sb ≤ 3 ∧ (nth s.dev.fre (slotNo dir sb)).top.index = 1 →
      completes (.topiaryGet h dir sb) s h (ask 0x0512 [4, 32, 32, 4, 4]) fun d d' fs => d' = d ∧ fs = [fld 4 (bmfStatus d (slotNo dir sb))] ++ topHeader (slotNo dir sb) (nth d.fre (slotNo dir sb)).top.shd ++
        topHeader (slotNo dir sb) (nth d.fre (slotNo dir sb)).top.cur ++ [fld 4 (topThorns d (nth d.fre (slotNo dir sb)) 0 (nth d.fre (slotNo dir sb)).top.shd), fld 4 (topThorns d (nth d.fre (slotNo dir sb)) 1 (nth d.fre (slotNo dir sb)).top.cur)]) ∧
  (∀ (s : State) (h : Hdr) (dir sb on beams bmShift beamOut : Nat),
      starts s.dev h (cmd 0x0513 [2, 2]) = true →
      beamSetCheck dir sb on beams bmShift beamOut (found s.dev h) = none →
      on = 1 →
      completes (.beamSet h dir sb on beams bmShift beamOut) s h (cmd 0x0513 [2, 2]) fun d d' fs => d' = d.onFre (slotNo dir sb) (fun f => { f with beamsOn := true, beams := beams, bmShift := bmShift, beamOut := beamOut }) ∧
      fs = [fld 2 (slotCells (d.onFre (slotNo dir sb) fun f => { f with
        beamsOn := true, beams := beams, bmShift := bmShift, beamOut := beamOut }) (slotNo dir sb)),
        fld 2 (4096 - ((List.range 8).map (slotCells (d.onFre (slotNo dir sb) fun f => { f with beamsOn := true, beams := beams, bmShift := bmShift, beamOut := beamOut }))).sum)]) ∧
  (∀ (s : State) (h : Hdr) (dir sb on beams bmShift beamOut : Nat),
      starts s.dev h (cmd 0x0513 [2, 2]) = true →
      beamSetCheck dir sb on beams bmShift beamOut (found s.dev h) = none →
      on = 0 →
      completes (.beamSet h dir sb on beams bmShift beamOut) s h (cmd 0x0513 [2, 2]) fun d d' fs => d' = (closeSlot d (slotNo dir sb) true).onFre (slotNo dir sb) (fun f => { f with beamsOn := false }) ∧
      fs = [fld 2 (slotCells ((closeSlot d (slotNo dir sb) true).onFre (slotNo dir sb) fun f => { f with
        beamsOn := false }) (slotNo dir sb)),
        fld 2 (4096 - ((List.range 8).map (slotCells ((closeSlot d (slotNo dir sb) true).onFre (slotNo dir sb) fun f => { f with beamsOn := false }))).sum)]) ∧
  (∀ (s : State) (h : Hdr) (base sb mask format dest lane : Nat),
      starts s.dev h (cmd 0x0507) = true →
      freStreamSetCheck base sb mask format dest lane (found s.dev h) = none →
      completes (.freStreamSet h base sb mask format dest lane) s h (cmd 0x0507) fun d d' fs => d' = manyStreams d .channel base sb format dest (portArg lane) (channelElements (nth d.fre sb).cfg format) (pathsOf mask) ∧ fs = []) ∧
  (∀ (s : State) (h : Hdr) (base : Nat),
      starts s.dev h (cmd 0x0508 [8]) = true →
      noBase s.dev .channel base = false →
      completes (.freStreamStop h base) s h (cmd 0x0508 [8]) fun d d' fs => d' = streamStop d (fun o => o.kind == .channel && o.base == base) ∧
      fs = [fld 8 ((d.outs.filter fun o => o.kind == .channel && o.base == base).map (·.sent)).sum]) ∧
  (∀ (s : State) (h : Hdr) (base sb firstBeam count format dest lane : Nat),
      starts s.dev h (cmd 0x0514) = true →
      beamStreamSetCheck base sb firstBeam count format dest lane (found s.dev h) = none →
      completes (.beamStreamSet h base sb firstBeam count format dest lane) s h (cmd 0x0514) fun d d' fs => d' = manyStreams d .beam base sb format dest (portArg lane) (channelElements (nth d.fre sb).cfg format) ((List.range count).map (· + firstBeam)) ∧ fs = []) ∧
  (∀ (s : State) (h : Hdr) (base : Nat),
      starts s.dev h (cmd 0x0515 [8]) = true →
      noBase s.dev .beam base = false →
      completes (.beamStreamStop h base) s h (cmd 0x0515 [8]) fun d d' fs => d' = streamStop d (fun o => o.kind == .beam && o.base == base) ∧
      fs = [fld 8 ((d.outs.filter fun o => o.kind == .beam && o.base == base).map (·.sent)).sum]) ∧
  (∀ (s : State) (h : Hdr) (base sb count format : Nat),
      starts s.dev h (cmd 0x0516 [4]) = true →
      layerStreamSetCheck base sb count format (found s.dev h) = none →
      completes (.layerStreamSet h base sb count format) s h (cmd 0x0516 [4]) fun d d' fs => d' = { d with ins := (d.ins.filter fun o => !(o.layer && o.base == base)) ++ (List.range count).map fun k =>
        { num := base + k, base := base, layer := true, sb := sb, paths := [k], format := format, depth := streamDepth (channelElements (nth d.fre (4 + sb)).cfg format) format } } ∧
      fs = [fld 4 (streamDepth (channelElements (nth d.fre (4 + sb)).cfg format) format)]) ∧
  (∀ (s : State) (h : Hdr) (base : Nat),
      starts s.dev h (cmd 0x0517 [8, 8, 8]) = true →
      (s.dev.ins.any (fun o => o.layer && o.base == base) = true) →
      completes (.layerStreamStop h base) s h (cmd 0x0517 [8, 8, 8]) fun d d' fs => d' = { d with
          ins := d.ins.filter fun o => !(o.layer && o.base == base)
          sig := { d.sig with ended := d.sig.ended ++ (d.ins.filter fun o => o.layer && o.base == base).map fun o => o.play d.axis (layerTiming d o) } } ∧
      fs = [fld 8 ((((d.ins.filter fun o => o.layer && o.base == base).map fun o => o.play d.axis (layerTiming d o)).map fun o => o.played + o.buffered.length).sum),
        fld 8 ((((d.ins.filter fun o => o.layer && o.base == base).map fun o => o.play d.axis (layerTiming d o)).map (·.late)).sum),
        fld 8 ((((d.ins.filter fun o => o.layer && o.base == base).map fun o => o.play d.axis (layerTiming d o)).map (·.zeroFilled)).sum)]) ∧
  (∀ (s : State) (session : Nat) (rx : PktIn) (pkt : StreamPkt) (o a b : InStream),
      (dataIn s.dev session rx (20 + pkt.data.length)).2 = true →
      (s.dev.ins.find? (fun y => y.num == pkt.num && y.layer) = some o) →
      pkt.format = o.format ∧ pkt.groups ≠ 0 ∧ pkt.data.length = pkt.groups * pkt.elements * elementBytes pkt.format ∧ (nth s.dev.chains o.sb).on = false →
      a = o.play s.dev.axis (layerTiming s.dev o) ∧ b = a.take s.dev.axis (layerTiming s.dev o) pkt ∧ b.late = o.late ∧ b.zeroFilled = o.zeroFilled →
      happens (.layerStreamPacket session rx pkt) s fun d d' => d' = { (dataIn d session rx (20 + pkt.data.length)).1 with ins := (dataIn d session rx (20 + pkt.data.length)).1.ins.map fun x => if x.num == o.num then b else x }) ∧
  (∀ (s : State) (q : QStake),
      due 0x0501 freAble s.dev q = true ∧ topThorns s.dev (nth s.dev.fre (stakeSlot q)) (1 - (nth s.dev.fre (stakeSlot q)).top.index) (nth s.dev.fre (stakeSlot q)).top.shd = 0 →
      happens .topSwap s fun d d' => d' = markDone (noteSlot (raiseEv ((d.onTmb (·.advance q)).onFre (stakeSlot q) fun f => { f with
        top := f.top.swap (freFrees (d.onTmb (·.advance q)) (stakeSlot q) q.pos)
        crossfade := if q.stake.argument % 128 = 0 then none else some (q.pos, q.stake.argument % 128) }) EV.topSwap [a4 q.stake.tag]) q) q) ∧
  (∀ (s : State) (q : QStake),
      due 0x0501 freAble s.dev q = true ∧ topThorns s.dev (nth s.dev.fre (stakeSlot q)) (1 - (nth s.dev.fre (stakeSlot q)).top.index) (nth s.dev.fre (stakeSlot q)).top.shd ≠ 0 →
      happens .topSwap s fun d d' => d' = markDone (noteSlot (swapRefused ((d.onTmb (·.advance q)).onFre (stakeSlot q) fun f => { f with swapRefused := true }) EV.topRefused q) q) q)

/-- Beam chains do what chapter 8 says: configuration, arriving frames, frames begun, stalls, delivery, report, broadcast
and leaving. (R294, R295, R297, R299, R301, R302, R304, R306, R308, R309, R310, R314.) -/
def Obligations.BeamChains : Prop :=
  (∀ (s : State) (h : Hdr) (cfg : ChainCfg),
      starts s.dev h (cmd 0x0600 [2, 2, 2, 2]) = true →
      chainSetCheck cfg (found s.dev h) = none →
      completes (.chainSet h cfg) s h (cmd 0x0600 [2, 2, 2, 2]) fun d d' fs => d' = d.onChain cfg.sb (fun n =>
          if n.on then { n with banks := n.banks.write cfg }
          else { n with on := true, banks := { Banks.both cfg with index := n.banks.index }, startAt := d.axis, cur := none, kids := [{}, {}, {}] }) ∧
      fs = ((cfg.parent :: cfg.childs).map fun l => if l = 0xFF then 0 else permille (laneLoad d cfg l)).map (fld 2)) ∧
  (∀ (s : State) (h : Hdr) (sb bank : Nat),
      starts s.dev h (ask 0x0601 [32, 4, 4]) = true →
      sb ≤ 3 ∧ bank ≤ 1 →
      completes (.chainGet h sb bank) s h (ask 0x0601 [32, 4, 4]) fun d d' fs => d' = d ∧ fs = chainCfgFields (if bank = 0 then (nth d.chains sb).banks.cur else (nth d.chains sb).banks.shd) ++
        [fld 4 (chainStatus d sb), fld 4 (if chainSlotOk d sb then ownDelay d sb else 0)]) ∧
  (∀ (s : State) (h : Hdr) (sb : Nat),
      starts s.dev h (cmd 0x0602 [8]) = true →
      sb ≤ 3 ∧ (nth s.dev.chains sb).on = true →
      completes (.chainLeave h sb) s h (cmd 0x0602 [8]) fun d d' fs => d' = raiseEv (d.onChain sb fun n => { n with on := false, kids := n.kids.map fun k => { k with frames := [] }, reportClose := n.deliver.isSome }) EV.chainLeft [a4 sb] ∧
      fs = [fld 8 (nth d.chains sb).framesSent]) ∧
  (∀ (s : State) (h : Hdr) (sb base format rootShift dest lane : Nat),
      starts s.dev h (cmd 0x0603) = true →
      chainDeliverSetCheck sb base format rootShift dest lane (found s.dev h) = none →
      completes (.chainDeliverSet h sb base format rootShift dest lane) s h (cmd 0x0603) fun d d' fs => d' = (manyStreams { d with outs := d.outs.filter fun o => !(o.kind == .chain && o.sb == sb) } .chain base sb format dest (portArg lane)
          (channelElements (nth d.fre sb).cfg format) ((List.range (nth d.chains sb).banks.cur.beams).map (· + (nth d.chains sb).banks.cur.firstBeam))).onChain sb
        (fun n => { n with deliver := some ⟨base, format, rootShift, dest, portArg lane⟩, reportCounts := [], reportClose := false }) ∧ fs = []) ∧
  (∀ (s : State) (h : Hdr) (sb : Nat),
      starts s.dev h (cmd 0x0604 [8]) = true →
      sb ≤ 3 ∧ (nth s.dev.chains sb).on = true ∧ (nth s.dev.chains sb).banks.cur.root = true →
      completes (.chainDeliverStop h sb) s h (cmd 0x0604 [8]) fun d d' fs => d' = (streamStop d fun o => o.kind == .chain && o.sb == sb).onChain sb (fun n => { n with reportClose := n.deliver.isSome }) ∧
      fs = [fld 8 ((d.outs.filter fun o => o.kind == .chain && o.sb == sb).map (·.sent)).sum]) ∧
  (∀ (s : State) (h : Hdr) (sb : Nat),
      starts s.dev h (ask 0x0605 (List.replicate 12 4)) = true →
      sb ≤ 3 →
      completes (.chainStatus h sb) s h (ask 0x0605 (List.replicate 12 4)) fun d d' fs => d' = d ∧ fs = ((nth d.chains sb).kids.map fun k => sfld 4 (((k.slacks.filter fun x => decide (d.now < x.1 + tickHz)).map (·.2)).min?.getD 0)) ++
        (nth d.chains sb).kids.flatMap fun k => [fld 4 k.included, fld 4 k.missing, fld 4 k.late]) ∧
  (∀ (s : State) (h : Hdr) (sb clear : Nat),
      starts s.dev h (askClear 0x0606 clear (List.replicate 7 4)) = true →
      sb ≤ 3 ∧ clear ≤ 1 →
      completes (.chainCounters h sb clear) s h (askClear 0x0606 clear (List.replicate 7 4)) fun d d' fs => d' = (if clear = 1 then d.onChain sb fun n => { n with counts := [0, 0, 0, 0, 0, 0, 0] } else d) ∧ fs = (nth d.chains sb).counts.map (fld 4)) ∧
  (∀ (s : State) (q : QStake),
      due 0x0601 chainAble s.dev q = true ∧ (nth s.dev.chains (q.stake.target / 64 % 4)).banks.thornShd = 0 →
      happens .chainSwap s fun d d' => d' = markDone ((d.onTmb (·.advance q)).onChain (q.stake.target / 64 % 4) fun n =>
        { n with banks := n.banks.swap (q.pos + n.banks.cur.offset + (nth d.fre (q.stake.target / 64 % 4)).cfg.longSymbol), swapAt := q.pos }) q) ∧
  (∀ (s : State) (lane : Nat) (frame : DirectFrame) (child : Nat) (c : ChainCfg) (x : Delivered) (f : ChainFrame),
      deliver s.dev lane frame = some x ∧ f = readSum x →
      (childOf s.dev lane).find? (fun y => y.1 == f.sb && (nth s.dev.chains y.1).banks.cur.chainId == f.chainId) = some (f.sb, child) →
      c = (nth s.dev.chains f.sb).cfgFor s.dev.axis f.axis ∧ f.chainId = c.chainId ∧ formsGroup s.dev f.sb f.axis = true ∧ ¬((nth s.dev.fre f.sb).on = true ∧ f.shapeCrc ≠ shapeCrc s.dev f.sb) ∧ f.firstBeam = c.firstBeam ∧ f.beams = c.beams ∧ f.depth = c.depth + 1 →
      (nth s.dev.chains f.sb).startAt ≤ f.axis ∧ (nth s.dev.chains f.sb).begun f.axis f.index = false →
      ((nth (nth s.dev.chains f.sb).kids child).frames.map ChainFrame.bytes).sum + f.bytes ≤ 262144 →
      happens (.chainSumFrame lane frame) s fun d d' => d' = d.onChain f.sb fun n => n.onKid child fun k =>
      { k with
        frames := k.frames ++ [f]
        slacks := if f.index = 0 then (k.slacks.filter fun x => decide (d.now < x.1 + tickHz)) ++ [(d.now, (f.axis + c.offset : Nat) - (d.axis : Int))] else k.slacks }) ∧
  (∀ (s : State) (lane : Nat) (frame : DirectFrame) (child : Nat) (c : ChainCfg) (x : Delivered) (f : ChainFrame),
      deliver s.dev lane frame = some x ∧ f = readSum x →
      (childOf s.dev lane).find? (fun y => y.1 == f.sb && (nth s.dev.chains y.1).banks.cur.chainId == f.chainId) = some (f.sb, child) →
      c = (nth s.dev.chains f.sb).cfgFor s.dev.axis f.axis ∧ f.chainId = c.chainId ∧ formsGroup s.dev f.sb f.axis = true ∧ ¬((nth s.dev.fre f.sb).on = true ∧ f.shapeCrc ≠ shapeCrc s.dev f.sb) ∧ f.firstBeam = c.firstBeam ∧ f.beams = c.beams ∧ f.depth = c.depth + 1 →
      (nth s.dev.chains f.sb).startAt ≤ f.axis ∧ (nth s.dev.chains f.sb).begun f.axis f.index = true →
      happens (.chainSumFrame lane frame) s fun d d' => d' = raiseLimited (d.onChain f.sb fun n => { n.onKid child (fun k => { k with late := sat32 (k.late + 1) }) with lateSeen := true })
        EV.chainLate (f.sb * 4 + child) [a4 f.sb, a4 child]) ∧
  (∀ (s : State) (sb group index : Nat) (c : ChainCfg) (kids : List (Nat × ChainFrame)),
      c = (nth s.dev.chains sb).cfgFor s.dev.axis group ∧ (nth s.dev.chains sb).nextFrame (!(nth s.dev.fre sb).on) group = some index →
      kids = (nth s.dev.chains sb).arrivedKids c group index ∧ frameMay s.dev sb group index c (ownPart s.dev sb c group index) kids = true →
      happens (.chainFrameStart sb group index) s fun d d' => d' = frameOut (d.onChain sb fun n => n.beginFrame c group index kids (formFrame d sb group index c (ownPart d sb c group index) kids)) sb (formFrame d sb group index c (ownPart d sb c group index) kids)) ∧
  (∀ (s : State) (sb child block : Nat) (x : ChainSend),
      ((nth s.dev.chains sb).cur = some x ∧ (nth s.dev.chains sb).on = true ∧ x.kids.any (fun y => y.1 == child) = true ∧ block < x.frame.blocks.length) →
      happens (.chainStall sb child block) s fun d d' => d' = raiseLimited (reframe (d.onChain sb fun n => { (n.count 2 1).count 4 (((stalled d sb child block x).frame.blocks.filter (·.thorn)).length - (x.frame.blocks.filter (·.thorn)).length) with
          stallSeen := true }) sb x (stalled d sb child block x))
        EV.chainStall (sb * 4 + child) [a4 sb, a4 child]) ∧
  (∀ (s : State) (lane : Nat) (frame : DirectFrame) (c : ChainCfg) (x : Delivered) (f : ChainFrame),
      deliver s.dev lane frame = some x ∧ f = readDown x →
      c = (nth s.dev.chains f.sb).cfgFor s.dev.axis f.axis ∧ (nth s.dev.chains f.sb).on = true ∧ c.txOn = true ∧ c.root = false ∧ c.parent = lane ∧ c.chainId = f.chainId ∧ laneUp s.dev lane = true →
      happens (.chainBroadcastFrame lane frame) s fun d d' => d' = layerFeed (passDown d c { f with count := f.count + 1 }) f.sb f) ∧
  (∀ (s : State) (sb : Nat) (x : ChainDeliver),
      (nth s.dev.chains sb).deliver = some x ∧ 1024 ≤ (nth s.dev.chains sb).reportCounts.length →
      happens (.chainReport sb) s fun d d' => d' = sendReport (d.onChain sb fun n => { n with reportCounts := n.reportCounts.drop 1024, deliver := if n.reportClose && decide (n.reportCounts.length ≤ 1024) then none else n.deliver, reportClose := n.reportClose && decide (1024 < n.reportCounts.length) }) 0x0600
        ((nth d.chains sb).reportCounts.headD (0, 0)).1 x.dest x.port ([fld 8 ((nth d.chains sb).reportCounts.headD (0, 0)).1, fld 2 1024, fld 2 0] ++
          ((nth d.chains sb).reportCounts.take 1024).map fun y => fld 2 y.2))

/-- The weave's commands and stakes do what chapter 9 says. (R318, R323, R324, R325, R334, R338, R340, R342, R343, R345.) -/
def Obligations.WeaveCommands : Prop :=
  (∀ (s : State) (h : Hdr) (first : Nat) (entries : Members),
      starts s.dev h (cmd 0x0701) = true →
      weaveMembersCheck first entries (found s.dev h) = none →
      completes (.weaveMembers h first entries) s h (cmd 0x0701) fun d d' fs => d' = d.onWeave (fun w => { w with banks := w.banks.write { w.banks.shd with
        complete := false, region := 0, members := w.banks.shd.members.take first ++ entries.list ++ w.banks.shd.members.drop (first + entries.list.length) } }) ∧ fs = []) ∧
  (∀ (s : State) (h : Hdr) (hdr : WeaveHdr) (laneMap : LaneMaps),
      starts s.dev h (cmd 0x0700 (List.replicate 32 2 ++ [8, 4])) = true →
      weaveSetCheck hdr laneMap (found s.dev h) = none →
      completes (.weaveSet h hdr laneMap) s h (cmd 0x0700 (List.replicate 32 2 ++ [8, 4])) fun d d' fs => d' = d.onWeave (fun w => { w with banks := w.banks.write { newBank hdr laneMap d with complete := true, region := weaveRegion (newBank hdr laneMap d) } }) ∧
      fs = ((List.range 32).map fun l => fld 2 (permille (weaveLoad d { newBank hdr laneMap d with complete := true, region := weaveRegion (newBank hdr laneMap d) } l))) ++
        [fld 8 (weaveRegion (newBank hdr laneMap d)),
         fld 4 (ceilDiv (cornerLoad d { newBank hdr laneMap d with complete := true, region := weaveRegion (newBank hdr laneMap d) }).1
            (max 1 (cornerLoad d { newBank hdr laneMap d with complete := true, region := weaveRegion (newBank hdr laneMap d) }).2 * 100000000))]) ∧
  (∀ (s : State) (h : Hdr) (bank : Nat),
      starts s.dev h (ask 0x0702 [64, 128, 4, 4]) = true →
      bank ≤ 1 →
      completes (.weaveGet h bank) s h (ask 0x0702 [64, 128, 4, 4]) fun d d' fs => d' = d ∧ fs = weaveHdrFields (if bank = 0 then d.weave.banks.cur else d.weave.banks.shd).hdr ++ laneMapFields (if bank = 0 then d.weave.banks.cur else d.weave.banks.shd).maps ++
        [fld 4 (weaveCrc d (if bank = 0 then d.weave.banks.cur else d.weave.banks.shd)), fld 4 (weaveStatus d)]) ∧
  (∀ (s : State) (h : Hdr) (bank first count : Nat),
      starts s.dev h (ask 0x0703 (spanWidths 64 count [3, 1, 2, 2, 8])) = true →
      bank ≤ 1 ∧ rangeBad first count = false →
      completes (.weaveMembersGet h bank first count) s h (ask 0x0703 (spanWidths 64 count [3, 1, 2, 2, 8])) fun d d' fs => d' = d ∧ fs = memberFields (((if bank = 0 then d.weave.banks.cur else d.weave.banks.shd).members.drop first).take count)) ∧
  (∀ (s : State) (h : Hdr) (first count : Nat),
      starts s.dev h (ask 0x0705 (spanWidths 64 count [4, 4, 4])) = true →
      rangeBad first count = false →
      completes (.weaveStatus h first count) s h (ask 0x0705 (spanWidths 64 count [4, 4, 4])) fun d d' fs => d' = d ∧ fs = ((d.weave.pos.drop first).take count).flatMap fun p => [sfld 4 (p.slack.getD 0), fld 4 (sat32 p.zeroed), fld 4 (sat32 p.late)]) ∧
  (∀ (s : State) (h : Hdr) (clear : Nat),
      starts s.dev h (askClear 0x0706 clear (List.replicate 8 8)) = true →
      clear ≤ 1 →
      completes (.weaveCounters h clear) s h (askClear 0x0706 clear (List.replicate 8 8)) fun d d' fs => d' = (if clear = 1 then d.onWeave fun w => { w with counts := [0, 0, 0, 0, 0, 0, 0, 0] } else d) ∧ fs = d.weave.counts.map (fld 8)) ∧
  (∀ (s : State) (h : Hdr),
      starts s.dev h (cmd 0x0704 [8]) = true →
      s.dev.qs.state = 0 ∧ s.dev.weave.on = true →
      completes (.weaveLeave h) s h (cmd 0x0704 [8]) fun d d' fs => d' = raiseEv (((regionFrees (xceHalt d false)).onWeave fun w => { w with on := false, arrived := [] }).onXce fun x => { x with on := false }) EV.weaveLeft [] ∧
      fs = [fld 8 (nth d.weave.counts 0)]) ∧
  (∀ (s : State) (q : QStake),
      (due 0x0701 (fun e _ => weaveSwapOk e && domOn e 8) s.dev q = true ∧ s.dev.weave.banks.thornShd = 0 ∧ s.dev.weave.banks.shd.hdr.members ≠ 0 ∧ (s.dev.xce.on && s.dev.weave.banks.shd.ownEntry.count == 0) = false) →
      happens .weaveSwap s fun d d' => d' = markDone (raiseEv (((d.onTmb (·.advance q)).onXce fun x => { x with
        cuts := x.cuts ++ [q.pos]
        banks := if x.shdNew then x.banks.swap (weaveFrees (d.onTmb (·.advance q)) q.pos) else x.banks
        shdNew := false
        swapAt := if x.shdNew then q.pos else x.swapAt }).onWeave fun w => { w with
        on := true, banks := w.banks.swap (weaveFrees (d.onTmb (·.advance q)) q.pos), swapAt := q.pos }) EV.weaveSwap [a4 q.stake.tag]) q) ∧
  (∀ (s : State) (q : QStake),
      (due 0x0701 (fun e _ => weaveSwapOk e && domOn e 8) s.dev q = true ∧ s.dev.weave.banks.thornShd = 0 ∧ s.dev.weave.banks.shd.hdr.members = 0) →
      happens .weaveSwap s fun d d' => d' = markDone ((weaveLeave (raiseEv ((d.onTmb (·.advance q)).onXce fun x => { x with
        cuts := x.cuts ++ [q.pos]
        banks := if x.shdNew then x.banks.swap (weaveFrees (d.onTmb (·.advance q)) q.pos) else x.banks
        shdNew := false
        swapAt := if x.shdNew then q.pos else x.swapAt }) EV.weaveSwap [a4 q.stake.tag])).onWeave fun w => { w with
        banks := w.banks.swap (weaveFrees (d.onTmb (·.advance q)) q.pos), swapAt := q.pos }) q) ∧
  (∀ (s : State) (q : QStake),
      (due 0x0702 (fun e _ => e.weave.on && e.weave.banks.cur.hdr.mode == 1) s.dev q = true) →
      happens .covCut s fun d d' => d' = markDone ((d.onTmb (·.advance q)).onWeave fun w => { w with covCuts := w.covCuts ++ [q.pos] }) q)

/-- Weave frames are sent, routed, judged and zero-filled as chapter 9 says. (R326, R327, R328, R329, R330, R335, R336,
R337, R339, R341, R342.) -/
def Obligations.WeaveFrames : Prop :=
  (∀ (s : State) (req : WeaveSend) (b : WeaveBank),
      b = s.dev.weave.bankFor s.dev.axis req.axis ∧ weaveSends s.dev b req.dest req.axis req.first req.groups = true →
      happens (.weaveFrameSend req) s fun d d' => d' = routeFrame (d.onWeave fun w => { w with seqs := upd w.seqs req.dest fun n => (n + 1) % 65536 }) b (weaveStamp d b req.dest req.axis req.first req.groups) 0) ∧
  (∀ (s : State) (lane : Nat) (frame : DirectFrame) (b : WeaveBank) (x : Delivered) (f : WeaveFrame),
      deliver s.dev lane frame = some x ∧ f = readWeave x →
      b = s.dev.weave.bankFor s.dev.axis f.axis ∧ s.dev.weave.on = true ∧ frame.cls = 1 ∧ (nth b.maps lane).dim ≠ 0xFF ∧ f.dest ≠ b.hdr.own →
      happens (.weaveFrame lane frame) s fun d d' => d' = routeFrame d b { f with hops := f.hops + 1 } 1) ∧
  (∀ (s : State) (lane : Nat) (frame : DirectFrame) (b : WeaveBank) (x : Delivered) (f : WeaveFrame),
      deliver s.dev lane frame = some x ∧ f = readWeave x →
      b = s.dev.weave.bankFor s.dev.axis f.axis ∧ s.dev.weave.on = true ∧ frame.cls = 1 ∧ (nth b.maps lane).dim ≠ 0xFF ∧ f.dest = b.hdr.own →
      f.id = b.hdr.id ∧ f.epoch = b.hdr.epoch ∧ f.shapeCrc = weaveCrc s.dev b ∧ ownerForms s.dev b.hdr.sb f.axis = true →
      (s.dev.axis ≤ f.axis + b.hdr.deadline ∧ s.dev.weave.judged.any (fun j => decide (f.axis ≤ j)) = false) →
      happens (.weaveFrame lane frame) s fun d d' => d' = d.onWeave fun w => { w.count 2 1 with
        arrived := w.arrived ++ [f]
        pos := upd w.pos f.source fun p => { p with slack := some (match p.slack with
          | some t => min t ((f.axis + b.hdr.deadline : Nat) - (d.axis : Int))
          | none => (f.axis + b.hdr.deadline : Nat) - (d.axis : Int)) } }) ∧
  (∀ (s : State) (lane : Nat) (frame : DirectFrame) (b : WeaveBank) (x : Delivered) (f : WeaveFrame),
      deliver s.dev lane frame = some x ∧ f = readWeave x →
      b = s.dev.weave.bankFor s.dev.axis f.axis ∧ s.dev.weave.on = true ∧ frame.cls = 1 ∧ (nth b.maps lane).dim ≠ 0xFF ∧ f.dest = b.hdr.own →
      (f.id ≠ b.hdr.id ∨ f.epoch ≠ b.hdr.epoch ∨ f.shapeCrc ≠ weaveCrc s.dev b) →
      happens (.weaveFrame lane frame) s fun d d' => d' = raiseLimited (d.onWeave fun w => { (w.count 2 1).count 4 1 with shape := true }) EV.weaveShape f.source [a4 f.source]) ∧
  (∀ (s : State) (group : Nat) (b : WeaveBank) (l : List WeaveFrame),
      b = s.dev.weave.bankFor s.dev.axis group ∧ deadlineDue s.dev b group = true →
      l = s.dev.weave.arrived.filter (fun f => (List.range f.groups).any fun j => groupPos s.dev b.hdr.sb f.axis j == group) →
      happens (.weaveDeadline group) s fun d d' => d' = ((feedGroup ((missingFrom d b group).foldl (countMissing b group) d) b group (groupCounts d b group) l).onWeave fun w => { w with
        judged := some group
        arrived := w.arrived.filter fun f => (List.range f.groups).any fun j => decide (group < groupPos d b.hdr.sb f.axis j) }).portMoves 0 (b.inputs * b.ownEntry.count * b.hdr.bytes))

/-- The correlator's commands and stakes do what chapter 10 says. (R350, R360, R363, R365, R374, R376, R377, R378, R497.) -/
def Obligations.CorrelatorCommands : Prop :=
  (∀ (s : State) (h : Hdr) (cfg : XceCfg),
      starts s.dev h (cmd 0x0800 [4, 4, 4, 8, 2]) = true →
      xceSetCheck cfg (found s.dev h) = none →
      completes (.xceSet h cfg) s h (cmd 0x0800 [4, 4, 4, 8, 2]) fun d d' fs => d' = d.onXce (fun x =>
          if x.on then { x with banks := x.banks.write cfg, shdNew := true }
          else { x with
            on := true, banks := { Banks.both cfg with
            index := x.banks.index }, shdNew := false, nextInteg := 0, integs := x.integs.filter (·.st == 1),
            forming := none, ready := [], cuts := [], stopping := none }) ∧
      fs = [fld 4 (passCycles (blocksOf (xceBank d).inputs) (tilesOf cfg) cfg.mode (passSamples cfg (xceBank d))), fld 4 (tenthGB (accLoad d cfg (xceBank d))),
          fld 4 (tenthGB (dramLoad d cfg (xceBank d))), fld 8 (intBytes cfg (xceBank d)),
          fld 2 (if cfg.outMode = 0 then 0 else ((fwdList cfg).map fun l => permille ((fwdLoad d cfg (xceBank d) l).1, (fwdLoad d cfg (xceBank d) l).2 * portRate d l * 1000000)).foldl max 0)]) ∧
  (∀ (s : State) (h : Hdr) (bank : Nat),
      starts s.dev h (ask 0x0801 [48, 4, 4, 4]) = true →
      bank ≤ 1 →
      completes (.xceGet h bank) s h (ask 0x0801 [48, 4, 4, 4]) fun d d' fs => d' = d ∧ fs = xceCfgFields (if bank = 0 then d.xce.banks.cur else d.xce.banks.shd) ++
        [fld 4 (collectStatus d), fld 4 (d.xce.openInt.getD { num := d.xce.nextInteg }).num, fld 4 (d.xce.openInt.getD { num := d.xce.nextInteg }).sets]) ∧
  (∀ (s : State) (h : Hdr),
      starts s.dev h (cmd 0x0802 [4]) = true →
      s.dev.qs.state = 0 ∧ s.dev.xce.on = true ∧ drained (xceHalt s.dev false).xce = true →
      completes (.xceStop h) s h (cmd 0x0802 [4]) fun d d' fs => d' = raiseEv ((xceHalt d false).onXce fun x => { x with on := false, stopping := none }) EV.xceStopped [a4 0] ∧ fs = [fld 4 0]) ∧
  (∀ (s : State) (h : Hdr),
      starts s.dev h (cmd 0x0802 [4]) = true →
      s.dev.qs.state = 0 ∧ s.dev.xce.on = true ∧ drained (xceHalt s.dev false).xce = false →
      begins (.xceStop h) s h (.xceStop) fun d d' => d' = (xceHalt d false).onXce fun x => { x with on := false, stopping := some 0 }) ∧
  (∀ (s : State) (h : Hdr) (number : Nat) (x : Integ),
      starts s.dev h (ask 0x0803 [1, 2, 8, 4, 2, 1, 4]) = true →
      s.dev.xce.integs.find? (·.num == number) = some x →
      completes (.xceIntGet h number) s h (ask 0x0803 [1, 2, 8, 4, 2, 1, 4]) fun d d' fs => d' = d ∧ fs = [fld 1 (integState d x), fld 2 x.handle, fld 8 x.first, fld 4 x.sets, fld 2 x.skipped, fld 1 (b2n x.cutShort), fld 4 x.notReached]) ∧
  (∀ (s : State) (h : Hdr) (first count : Nat),
      starts s.dev h (ask 0x0804 (spanWidths 512 count [4, 4, 4])) = true →
      1 ≤ count ∧ count ≤ 512 ∧ first + count ≤ 16384 →
      completes (.xceInputsGet h first count) s h (ask 0x0804 (spanWidths 512 count [4, 4, 4])) fun d d' fs => d' = d ∧ fs = (List.range count).flatMap fun k =>
      [fld 4 (sat32 ((d.xce.inputCounts.lookup (first + k)).getD {}).zeroed), fld 4 (sat32 ((d.xce.inputCounts.lookup (first + k)).getD {}).masked),
       fld 4 (sat32 ((d.xce.inputCounts.lookup (first + k)).getD {}).thorned)]) ∧
  (∀ (s : State) (h : Hdr) (clear : Nat),
      starts s.dev h (askClear 0x0805 clear [8, 4, 8, 8, 4, 4, 8, 8]) = true →
      clear ≤ 1 →
      completes (.xceCounters h clear) s h (askClear 0x0805 clear [8, 4, 8, 8, 4, 4, 8, 8]) fun d d' fs => d' = (if clear = 1 then d.onXce fun x => { x with counts := [0, 0, 0, 0, 0, 0, 0, 0] } else d) ∧
      fs = ([8, 4, 8, 8, 4, 4, 8, 8].zip d.xce.counts).map fun p => fld p.1 p.2) ∧
  (∀ (s : State) (q : QStake),
      (due 0x0801 (fun e _ => e.xce.on) s.dev q = true) →
      happens .intCut s fun d d' => d' = markDone (qsRequant ((d.onTmb (·.advance q)).onXce fun x => { x with cuts := x.cuts ++ [q.pos] }) q.pos) q) ∧
  (∀ (s : State) (q : QStake),
      (due 0x0802 (fun e _ => e.xce.on) s.dev q = true ∧ s.dev.xce.banks.thornShd = 0) →
      happens .xceSwap s fun d d' => d' = markDone ((d.onTmb (·.advance q)).onXce fun x => { x with
        cuts := x.cuts ++ [q.pos], banks := x.banks.swap (weaveFrees (d.onTmb (·.advance q)) q.pos), swapAt := q.pos, shdNew := false }) q)

/-- Passes, rounds, drains, integrations and readouts go as chapter 10 says. (R351, R352, R354, R356, R357, R364, R365,
R366, R367, R369.) -/
def Obligations.CorrelatorWork : Prop :=
  (∀ (s : State) (x : PassSet) (i : Nat),
      s.dev.xce.pass = none ∧ domOn s.dev 7 = true ∧ s.dev.xce.nextPass = some (x, i) ∧ x.bank.hdr.mode = 0 ∧ s.dev.xce.on = true ∧ unitGap s.dev s.dev.axis = false →
      happens .passStart s fun d d' => d' = beginRound (((d.onXce (·.tookPass)).onXce fun y => { y with passes := y.passes + 1 }).portMoves 1 (x.groups * 1 * x.bank.inputs * xceBytes x.cfg.mode))
        { set := x, inputs := passInputs (d.onXce (·.tookPass)) x i, num := (d.onXce (·.tookPass)).xce.passes, channel := x.bank.ownEntry.first + i, samples := x.groups * 1, seg := 0, round := 0, began := d.now, ends := d.now }) ∧
  (∀ (s : State) (x : PassSet) (i : Nat),
      s.dev.xce.pass = none ∧ domOn s.dev 7 = true ∧ s.dev.xce.nextPass = some (x, i) ∧ unitGap s.dev s.dev.axis = true →
      happens .passStart s fun d d' => d' = raiseLimited ((d.onXce (·.tookPass)).onXce fun y => { (y.onInt x.integ fun j => { j with skipped := j.skipped + 1 }).count 4 1 with skip := true }) EV.xceSkip 0 [a4 1]) ∧
  (∀ (s : State) (p : XcePass),
      s.dev.xce.pass = some p ∧ p.ends ≤ s.dev.now ∧ p.round + 1 < roundCount (blocksOf p.set.bank.inputs) (tilesOf p.set.cfg) →
      happens .roundEnd s fun d d' => d' = beginRound (countStall (d.onXce fun x => { x with
        tiles := x.tiles.map fun t =>
          match t.job with
          | none => t
          | some j => { t with job := none, stallFrom := none, fulls := t.fulls ++ [tileSums d p.set p.samples { j with stalled := j.stalled + t.lost d.now }] }
        rotation := (x.rotation + 1) % max 1 (tilesOf p.set.cfg)
        rounds := x.rounds + 1
        freeAt := if drained x then d.now else x.freeAt }) (d.xce.tiles.map fun t => t.lost d.now).sum) { p with round := p.round + 1 }) ∧
  (∀ (s : State) (p : XcePass),
      s.dev.xce.pass = some p ∧ s.dev.now < p.ends →
      happens .roundEnd s fun d d' => d' = d) ∧
  (∀ (s : State) (dump : TileDump) (j : TileJob) (rest : List TileJob) (x : Integ) (e F : Dev),
      (e = flushOut s.dev ∧ drainNext e.xce = j :: rest ∧ e.xce.integs.find? (fun y => y.num == j.integ) = some x ∧ x.cfg.outMode = 0 ∧ drainOver e.xce e.now (rest.length + 1) = true) →
      dump.parity = [] ∧ dump.thornAcc = [] ∧ ((j :: rest).flatMap (·.marks)).eraseDups = [] →
      (F = (freeBanks (e.onXce fun y => { y with freeAt := e.now }) (j :: rest)).onXce (fun y => { y with stopping := y.stopping.map (· + 1) }) ∧ domOn F 9 = true) →
      happens (.collectorDrain dump) s fun _ d' => ∃ G, G = ((F.onXce fun y => (accumulate y j (((j :: rest).map (·.samples)).sum) (((j :: rest).map (·.stalled)).sum)
          (dumpFlags ((j :: rest).any (·.partialDump)) false false false (decide (0 < ((j :: rest).map (·.stalled)).sum)) (decide (1 < j.parts)) (decide (0 < x.skipped)) ((j :: rest).any (·.filled)))
          (dumpSums (j :: rest) []) [] []).count 6 1).portMoves 2 (if !F.xce.acc.any (fun a => a.integ == j.integ && a.channel == j.channel && a.block == j.block) then 0 else 8192)).portMoves 3 8192 ∧
        d' = stopDone (if G.xce.pass.any (fun p => p.num == j.pass) || G.xce.tiles.any (fun t => t.fulls.any fun k => k.pass == j.pass) then G
          else G.onXce fun y => { y with lastInputs := y.lastInputs.filter fun z => z.1 != j.pass })) ∧
  (∀ (s : State) (x : Integ) (e : Dev) (n : Nat) (f : Dev),
      s.dev.xce.integs.find? (intComplete s.dev.xce) = some x ∧ x.cfg.outMode = 0 ∧ x.cfg.intOut = 0 →
      (e = (loseInt s.dev x.num).onXce (fun y => { y with buffer := 1 - y.buffer, inputCounts := x.inputs }) ∧ e.qs.state = 0) →
      addOut e ((e.owner?.map (·.num)).getD 0) 9 (bytesOf ((intRecords e.xce x).flatMap (accRecord x))) [] true = (n, f) →
      happens .integrationClose s fun _ d' => d' = raiseEv ((if n = 0 then f else sendCounts f x.cfg.dest (if x.cfg.reportLane = 0xFF then 32 else x.cfg.reportLane) x.first x.num x.bank.inputs x.inputs).onXce fun y =>
          y.onInt x.num fun i => { i with st := if i.cfg.outMode = 1 then 2 else 1, handle := n })
        EV.xceInt [a4 x.num, a8 x.first, a4 x.sets, a8 x.closedAt, a4 n]) ∧
  (∀ (s : State) (x : Integ) (a : AccBlock) (l : List AccBlock),
      (s.dev.xce.integs.find? (fun i => i.st == 1 && i.cfg.intOut == 1) = some x ∧ intRecords s.dev.xce x = a :: l ∧ l ≠ [] ∧ s.dev.xce.readAt ≤ s.dev.now) →
      happens .integrationReadout s fun d d' => d' = sendReport (d.onXce fun y => { y with acc := y.acc.erase a, readAt := d.now + recordTicks d x.cfg }) 0x0802 x.first x.cfg.dest (if x.cfg.reportLane = 0xFF then 32 else x.cfg.reportLane) (accRecord x a))

/-- The predistortion commands do what chapter 11 says. (R386, R387, R388, R392, R399, R404, R405, R406, R407.) -/
def Obligations.PredistortionCommands : Prop :=
  (∀ (s : State) (h : Hdr) (mask : Nat) (cfg : DpdCfg),
      starts s.dev h (cmd 0x0900 [1]) = true →
      ((pathsOf mask).any (fun p => !dpdCfgOk s.dev cfg p) = false ∧ domOn s.dev 6 = true) →
      completes (.dpdSet h mask cfg) s h (cmd 0x0900 [1]) fun d d' fs => d' = (pathsOf mask).foldl (fun e p =>
        dpdJudge (if (e.dpdPath p).adapts && !((e.onDpdPath p fun x => { x with cfg := cfg }).dpdPath p).adapts then
            (e.onDpdPath p fun x => { x with cfg := cfg }).onDpdPath p fun x => { x with req := none, svc := x.svc.map fun v => { v with discard := true } }
          else e.onDpdPath p fun x => { x with cfg := cfg }) p) d ∧ fs = [fld 1 (liveOf cfg).nc]) ∧
  (∀ (s : State) (h : Hdr) (path : Nat),
      starts s.dev h (ask 0x0901 [32, 4]) = true →
      path ≤ 63 →
      completes (.dpdGet h path) s h (ask 0x0901 [32, 4]) fun d d' fs => d' = d ∧ fs = dpdCfgFields (d.dpdPath path).cfg ++ [fld 4 (dpdStatus d path)]) ∧
  (∀ (s : State) (h : Hdr) (handle apply o m n mask : Nat),
      starts s.dev h (cmd 0x0902) = true →
      dpdCoefLoadCheck handle apply (found s.dev h) = none →
      dpdHeader (objBytes s.dev handle) = some (o, m, n, mask) →
      completes (.dpdCoefLoad h handle apply) s h (cmd 0x0902) fun d d' fs => d' = consume (((pathsOf mask).zipIdx).foldl (fun e x => e.onDpdPath x.1 fun y =>
          { y with banks := y.banks.write { shape := liveOf y.cfg, coefs := dpdObjectSet (objBytes d handle) (liveOf y.cfg).nc x.2 }, applyAtOpen := apply == 1 }) d) handle ∧ fs = []) ∧
  (∀ (s : State) (h : Hdr) (mask bank : Nat),
      starts s.dev h (ask 0x0903 [2]) = true →
      dpdCoefReadCheck mask bank (found s.dev h) = none →
      completes (.dpdCoefRead h mask bank) s h (ask 0x0903 [2]) fun d d' fs => d' = (addOut d h.session 2 (bytesOf ([fld 1 0x44, fld 1 (d.dpdPath ((pathsOf mask).headD 0)).live.order, fld 1 (d.dpdPath ((pathsOf mask).headD 0)).live.mem,
          fld 1 (d.dpdPath ((pathsOf mask).headD 0)).live.nbrMem, fld 8 mask, fld 4 0] ++
          ((pathsOf mask).flatMap fun p => fullSet (d.dpdPath p).live (if (d.dpdPath p).banks.index = bank then (d.dpdPath p).banks.cur else (d.dpdPath p).banks.shd)).flatMap
            fun c => [sfld 4 c.1, sfld 4 c.2])) [] (domOn d 9)).2 ∧ fs = [fld 2 (newHandle d)]) ∧
  (∀ (s : State) (h : Hdr) (mask overBound : Nat),
      starts s.dev h (cmd 0x0904 [1]) = true →
      (overBound ≤ 1 ∧ (pathsOf mask).any (fun p => !(s.dev.dpdPath p).adapts) = false ∧ domOn s.dev 6 = true) →
      completes (.dpdRequest h mask overBound) s h (cmd 0x0904 [1]) fun d d' fs => d' = (pathsOf mask).foldl (fun e p => dpdRequest e p (overBound == 1)) d ∧
      fs = [fld 1 ((pathsOf mask).filter fun p => (d.dpdPath p).req.isNone).length]) ∧
  (∀ (s : State) (h : Hdr) (path : Nat),
      starts s.dev h (ask 0x0905 [2, 2, 2, 2, 2, 2, 8, 1]) = true →
      path ≤ 63 →
      completes (.dpdMetricGet h path) s h (ask 0x0905 [2, 2, 2, 2, 2, 2, 8, 1]) fun d d' fs => d' = d ∧ fs = ((d.dpdPath path).metrics.map (satfld 2)) ++
        [satfld 2 (match dpdEstimate d path with | some x => divHalfEven x.1 10 | none => 0),
         satfld 2 (match dpdEstimate d path with | some x => divHalfEven (max x.2.1 x.2.2) 10 | none => 0),
         fld 8 (d.dpdPath path).capAxis, fld 1 (d.dpdPath path).backoff]) ∧
  (∀ (s : State) (h : Hdr),
      starts s.dev h (ask 0x0906 [4, 4, 4, 4, 1, 8]) = true →
      completes (.dpdObsStatus h) s h (ask 0x0906 [4, 4, 4, 4, 1, 8]) fun d d' fs => d' = d ∧ fs = ((List.range 4).map fun k => fld 4 (obsStatus d k)) ++ [fld 1 (d.dpd.paths.filter fun x => x.req.isSome).length, fld 8 d.dpd.reservedCount]) ∧
  (∀ (s : State) (h : Hdr) (path clear : Nat),
      starts s.dev h (askClear 0x0907 clear [4, 4, 4, 4, 4, 4, 4, 4]) = true →
      path ≤ 63 ∧ clear ≤ 1 →
      completes (.dpdCounters h path clear) s h (askClear 0x0907 clear [4, 4, 4, 4, 4, 4, 4, 4]) fun d d' fs => d' = (if clear = 1 then d.onDpdPath path fun x => { x with counts := [0, 0, 0, 0, 0, 0, 0, 0] } else d) ∧
      fs = (d.dpdPath path).counts.map fun n => fld 4 (sat32 n)) ∧
  (∀ (s : State) (h : Hdr) (mask : Nat),
      starts s.dev h (cmd 0x0908) = true →
      domOn s.dev 6 = true →
      completes (.dpdReset h mask) s h (cmd 0x0908) fun d d' fs => d' = (pathsOf mask).foldl (fun e p =>
        if (((if (e.dpdPath p).backoff = 0 then e else dpdBackoffTo e p 0).onDpdPath p fun x => { x with resetAtOpen := true, applyAtOpen := false, release := false, base := none }).dpdPath p).adapts
        then dpdRequest ((if (e.dpdPath p).backoff = 0 then e else dpdBackoffTo e p 0).onDpdPath p fun x => { x with resetAtOpen := true, applyAtOpen := false, release := false, base := none }) p true
        else (if (e.dpdPath p).backoff = 0 then e else dpdBackoffTo e p 0).onDpdPath p fun x => { x with resetAtOpen := true, applyAtOpen := false, release := false, base := none }) d ∧ fs = []) ∧
  (∀ (s : State) (h : Hdr) (mask : Nat),
      starts s.dev h (cmd 0x0909) = true →
      domOn s.dev 6 = true →
      completes (.dpdSave h mask) s h (cmd 0x0909) fun d d' fs => d' = (pathsOf mask).foldl dpdSave d ∧ fs = [])

/-- Slots, captures, solves, updates and faults of predistortion go as chapter 11 says. (R385, R390, R392, R394, R395, R397,
R398, R399, R400, R401, R403, R404.) -/
def Obligations.PredistortionLoop : Prop :=
  (∀ (s : State),
      domOn s.dev 6 = true ∧ s.dev.axis % 983040 = 0 ∧ s.dev.dpd.slot ≠ some (slotOf s.dev.axis) →
      (unitGap (dpdSlotEnd (s.dev.onDpd fun x => { x with slot := some (slotOf s.dev.axis), reserved := x.reserved.filter fun n => decide (slotOf s.dev.axis ≤ n) }) (slotOf s.dev.axis * 983040)) (slotOf s.dev.axis * 983040) = false) →
      happens .dpdSlotStart s fun d d' => d' = dpdBackoffs (dpdAssign (dpdReleases (dpdSlotEnd (d.onDpd fun x => { x with
        slot := some (slotOf d.axis), reserved := x.reserved.filter fun n => decide (slotOf d.axis ≤ n) }) (slotOf d.axis * 983040))) (slotOf d.axis * 983040)) (slotOf d.axis * 983040)) ∧
  (∀ (s : State),
      s.dev.dpd.slot = some (slotOf s.dev.axis) →
      happens .dpdSlotStart s fun d d' => d' = d) ∧
  (∀ (s : State) (obs : Nat) (nmse oobLo oobHi : Int) (valid : Bool) (p : Nat) (v : DpdSvc),
      (obsPath s.dev obs = some p ∧ (s.dev.dpdPath p).svc = some v ∧ v.stage = 0 ∧ valid = true ∧ v.discard = false ∧ (s.dev.dpdPath p).banks.cur.pre.any (fun b => decide (b + 300 < nmse)) = false) →
      s.dev.axis ≤ v.start + 737280 ∧ dpdCapturable s.dev p v.start = true ∧ domOn s.dev 3 = true ∧ domOn s.dev 6 = true →
      happens (.captureComplete obs nmse oobLo oobHi valid) s fun d d' => d' = d.onDpdPath p fun x => { x with
        req := none, metrics := [nmse, oobLo, oobHi, nth x.metrics 3], base := some (nmse, oobLo, oobHi), temp0 := paTemp d p, steps := 0
        lastCap := some d.now
        capAxis := d.axis
        svc := some { v with stage := 1, captured := true } }) ∧
  (∀ (s : State) (obs p : Nat) (v : DpdSvc),
      obsPath s.dev obs = some p ∧ (s.dev.dpdPath p).svc = some v ∧ v.stage = 0 ∧ v.start + 737280 ≤ s.dev.axis ∧ (s.dev.dpdPath p).live.nbrMem = 0 ∧ (s.dev.txPath p).gain = 32768 ∧ (s.dev.txPath p).adaptHeld = none →
      happens (.noCapture obs) s fun d d' => d' = dpdCount (d.onDpdPath p fun x => { x with svc := some { v with stage := 2 } }) p 1) ∧
  (∀ (s : State) (obs : Nat) (factorOk : Bool) (predicted : Int) (coefs : Coefs) (p : Nat) (v : DpdSvc),
      obsPath s.dev obs = some p ∧ (s.dev.dpdPath p).svc = some v ∧ v.stage = 1 ∧ domOn s.dev 6 = true ∧ (s.dev.dpdPath p).capAxis + 39322 ≤ s.dev.axis ∧ s.dev.axis ≤ (s.dev.dpdPath p).capAxis + 235930 ∧ v.discard = false ∧ factorOk = false →
      happens (.solveComplete obs factorOk predicted coefs) s fun d d' => d' = dpdJudge (raiseEv (dpdCount ((d.onDpdPath p fun x => { x with svc := some { v with stage := 2 } }).onDpdPath p fun x => { x with sticky := upd x.sticky 1 fun _ => true }) p 3) EV.dpdSolveFail [a4 p]) p) ∧
  (∀ (s : State) (obs : Nat) (factorOk : Bool) (predicted : Int) (coefs : Coefs) (p : Nat) (v : DpdSvc),
      obsPath s.dev obs = some p ∧ (s.dev.dpdPath p).svc = some v ∧ v.stage = 1 ∧ domOn s.dev 6 = true ∧ (s.dev.dpdPath p).capAxis + 39322 ≤ s.dev.axis ∧ s.dev.axis ≤ (s.dev.dpdPath p).capAxis + 235930 ∧ v.discard = true →
      happens (.solveComplete obs factorOk predicted coefs) s fun d d' => d' = dpdJudge (dpdCount (d.onDpdPath p fun x => { x with svc := some { v with stage := 2 } }) p 2) p) ∧
  (∀ (s : State) (obs : Nat) (factorOk : Bool) (predicted : Int) (coefs : Coefs) (p : Nat) (v : DpdSvc) (old new : List (Int × Int)),
      obsPath s.dev obs = some p ∧ (s.dev.dpdPath p).svc = some v ∧ v.stage = 1 ∧ domOn s.dev 6 = true ∧ (s.dev.dpdPath p).capAxis + 39322 ≤ s.dev.axis ∧ s.dev.axis ≤ (s.dev.dpdPath p).capAxis + 235930 ∧ v.discard = false →
      old = fullSet (s.dev.dpdPath p).live (s.dev.dpdPath p).banks.cur ∧ new = (List.range old.length).map (fun k => newCoef (s.dev.dpdPath p).cfg.step (nth old k) (nth coefs.list k)) →
      (factorOk = true ∧ new.any (fun c => decide (131071 < c.1.natAbs) || decide (131071 < c.2.natAbs)) = false ∧ predicted < nth (s.dev.dpdPath p).metrics 0) →
      happens (.solveComplete obs factorOk predicted coefs) s fun d d' => ∃ e, e = raiseEv ((d.onDpdPath p fun x => { x with svc := some { v with stage := 2 } }).onDpdPath p fun x => { x with
          banks := x.banks.write { shape := x.live, coefs := new, pre := some (nth x.metrics 0) }
          swapAt := some (v.start + 983040)
          metrics := upd x.metrics 3 fun _ => predicted
          base := some (predicted, nth x.metrics 1, nth x.metrics 2) }) EV.dpdUpdate [a4 p] ∧
        d' = dpdJudge (if predicted ≤ 10 * (d.dpdPath p).cfg.boundNmse then
          dpdRequest (e.onDpdPath p fun y => { y with release := decide (0 < y.backoff) }) p (dpdOver e p false) else e) p) ∧
  (∀ (s : State) (path t : Nat),
      path < 64 ∧ (s.dev.dpdPath path).adapts = true ∧ domOn s.dev 6 = true ∧ (s.dev.dpdPath path).req = none ∧ (s.dev.dpdPath path).svc = none ∧ (s.dev.dpdPath path).lastCap = none →
      happens (.captureAgeExpiry path) s fun d d' => d' = dpdRequest d path (dpdOver d path false)) ∧
  (∀ (s : State) (path : Nat),
      path ≤ 63 ∧ domOn s.dev 6 = true ∧ (s.dev.dpdPath path).adapts = false →
      happens (.dpdThorn path) s fun d d' => d' = raiseEv (d.onDpdPath path fun x => { x with banks := { x.banks with cur := {}, thornCur := 0 }, sticky := upd x.sticky 3 fun _ => true }) EV.dpdThorn [a4 path]) ∧
  (∀ (s : State) (path : Nat),
      (path ≤ 63 ∧ domOn s.dev 6 = true ∧ (s.dev.dpdPath path).savedAt.any (fun t => decide (s.dev.now < t + 3600 * tickHz)) = false) →
      happens (.dpdAutosave path) s fun d d' => d' = dpdSave d path) ∧
  (∀ (s : State) (q : QStake),
      (due 0x0901 (fun e _ => domOn e 6) s.dev q = true) →
      happens .dpdSwap s fun d d' => d' = markDone ((namedPaths q.stake.target).foldl (dpdSwapOne q.pos q.stake.tag) (d.onTmb (·.advance q))) q) ∧
  (∀ (s : State) (obs : Nat) (faulty : Bool),
      obs ≤ 3 ∧ (nth s.dev.dpd.obs obs).fault ≠ faulty →
      happens (.observerFault obs faulty) s fun d d' => d' = (if faulty then raiseEv (d.onDpd fun x => { x with obs := upd x.obs obs fun o => { o with fault := faulty, faultSeen := o.faultSeen || faulty } }) EV.dpdObsFault [a4 obs]
        else d.onDpd fun x => { x with obs := upd x.obs obs fun o => { o with fault := faulty, faultSeen := o.faultSeen || faulty } }))

/-- The calibration commands do what chapter 12 says. (R412, R414, R429, R432, R433, R434, R435, R437, R440, R441, R442,
R444.) -/
def Obligations.CalibrationCommands : Prop :=
  (∀ (s : State) (h : Hdr) (kinds dT maxInterval runLimit starveLimit : Nat),
      starts s.dev h (cmd 0x0A00) = true →
      kinds % 2 = 0 ∧ kinds ≤ 0x3E ∧ 1 ≤ dT ∧ dT ≤ 15 ∧ 10 ≤ maxInterval ∧ maxInterval ≤ 86400 ∧ 1 ≤ runLimit ∧ runLimit ≤ 600 ∧ 1 ≤ starveLimit ∧ starveLimit ≤ 600 →
      completes (.calConfig h kinds dT maxInterval runLimit starveLimit) s h (cmd 0x0A00) fun d d' fs => d' = d.onCal (fun c => { c with auto := kinds, dT := dT, maxInterval := maxInterval, runLimit := runLimit, starveLimit := starveLimit }) ∧ fs = []) ∧
  (∀ (s : State) (h : Hdr) (kinds position : Nat),
      starts s.dev h (cmd 0x0A01 [1]) = true →
      kinds ≠ 0 ∧ kinds % 2 = 0 ∧ kinds ≤ 0x3E ∧ domOn s.dev 3 = true ∧ domOn s.dev 6 = true ∧ s.dev.cal.runs.length + (newKinds s.dev kinds).length ≤ 8 →
      completes (.calRun h kinds position) s h (cmd 0x0A01 [1]) fun d d' fs => d' = calTrigger d kinds 4 position ∧ fs = [fld 1 (calTrigger d kinds 4 position).cal.runs.length]) ∧
  (∀ (s : State) (h : Hdr),
      starts s.dev h (ask 0x0A02 [4, 8, 2, 1, 8, 2, 1, 8, 2, 1, 8, 2, 1, 8, 2, 1]) = true →
      completes (.calStatus h) s h (ask 0x0A02 [4, 8, 2, 1, 8, 2, 1, 8, 2, 1, 8, 2, 1, 8, 2, 1]) fun d d' fs => d' = d ∧ fs = fld 4 (calStatusWord d) :: d.cal.last.flatMap fun x => [fld 8 x.1, satfld 2 x.2.1, fld 1 x.2.2]) ∧
  (∀ (s : State) (h : Hdr),
      starts s.dev h (cmd 0x0A03 [2]) = true →
      runNow s.dev = none →
      completes (.calAbort h) s h (cmd 0x0A03 [2]) fun d d' fs => d' = d ∧ fs = [fld 2 0]) ∧
  (∀ (s : State) (h : Hdr) (r : CalRun) (a : Nat),
      starts s.dev h (cmd 0x0A03 [2]) = true →
      runNow s.dev = some r ∧ s.dev.cal.step = some (a, false) →
      completes (.calAbort h) s h (cmd 0x0A03 [2]) fun d d' fs => d' = calDiscard (d.onCal fun c => { c with step := none }) ∧ fs = [fld 2 r.done]) ∧
  (∀ (s : State) (h : Hdr) (r : CalRun) (a : Nat),
      starts s.dev h (cmd 0x0A03 [2]) = true →
      runNow s.dev = some r ∧ s.dev.cal.step = some (a, true) →
      begins (.calAbort h) s h (.calAbort) fun d d' => d' = onRun d fun x => { x with aborting := true }) ∧
  (∀ (s : State) (h : Hdr) (dir path : Nat),
      starts s.dev h (ask 0x0A04 [4, 2, 2, 2, 2, 2]) = true →
      dir ≤ 1 ∧ path ≤ 63 →
      completes (.calTrimGet h dir path) s h (ask 0x0A04 [4, 2, 2, 2, 2, 2]) fun d d' fs => d' = d ∧ fs = fld 4 (trimWord d dir path) :: ((List.range 4).map fun n => fld 2 (subPhase d dir path n)) ++ [fld 2 (trimOf d dir path).1.ripple]) ∧
  (∀ (s : State) (h : Hdr) (clear : Nat),
      starts s.dev h (askClear 0x0A12 clear [4, 4, 4, 4, 4, 4, 4]) = true →
      clear ≤ 1 →
      completes (.calCounters h clear) s h (askClear 0x0A12 clear [4, 4, 4, 4, 4, 4, 4]) fun d d' fs => d' = (if clear = 1 then d.onCal fun c => { c with counts := [0, 0, 0, 0, 0, 0, 0] } else d) ∧ fs = d.cal.counts.map fun n => fld 4 (sat32 n)) ∧
  (∀ (s : State) (h : Hdr) (profile band : Nat),
      starts s.dev h (ask 0x0A05 [2]) = true →
      profile ≤ 7 ∧ band ≤ 3 →
      completes (.calTableRead h profile band) s h (ask 0x0A05 [2]) fun d d' fs => d' = (addOut d h.session 4 (tableBytes (profile, band) (calTable d (profile, band))) [] (domOn d 9)).2 ∧ fs = [fld 2 (newHandle d)]) ∧
  (∀ (s : State) (h : Hdr) (handle : Nat) (o : BulkObj) (key : Nat × Nat),
      starts s.dev h (cmd 0x0A06) = true →
      calTableLoadCheck handle (found s.dev h) = none →
      s.dev.obj? handle = some o ∧ key = (beAt o.bytes 1 1, beAt o.bytes 2 1) →
      completes (.calTableLoad h handle) s h (cmd 0x0A06) fun d d' fs => d' = consume (if (List.range 64).any (fun p => calKey (storeTable d key (tableOf o.bytes)) p == key)
        then (storeTable d key (tableOf o.bytes)).onCal fun c => { c with load := some (key, tableOf o.bytes) }
        else (storeTable d key (tableOf o.bytes)).onCal fun c => { c with tables := c.tables.filter fun e => e.1 != key }) handle ∧ fs = []) ∧
  (∀ (s : State) (h : Hdr),
      starts s.dev h (cmd 0x0A07) = true →
      completes (.calSave h) s h (cmd 0x0A07) fun d d' fs => d' = d.cal.tables.foldl (fun e x => storeTable e x.1 x.2) d ∧ fs = []) ∧
  (∀ (s : State) (h : Hdr) (partners : Partners),
      starts s.dev h (cmd 0x0A10) = true →
      otaSetCheck partners (found s.dev h) = none →
      completes (.otaSet h partners) s h (cmd 0x0A10) fun d d' fs => d' = d.onCal (fun c => { c with partners := partners.list.map fun p => { cfg := p } }) ∧ fs = []) ∧
  (∀ (s : State) (h : Hdr) (index : Nat) (p : OtaPartner),
      starts s.dev h (ask 0x0A11 [4, 4, 2, 2, 4, 4, 4]) = true →
      index < s.dev.cal.partners.length ∧ p = nth s.dev.cal.partners index →
      completes (.otaGet h index) s h (ask 0x0A11 [4, 4, 2, 2, 4, 4, 4]) fun d d' fs => d' = d ∧ fs = [satfld 4 (halfTicksPs p.diff), satfld 4 (halfTicksPs p.sum), fld 2 p.rho, satfld 2 (match p.ours with | some x => x.2.2.1 | none => 0),
        fld 4 (match p.ours with | some x => min 0xFFFFFFFF (ageMs d x.2.2.2) | none => 0xFFFFFFFF),
        fld 4 (match p.theirs with | some x => min 0xFFFFFFFF (ageMs d x.2.2.2) | none => 0xFFFFFFFF), satfld 4 p.applied])

/-- Calibration steps, results, writes and limits go as chapter 12 says. (R415, R419, R424, R425, R427, R430, R431, R432,
R433, R434, R440, R444.) -/
def Obligations.CalibrationRuns : Prop :=
  (∀ (s : State),
      s.dev.cal.step = none →
      happens .calStep s fun d d' => d' = planStep d) ∧
  (∀ (s : State) (a : Nat),
      (s.dev.cal.step = some (a, false) ∧ a ≤ s.dev.axis ∧ s.dev.axis < a + 40960 ∧ s.dev.syn.settling = false ∧ unitGap s.dev a = false ∧ (List.range 64).any (fun p => gapAt s.dev p a) = false) →
      stepFree s.dev a = true ∧ domOn s.dev 3 = true ∧ domOn s.dev 6 = true ∧ domOn s.dev 4 = true →
      happens .calStep s fun d d' => d' = beginStep d a) ∧
  (∀ (s : State) (a : Nat),
      s.dev.cal.step = some (a, false) ∧ a ≤ s.dev.axis ∧ stepFree s.dev a = false →
      happens .calStep s fun d d' => d' = calAbandon d) ∧
  (∀ (s : State) (a : Nat),
      s.dev.cal.step = some (a, true) ∧ a + 40960 ≤ s.dev.axis →
      happens .calStep s fun d d' => d' = endStep d) ∧
  (∀ (s : State) (q : QStake),
      (due 0x0A01 (fun _ _ => true) s.dev q = true) →
      happens .calHold s fun d d' => d' = markDone ((d.onTmb (·.advance q)).onCal fun c => { c with
        holds := (c.holds.filter fun e => decide (d.axis < e.2)) ++ [(q.pos, q.pos + q.stake.argument % 2 ^ 32)] }) q) ∧
  (∀ (s : State) (results : CalResults) (r : CalRun) (l : List CalRun) (res : CalResults),
      s.dev.cal.runs = r :: l ∧ stepsOf r.kind ≤ r.done ∧ r.write = none ∧ r.former = none ∧ domOn s.dev 6 = true →
      res = { results with paths := results.paths.map (referred s.dev) } →
      jumpsOf s.dev res ≠ [] →
      happens (.calSolveComplete results) s fun d d' => d' = onRun d fun x => { x with former := some res, done := 0 }) ∧
  (∀ (s : State) (results : CalResults) (r : CalRun) (l : List CalRun) (res : CalResults),
      s.dev.cal.runs = r :: l ∧ stepsOf r.kind ≤ r.done ∧ r.write = none ∧ r.former = none ∧ domOn s.dev 6 = true →
      res = { results with paths := results.paths.map (referred s.dev) } →
      jumpsOf s.dev res = [] ∧ results.unusable = [] →
      happens (.calSolveComplete results) s fun d d' => d' = onRun (d.onCal fun c => { c with fails := updAll (fun _ b => b) 0 c.fails }) fun x => { x with write := some (res, 1, []) }) ∧
  (∀ (s : State) (r : CalRun) (l : List CalRun) (res : CalResults) (outcome : Nat) (fails : List (Nat × Nat)),
      axisIdle s.dev = true ∧ spanFree s.dev s.dev.axis (s.dev.axis + 40960) = true ∧ s.dev.cal.step = none ∧ s.dev.cal.load = none ∧ s.dev.cal.runs = r :: l ∧ r.write = some (res, outcome, fails) →
      happens .calTrimWrite s fun d d' => d' = raiseEv (calCount ((useResults d r.kind res fails).onCal fun c => { c with
        runs := l ++ (if r.requeue then [{ kind := r.kind, since := (useResults d r.kind res fails).now, asked := (useResults d r.kind res fails).now }] else [])
        last := upd c.last (r.kind - 1) fun _ => ((useResults d r.kind res fails).axis, dieMean (useResults d r.kind res fails), outcome)
        lastTemp := if c.auto.testBit r.kind then some (dieMean (useResults d r.kind res fails)) else c.lastTemp
        lastDone := if c.auto.testBit r.kind then (useResults d r.kind res fails).now else c.lastDone
        fails := updAll (fun i b => b && !(res.paths.any fun x => !fails.contains (x.dir, x.path) && x.dir * 64 + x.path == i)) 0 c.fails }) 2) EV.calDone [a4 r.kind]) ∧
  (∀ (s : State) (key : Nat × Nat) (t : CalTable),
      axisIdle s.dev = true ∧ spanFree s.dev s.dev.axis (s.dev.axis + 40960) = true ∧ s.dev.cal.step = none ∧ s.dev.cal.load = some (key, t) ∧ s.dev.cal.runs = [] →
      happens .calTrimWrite s fun d d' => d' = putTable (keepTx (d.onCal fun c => { c with load := none }) ((List.range 64).filter fun p => calKey d p == key)) key t) ∧
  (∀ (s : State) (r : CalRun),
      runNow s.dev = some r ∧ r.first.getD s.dev.now + s.dev.cal.runLimit * 196608000 < s.dev.now ∧ s.dev.cal.step = none →
      happens .calRunTimeout s fun d d' => d' = (restoreAll d).onCal fun c => { c with step := none, runs := c.runs.drop 1 ++ [{ kind := r.kind, since := (restoreAll d).now, asked := (restoreAll d).now }] }) ∧
  (∀ (s : State) (r : CalRun) (l : List CalRun),
      s.dev.cal.runs = r :: l ∧ r.starved = false ∧ s.dev.cal.step = none ∧ r.write = none ∧ r.done < stepsOf r.kind ∧ r.since + s.dev.cal.starveLimit * tickHz ≤ s.dev.now →
      happens .calStarved s fun d d' => d' = calCount (calStick (raiseEv (onRun d fun x => { x with starved := true }) EV.calStarved [a4 r.kind]) 0) 5) ∧
  (∀ (s : State) (t : Int),
      s.dev.cal.lastTemp = some t ∧ s.dev.cal.lastDone + s.dev.cal.maxInterval * tickHz ≤ s.dev.now →
      happens .calInterval s fun d d' => d' = calTrigger d d.cal.auto 2 0)

/-- The synthesisers' commands and FE-STATE-GET do what chapter 13 says. (R450, R451, R454, R455, R459, R460, R480.) -/
def Obligations.SynthesisCommands : Prop :=
  (∀ (s : State) (h : Hdr),
      starts s.dev h (ask 0x0B00 [4, 2, 2]) = true →
      completes (.synStatus h) s h (ask 0x0B00 [4, 2, 2]) fun d d' fs => d' = d ∧ fs = [fld 4 (synStatusWord d), fld 2 (nth d.syn.tunes 0), fld 2 (nth d.syn.tunes 1)]) ∧
  (∀ (s : State) (h : Hdr) (slot k : Nat),
      starts s.dev h (cmd 0x0B01) = true →
      4 ≤ slot ∧ slot ≤ 7 ∧ 1 ≤ k ∧ k ≤ 8 →
      (s.dev.syn.profile ≠ slot ∧ (s.dev.syn.sbState < 2 ∨ s.dev.syn.sbProfile ≠ slot) ∧ hopTo s.dev slot = false ∧ profileNamed s.dev slot = false) →
      completes (.profileDefine h slot k) s h (cmd 0x0B01) fun d d' fs => d' = d.onSyn (fun x => { x with slots := upd x.slots (slot - 4) fun _ => k }) ∧ fs = []) ∧
  (∀ (s : State) (h : Hdr) (profile : Nat),
      starts s.dev h (cmd 0x0B02 [4]) = true →
      profileSetCheck profile (found s.dev h) = none →
      completes (.profileSet h profile) s h (cmd 0x0B02 [4]) fun d d' fs => d' = calNotice (discontinue (replaceAll (d.onSyn fun x => { x with
        profile := profile, settling := true, lock := upd x.lock x.active fun _ => false, recal := false, marginLow := false, marginTold := false }))) ∧
      fs = [fld 4 (if usable d d.syn.active profile then 200 else 2200)]) ∧
  (∀ (s : State) (h : Hdr) (profile : Nat),
      starts s.dev h (cmd 0x0B03 [4]) = true →
      synPrelockCheck profile (found s.dev h) = none →
      profile = 0xFF →
      completes (.synPrelock h profile) s h (cmd 0x0B03 [4]) fun d d' fs => d' = d.onSyn (fun x => { x with sbState := 0, hostHold := false, recal := false, lock := upd x.lock (1 - x.active) fun _ => false }) ∧ fs = [fld 4 0]) ∧
  (∀ (s : State) (h : Hdr) (profile : Nat),
      starts s.dev h (cmd 0x0B03 [4]) = true →
      synPrelockCheck profile (found s.dev h) = none →
      profile ≠ 0xFF →
      begins (.synPrelock h profile) s h (.synLock) fun d d' => d' = d.onSyn fun x => { x with sbState := 2, sbProfile := profile, hostHold := true, recal := false, lock := upd x.lock (1 - x.active) fun _ => false }) ∧
  (∀ (s : State) (h : Hdr) (mask : Nat),
      starts s.dev h (cmd 0x0B04 [1]) = true →
      synCalCheck mask (found s.dev h) = none →
      maskList 8 mask = [] →
      completes (.synCal h mask) s h (cmd 0x0B04 [1]) fun d d' fs => d' = d ∧ fs = [fld 1 0]) ∧
  (∀ (s : State) (h : Hdr) (mask p : Nat) (l : List Nat),
      starts s.dev h (cmd 0x0B04 [1]) = true →
      synCalCheck mask (found s.dev h) = none →
      maskList 8 mask = p :: l →
      begins (.synCal h mask) s h (.synCal l) fun d d' => d' = d.onSyn fun x => { x with sbState := 1, sbProfile := p, recal := false, sbAt := d.now + (l.length + 1) * 4325376, lock := upd x.lock (1 - x.active) fun _ => false }) ∧
  (∀ (s : State) (h : Hdr) (path : Nat),
      starts s.dev h (ask 0x0B05 [4, 4, 4, 4]) = true →
      path ≤ 63 →
      completes (.feStateGet h path) s h (ask 0x0B05 [4, 4, 4, 4]) fun d d' fs => d' = d ∧ fs = fld 4 (feWord d path) :: (nth d.fe path).entries.map fun n => fld 4 (sat32 n))

/-- Locks, settling, loss of lock, hops and recalibration of the synthesisers go as chapter 13 says. (R199, R232, R450,
R451, R452, R453, R455, R456, R457, R458, R480.) -/
def Obligations.SynthesiserLocksAndHops : Prop :=
  (∀ (s : State) (which : Nat),
      which ≤ 1 ∧ domOn s.dev 2 = true ∧ which = s.dev.syn.active ∧ nth s.dev.syn.lock which = false ∧ usable s.dev which s.dev.syn.profile = true →
      happens (.synLock which) s fun d d' => d' = raiseEv (d.onSyn fun x => { x with
        lock := upd x.lock which fun _ => true
        tunes := upd x.tunes which fun t => match nth (nth d.nvm.synRecs which) x.profile with
          | some r => r.tune
          | none => t }) EV.synLock [a4 which, a4 2]) ∧
  (∀ (s : State) (which : Nat),
      which ≤ 1 ∧ domOn s.dev 2 = true ∧ which ≠ s.dev.syn.active ∧ s.dev.syn.sbState = 2 →
      happens (.synLock which) s fun d d' => d' = complete (d.onSyn fun x => { x with sbState := 3, lock := upd x.lock which fun _ => true }) (fun r => r.wait == .synLock) fun _ => {}) ∧
  (∀ (s : State),
      s.dev.syn.settling = true ∧ nth s.dev.syn.lock s.dev.syn.active = true →
      happens .settlingEnd s fun d d' => d' = restoreAll (d.onSyn fun x => { x with settling := false })) ∧
  (∀ (s : State) (which : Nat),
      which ≤ 1 ∧ nth s.dev.syn.lock which = true ∧ which ≠ s.dev.syn.active →
      happens (.lossOfLock which) s fun d d' => d' = (raiseEv (d.onSyn fun x => { x with lock := upd x.lock which fun _ => false, unlockSeen := true }) EV.synLock [a4 which, a4 1]).onSyn fun x => { x with sbState := 0, hostHold := false, recal := false }) ∧
  (∀ (s : State) (which : Nat),
      (which ≤ 1 ∧ nth s.dev.syn.lock which = true ∧ which = s.dev.syn.active ∧ (List.range 64).filter (fun p => txOpenNow s.dev p) = []) →
      happens (.lossOfLock which) s fun d d' => d' = replaceAll ((raiseEv (d.onSyn fun x => { x with lock := upd x.lock which fun _ => false, unlockSeen := true }) EV.synLock [a4 which, a4 1]).onSyn fun x => { x with settling := true })) ∧
  (∀ (s : State) (q : QStake),
      (due 0x0B01 (fun e x => e.syn.sbState == 3 && e.syn.sbProfile == x.stake.argument % 256 && domOn e 2) s.dev q = true) →
      happens .synHop s fun d d' => d' = markDone (calNotice (raiseEv (discontinue (hopGlitch ((exchange (d.onTmb (·.advance q)) q.pos).onSyn fun x => { x with recal := false }))) EV.synHop [a4 q.stake.tag, a4 d.syn.sbProfile])) q) ∧
  (∀ (s : State) (tune : Nat),
      domOn s.dev 2 = true ∧ 25 ≤ tune ∧ tune < 100 ∧ s.dev.syn.hostHold = false ∧ hopQueued s.dev = false ∧ s.dev.syn.sbState ≠ 1 ∧ s.dev.syn.recal = false →
      happens (.synRecalibration tune) s fun d d' => d' = (d.onSyn fun x => { x with tunes := upd x.tunes x.active fun _ => tune, marginLow := true }).onSyn fun x =>
      { x with sbState := 1, sbProfile := x.profile, recal := true, sbAt := d.now + 4325376, lock := upd x.lock (1 - x.active) fun _ => false }) ∧
  (∀ (s : State) (tune : Nat),
      domOn s.dev 2 = false →
      happens (.synRecalibration tune) s fun d d' => d' = d) ∧
  (∀ (s : State),
      s.dev.syn.recal = true ∧ s.dev.syn.sbState = 3 ∧ s.dev.syn.sbProfile = s.dev.syn.profile ∧ s.dev.syn.hostHold = false ∧ hopQueued s.dev = false ∧ axisIdle s.dev = true →
      (spanFree s.dev s.dev.axis (s.dev.axis + 197) = true ∧ s.dev.cal.step = none ∧ unitGap s.dev s.dev.axis = false ∧ (holdSpans s.dev (s.dev.axis + 197)).all (fun e => decide (s.dev.axis + 197 ≤ e.1) || decide (e.2 ≤ s.dev.axis)) = true) →
      happens .synSwap s fun d d' => d' = raiseEv (hopGlitch ((exchange d d.axis).onSyn fun x => { x with
        recal := false
        tunes := upd x.tunes x.active fun t => match nth (nth d.nvm.synRecs x.active) x.profile with
          | some r => r.tune
          | none => t })) EV.synCal [a4 (standby d), a4 d.syn.profile])

/-- The beacon commands do what chapter 13 says, and a beacon is sent, held, muted and ended as it says. (R462, R464, R465,
R467, R475, R476, R477, R478.) -/
def Obligations.BeaconCommands : Prop :=
  (∀ (s : State) (h : Hdr) (cfg : BcnCfg),
      starts s.dev h (cmd 0x0B10 [2]) = true →
      bcnSetCheck cfg (found s.dev h) = none →
      completes (.bcnSet h cfg) s h (cmd 0x0B10 [2]) fun d d' fs => d' = (bcnAbandon d).onBcn (fun b => { b with cfg := cfg }) ∧ fs = [fld 2 (bcnChips ((bcnAbandon d).onBcn fun b => { b with cfg := cfg }))]) ∧
  (∀ (s : State) (h : Hdr),
      starts s.dev h (ask 0x0B11 [32, 4]) = true →
      completes (.bcnGet h) s h (ask 0x0B11 [32, 4]) fun d d' fs => d' = d ∧ fs = bcnCfgFields d.bcn.cfg ++ [fld 4 (bcnStatusWord d)]) ∧
  (∀ (s : State) (h : Hdr) (data : List Nat),
      starts s.dev h (cmd 0x0B12) = true →
      1 ≤ data.length ∧ data.length ≤ 124 →
      completes (.bcnDataSet h data) s h (cmd 0x0B12) fun d d' fs => d' = d.onBcn (fun b => { b with data := data }) ∧ fs = []) ∧
  (∀ (s : State) (h : Hdr),
      starts s.dev h (ask 0x0B13 [2, 2, 2, 3, 8]) = true →
      completes (.bcnStatus h) s h (ask 0x0B13 [2, 2, 2, 3, 8]) fun d d' fs => d' = d ∧ fs = [satfld 2 (d.bcn.floor.getD 0), satfld 2 (d.bcn.low.getD 0), satfld 2 d.bcn.lastE, fld 3 d.bcn.lastSender, fld 8 d.bcn.lastAxis]) ∧
  (∀ (s : State) (h : Hdr) (clear : Nat),
      starts s.dev h (askClear 0x0B14 clear [4, 4, 4, 4, 4, 4, 4, 4, 4, 4, 4, 4, 4]) = true →
      clear ≤ 1 →
      completes (.bcnCounters h clear) s h (askClear 0x0B14 clear [4, 4, 4, 4, 4, 4, 4, 4, 4, 4, 4, 4, 4]) fun d d' fs => d' = (if clear = 1 then d.onBcn fun b => { b with counts := [0, 0, 0, 0, 0, 0, 0, 0, 0, 0, 0, 0, 0] } else d) ∧ fs = d.bcn.counts.map fun n => fld 4 (sat32 n)) ∧
  (∀ (s : State) (q : QStake),
      due 0x0B20 bcnAble s.dev q = true ∧ (markDone (bcnAct (s.dev.onTmb (·.advance q)) q) q).tmb.heldStakes.length ≤ s.dev.tmb.heldStakes.length →
      happens .bcnTx s fun d d' => d' = markDone (bcnAct (d.onTmb (·.advance q)) q) q) ∧
  (∀ (s : State) (t : Nat),
      s.dev.bcn.txUntil = some t ∧ t ≤ s.dev.axis →
      happens .beaconEnd s fun d d' => d' = feFromTx (d.onBcn fun b => { b with txUntil := none }) ((d.bcn.sent.map (·.path)).getD d.bcn.cfg.txPath)) ∧
  (∀ (s : State) (q : QStake),
      (due 0x0B21 (fun e _ => domOn e 2 && domOn e 3 && !e.syn.settling) s.dev q = true) →
      happens .bcnListenOpen s fun d d' => d' = markDone ((d.onTmb (·.advance q)).onBcn fun b => { b with listenOpen := true }) q) ∧
  (∀ (s : State) (q : QStake),
      (due 0x0B22 (fun e _ => domOn e 2 && domOn e 3 && !e.syn.settling) s.dev q = true) →
      happens .bcnListenClose s fun d d' => d' = markDone ((if d.bcn.cfg.rxFlags.testBit 7 then d.onTmb (·.advance q) else bcnAbandon (d.onTmb (·.advance q))).onBcn fun b => { b with listenOpen := false }) q)

/-- Preambles, headers, packets and the noise floor are received as chapter 13 says. (R435, R465, R468, R470, R471, R472,
R473, R474, R479.) -/
def Obligations.BeaconReception : Prop :=
  (∀ (s : State) (energy : Int) (axis : Nat),
      (bcnListening s.dev = true ∧ (nth s.dev.fe s.dev.bcn.cfg.rxPath).st = 1 ∧ s.dev.bcn.floor.any (fun f => decide (energy < f + 10 * s.dev.bcn.cfg.detectMargin)) = false ∧ s.dev.bcn.lock = none) →
      happens (.preambleDetect energy axis) s fun d d' => d' = (bcnCount d 4).onBcn fun b => { b with lock := some { axis := axis, energy := energy } }) ∧
  (∀ (s : State) (energy : Int) (axis : Nat) (l : BcnLock),
      (bcnListening s.dev = true ∧ (nth s.dev.fe s.dev.bcn.cfg.rxPath).st = 1 ∧ s.dev.bcn.floor.any (fun f => decide (energy < f + 10 * s.dev.bcn.cfg.detectMargin)) = false) →
      s.dev.bcn.lock = some l ∧ l.inTail = false ∧ energy < l.energy + 10 * s.dev.bcn.cfg.captureMargin ∧ s.dev.bcn.held = none →
      happens (.preambleDetect energy axis) s fun d d' => d' = (bcnCount d 4).onBcn fun b => { b with held := some (axis, energy), lock := some l }) ∧
  (∀ (s : State) (energy : Int) (axis : Nat) (f : Int),
      s.dev.bcn.floor = some f ∧ energy < f + 10 * s.dev.bcn.cfg.detectMargin →
      happens (.preambleDetect energy axis) s fun d d' => d' = d) ∧
  (∀ (s : State) (l : BcnLock),
      s.dev.bcn.lock = some l ∧ l.hdr = none ∧ syncClose l.axis ≤ s.dev.axis →
      happens .syncWordTimeout s fun d d' => d' = bcnPromote (raiseLimited (bcnCount (d.onBcn fun b => { b with sticky := upd b.sticky 0 fun _ => true }) 5) EV.bcnFalse 0 [a8 d.axis])) ∧
  (∀ (s : State) (hdr : BcnHdr) (l : BcnLock),
      s.dev.bcn.lock = some l ∧ l.hdr = none ∧ l.axis + (128 + 128 * hdr.nr) * 512 ≤ s.dev.axis ∧ hdr.crcOk = true →
      happens (.beaconHeader hdr) s fun d d' => d' = d.onBcn fun b => { b with lock := some { l with hdr := some hdr, inTail := hdr.len == 0 && hdr.tail } }) ∧
  (∀ (s : State) (hdr : BcnHdr) (l : BcnLock),
      s.dev.bcn.lock = some l ∧ l.hdr = none ∧ l.axis + (128 + 128 * hdr.nr) * 512 ≤ s.dev.axis ∧ hdr.crcOk = false →
      happens (.beaconHeader hdr) s fun d d' => d' = bcnFalse (bcnCollide (bcnCount d 9))) ∧
  (∀ (s : State) (pkt : BcnEnd) (l : BcnLock) (k : BcnHdr),
      (s.dev.bcn.lock = some l ∧ l.hdr = some k ∧ l.inTail = false ∧ l.axis + (128 + 128 * k.nr + (if k.len = 0 then 0 else 16 * k.nr * (k.len + 4))) * 512 ≤ s.dev.axis ∧ pkt.crcOk = true ∧ k.tail = false) →
      happens (.beaconPacketEnd pkt) s fun d d' => d' = bcnPromote (bcnReport (takeTheirs d k (pkt.payload.take k.len)) { l with payload := pkt.payload.take k.len, crcFailed := false, collision := false } false)) ∧
  (∀ (s : State) (pkt : BcnEnd) (l : BcnLock) (k : BcnHdr),
      (s.dev.bcn.lock = some l ∧ l.hdr = some k ∧ l.inTail = false ∧ l.axis + (128 + 128 * k.nr + (if k.len = 0 then 0 else 16 * k.nr * (k.len + 4))) * 512 ≤ s.dev.axis ∧ pkt.crcOk = true ∧ k.tail = true) →
      happens (.beaconPacketEnd pkt) s fun d d' => d' = (takeTheirs d k (pkt.payload.take k.len)).onBcn fun b => { b with lock := some { l with payload := pkt.payload.take k.len, crcFailed := false, collision := false, inTail := true } }) ∧
  (∀ (s : State) (mean low : Int),
      bcnListening s.dev = true ∧ s.dev.bcn.floorAt + tickHz ≤ s.dev.now ∧ s.dev.bcn.cfg.rxFlags.testBit 5 = false →
      happens (.noiseFloorReport mean low) s fun d d' => d' = d.onBcn fun b => { b with floor := some mean, low := some low, floorAt := d.now })

/-- The memory commands do what chapter 14 says. (R485, R486, R488, R499, R502, R503, R504, R507, R510, R511, R513, R514.) -/
def Obligations.MemoryCommands : Prop :=
  (∀ (s : State) (h : Hdr),
      starts s.dev h (ask 0x0C00 [4, 4, 4, 4, 4, 4, 4, 8, 8]) = true →
      completes (.memStatus h) s h (ask 0x0C00 [4, 4, 4, 4, 4, 4, 4, 8, 8]) fun d d' fs => d' = d ∧ fs = d.mem.stores.map (fun x => fld 4 x.status) ++ [fld 4 (dramStatus d), fld 8 (dramFree d), fld 8 (weaveHeld d + xceHeld d)]) ∧
  (∀ (s : State) (h : Hdr) (region prot : Nat),
      starts s.dev h (cmd 0x0C01) = true →
      memRegionSetCheck region prot (found s.dev h) = none →
      b2n (nth s.dev.mem.prot region) = prot →
      completes (.memRegionSet h region prot) s h (cmd 0x0C01) fun d d' fs => d' = d ∧ fs = []) ∧
  (∀ (s : State) (h : Hdr) (region prot : Nat),
      starts s.dev h (cmd 0x0C01) = true →
      memRegionSetCheck region prot (found s.dev h) = none →
      nth s.dev.mem.prot region = true ∧ prot = 0 →
      completes (.memRegionSet h region prot) s h (cmd 0x0C01) fun d d' fs => d' = { d with
        mem := { d.mem.forget (0x1000000000 + region * 0x40000000) (0x1000000000 + region * 0x40000000 + 0x40000000) with
          prot := upd d.mem.prot region fun _ => false, undef := (region, d.free) :: d.mem.undef.filter fun e => e.1 != region }
        free := d.free + 1 } ∧ fs = []) ∧
  (∀ (s : State) (h : Hdr) (region prot : Nat),
      starts s.dev h (cmd 0x0C01) = true →
      memRegionSetCheck region prot (found s.dev h) = none →
      nth s.dev.mem.prot region = false ∧ prot = 1 →
      begins (.memRegionSet h region prot) s h (.regionInit region) fun d d' => d' = { d with
        mem := { d.mem.forget (0x1000000000 + region * 0x40000000) (0x1000000000 + region * 0x40000000 + 0x40000000) with
          prot := upd d.mem.prot region fun _ => true, undef := d.mem.undef.filter fun e => e.1 != region, initing := d.mem.initing ++ [region] } }) ∧
  (∀ (s : State) (h : Hdr),
      starts s.dev h (ask 0x0C02 (8 :: List.replicate 64 4)) = true →
      completes (.memRegionGet h) s h (ask 0x0C02 (8 :: List.replicate 64 4)) fun d d' fs => d' = d ∧ fs = fld 8 ((d.mem.prot.zipIdx.map fun x => b2n x.1 * 2 ^ x.2).sum) :: (allocations d).map (fld 4)) ∧
  (∀ (s : State) (h : Hdr) (store period : Nat),
      starts s.dev h (cmd 0x0C03) = true →
      store ≤ 5 →
      completes (.memScrubSet h store period) s h (cmd 0x0C03) fun d d' fs => d' = d.onMem (·.onStore store fun x => { x with period := period, passStart := d.now }) ∧ fs = []) ∧
  (∀ (s : State) (h : Hdr) (start len n : Nat),
      starts s.dev h (cmd 0x0C04 ([8, 8, 8, 8, 8, 8] ++ [5, 5])) = true →
      memScrubRangeCheck start len (found s.dev h) = none →
      storeOf start = some n →
      begins (.memScrubRange h start len) s h (.scrubRange n) fun d d' => d' = d.onMem (·.onStore n fun x => { x with range := some (start, len) })) ∧
  (∀ (s : State) (h : Hdr) (addr kind bit : Nat),
      starts s.dev h (cmd 0x0C05) = true →
      memInjectCheck addr kind bit (found s.dev h) = none →
      completes (.memInject h addr kind bit) s h (cmd 0x0C05) fun d d' fs => d' = d.onMem (fun m =>
        if kind = 1 then m.flip (addr / 8 * 8) bit
        else if kind = 2 then m.putBytes (syndKey + addr / 8 * 8) (Nat.xor (m.synd (addr / 8 * 8)) (2 ^ bit)) 2
        else if kind = 3 then (m.flip (addr / 8 * 8) bit).flip (addr / 8 * 8) ((bit + 9) % 64)
        else m.putBytes (syndKey + addr / 8 * 8) 0xFFFF 2) ∧ fs = []) ∧
  (∀ (s : State) (h : Hdr) (port weight assign chan : Nat),
      starts s.dev h (cmd 0x0C06) = true →
      memPortSetCheck port weight assign chan (found s.dev h) = none →
      completes (.memPortSet h port weight assign chan) s h (cmd 0x0C06) fun d d' fs => d' = d.onMem (fun m => { m with ports := upd m.ports port fun p =>
        if port < 6 then { p with weight := weight } else { p with weight := weight, assign := assign, chan := chan } }) ∧ fs = []) ∧
  (∀ (s : State) (h : Hdr) (port : Nat),
      starts s.dev h (ask 0x0C07 [4, 8, 4, 4]) = true →
      port ≤ 7 →
      completes (.memPortStatus h port) s h (ask 0x0C07 [4, 8, 4, 4]) fun d d' fs => d' = d ∧ fs = [fld 4 (sportStatus d port), fld 8 (nth d.mem.ports port).moved, fld 4 (nth d.mem.ports port).panics, fld 4 (nth d.mem.ports port).overflows]) ∧
  (∀ (s : State) (h : Hdr) (enter autoExit : Nat),
      starts s.dev h (cmd 0x0C09) = true →
      (enter ≤ 1 ∧ autoExit ≤ 1 ∧ domOn s.dev 9 = true ∧ (enter = 0 ∨ anyPortOn s.dev = false)) →
      completes (.memSelfrefresh h enter autoExit) s h (cmd 0x0C09) fun d d' fs => d' = d.onMem (fun m => { m with selfRefresh := enter == 1, autoExit := autoExit == 1 }) ∧ fs = []) ∧
  (∀ (s : State) (h : Hdr) (limit gap cool : Nat),
      starts s.dev h (cmd 0x0C0A) = true →
      512 ≤ limit ∧ limit ≤ 32768 ∧ 1 ≤ gap ∧ gap ≤ 100 ∧ 1 ≤ cool ∧ cool ≤ 1000 →
      completes (.memRowdisturbSet h limit gap cool) s h (cmd 0x0C0A) fun d d' fs => d' = d.onMem (fun m => { m with rdLimit := limit, coolGap := gap, coolDown := cool }) ∧ fs = []) ∧
  (∀ (s : State) (h : Hdr) (store clear : Nat),
      starts s.dev h (askClear 0x0C0B clear (List.replicate 8 8)) = true →
      store ≤ 5 ∧ clear ≤ 1 →
      completes (.memCounters h store clear) s h (askClear 0x0C0B clear (List.replicate 8 8)) fun d d' fs => d' = (if clear = 1 then d.onMem (·.onStore store fun x => { x with counts := [0, 0, 0, 0, 0, 0, 0, 0], uncorr := 0 }) else d) ∧
      fs = (nth d.mem.stores store).counts.map (fld 8)) ∧
  (∀ (s : State) (h : Hdr),
      starts s.dev h (ask 0x0C0C (List.replicate 12 1)) = true →
      completes (.memSelftestGet h) s h (ask 0x0C0C (List.replicate 12 1)) fun d d' fs => d' = d ∧ fs = d.mem.stores.flatMap fun x => [fld 1 (b2n x.failed), fld 1 x.failPat])

/-- Scrubbing, refresh, row disturbance, port panic, set-point and self-refresh go as chapter 14 says. (R486, R487, R490,
R493, R499, R501, R502, R506, R508, R510, R511, R512.) -/
def Obligations.MemoryHappenings : Prop :=
  (∀ (s : State) (store addr base size : Nat),
      storeSpan store = (base, size) ∧ store ≤ 5 ∧ (nth s.dev.mem.stores store).period ≠ 0 ∧ (nth s.dev.mem.stores store).range = none ∧ domOn s.dev (storeDomain store) = true →
      (addr / 8 * 8 + 8 < size ∧ (store ≠ 3 ∨ s.dev.mem.selfRefresh = false) ∧ s.dev.now ≤ (nth s.dev.mem.stores store).passStart + (nth s.dev.mem.stores store).period * tickHz) →
      happens (.scrub store addr) s fun d d' => d' = (scrubWord d store (base + addr / 8 * 8)).onMem (·.onStore store fun x => { x with reached := addr / 8 * 8 + 8 })) ∧
  (∀ (s : State) (store addr : Nat),
      ((nth s.dev.mem.stores store).period = 0 ∨ (nth s.dev.mem.stores store).range.isSome = true) →
      happens (.scrub store addr) s fun d d' => d' = d) ∧
  (∀ (s : State) (store lo n : Nat),
      (nth s.dev.mem.stores store).range = some (lo, n) →
      happens (.scrubRangeDone store) s fun d d' => d' = complete (raiseEv (((dirtyWords d.mem lo n).foldl (fun e a => scrubWord e store a) d).onMem (·.onStore store fun x => { x with range := none })) EV.memScrubDone [a4 store])
        (fun r => r.wait == .scrubRange store) fun _ => { fields := rangeSummary d.mem lo n }) ∧
  (∀ (s : State) (region : Nat),
      s.dev.mem.initing.contains region = true →
      happens (.regionInitDone region) s fun d d' => d' = qsRun (fabWake (complete (d.onMem fun m => { m.forget (0x1000000000 + region * 0x40000000) (0x1000000000 + region * 0x40000000 + 0x40000000) with
          initing := m.initing.filter fun k => k != region }) (fun r => r.wait == .regionInit region) fun _ => {}))) ∧
  (∀ (s : State) (ctrl bank : Nat) (due : Bool),
      ctrl ≤ 3 ∧ domOn s.dev 9 = true ∧ s.dev.mem.selfRefresh = false ∧ due = true ∧ s.dev.mem.ports.any (·.panic) = true ∧ (s.dev.mem.postponed.lookup (ctrl, bank)).getD 0 < 8 →
      happens (.refresh ctrl bank due) s fun d d' => d' = d.onMem fun m => { m.onStore 3 (·.count 7 1) with
        postponed := ((ctrl, bank), (d.mem.postponed.lookup (ctrl, bank)).getD 0 + 1) :: d.mem.postponed.filter fun e => e.1 != (ctrl, bank) }) ∧
  (∀ (s : State) (ctrl bank : Nat) (due : Bool) (k : Nat),
      ctrl ≤ 3 ∧ domOn s.dev 9 = true ∧ s.dev.mem.selfRefresh = false ∧ due = false ∧ s.dev.mem.ports.any (·.panic) = false ∧ s.dev.mem.postponed.lookup (ctrl, bank) = some (k + 2) →
      happens (.refresh ctrl bank due) s fun d d' => d' = d.onMem fun m => { m with postponed := ((ctrl, bank), k + 1) :: d.mem.postponed.filter fun e => e.1 != (ctrl, bank) }) ∧
  (∀ (s : State) (ctrl bank : Nat) (hit : RowHit) (requester : Nat),
      ctrl ≤ 3 ∧ domOn s.dev 9 = true ∧ s.dev.mem.rdLimit ≤ hit.count →
      happens (.rowDisturb ctrl bank hit requester) s fun d d' => d' = raiseEv (d.onMem fun m => { m.onStore 3 (·.count 6 1) with
        rdSeen := true
        limits := (m.limits.filter fun l => !(l.ctrl == ctrl && l.bank == bank && l.requester == requester)) ++ [⟨ctrl, bank, requester, d.now⟩] })
        EV.memRowdisturb [a4 (ctrl * 256 + bank), a4 hit.row, a4 (if requester < 16 then requester else requester - 16)]) ∧
  (∀ (s : State) (ctrl bank requester : Nat),
      happens (.coolDownEnd ctrl bank requester) s fun d d' => d' = d.onMem fun m => { m with limits := m.limits.filter fun l =>
        !(l.ctrl == ctrl && l.bank == bank && l.requester == requester && decide (l.since + m.coolDown * 196608 ≤ d.now)) }) ∧
  (∀ (s : State) (port fill : Nat),
      port ≤ 7 ∧ portOn s.dev port = true ∧ writePort port = true ∧ 192 ≤ fill ∧ fill < 256 ∧ (nth s.dev.mem.ports port).panic = false →
      happens (.streamPortPanic port fill) s fun d d' => d' = raiseLimited (d.onMem fun m => { m with ovfSeen := m.ovfSeen || false, ports := upd m.ports port fun p =>
        { p with fill := fill, panic := true, panics := sat32 (p.panics + 1), overflow := p.overflow || false, overflows := sat32 (p.overflows + 0) } }) EV.memPanic port [a4 port]) ∧
  (∀ (s : State) (port fill : Nat),
      portOn s.dev port = false →
      happens (.streamPortPanic port fill) s fun d d' => d' = d) ∧
  (∀ (s : State) (q : QStake),
      (due 0x0C01 (fun e _ => domOn e 9 && !anyPortOn e) s.dev q = true) →
      happens .memFreq s fun d d' => d' = markDone (raiseEv ((d.onTmb (·.advance q)).onMem fun m => { m with setpoint := q.stake.argument % 2 }) EV.memFreq [a4 (q.stake.argument % 2)]) q) ∧
  (∀ (s : State),
      s.dev.mem.selfRefresh = true ∧ s.dev.mem.autoExit = true ∧ domOn s.dev 9 = true →
      happens .selfRefreshExit s fun d d' => d' = fabWake (d.onMem fun m => { m with selfRefresh := false }))

/-- The bus-matrix commands do what chapter 15 says. (R523, R526, R531, R532, R533, R534, R551.) -/
def Obligations.MatrixCommands : Prop :=
  (∀ (s : State) (h : Hdr),
      starts s.dev h (ask 0x0D00 [4, 1, 4]) = true →
      completes (.fabStatus h) s h (ask 0x0D00 [4, 1, 4]) fun d d' fs => d' = d ∧ fs = [fld 4 d.fab.mode, fld 1 (d.fab.targets.zipIdx.map fun x => b2n x.1.faulted * 2 ^ x.2).sum, fld 4 d.fab.entries]) ∧
  (∀ (s : State) (h : Hdr),
      starts s.dev h (ask 0x0D01 (List.replicate 15 4)) = true →
      completes (.fabHoldGet h) s h (ask 0x0D01 (List.replicate 15 4)) fun d d' fs => d' = d ∧ fs = (List.range 15).map fun n => fld 4 (mstStatus d n)) ∧
  (∀ (s : State) (h : Hdr) (master prio age : Nat),
      starts s.dev h (cmd 0x0D02) = true →
      master ≤ 14 ∧ 16 ≤ age ∧ age ≤ 4096 →
      completes (.fabPrioSet h master prio age) s h (cmd 0x0D02) fun d d' fs => d' = { d with fab := { d.fab with masters := upd d.fab.masters master fun m => { m with prio := prio }, ageLimit := age } } ∧ fs = []) ∧
  (∀ (s : State) (h : Hdr) (target timeout drain : Nat),
      starts s.dev h (cmd 0x0D03) = true →
      target ≤ 7 ∧ 1 ≤ timeout ∧ timeout ≤ 1000 ∧ 1 ≤ drain ∧ drain ≤ 1000 →
      completes (.fabTimingSet h target timeout drain) s h (cmd 0x0D03) fun d d' fs => d' = { d with fab := { d.fab with targets := upd d.fab.targets target fun t => { t with timeout := timeout }, drainLimit := drain } } ∧ fs = []) ∧
  (∀ (s : State) (h : Hdr) (target : Nat),
      starts s.dev h (cmd 0x0D04) = true →
      target ≤ 7 →
      completes (.fabTargetReset h target) s h (cmd 0x0D04) fun d d' fs => d' = d.onTarget target (fun t => { t with faulted := false }) ∧ fs = []) ∧
  (∀ (s : State) (h : Hdr),
      starts s.dev h (cmd 0x0D05 [4]) = true →
      s.dev.fab.layer = 0 →
      begins (.fabRecover h) s h (.fabRecover) fun d d' => d' = enterRecovery d) ∧
  (∀ (s : State) (h : Hdr) (clear : Nat),
      starts s.dev h (askClear 0x0D06 clear (List.replicate 76 4 ++ [8])) = true →
      clear ≤ 1 →
      completes (.fabCounters h clear) s h (askClear 0x0D06 clear (List.replicate 76 4 ++ [8])) fun d d' fs => d' = (if clear = 1 then { d with fab := { d.fab with
          masters := d.fab.masters.map fun m => { m with counts := [0, 0, 0, 0, 0] }, forced := 0, lost := 0 } } else d) ∧
      fs = (d.fab.masters.flatMap fun m => m.counts.map fun n => fld 4 (sat32 n)) ++ [fld 4 (sat32 d.fab.forced), fld 8 d.fab.lost])

/-- Requests, locks, timeouts, recovery and drains go as chapter 15 says. (R519, R523, R525, R526, R527, R530, R532, R533,
R534, R535, R594.) -/
def Obligations.MatrixRequests : Prop :=
  (∀ (s : State) (req : FabReq) (k : Nat),
      0 < req.len ∧ req.len ≤ 4096 ∧ req.master ≤ 14 ∧ domOn s.dev (masterDomain req.master) = true ∧ closed s.dev (masterDomain req.master) = false →
      (s.dev.fab.waiting.any (fun w => w.imposed && w.req == { req with hold := w.req.hold }) = false) →
      takeReq s.dev s.dev.fab.waiting req req.hold = .error k →
      happens (.fabricRequest req) s fun d d' => d' = fabWake (fabError d req k)) ∧
  (∀ (s : State) (req : FabReq) (k t : Nat),
      0 < req.len ∧ req.len ≤ 4096 ∧ req.master ≤ 14 ∧ domOn s.dev (masterDomain req.master) = true ∧ closed s.dev (masterDomain req.master) = false →
      (s.dev.fab.waiting.any (fun w => w.imposed && w.req == { req with hold := w.req.hold }) = false) →
      takeReq s.dev s.dev.fab.waiting req req.hold = .held k t →
      happens (.fabricRequest req) s fun d d' => d' = { d with fab := { d.fab with waiting := d.fab.waiting ++ [{ req := req, code := k, target := t, since := d.now, imposed := k == req.hold }] } }) ∧
  (∀ (s : State) (req : FabReq) (t : Nat),
      0 < req.len ∧ req.len ≤ 4096 ∧ req.master ≤ 14 ∧ domOn s.dev (masterDomain req.master) = true ∧ closed s.dev (masterDomain req.master) = false →
      (s.dev.fab.waiting.any (fun w => w.imposed && w.req == { req with hold := w.req.hold }) = false) →
      takeReq s.dev s.dev.fab.waiting req req.hold = .served t ∧ lockMissed s.dev t req = false →
      happens (.fabricRequest req) s fun d d' => d' = fabWake ((relock (perform d t req).2 t req).onMaster req.master fun m => { m with resp := (perform d t req).1 })) ∧
  (∀ (s : State) (master : Nat),
      happens (.ageLimit master) s fun d d' => d' = { d with fab := { d.fab with waiting := d.fab.waiting.map fun w =>
        if w.req.master = master ∧ w.since + 2 * d.fab.ageLimit ≤ d.now then { w with aged := true } else w } }) ∧
  (∀ (s : State) (target m b since : Nat),
      (nth s.dev.fab.targets target).lock = some (m, b, since) ∧ since + 128 ≤ s.dev.now →
      happens (.lockTimeout target) s fun d d' => d' = fabWake ((lockLost d m { master := m, addr := b * 512, len := 8, write := true }).onTarget target fun x => { x with lock := none })) ∧
  (∀ (s : State) (target master : Nat) (w : FabWait),
      target ≤ 7 ∧ (nth s.dev.fab.targets target).faulted = false →
      (s.dev.fab.waiting.find? (fun x => x.req.master == master && x.target == target && timedOut s.dev x) = some w) →
      happens (.targetTimeout target master) s fun d d' => d' = fabWake (fabError (raiseEv ({ d with fab := { d.fab with waiting := d.fab.waiting.erase w } }.onTarget target fun x =>
        { x with faulted := true }) EV.fabTimeout [a4 target, a4 master]) w.req 2)) ∧
  (∀ (s : State),
      (s.dev.fab.layer = 0 ∧ s.dev.fab.lastGrant + 1966080 ≤ s.dev.now ∧ s.dev.fab.waiting.any (fun w => decide (w.since + 1966080 ≤ s.dev.now)) = true) →
      happens .matrixHang s fun d d' => d' = enterRecovery d) ∧
  (∀ (s : State) (pass : Bool),
      s.dev.fab.layer = 2 ∧ pass = true →
      happens (.recoveryExit pass) s fun d d' => d' = fabWake (complete (raiseEv { d with fab := { d.fab with layer := 0 } } EV.fabRecovery [a4 2]) (fun r => r.wait == .fabRecover)
        fun _ => { fields := [fld 4 (ticksUs (d.now - d.fab.layerSince))] })) ∧
  (∀ (s : State),
      happens .fabMode s fun d d' => d' = { d with fab := { d.fab with mode := 1, layer := if d.fab.layer = 1 then 0 else d.fab.layer } }) ∧
  (∀ (s : State) (master : Nat) (inProgress : Bool),
      master ≤ 14 →
      happens (.masterReset master inProgress) s fun d d' => d' = fabWake (if inProgress then (Machine.discard d master).onMaster master fun x => { x with draining := true } else Machine.discard d master)) ∧
  (∀ (s : State) (dom : Nat),
      s.dev.pwr.steps.head? = some (dom, false) ∧ closed s.dev dom = true ∧ dom ≠ 1 →
      happens (.fabricDrainComplete dom) s fun d d' => d' = stepDone (cutDomain d dom)) ∧
  (∀ (s : State) (dom : Nat),
      s.dev.pwr.steps.head? = some (dom, false) ∧ closed s.dev dom = true ∧ dom = 1 →
      happens (.fabricDrainComplete dom) s fun d d' => d' = toHold d) ∧
  (∀ (s : State) (dom : Nat),
      s.dev.pwr.steps.head? ≠ some (dom, false) →
      happens (.fabricDrainComplete dom) s fun d d' => d' = d) ∧
  (∀ (s : State) (dom writes first : Nat),
      (s.dev.fab.closing.any (fun c => c.1 == dom && decide (c.2 + ceilDiv (s.dev.fab.drainLimit * tickHz) 1000000 ≤ s.dev.now)) = true) →
      happens (.drainLimit dom writes first) s fun d d' => d' = cutStep (raiseEv { d with fab := { d.fab with forced := sat32 (d.fab.forced + 1), lost := sat32 (d.fab.lost + writes) } }
        EV.fabDrainForced [a8 writes, a8 first]) dom)

/-- The DMA commands, channel registers and descriptors do what chapter 15 says. (R536, R537, R539, R540, R541, R546, R547,
R549, R551, R552.) -/
def Obligations.DmaChannels : Prop :=
  (∀ (s : State) (h : Hdr) (chan : Nat) (descs : Descs),
      starts s.dev h (cmd 0x0D10) = true →
      16 ≤ chan ∧ chan ≤ 23 ∧ descs.list.isEmpty = false ∧ descs.list.length ≤ 16 ∧ descs.list.all hostDescOk = true ∧ s.dev.fab.layer = 0 →
      (nth s.dev.dma chan).isFree = true ∧ s.dev.dma.any DmaCh.isFree = true →
      completes (.dmaRun h chan descs) s h (cmd 0x0D10) fun d d' fs => d' = chanEnable ((writeSpan d (hostDescs chan) (descs.list.zipIdx.flatMap fun x =>
        Desc.bytes { x.1 with link := hostDescs chan + 64 * (min (x.2 + 1) (descs.list.length - 1)) + (if x.2 + 1 = descs.list.length then 1 else 0) }) [] []).onChan chan
        fun c => { c with enable := false, desc := hostDescs chan }) chan ∧ fs = []) ∧
  (∀ (s : State) (h : Hdr) (chan : Nat) (descs : Descs),
      starts s.dev h (cmd 0x0D10) = true →
      16 ≤ chan ∧ chan ≤ 23 ∧ descs.list.isEmpty = false ∧ descs.list.length ≤ 16 ∧ descs.list.all hostDescOk = true ∧ s.dev.fab.layer = 0 →
      s.dev.dma.any DmaCh.isFree = false →
      exec (.dmaRun h chan descs) s = .next { s with
        dev := finish ({ found s.dev h with free := s.dev.free + 1 }) h (cmd 0x0D10)
          ({ status := ST.dmaNoChannel, retry := Config.free s.dev.free % 256 ^ 4 }) s.dev.now }) ∧
  (∀ (s : State) (h : Hdr) (chan : Nat),
      starts s.dev h (ask 0x0D11 [4, 5, 4, 2, 2, 2, 4]) = true →
      chan ≤ 31 →
      completes (.dmaChStatus h chan) s h (ask 0x0D11 [4, 5, 4, 2, 2, 2, 4]) fun d d' fs => d' = d ∧ fs = [fld 4 (nth d.dma chan).statusWord, fld 5 (nth d.dma chan).desc, fld 4 (nth d.dma chan).resid,
        fld 2 (nth d.dma chan).i0, fld 2 (nth d.dma chan).i1, fld 2 (nth d.dma chan).i2, fld 4 (nth d.dma chan).csum]) ∧
  (∀ (s : State) (h : Hdr) (chan : Nat),
      starts s.dev h (cmd 0x0D12 [4]) = true →
      chan ≤ 31 ∧ (nth s.dev.dma chan).owner = 1 →
      completes (.dmaChStop h chan) s h (cmd 0x0D12 [4]) fun d d' fs => d' = chanDisable d chan ∧ fs = [fld 4 (nth d.dma chan).resid]) ∧
  (∀ (s : State) (h : Hdr) (chan core : Nat),
      starts s.dev h (cmd 0x0D13) = true →
      (24 ≤ chan ∧ chan ≤ 31 ∧ (core = 0xFF ∨ 4 ≤ core ∧ core ≤ 7) ∧ (nth s.dev.dma chan).enable = false) →
      completes (.dmaChAssign h chan core) s h (cmd 0x0D13) fun d d' fs => d' = assignChan d chan core ∧ fs = []) ∧
  (∀ (s : State) (chan : Nat),
      happens (.dmaChDoorbell chan) s fun d d' => d' = d.onChan chan fun c => { c with append := (c.append + 1) % 65536, reread := c.reread || c.st == 3, st := if c.st = 3 then 1 else c.st }) ∧
  (∀ (s : State) (chan : Nat),
      (nth s.dev.dma chan).enable = false →
      happens (.channelEnable chan) s fun d d' => d' = d.onChan chan fun c => { c with enable := true, st := 1, fetched := none, reread := false, resid := 0, i0 := 0, i1 := 0, i2 := 0, pos := 0 }) ∧
  (∀ (s : State) (chan : Nat),
      (nth s.dev.dma chan).enable = true ∧ (nth s.dev.dma chan).st ≠ 2 ∧ (nth s.dev.dma chan).owner = 1 →
      happens (.channelDisable chan) s fun d d' => d' = raiseEv (chanIrq (d.onChan chan fun c => { c with enable := false, st := 5, last := 4, stopped := true, reread := false }) chan)
        EV.dmaStopped [a4 chan, a4 (nth d.dma chan).resid]) ∧
  (∀ (s : State) (chan : Nat),
      (nth s.dev.dma chan).enable = true ∧ (nth s.dev.dma chan).st = 1 ∧ (nth s.dev.dma chan).reread = false →
      chanMay s.dev (nth s.dev.dma chan) (nth s.dev.dma chan).desc 64 false true = false →
      happens (.descriptorFetch chan) s fun d d' => d' = chanStop d chan 1) ∧
  (∀ (s : State) (chan : Nat) (r : FabResp) (e : Dev),
      (nth s.dev.dma chan).enable = true ∧ (nth s.dev.dma chan).st = 1 ∧ (nth s.dev.dma chan).reread = false →
      chanMay s.dev (nth s.dev.dma chan) (nth s.dev.dma chan).desc 64 false true = true →
      busDo s.dev { master := 10, addr := (nth s.dev.dma chan).desc, len := 64 } = some (none, r, e) ∧ (descOf r.data).ok = false ∧ (r.thorn.isEmpty = true) →
      happens (.descriptorFetch chan) s fun d d' => d' = chanStop e chan 5) ∧
  (∀ (s : State) (chan : Nat) (r : FabResp) (e : Dev),
      (nth s.dev.dma chan).enable = true ∧ (nth s.dev.dma chan).st = 1 ∧ (nth s.dev.dma chan).reread = false →
      chanMay s.dev (nth s.dev.dma chan) (nth s.dev.dma chan).desc 64 false true = true →
      busDo s.dev { master := 10, addr := (nth s.dev.dma chan).desc, len := 64 } = some (none, r, e) ∧ (descOf r.data).ok = true ∧ r.thorn.isEmpty = true →
      happens (.descriptorFetch chan) s fun d d' => d' = e.onChan chan fun c =>
        if (descOf r.data).ctl.testBit 19 then
          { c with st := 2, fetched := some (descOf r.data), sample := c.append, resid := (descOf r.data).total, i0 := 0, i1 := 0, i2 := 0, pos := 0, thornSeen := c.thornSeen || false }
        else { c with
          st := 2, fetched := some (descOf r.data), sample := c.append, resid := (descOf r.data).total, i0 := 0, i1 := 0, i2 := 0, pos := 0,
          thornSeen := c.thornSeen || false, crc := 0xFFFFFFFF, sum := 0, odd := false, sumThorn := false }) ∧
  (∀ (s : State) (chan : Nat) (x : Desc) (a b n : Nat) (r w : FabResp) (e f g : Dev),
      (nth s.dev.dma chan).fetched = some x ∧ (nth s.dev.dma chan).enable = true ∧ (nth s.dev.dma chan).st = 2 ∧ (nth s.dev.dma chan).i2 < x.n2 ∧ burstNext s.dev chan = true →
      burstOf (nth s.dev.dma chan) x = (a, b, n) →
      chanMay s.dev (nth s.dev.dma chan) a n false false = true ∧ chanMay s.dev (nth s.dev.dma chan) b n true false = true →
      g = { s.dev with fab := { s.dev.fab with granted := chan } } ∧ busDo g { master := 10, addr := a, len := n } = some (none, r, e) ∧ r.thorn = [] →
      busDo e { master := 10, addr := b, len := n, write := true, data := r.data } = some (none, w, f) →
      x.ctl.testBit 22 = false →
      happens (.dmaBurst chan) s fun _ d' => d' = (chanPort (chanPort f 6 chan a n) 7 chan b n).onChan chan (·.moved x n r false)) ∧
  (∀ (s : State) (chan : Nat) (x : Desc),
      (nth s.dev.dma chan).fetched = some x ∧ (nth s.dev.dma chan).enable = true ∧ (nth s.dev.dma chan).st = 2 ∧ x.n2 ≤ (nth s.dev.dma chan).i2 →
      x.ctl.testBit 18 = false ∧ x.ctl.testBit 23 = false ∧ x.link % 2 = 0 →
      happens (.descriptorComplete chan) s fun d d' => d' = ((writeBack d chan 0 true).onChan chan fun c => { c with last := 0, descCount := (c.descCount + 1) % 65536, full := c.full || false }).onChan
        chan fun c => { c with st := 1, desc := x.link }) ∧
  (∀ (s : State) (chan : Nat) (x : Desc),
      (nth s.dev.dma chan).fetched = some x ∧ (nth s.dev.dma chan).enable = true ∧ (nth s.dev.dma chan).st = 2 ∧ x.n2 ≤ (nth s.dev.dma chan).i2 →
      x.ctl.testBit 18 = false ∧ x.ctl.testBit 23 = false ∧ x.link % 2 = 1 →
      (nth s.dev.dma chan).owner ≠ 1 ∧ x.ctl.testBit 16 = false ∧ (nth s.dev.dma chan).append = (nth s.dev.dma chan).sample →
      happens (.descriptorComplete chan) s fun d d' => d' = (d.onChan chan fun c => { c with last := 0, descCount := (c.descCount + 1) % 65536, full := c.full || false }).onChan
        chan fun c => { c with st := 3 }) ∧
  (∀ (s : State) (addr value : Nat),
      domOn s.dev (windowDomain addr) = true →
      happens (.registerWrite addr value) s fun d d' => d' = writeReg d addr value 15) ∧
  (∀ (s : State) (addr value : Nat),
      domOn s.dev (windowDomain addr) = false →
      happens (.registerWrite addr value) s fun d d' => d' = d)

/-- The operations of the MAC slot compute what chapter 16 says. (R556, R562, R563, R566, R567, R568, R569, R570, R572.) -/
def Obligations.MacSlotOperations : Prop :=
  (∀ (s : State) (core : Nat),
      macNext s.dev core [(16, 4, 0x0)] = true →
      happens (.macNop core) s fun d d' => d' = (fetched d core).onCore core fun c => c.stage {} 1) ∧
  (∀ (s : State) (core a x y cj : Nat),
      macNext s.dev core [(16, 4, 0x1), (14, 2, a), (9, 5, x), (4, 5, y), (2, 2, cj)] = true →
      happens (.mul core a x y cj) s fun d d' => d' = (fetched d core).onCore core fun c => c.stage { res := [(3, .acc a (product (c.zr x) (c.zr y) cj).1 (product (c.zr x) (c.zr y) cj).2 false)] } 1) ∧
  (∀ (s : State) (core a x y cj : Nat),
      macNext s.dev core [(16, 4, 0x2), (14, 2, a), (9, 5, x), (4, 5, y), (2, 2, cj)] = true →
      happens (.mac core a x y cj) s fun d d' => d' = (fetched d core).onCore core fun c => c.stage { res := [(3, .acc a (satSym accMax ((c.accFwd a).1 + (product (c.zr x) (c.zr y) cj).1)) (satSym accMax ((c.accFwd a).2 + (product (c.zr x) (c.zr y) cj).2)) true)], accSats := satCount accMax ((c.accFwd a).1 + (product (c.zr x) (c.zr y) cj).1) ((c.accFwd a).2 + (product (c.zr x) (c.zr y) cj).2) } 1) ∧
  (∀ (s : State) (core a x y cj : Nat),
      macNext s.dev core [(16, 4, 0x3), (14, 2, a), (9, 5, x), (4, 5, y), (2, 2, cj)] = true →
      happens (.msu core a x y cj) s fun d d' => d' = (fetched d core).onCore core fun c => c.stage { res := [(3, .acc a (satSym accMax ((c.accFwd a).1 - (product (c.zr x) (c.zr y) cj).1)) (satSym accMax ((c.accFwd a).2 - (product (c.zr x) (c.zr y) cj).2)) true)], accSats := satCount accMax ((c.accFwd a).1 - (product (c.zr x) (c.zr y) cj).1) ((c.accFwd a).2 - (product (c.zr x) (c.zr y) cj).2) } 1) ∧
  (∀ (s : State) (core a : Nat),
      macNext s.dev core [(16, 4, 0x4), (14, 2, a)] = true →
      happens (.aclr core a) s fun d d' => d' = (fetched d core).onCore core fun c => c.stage { res := [(3, .acc a 0 0 false)] } 1) ∧
  (∀ (s : State) (core a y : Nat),
      macNext s.dev core [(16, 4, 0x5), (14, 2, a), (4, 5, y)] = true →
      happens (.amov core a y) s fun d d' => d' = (fetched d core).onCore core fun c => c.stage { res := [(3, .acc a (nth c.a (y % 4)).1 (nth c.a (y % 4)).2 false)] } 1) ∧
  (∀ (s : State) (core a y : Nat),
      macNext s.dev core [(16, 4, 0x6), (14, 2, a), (4, 5, y)] = true →
      happens (.aadd core a y) s fun d d' => d' = (fetched d core).onCore core fun c => c.stage { res := [(3, .acc a (satSym accMax ((nth c.a a).1 + (nth c.a (y % 4)).1)) (satSym accMax ((nth c.a a).2 + (nth c.a (y % 4)).2)) false)], accSats := satCount accMax ((nth c.a a).1 + (nth c.a (y % 4)).1) ((nth c.a a).2 + (nth c.a (y % 4)).2) } 1) ∧
  (∀ (s : State) (core a k : Nat),
      macNext s.dev core [(16, 4, 0x7), (14, 2, a), (4, 5, k)] = true →
      happens (.ashr core a k) s fun d d' => d' = (fetched d core).onCore core fun c => c.stage { res := [(3, .acc a ((nth c.a a).1 / 2 ^ k) ((nth c.a a).2 / 2 ^ k) false)] } 1) ∧
  (∀ (s : State) (core a k : Nat),
      macNext s.dev core [(16, 4, 0x8), (14, 2, a), (4, 5, k)] = true →
      happens (.ashl core a k) s fun d d' => d' = (fetched d core).onCore core fun c => c.stage { res := [(3, .acc a (satSym accMax ((nth c.a a).1 * 2 ^ k)) (satSym accMax ((nth c.a a).2 * 2 ^ k)) false)], accSats := satCount accMax ((nth c.a a).1 * 2 ^ k) ((nth c.a a).2 * 2 ^ k) } 1) ∧
  (∀ (s : State) (core a x k : Nat),
      macNext s.dev core [(16, 4, 0x9), (14, 2, a), (9, 5, x), (4, 5, k)] = true →
      happens (.ald core a x k) s fun d d' => d' = (fetched d core).onCore core fun c => c.stage { res := [(3, .acc a (satSym accMax (zI (c.zr x) * 2 ^ k)) (satSym accMax (zQ (c.zr x) * 2 ^ k)) false)], accSats := satCount accMax (zI (c.zr x) * 2 ^ k) (zQ (c.zr x) * 2 ^ k) } 1) ∧
  (∀ (s : State) (core a x k : Nat),
      macNext s.dev core [(16, 4, 0xA), (14, 2, a), (9, 5, x), (4, 5, k)] = true →
      happens (.rnd core a x k) s fun d d' => d' = (fetched d core).onCore core fun c => c.stage { res := [(3, .z x (zWord (satSym 32767 (rnd (nth c.a a).1 k)) (satSym 32767 (rnd (nth c.a a).2 k))))], roundSats := satCount 32767 (rnd (nth c.a a).1 k) (rnd (nth c.a a).2 k) } 1) ∧
  (∀ (s : State) (core a x : Nat),
      macNext s.dev core [(16, 4, 0xB), (14, 2, a), (9, 5, x)] = true →
      happens (.anorm core a x) s fun d d' => d' = (fetched d core).onCore core fun c => c.stage { res := [(3, .z x (min (signBits 40 (nth c.a a).1) (signBits 40 (nth c.a a).2)))] } 1) ∧
  (∀ (s : State) (core a : Nat),
      macNext s.dev core [(16, 4, 0xC), (14, 2, a)] = true →
      happens (.aexp core a) s fun d d' => d' = (fetched d core).onCore core fun c => c.stage { res := [(1, .bx (min c.bx (min (signBits 40 (nth c.a a).1) (signBits 40 (nth c.a a).2))))] } 1)

/-- The arithmetic of the ALU slot computes what chapter 16 says. (R556, R562, R564, R566, R569, R570, R572.) -/
def Obligations.AluArithmetic : Prop :=
  (∀ (s : State) (core : Nat),
      aluNext s.dev core [(16, 6, 0x00)] = true →
      happens (.aluNop core) s fun d d' => d' = d.onCore core fun c => c.stage {} 2) ∧
  (∀ (s : State) (core rd ra rb : Nat),
      aluNext s.dev core [(16, 6, 0x01), (11, 5, rd), (6, 5, ra), (1, 5, rb)] = true →
      happens (.addl core rd ra rb) s fun d d' => d' = d.onCore core fun c => c.stage { res := [(1, .z rd (zWord (satSym 32767 (zI (c.zr ra) + zI (c.zr rb))) (satSym 32767 (zQ (c.zr ra) + zQ (c.zr rb)))))], laneSats := satCount 32767 (zI (c.zr ra) + zI (c.zr rb)) (zQ (c.zr ra) + zQ (c.zr rb)) } 2) ∧
  (∀ (s : State) (core rd ra rb : Nat),
      aluNext s.dev core [(16, 6, 0x02), (11, 5, rd), (6, 5, ra), (1, 5, rb)] = true →
      happens (.subl core rd ra rb) s fun d d' => d' = d.onCore core fun c => c.stage { res := [(1, .z rd (zWord (satSym 32767 (zI (c.zr ra) - zI (c.zr rb))) (satSym 32767 (zQ (c.zr ra) - zQ (c.zr rb)))))], laneSats := satCount 32767 (zI (c.zr ra) - zI (c.zr rb)) (zQ (c.zr ra) - zQ (c.zr rb)) } 2) ∧
  (∀ (s : State) (core rd ra : Nat),
      aluNext s.dev core [(16, 6, 0x03), (11, 5, rd), (6, 5, ra)] = true →
      happens (.negl core rd ra) s fun d d' => d' = d.onCore core fun c => c.stage { res := [(1, .z rd (zWord (satSym 32767 (-zI (c.zr ra))) (satSym 32767 (-zQ (c.zr ra)))))], laneSats := satCount 32767 (-zI (c.zr ra)) (-zQ (c.zr ra)) } 2) ∧
  (∀ (s : State) (core rd ra : Nat),
      aluNext s.dev core [(16, 6, 0x04), (11, 5, rd), (6, 5, ra)] = true →
      happens (.conj core rd ra) s fun d d' => d' = d.onCore core fun c => c.stage { res := [(1, .z rd (zWord (satSym 32767 (zI (c.zr ra))) (satSym 32767 (-zQ (c.zr ra)))))], laneSats := satCount 32767 (zI (c.zr ra)) (-zQ (c.zr ra)) } 2) ∧
  (∀ (s : State) (core rd ra : Nat),
      aluNext s.dev core [(16, 6, 0x05), (11, 5, rd), (6, 5, ra)] = true →
      happens (.swap core rd ra) s fun d d' => d' = d.onCore core fun c => c.stage { res := [(1, .z rd (c.zr ra % 65536 * 65536 + c.zr ra / 65536))] } 2) ∧
  (∀ (s : State) (core rd ra k : Nat),
      aluNext s.dev core [(16, 6, 0x06), (11, 5, rd), (6, 5, ra), (1, 5, k)] = true →
      happens (.shrl core rd ra k) s fun d d' => d' = d.onCore core fun c => c.stage { res := [(1, .z rd (zWord (satSym 32767 (rnd (zI (c.zr ra)) (k))) (satSym 32767 (rnd (zQ (c.zr ra)) (k)))))], roundSats := satCount 32767 (rnd (zI (c.zr ra)) (k)) (rnd (zQ (c.zr ra)) (k)) } 2) ∧
  (∀ (s : State) (core rd ra k : Nat),
      aluNext s.dev core [(16, 6, 0x07), (11, 5, rd), (6, 5, ra), (1, 5, k)] = true →
      happens (.shll core rd ra k) s fun d d' => d' = d.onCore core fun c => c.stage { res := [(1, .z rd (zWord (satSym 32767 (zI (c.zr ra) * 2 ^ k)) (satSym 32767 (zQ (c.zr ra) * 2 ^ k))))], laneSats := satCount 32767 (zI (c.zr ra) * 2 ^ k) (zQ (c.zr ra) * 2 ^ k) } 2) ∧
  (∀ (s : State) (core rd ra rb : Nat),
      aluNext s.dev core [(16, 6, 0x08), (11, 5, rd), (6, 5, ra), (1, 5, rb)] = true →
      happens (.shrv core rd ra rb) s fun d d' => d' = d.onCore core fun c => c.stage { res := [(1, .z rd (zWord (satSym 32767 (rnd (zI (c.zr ra)) (c.zr rb % 32))) (satSym 32767 (rnd (zQ (c.zr ra)) (c.zr rb % 32)))))], roundSats := satCount 32767 (rnd (zI (c.zr ra)) (c.zr rb % 32)) (rnd (zQ (c.zr ra)) (c.zr rb % 32)) } 2) ∧
  (∀ (s : State) (core rd ra rb : Nat),
      aluNext s.dev core [(16, 6, 0x09), (11, 5, rd), (6, 5, ra), (1, 5, rb)] = true →
      happens (.addw core rd ra rb) s fun d d' => d' = d.onCore core fun c => c.stage { res := [(1, .z rd ((c.zr ra + c.zr rb) % 2 ^ 32))] } 2) ∧
  (∀ (s : State) (core rd ra rb : Nat),
      aluNext s.dev core [(16, 6, 0x0A), (11, 5, rd), (6, 5, ra), (1, 5, rb)] = true →
      happens (.subw core rd ra rb) s fun d d' => d' = d.onCore core fun c => c.stage { res := [(1, .z rd ((c.zr ra + 2 ^ 32 - c.zr rb) % 2 ^ 32))] } 2) ∧
  (∀ (s : State) (core rd ra rb : Nat),
      aluNext s.dev core [(16, 6, 0x0B), (11, 5, rd), (6, 5, ra), (1, 5, rb)] = true →
      happens (.and core rd ra rb) s fun d d' => d' = d.onCore core fun c => c.stage { res := [(1, .z rd (Nat.land (c.zr ra) (c.zr rb)))] } 2) ∧
  (∀ (s : State) (core rd ra rb : Nat),
      aluNext s.dev core [(16, 6, 0x0C), (11, 5, rd), (6, 5, ra), (1, 5, rb)] = true →
      happens (.or core rd ra rb) s fun d d' => d' = d.onCore core fun c => c.stage { res := [(1, .z rd (Nat.lor (c.zr ra) (c.zr rb)))] } 2) ∧
  (∀ (s : State) (core rd ra rb : Nat),
      aluNext s.dev core [(16, 6, 0x0D), (11, 5, rd), (6, 5, ra), (1, 5, rb)] = true →
      happens (.xor core rd ra rb) s fun d d' => d' = d.onCore core fun c => c.stage { res := [(1, .z rd (Nat.xor (c.zr ra) (c.zr rb)))] } 2) ∧
  (∀ (s : State) (core rd ra : Nat),
      aluNext s.dev core [(16, 6, 0x0E), (11, 5, rd), (6, 5, ra)] = true →
      happens (.mov core rd ra) s fun d d' => d' = d.onCore core fun c => c.stage { res := [(1, .z rd (c.zr ra))] } 2) ∧
  (∀ (s : State) (core rd ra : Nat),
      aluNext s.dev core [(16, 6, 0x0F), (11, 5, rd), (6, 5, ra)] = true →
      happens (.norm core rd ra) s fun d d' => d' = d.onCore core fun c => c.stage { res := [(1, .z rd (min (signBits 16 (zI (c.zr ra))) (signBits 16 (zQ (c.zr ra)))))] } 2) ∧
  (∀ (s : State) (core ra : Nat),
      aluNext s.dev core [(16, 6, 0x10), (6, 5, ra)] = true →
      happens (.exp core ra) s fun d d' => d' = d.onCore core fun c => c.stage { res := [(1, .bx (min c.bx (min (signBits 16 (zI (c.zr ra))) (signBits 16 (zQ (c.zr ra))))))] } 2) ∧
  (∀ (s : State) (core : Nat),
      aluNext s.dev core [(16, 6, 0x11)] = true →
      happens (.expc core) s fun d d' => d' = d.onCore core fun c => c.stage { res := [(1, .bx 39)] } 2) ∧
  (∀ (s : State) (core ra rb : Nat),
      aluNext s.dev core [(16, 6, 0x12), (6, 5, ra), (1, 5, rb)] = true →
      happens (.cmplt core ra rb) s fun d d' => d' = d.onCore core fun c => c.stage { res := [(1, .flag 0 (decide (toSigned 32 (c.zr ra) < toSigned 32 (c.zr rb))))] } 2) ∧
  (∀ (s : State) (core ra rb : Nat),
      aluNext s.dev core [(16, 6, 0x13), (6, 5, ra), (1, 5, rb)] = true →
      happens (.cmpeq core ra rb) s fun d d' => d' = d.onCore core fun c => c.stage { res := [(1, .flag 0 (c.zr ra == c.zr rb))] } 2) ∧
  (∀ (s : State) (core rd : Nat) (imm : Int),
      aluNext s.dev core [(16, 6, 0x20), (11, 5, rd), (0, 11, ofSigned 11 imm)] = true →
      happens (.lil core rd imm) s fun d d' => d' = d.onCore core fun c => c.stage { res := [(1, .z rd (ofSigned 32 imm))] } 2) ∧
  (∀ (s : State) (core rd : Nat) (imm : Int),
      aluNext s.dev core [(16, 6, 0x21), (11, 5, rd), (0, 11, ofSigned 11 imm)] = true →
      happens (.lis core rd imm) s fun d d' => d' = d.onCore core fun c => c.stage { res := [(1, .z rd (c.zr rd * 2048 % 2 ^ 32 + ofSigned 11 imm))] } 2) ∧
  (∀ (s : State) (core rd : Nat) (imm : Int),
      aluNext s.dev core [(16, 6, 0x22), (11, 5, rd), (0, 11, ofSigned 11 imm)] = true →
      happens (.addi core rd imm) s fun d d' => d' = d.onCore core fun c => c.stage { res := [(1, .z rd ((c.zr rd + ofSigned 32 imm) % 2 ^ 32))] } 2) ∧
  (∀ (s : State) (core ra sr : Nat),
      aluNext s.dev core [(16, 6, 0x28), (6, 5, ra), (0, 6, sr)] = true →
      happens (.mvts core ra sr) s fun d d' => d' = d.onCore core fun c => c.stage { res := [(if sr = 38 ∨ sr = 42 then 1 else 2, .spec sr (c.zr ra))] } 2) ∧
  (∀ (s : State) (core rd sr : Nat),
      aluNext s.dev core [(16, 6, 0x29), (11, 5, rd), (0, 6, sr)] = true →
      happens (.mvfs core rd sr) s fun d d' => d' = d.onCore core fun c => c.stage { res := [(1, .z rd (c.spec sr))] } 2)

/-- The control operations of the ALU slot, TRAP and interrupt entry do what chapter 16 says. (R562, R564, R572, R574, R575,
R576, R578, R579.) -/
def Obligations.AluControl : Prop :=
  (∀ (s : State) (core tgt : Nat),
      aluNext s.dev core [(16, 6, 0x30), (0, 14, tgt)] = true →
      happens (.jmp core tgt) s fun d d' => d' = d.onCore core fun c => c.stage { ctl := .branch tgt } 2) ∧
  (∀ (s : State) (core tgt : Nat),
      aluNext s.dev core [(16, 6, 0x31), (0, 14, tgt)] = true →
      happens (.jf core tgt) s fun d d' => d' = d.onCore core fun c => c.stage { ctl := if c.flags.testBit 0 then .branch tgt else .go } 2) ∧
  (∀ (s : State) (core tgt : Nat),
      aluNext s.dev core [(16, 6, 0x32), (0, 14, tgt)] = true →
      happens (.jnf core tgt) s fun d d' => d' = d.onCore core fun c => c.stage { ctl := if c.flags.testBit 0 then .go else .branch tgt } 2) ∧
  (∀ (s : State) (core tgt : Nat),
      aluNext s.dev core [(16, 6, 0x33), (0, 14, tgt)] = true →
      happens (.call core tgt) s fun d d' => d' = d.onCore core fun c => c.stage { res := [(1, .spec 41 (c.pc + 3))], ctl := .branch tgt } 2) ∧
  (∀ (s : State) (core : Nat),
      aluNext s.dev core [(16, 6, 0x34)] = true →
      happens (.ret core) s fun d d' => d' = d.onCore core fun c => c.stage { ctl := .branch c.lnk } 2) ∧
  (∀ (s : State) (core : Nat),
      aluNext s.dev core [(16, 6, 0x35)] = true →
      happens (.reti core) s fun d d' => d' = d.onCore core fun c => c.stage { ctl := .reti } 2) ∧
  (∀ (s : State) (core level tgt : Nat),
      aluNext s.dev core [(16, 6, 0x36), (15, 1, level), (0, 14, tgt)] = true →
      happens (.loop core level tgt) s fun d d' => d' = d.onCore core fun c => c.stage (if nth c.lc level = 0 then
          { res := [(1, .spec (32 + 3 * level) (c.pc + 1)), (1, .spec (33 + 3 * level) tgt), (1, .flag (2 + level) false)], ctl := .skip (tgt + 1) }
        else { res := [(1, .spec (32 + 3 * level) (c.pc + 1)), (1, .spec (33 + 3 * level) tgt), (1, .flag (2 + level) true)] }) 2) ∧
  (∀ (s : State) (core level : Nat),
      aluNext s.dev core [(16, 6, 0x37), (15, 1, level)] = true →
      happens (.loopx core level) s fun d d' => d' = d.onCore core fun c => c.stage { res := [(1, .flag (2 + level) false)] } 2) ∧
  (∀ (s : State) (core : Nat),
      aluNext s.dev core [(16, 6, 0x38)] = true →
      happens (.ei core) s fun d d' => d' = d.onCore core fun c => c.stage { res := [(1, .flag 1 true)] } 2) ∧
  (∀ (s : State) (core : Nat),
      aluNext s.dev core [(16, 6, 0x39)] = true →
      happens (.di core) s fun d d' => d' = d.onCore core fun c => c.stage { res := [(1, .flag 1 false)] } 2) ∧
  (∀ (s : State) (core : Nat),
      aluNext s.dev core [(16, 6, 0x3A)] = true →
      happens (.wait core) s fun d d' => d' = d.onCore core fun c => c.stage { ctl := .wait } 2) ∧
  (∀ (s : State) (core : Nat),
      aluNext s.dev core [(16, 6, 0x3B)] = true →
      happens (.waitx core) s fun d d' => d' = d.onCore core fun c => c.stage { ctl := .waitx } 2) ∧
  (∀ (s : State) (core : Nat),
      aluNext s.dev core [(16, 6, 0x3C)] = true →
      happens (.halt core) s fun d d' => d' = d.onCore core fun c => c.stage { ctl := .halt } 2) ∧
  (∀ (s : State) (core : Nat) (imm : Int),
      aluNext s.dev core [(16, 6, 0x3D), (0, 11, ofSigned 11 imm)] = true →
      happens (.trap core imm) s fun d d' => d' = coreFault d core 8 0 (ofSigned 16 imm)) ∧
  (∀ (s : State) (core : Nat),
      Core.takes s.dev core 0 = true ∧ (nth s.dev.cores core).irqDue = true →
      happens (.interruptEntry core) s fun d d' => d' = d.onCore core fun c => { c with
        ipc := c.pc, iflags := c.flags, flags := putBit (putBit (putBit c.flags 1 false) 2 false) 3 false, pc := c.img.irqEntry
        counts := upd c.counts 3 (· + 1) })

/-- The load/store slot reads, writes and transfers as chapter 16 says, or faults. (R557, R558, R560, R562, R565, R569,
R572, R579.) -/
def Obligations.LoadsAndStores : Prop :=
  (∀ (s : State) (core z p : Nat) (u : Bool) (off : Int) (k : Nat),
      lsNext s.dev core [(18, 4, 1), (13, 5, z), (10, 3, p), (9, 1, b2n u), (0, 9, ofSigned 9 off)] = true →
      (nth s.dev.cores core).dataAddr p off 4 4 = some k ∧ (readSpan s.dev (dataKey core + k) 4).2.1.isEmpty = true →
      happens (.ldz core z p u off) s fun d d' => d' = closeBundle ((readSpan d (dataKey core + k) 4).2.2.onCore core fun c => c.stage {
        res := [(4, .z z (be (readSpan d (dataKey core + k) 4).1))] ++ (nth d.cores core).post p u } 0) core) ∧
  (∀ (s : State) (core z p : Nat) (u : Bool) (off : Int),
      lsNext s.dev core [(18, 4, 1), (13, 5, z), (10, 3, p), (9, 1, b2n u), (0, 9, ofSigned 9 off)] = true →
      (nth s.dev.cores core).dataAddr p off 4 4 = none →
      happens (.ldz core z p u off) s fun d d' => d' = coreFault d core 2 ((nth d.cores core).faultAt p off 4) 0) ∧
  (∀ (s : State) (core z p : Nat) (u : Bool) (off : Int) (k : Nat),
      lsNext s.dev core [(18, 4, 1), (13, 5, z), (10, 3, p), (9, 1, b2n u), (0, 9, ofSigned 9 off)] = true →
      (nth s.dev.cores core).dataAddr p off 4 4 = some k ∧ (readSpan s.dev (dataKey core + k) 4).2.1.isEmpty = false →
      happens (.ldz core z p u off) s fun d d' => d' = coreFault (readSpan d (dataKey core + k) 4).2.2 core 3 k 0) ∧
  (∀ (s : State) (core z p : Nat) (u : Bool) (off : Int) (k : Nat),
      lsNext s.dev core [(18, 4, 2), (13, 5, z), (10, 3, p), (9, 1, b2n u), (0, 9, ofSigned 9 off)] = true →
      (nth s.dev.cores core).dataAddr p off 8 8 = some k ∧ (readSpan s.dev (dataKey core + k) 8).2.1.isEmpty = true →
      happens (.ldd core z p u off) s fun d d' => d' = closeBundle ((readSpan d (dataKey core + k) 8).2.2.onCore core fun c => c.stage {
        res := [(4, .z z (be ((readSpan d (dataKey core + k) 8).1.take 4))), (4, .z (z + 1) (be ((readSpan d (dataKey core + k) 8).1.drop 4)))] ++ (nth d.cores core).post p u } 0) core) ∧
  (∀ (s : State) (core z p : Nat) (u : Bool) (off : Int) (k : Nat),
      lsNext s.dev core [(18, 4, 5), (13, 5, z), (10, 3, p), (9, 1, b2n u), (0, 9, ofSigned 9 off)] = true →
      (nth s.dev.cores core).dataAddr p off 2 2 = some k ∧ (readSpan s.dev (dataKey core + k) 2).2.1.isEmpty = true →
      happens (.ldh core z p u off) s fun d d' => d' = closeBundle ((readSpan d (dataKey core + k) 2).2.2.onCore core fun c => c.stage {
        res := [(4, .z z (be (readSpan d (dataKey core + k) 2).1 * 65536))] ++ (nth d.cores core).post p u } 0) core) ∧
  (∀ (s : State) (core z p : Nat) (u : Bool) (off : Int) (k : Nat),
      lsNext s.dev core [(18, 4, 7), (13, 5, z), (10, 3, p), (9, 1, b2n u), (0, 9, ofSigned 9 off)] = true →
      (nth s.dev.cores core).dataAddr p off 1 1 = some k ∧ (readSpan s.dev (dataKey core + k) 1).2.1.isEmpty = true →
      happens (.ld4 core z p u off) s fun d d' => d' = closeBundle ((readSpan d (dataKey core + k) 1).2.2.onCore core fun c => c.stage {
        res := [(4, .z z (zWord (compOfBits 4 (be (readSpan d (dataKey core + k) 1).1 / 16)) (compOfBits 4 (be (readSpan d (dataKey core + k) 1).1 % 16))))] ++ (nth d.cores core).post p u } 0) core) ∧
  (∀ (s : State) (core z p : Nat) (u : Bool) (off : Int) (k : Nat),
      lsNext s.dev core [(18, 4, 8), (13, 5, z), (10, 3, p), (9, 1, b2n u), (0, 9, ofSigned 9 off)] = true →
      (nth s.dev.cores core).dataAddr p off 2 2 = some k ∧ (readSpan s.dev (dataKey core + k) 2).2.1.isEmpty = true →
      happens (.ld8 core z p u off) s fun d d' => d' = closeBundle ((readSpan d (dataKey core + k) 2).2.2.onCore core fun c => c.stage {
        res := [(4, .z z (zWord (compOfBits 8 (be (readSpan d (dataKey core + k) 2).1 / 256)) (compOfBits 8 (be (readSpan d (dataKey core + k) 2).1 % 256))))] ++ (nth d.cores core).post p u } 0) core) ∧
  (∀ (s : State) (core z p : Nat) (u : Bool) (off : Int) (k : Nat),
      lsNext s.dev core [(18, 4, 9), (13, 5, z), (10, 3, p), (9, 1, b2n u), (0, 9, ofSigned 9 off)] = true →
      (nth s.dev.cores core).dataAddr p off 3 1 = some k ∧ (readSpan s.dev (dataKey core + k) 3).2.1.isEmpty = true →
      happens (.ld12 core z p u off) s fun d d' => d' = closeBundle ((readSpan d (dataKey core + k) 3).2.2.onCore core fun c => c.stage {
        res := [(4, .z z (zWord (compOfBits 12 (be (readSpan d (dataKey core + k) 3).1 / 4096)) (compOfBits 12 (be (readSpan d (dataKey core + k) 3).1 % 4096))))] ++ (nth d.cores core).post p u } 0) core) ∧
  (∀ (s : State) (core z p : Nat) (u : Bool) (off : Int) (k : Nat),
      lsNext s.dev core [(18, 4, 3), (13, 5, z), (10, 3, p), (9, 1, b2n u), (0, 9, ofSigned 9 off)] = true →
      (nth s.dev.cores core).dataAddr p off 4 4 = some k →
      happens (.stz core z p u off) s fun d d' => d' = closeBundle ((writeSpan d (dataKey core + k) (beBytes 4 ((nth d.cores core).zr z)) [] []).onCore core fun c => c.stage {
        res := (nth d.cores core).post p u } 0) core) ∧
  (∀ (s : State) (core z p : Nat) (u : Bool) (off : Int) (k : Nat),
      lsNext s.dev core [(18, 4, 4), (13, 5, z), (10, 3, p), (9, 1, b2n u), (0, 9, ofSigned 9 off)] = true →
      (nth s.dev.cores core).dataAddr p off 8 8 = some k →
      happens (.std core z p u off) s fun d d' => d' = closeBundle ((writeSpan d (dataKey core + k) (beBytes 4 ((nth d.cores core).zr z) ++ beBytes 4 ((nth d.cores core).zr (z + 1))) [] []).onCore core fun c => c.stage {
        res := (nth d.cores core).post p u } 0) core) ∧
  (∀ (s : State) (core z p : Nat) (u : Bool) (off : Int) (k : Nat),
      lsNext s.dev core [(18, 4, 6), (13, 5, z), (10, 3, p), (9, 1, b2n u), (0, 9, ofSigned 9 off)] = true →
      (nth s.dev.cores core).dataAddr p off 2 2 = some k →
      happens (.sth core z p u off) s fun d d' => d' = closeBundle ((writeSpan d (dataKey core + k) (beBytes 2 (((nth d.cores core).zr z) / 65536)) [] []).onCore core fun c => c.stage {
        res := (nth d.cores core).post p u } 0) core) ∧
  (∀ (s : State) (core z p : Nat) (u : Bool) (off : Int) (k : Nat),
      lsNext s.dev core [(18, 4, 0xA), (13, 5, z), (10, 3, p), (9, 1, b2n u), (0, 9, ofSigned 9 off)] = true →
      (nth s.dev.cores core).dataAddr p off 3 1 = some k →
      happens (.st12 core z p u off) s fun d d' => d' = closeBundle ((writeSpan d (dataKey core + k) (beBytes 3 (ofSigned 12 (satSym 2047 (rnd (zI ((nth d.cores core).zr z)) 4)) * 4096 + ofSigned 12 (satSym 2047 (rnd (zQ ((nth d.cores core).zr z)) 4)))) [] []).onCore core fun c => c.stage {
        res := (nth d.cores core).post p u, roundSats := satCount 2047 (rnd (zI ((nth d.cores core).zr z)) 4) (rnd (zQ ((nth d.cores core).zr z)) 4) } 0) core) ∧
  (∀ (s : State) (core : Nat),
      lsNext s.dev core [(18, 4, 0)] = true →
      happens (.lsNop core) s fun d d' => d' = closeBundle (d.onCore core fun c => c.stage {} 0) core) ∧
  (∀ (s : State) (core z p : Nat) (u : Bool) (off : Int) (fa k : Nat),
      lsNext s.dev core [(18, 4, 0xD), (13, 5, z), (10, 3, p), (9, 1, b2n u), (0, 9, ofSigned 9 off)] = true →
      (nth s.dev.cores core).aperture ((nth s.dev.cores core).zr z) 64 false = some fa ∧ (nth s.dev.cores core).dataAddr p off 64 64 = some k →
      (nth s.dev.cores core).zr z % 64 = 0 ∧ (nth s.dev.cores core).xfers.length < 8 →
      happens (.xrd core z p u off) s fun d d' => d' = closeBundle ((d.onCore core fun c => { c with xfers := c.xfers ++ [{ write := false, addr := fa, off := k, data := [], thorn := [] }] }).onCore core fun c =>
          c.stage { res := (nth d.cores core).post p u } 0) core) ∧
  (∀ (s : State) (core z p : Nat) (u : Bool) (off : Int),
      lsNext s.dev core [(18, 4, 0xD), (13, 5, z), (10, 3, p), (9, 1, b2n u), (0, 9, ofSigned 9 off)] = true →
      (nth s.dev.cores core).aperture ((nth s.dev.cores core).zr z) 64 false = none →
      happens (.xrd core z p u off) s fun d d' => d' = coreFault d core 5 ((nth d.cores core).zr z) 0) ∧
  (∀ (s : State) (core z p : Nat) (u : Bool) (off : Int) (fa k : Nat),
      lsNext s.dev core [(18, 4, 0xE), (13, 5, z), (10, 3, p), (9, 1, b2n u), (0, 9, ofSigned 9 off)] = true →
      (nth s.dev.cores core).aperture ((nth s.dev.cores core).zr z) 64 true = some fa ∧ (nth s.dev.cores core).dataAddr p off 64 64 = some k →
      (nth s.dev.cores core).zr z % 64 = 0 ∧ (nth s.dev.cores core).xfers.length < 8 →
      happens (.xwr core z p u off) s fun d d' => d' = closeBundle (((xferIn true d (dataKey core + k)).2.2.onCore core fun c => { c with
          xfers := c.xfers ++ [{ write := true, addr := fa, off := k, data := (xferIn true d (dataKey core + k)).1, thorn := (xferIn true d (dataKey core + k)).2.1.map fun w => (w - (dataKey core + k)) / 8 }] }).onCore core fun c =>
          c.stage { res := (nth d.cores core).post p u } 0) core) ∧
  (∀ (s : State) (core z p : Nat) (u : Bool) (off : Int),
      lsNext s.dev core [(18, 4, 0xE), (13, 5, z), (10, 3, p), (9, 1, b2n u), (0, 9, ofSigned 9 off)] = true →
      (nth s.dev.cores core).aperture ((nth s.dev.cores core).zr z) 64 true = none →
      happens (.xwr core z p u off) s fun d d' => d' = coreFault d core 5 ((nth d.cores core).zr z) 0)

/-- IORD, IOWR and the registers of the I/O space do what chapter 16 says. (R555, R560, R562, R565, R576, R578, R583.) -/
def Obligations.CoreIoSpace : Prop :=
  (∀ (s : State) (core z : Nat) (off : Int) (v : Nat) (e : Dev),
      lsNext s.dev core [(18, 4, 0xB), (13, 5, z), (0, 9, ofSigned 9 off)] = true →
      0 ≤ off ∧ ioRead s.dev core (off.toNat * 4) = some (v, e) →
      (256 ≤ off.toNat * 4 ∧ off.toNat * 4 < 384 → ((nth s.dev.cores core).xfers.any (·.write)) = false) →
      happens (.iord core z off) s fun d d' => d' = closeBundle (e.onCore core fun c => c.stage { res := [(4, .z z v)] } 0) core) ∧
  (∀ (s : State) (core z : Nat) (off : Int),
      lsNext s.dev core [(18, 4, 0xB), (13, 5, z), (0, 9, ofSigned 9 off)] = true →
      0 ≤ off ∧ ioRead s.dev core (off.toNat * 4) = none →
      (256 ≤ off.toNat * 4 ∧ off.toNat * 4 < 384 → ((nth s.dev.cores core).xfers.any (·.write)) = false) →
      happens (.iord core z off) s fun d d' => d' = coreFault d core 2 (off.toNat * 4) 0) ∧
  (∀ (s : State) (core z : Nat) (off : Int) (e : Dev),
      lsNext s.dev core [(18, 4, 0xC), (13, 5, z), (0, 9, ofSigned 9 off)] = true →
      0 ≤ off ∧ ioWrite s.dev core (off.toNat * 4) ((nth s.dev.cores core).zr z) = some e →
      (256 ≤ off.toNat * 4 ∧ off.toNat * 4 < 384 → ((nth s.dev.cores core).xfers.any (·.write)) = false) →
      happens (.iowr core z off) s fun d d' => d' = closeBundle (e.onCore core fun c => c.stage {} 0) core) ∧
  (∀ (s : State) (core z : Nat),
      lsNext s.dev core [(18, 4, 0xB), (13, 5, z), (0, 9, 2)] = true →
      happens (.axisLo core z) s fun d d' => d' = closeBundle ((d.onCore core fun c => { c with axisHi := d.axis / 2 ^ 32 % 2 ^ 32 }).onCore core fun c => c.stage { res := [(4, .z z (d.axis % 2 ^ 32))] } 0) core) ∧
  (∀ (s : State) (core z : Nat),
      lsNext s.dev core [(18, 4, 0xB), (13, 5, z), (0, 9, 4)] = true →
      happens (.cycLo core z) s fun d d' => d' = closeBundle ((d.onCore core fun c => { c with cycHi := c.cycles d.now / 2 ^ 32 % 2 ^ 32 }).onCore core fun c => c.stage { res := [(4, .z z ((nth d.cores core).cycles d.now % 2 ^ 32))] } 0) core) ∧
  (∀ (s : State) (core z : Nat),
      lsNext s.dev core [(18, 4, 0xB), (13, 5, z), (0, 9, 0x80)] = true →
      (nth s.dev.cores core).img.sports.testBit 0 = false →
      happens (.sportDataPop core z) s fun d d' => d' = closeBundle ((d).onCore core fun c => c.stage { res := [(4, .z z (0))] } 0) core) ∧
  (∀ (s : State) (core z k : Nat),
      lsNext s.dev core [(18, 4, 0xB), (13, 5, z), (0, 9, 0x80)] = true →
      (nth s.dev.cores core).img.sports.testBit 0 = true ∧ (nth s.dev.cores core).ringAt 0 false = some k ∧ domOn s.dev 9 = true ∧ storeOf k = some 3 →
      happens (.sportDataPop core z) s fun d d' => d' = closeBundle ((readSpan ((d.onCore core fun c => c.ringNext 0).portMoves 6 4) k 4).2.2.onCore core fun c => c.stage {
        res := [(4, .z z (be (readSpan ((d.onCore core fun c => c.ringNext 0).portMoves 6 4) k 4).1))] } 0) core) ∧
  (∀ (s : State) (core value z : Nat),
      lsNext s.dev core [(18, 4, 0xC), (13, 5, z), (0, 9, 0x84)] = true →
      (nth s.dev.cores core).zr z = value →
      happens (.sportDataPush core value) s fun d d' => d' = closeBundle ((sportPush d core value).onCore core fun c => c.stage {} 0) core) ∧
  (∀ (s : State) (core value z : Nat),
      lsNext s.dev core [(18, 4, 0xC), (13, 5, z), (0, 9, 7)] = true →
      (nth s.dev.cores core).zr z = value →
      happens (.wdt core value) s fun d d' => d' = closeBundle ((d.onCore core fun c => { c with wdtAt := d.now }).onCore core fun c => c.stage {} 0) core) ∧
  (∀ (s : State) (core value z : Nat),
      lsNext s.dev core [(18, 4, 0xC), (13, 5, z), (0, 9, 0x30)] = true →
      (nth s.dev.cores core).zr z = value ∧ (nth s.dev.cores core).lastSend = none →
      happens (.msgSend core value) s fun d d' => d' = closeBundle ((raiseEv (d.onCore core fun c => { c with lastSend := some d.now }) EV.appletMsg ((nth d.cores core).msgOut.map a4)).onCore
        core fun c => c.stage {} 0) core) ∧
  (∀ (s : State) (core value z t : Nat),
      lsNext s.dev core [(18, 4, 0xC), (13, 5, z), (0, 9, 0x30)] = true →
      (nth s.dev.cores core).zr z = value ∧ (nth s.dev.cores core).lastSend = some t ∧ s.dev.now < t + 196608 →
      happens (.msgSend core value) s fun d d' => d' = closeBundle ((d.onCore core fun c => { c with counts := upd c.counts 5 (· + 1) }).onCore core fun c => c.stage {} 0) core)

/-- The applet commands do what chapter 16 says: load, start, stop, unload, read, write, message, status. (R554, R559, R579,
R580, R581, R582, R583, R584, R585, R586.) -/
def Obligations.AppletCommands : Prop :=
  (∀ (s : State) (h : Hdr) (handle core : Nat) (bases : List Nat) (sig : Bool),
      starts s.dev h (cmd 0x0E00 [4, 1, 1]) = true →
      appletLoadCheck handle core bases sig (found s.dev h) = none →
      completes (.appletLoad h handle core bases sig) s h (cmd 0x0E00 [4, 1, 1]) fun d d' fs => d' = consume (appletPut d core (objBytes d handle) bases) handle ∧
      fs = [fld 4 (beAt (objBytes d handle) 4 4), fld 1 ((nth d'.cores core).chans[0]?.getD 0xFF), fld 1 ((nth d'.cores core).chans[1]?.getD 0xFF)]) ∧
  (∀ (s : State) (h : Hdr) (core : Nat),
      starts s.dev h (cmd 0x0E01) = true →
      4 ≤ core ∧ core ≤ 7 ∧ (nth s.dev.cores core).startable = true →
      completes (.appletStart h core) s h (cmd 0x0E01) fun d d' fs => d' = d.onCore core (fun c => { c with
        st := 2, pc := c.img.entry, flags := 0, startAt := d.now, wdtAt := d.now, waitx := false, slot := 0, staged := [], ctl := .go
        redirects := [], inflight := [] }) ∧ fs = []) ∧
  (∀ (s : State) (h : Hdr) (core : Nat),
      starts s.dev h (cmd 0x0E02 [2, 8]) = true →
      4 ≤ core ∧ core ≤ 7 ∧ (nth s.dev.cores core).live = true →
      completes (.appletStop h core) s h (cmd 0x0E02 [2, 8]) fun d d' fs => d' = raiseEv (coreHalt d core 4) EV.appletStopped [a4 core] ∧ fs = [fld 2 (nth d'.cores core).pc, fld 8 (nth d'.cores core).ran]) ∧
  (∀ (s : State) (h : Hdr) (core : Nat),
      starts s.dev h (cmd 0x0E03) = true →
      4 ≤ core ∧ core ≤ 7 ∧ (nth s.dev.cores core).st ≠ 0 →
      completes (.appletUnload h core) s h (cmd 0x0E03) fun d d' fs => d' = ((freeChans (if (nth d.cores core).live then appletStop d core else d) core).onMem (·.forget (dataKey core) (dataKey core + 0x100000))).onCore core
        (fun c => { ({} : Core) with counts := c.counts, issued := c.issued, loadSec := c.loadSec, loadNow := c.loadNow, loadPrev := c.loadPrev }) ∧ fs = []) ∧
  (∀ (s : State) (h : Hdr) (core : Nat),
      starts s.dev h (ask 0x0E04 ([4, 1, 2, 2, 5, 8, 8] ++ List.replicate 20 1)) = true →
      4 ≤ core ∧ core ≤ 7 →
      completes (.appletStatus h core) s h (ask 0x0E04 ([4, 1, 2, 2, 5, 8, 8] ++ List.replicate 20 1)) fun d d' fs => d' = d ∧ fs = [fld 4 (nth d.cores core).statusWord, fld 1 (nth d.cores core).cause, fld 2 (nth d.cores core).trap, fld 2 (nth d.cores core).faultPc,
        fld 5 (nth d.cores core).faultAddr, fld 8 (nth d.cores core).faultAxis, fld 8 ((nth d.cores core).cycles d.now)] ++ byteFields (nth d.cores core).img.name) ∧
  (∀ (s : State) (h : Hdr) (core : Nat) (msg : List Nat),
      starts s.dev h (cmd 0x0E05) = true →
      4 ≤ core ∧ core ≤ 7 ∧ (nth s.dev.cores core).live = true →
      completes (.appletMsg h core msg) s h (cmd 0x0E05) fun d d' fs => d' = coreIrq (d.onCore core fun c => { c with msgIn := msg }) core 1 ∧ fs = []) ∧
  (∀ (s : State) (h : Hdr) (core offset len : Nat),
      starts s.dev h (ask 0x0E06 (spanWidths 8192 len [1])) = true →
      4 ≤ core ∧ core ≤ 7 ∧ offset % 8 = 0 ∧ 1 ≤ len ∧ len ≤ 8192 ∧ offset + len ≤ 0x80000 →
      (nth s.dev.cores core).live = false ∧ domOn s.dev 6 = true ∧ (readSpan (found s.dev h) (dataKey core + offset) len).2.1 = [] →
      completes (.appletMemRead h core offset len) s h (ask 0x0E06 (spanWidths 8192 len [1])) fun d d' fs => d' = (readSpan d (dataKey core + offset) len).2.2 ∧ fs = byteFields (readSpan d (dataKey core + offset) len).1) ∧
  (∀ (s : State) (h : Hdr) (core offset : Nat) (data : List Nat),
      starts s.dev h (cmd 0x0E07) = true →
      4 ≤ core ∧ core ≤ 7 ∧ offset % 8 = 0 ∧ 1 ≤ data.length ∧ data.length ≤ 8192 ∧ offset + data.length ≤ 0x80000 →
      (nth s.dev.cores core).live = false ∧ domOn s.dev 6 = true →
      completes (.appletMemWrite h core offset data) s h (cmd 0x0E07) fun d d' fs => d' = writeSpan d (dataKey core + offset) data [] [] ∧ fs = []) ∧
  (∀ (s : State) (h : Hdr),
      starts s.dev h (ask 0x0E08 (List.replicate 8 4 ++ List.replicate 8 2)) = true →
      completes (.coreStatus h) s h (ask 0x0E08 (List.replicate 8 4 ++ List.replicate 8 2)) fun d d' fs => d' = (freshMany 4 d).2 ∧ fs = d.cores.map (fun c => fld 4 c.statusWord) ++ ((freshMany 4 d).1.map fun n => fld 2 (n % 1001)) ++ (d.cores.drop 4).map fun c => fld 2 (c.load d.now)) ∧
  (∀ (s : State) (h : Hdr) (core clear : Nat),
      starts s.dev h (askClear 0x0E09 clear [8, 4, 4, 4, 4, 4, 4]) = true →
      4 ≤ core ∧ core ≤ 7 ∧ clear ≤ 1 →
      completes (.appletCounters h core clear) s h (askClear 0x0E09 clear [8, 4, 4, 4, 4, 4, 4]) fun d d' fs => d' = (if clear = 1 then d.onCore core fun c => { c with bundles := 0, counts := [0, 0, 0, 0, 0, 0] } else d) ∧
      fs = fld 8 (nth d.cores core).bundles :: (nth d.cores core).counts.map fun n => fld 4 (sat32 n))

/-- Transfers, the watchdog, the stakes of applets and stream-port marks act as chapter 16 says. (R560, R576, R578, R579,
R580, R583.) -/
def Obligations.AppletHappenings : Prop :=
  (∀ (s : State) (core : Nat),
      (nth s.dev.cores core).xfers = [] →
      happens (.transferDone core) s fun d d' => d' = d) ∧
  (∀ (s : State) (core : Nat) (x : Xfer) (r : FabResp) (e : Dev),
      (nth s.dev.cores core).xfers = [x] ∧ x.write = true →
      busDo s.dev { master := 2 + core, addr := x.addr, len := 64, write := x.write, data := x.data, thorn := x.thorn } = some (none, r, e) →
      happens (.transferDone core) s fun d d' => d' = (coreIrq (e.onCore core fun c => { c with xfers := [], counts := upd c.counts 4 (· + 1) }) core 6).onCore core fun c =>
        if c.st = 3 ∧ c.waitx then { c with st := 2, waitx := false } else c) ∧
  (∀ (s : State) (core addr : Nat),
      (nth s.dev.cores core).live = true ∧ (nth s.dev.cores core).xfers.any (·.addr == addr) = true →
      happens (.transferError core addr) s fun d d' => d' = coreFault (d.onCore core fun c => { c with xfers := c.xfers.eraseP (·.addr == addr) }) core 6 addr 0) ∧
  (∀ (s : State) (core : Nat),
      (nth s.dev.cores core).live = true ∧ (nth s.dev.cores core).img.watchdog ≠ 0 ∧ (nth s.dev.cores core).wdtAt + 2048 * (nth s.dev.cores core).img.watchdog ≤ s.dev.now →
      happens (.watchdogExpiry core) s fun d d' => d' = coreFault d core 9 0 0) ∧
  (∀ (s : State) (core : Nat),
      (nth s.dev.cores core).img.watchdog = 0 →
      happens (.watchdogExpiry core) s fun d d' => d' = d) ∧
  (∀ (s : State) (q : QStake),
      (due 0x0E01 (fun e x => domOn e 6 && (nth e.cores (x.stake.target % 8)).startable) s.dev q = true) →
      happens .appletGo s fun d d' => d' = markDone (coreStart (d.onTmb (·.advance q)) (q.stake.target % 8)) q) ∧
  (∀ (s : State) (q : QStake),
      (due 0x0E02 (fun e x => domOn e 6 && (nth e.cores (x.stake.target % 8)).live) s.dev q = true) →
      happens .appletTick s fun d d' => d' = markDone (coreIrq (d.onTmb (·.advance q)) (q.stake.target % 8) 0) q) ∧
  (∀ (s : State) (core port : Nat),
      port = 6 ∧ (nth s.dev.cores core).live = true ∧ (nth s.dev.cores core).img.sports.testBit 0 = true ∧ nth (nth s.dev.cores core).mark 0 ≤ (nth s.dev.mem.ports port).fill * 128 →
      happens (.sportMark core port) s fun d d' => d' = coreIrq d core 4) ∧
  (∀ (s : State) (core port : Nat),
      port = 7 ∧ (nth s.dev.cores core).live = true ∧ (nth s.dev.cores core).img.sports.testBit 1 = true ∧ (nth s.dev.mem.ports port).fill * 128 ≤ nth (nth s.dev.cores core).mark 1 →
      happens (.sportMark core port) s fun d d' => d' = coreIrq d core 5)

/-- The power and bias commands do what chapter 17 says. (R32, R591, R594, R596, R597, R598, R600, R601, R614, R615.) -/
def Obligations.PowerCommands : Prop :=
  (∀ (s : State) (h : Hdr),
      starts s.dev h (ask 0x0F00 [4, 4, 4, 2, 2]) = true →
      completes (.pwrStatus h) s h (ask 0x0F00 [4, 4, 4, 2, 2]) fun d d' fs => d' = d ∧ fs = [fld 4 (pwrStatus d), sfld 4 (nth d.pwr.chans 85).last, sfld 4 (nth d.pwr.chans 86).last, sfld 2 (nth d.pwr.chans 90).last, fld 2 d.pwr.cap]) ∧
  (∀ (s : State) (h : Hdr) (state force : Nat),
      starts s.dev h (cmd 0x0F01 [4]) = true →
      pwrStateSetCheck state force (found s.dev h) = none →
      force = 0 →
      completes (.pwrStateSet h state force) s h (cmd 0x0F01 [4]) fun d d' fs => d' = (if (beginTransition d state (transitionUs d state)).pwr.steps.isEmpty then settle (beginTransition d state (transitionUs d state))
        else beginTransition d state (transitionUs d state)) ∧ fs = [fld 4 (transitionUs d state)]) ∧
  (∀ (s : State) (h : Hdr) (cap : Nat),
      starts s.dev h (cmd 0x0F02) = true →
      60 ≤ cap ∧ cap ≤ 290 →
      completes (.pwrCapSet h cap) s h (cmd 0x0F02) fun d d' fs => d' = d.onPwr (fun p => { p with cap := cap }) ∧ fs = []) ∧
  (∀ (s : State) (h : Hdr),
      starts s.dev h (ask 0x0F03 [1, 1, 4, 8]) = true →
      completes (.pwrRecordGet h) s h (ask 0x0F03 [1, 1, 4, 8]) fun d d' fs => d' = d ∧ fs = [fld 1 d.pwr.record.cause, fld 1 d.pwr.record.channel, sfld 4 d.pwr.record.reading, fld 8 d.pwr.record.axis]) ∧
  (∀ (s : State) (h : Hdr) (clear : Nat),
      starts s.dev h (askClear 0x0F32 clear (List.replicate 7 4)) = true →
      clear ≤ 1 →
      completes (.pwrCounters h clear) s h (askClear 0x0F32 clear (List.replicate 7 4)) fun d d' fs => d' = (if clear = 1 then d.onPwr fun p => { p with counts := List.replicate 7 0 } else d) ∧ fs = d.pwr.counts.map (fld 4)) ∧
  (∀ (s : State) (h : Hdr) (dac code span : Nat),
      starts s.dev h (cmd 0x0F10 [8]) = true →
      biasSetCheck dac code span (found s.dev h) = none →
      span = 0xFF →
      completes (.biasSet h dac code span) s h (cmd 0x0F10 [8]) fun d d' fs => d' = biasPlace d dac (d.axis / 512 * 512 + 512) code ∧ fs = [fld 8 (d.axis / 512 * 512 + 512)]) ∧
  (∀ (s : State) (h : Hdr) (dac code span : Nat),
      starts s.dev h (cmd 0x0F10 [8]) = true →
      biasSetCheck dac code span (found s.dev h) = none →
      span ≠ 0xFF →
      completes (.biasSet h dac code span) s h (cmd 0x0F10 [8]) fun d d' fs => d' = biasPlace (d.onDac dac fun x => { x with span := span }) dac (d.axis / 512 * 512 + 512) code ∧ fs = [fld 8 (d.axis / 512 * 512 + 512)]) ∧
  (∀ (s : State) (h : Hdr) (dac : Nat),
      starts s.dev h (ask 0x0F11 [4, 2, 4, 2]) = true →
      dac ≤ 135 →
      completes (.biasGet h dac) s h (ask 0x0F11 [4, 2, 4, 2]) fun d d' fs => d' = d ∧ fs = [fld 4 (nth d.pwr.dacs dac).word, fld 2 (nth d.pwr.dacs dac).safe, sfld 4 (nth d.pwr.dacs dac).mv,
        fld 2 (if dac < 64 then (nth d.pwr.dacs dac).floor else 0)]) ∧
  (∀ (s : State) (h : Hdr) (dac : Nat) (codes : List Nat),
      starts s.dev h (cmd 0x0F12) = true →
      dac ≤ 133 ∧ codes.isEmpty = false ∧ codes.length ≤ 32 ∧ codes.any (overFloor s.dev dac) = false →
      ((queued s.dev).any (fun q => q.stake.action == 0x0F02 && (biasDacs q.stake.target).contains dac) = false) →
      completes (.biasRampLoad h dac codes) s h (cmd 0x0F12) fun d d' fs => d' = d.onDac dac (fun x => { x with ramp := codes }) ∧ fs = []) ∧
  (∀ (s : State) (h : Hdr) (dac code : Nat),
      starts s.dev h (cmd 0x0F13) = true →
      dac ≤ 133 ∧ overFloor s.dev dac code = false →
      completes (.biasSafeSet h dac code) s h (cmd 0x0F13) fun d d' fs => d' = journal { d.onDac dac (fun x => { x with safe := code }) with nvm := { d.nvm with safe := upd d.nvm.safe dac fun _ => code } }
        1 5 dac (bytesOf [fld 2 code]) (.safe dac (nth d.nvm.safe dac)) ∧ fs = [])

/-- Supply, restarts, domains, the cap, the bias queues and PPS_OUT go as chapter 17 says. (R426, R588, R589, R590, R591,
R592, R593, R594, R607, R613, R646, R649.) -/
def Obligations.SupplyAndDomains : Prop :=
  (∀ (s : State),
      s.dev.pwr.powered = false →
      happens .powerGood s fun d d' => d' = beginBoot { d.restart true with pwr := { powered := true, dacs := (d.restart true).pwr.dacs }, tmb := {} } 0) ∧
  (∀ (s : State) (mv : Nat) (e : Dev),
      mv < 33000 ∧ domOn s.dev 0 = true ∧ s.dev.pwr.failed = false →
      (e = shutdown ((raiseEv (s.dev.onPwr fun p => { p with failSeen := true, ovSeen := p.ovSeen || false, uvSeen := p.uvSeen || true }) EV.pwrFail [a4 mv]).pwrCount 0 1) 3 85 mv) →
      happens (.undervoltage mv) s fun d d' => d' = e.onPwr fun p => { p with failed := true, failAt := e.now }) ∧
  (∀ (s : State) (mv : Nat),
      33000 ≤ mv →
      happens (.undervoltage mv) s fun d d' => d' = d) ∧
  (∀ (s : State) (mv : Nat) (e : Dev),
      62000 < mv ∧ domOn s.dev 0 = true ∧ s.dev.pwr.failed = false →
      (e = shutdown ((raiseEv (s.dev.onPwr fun p => { p with failSeen := true, ovSeen := p.ovSeen || true, uvSeen := p.uvSeen || false }) EV.pwrFail [a4 mv]).pwrCount 0 1) 3 85 mv) →
      happens (.overvoltage mv) s fun d d' => d' = e.onPwr fun p => { p with failed := true, failAt := e.now }) ∧
  (∀ (s : State) (mv : Nat),
      mv ≤ 62000 →
      happens (.overvoltage mv) s fun d d' => d' = d) ∧
  (∀ (s : State) (mv : Nat),
      s.dev.pwr.failed = true ∧ 36000 ≤ mv ∧ mv ≤ 60000 ∧ s.dev.pwr.failAt + tickHz ≤ s.dev.now →
      domOn s.dev 0 = true →
      happens (.supplyRecovery mv) s fun d d' => d' = beginBoot ((d.restart true).onPwr fun p => { p with failed := false }) 4) ∧
  (∀ (s : State) (mv : Nat),
      s.dev.pwr.failed = true ∧ 36000 ≤ mv ∧ mv ≤ 60000 ∧ s.dev.pwr.failAt + tickHz ≤ s.dev.now →
      domOn s.dev 0 = false →
      happens (.supplyRecovery mv) s fun d d' => d' = beginBoot { d.restart true with pwr := { powered := true, dacs := (d.restart true).pwr.dacs }, tmb := {} } 0) ∧
  (∀ (s : State) (mv : Nat),
      (mv < 36000 ∨ 60000 < mv ∨ s.dev.now < s.dev.pwr.failAt + tickHz) →
      happens (.supplyRecovery mv) s fun d d' => d' = d) ∧
  (∀ (s : State),
      happens .reversePolarity s fun d d' => d'.pwr.domains = List.replicate 10 false ∧ d'.ctl.phase = .held ∧ d'.nvm = (nvmStop d).nvm ∧ d'.ident = d.ident) ∧
  (∀ (s : State),
      domOn s.dev 0 = true →
      happens .resetPin s fun d d' => d' = { d.restart false with ctl := { (d.restart false).ctl with phase := .held, cause := 1 } }) ∧
  (∀ (s : State),
      s.dev.ctl.phase = .held ∧ s.dev.ctl.cause = 1 ∧ s.dev.pwr.failed = false →
      happens .resetRelease s fun d d' => d' = beginBoot d 1) ∧
  (∀ (s : State),
      s.dev.pwr.down = true ∧ s.dev.pwr.failed = false ∧ s.dev.pwr.record.cause = 1 ∧ cooled s.dev = true →
      happens .thermalRestart s fun d d' => d' = beginBoot (d.restart true) 3) ∧
  (∀ (s : State),
      s.dev.pwr.record.cause ≠ 1 →
      happens .thermalRestart s fun d d' => d' = d) ∧
  (∀ (s : State) (dom : Nat) (fails : List Nat),
      s.dev.pwr.steps.head? = some (dom, true) →
      happens (.domainReady dom fails) s fun d d' => d' = stepDone (fabWake (domainStarts (selfTests (setDomain d dom true) dom fails) dom))) ∧
  (∀ (s : State) (dom : Nat) (fails : List Nat),
      s.dev.pwr.steps.head? ≠ some (dom, true) →
      happens (.domainReady dom fails) s fun d d' => d' = d) ∧
  (∀ (s : State) (mean : Nat),
      10 * s.dev.pwr.cap < mean ∧ s.dev.pwr.capLevel < 8 →
      s.dev.axis % s.dev.tmb.frameLen = 0 ∧ s.dev.pwr.capAt ≠ some s.dev.axis →
      happens (.powerCap mean) s fun d d' => d' = relevel ((raiseEv (d.onPwr fun p => { p with capAt := some d.axis, capLevel := d.pwr.capLevel + 1 }) EV.pwrCap [a4 (d.pwr.capLevel + 1)]).pwrCount 2 1)) ∧
  (∀ (s : State) (mean : Nat),
      100 * mean < 950 * s.dev.pwr.cap ∧ 1 ≤ s.dev.pwr.capLevel →
      s.dev.axis % s.dev.tmb.frameLen = 0 ∧ s.dev.pwr.capAt ≠ some s.dev.axis →
      happens (.powerCap mean) s fun d d' => d' = relevel (raiseEv (d.onPwr fun p => { p with capAt := some d.axis, capLevel := d.pwr.capLevel - 1 }) EV.pwrCap [a4 (d.pwr.capLevel - 1)])) ∧
  (∀ (s : State) (mean : Nat),
      mean ≤ 10 * s.dev.pwr.cap ∧ 950 * s.dev.pwr.cap ≤ 100 * mean →
      s.dev.axis % s.dev.tmb.frameLen = 0 ∧ s.dev.pwr.capAt ≠ some s.dev.axis →
      happens (.powerCap mean) s fun d d' => d' = d.onPwr fun p => { p with capAt := some d.axis }) ∧
  (∀ (s : State) (mean : Nat),
      (s.dev.axis % s.dev.tmb.frameLen ≠ 0 ∨ s.dev.pwr.capAt = some s.dev.axis) →
      happens (.powerCap mean) s fun d d' => d' = d) ∧
  (∀ (s : State) (on beacon : Bool),
      on = true ∧ beacon = false ∧ domOn s.dev 2 = true ∧ domOn s.dev 4 = false ∧ s.dev.cal.runs.isEmpty = false →
      happens (.domainBorrow on beacon) s fun d d' => d' = fabWake ((txStart (setDomain d 4 true)).onPwr fun p => { p with borrowed := p.borrowed ++ [4] })) ∧
  (∀ (s : State) (on beacon : Bool),
      on = false ∧ beacon = false ∧ s.dev.pwr.borrowed = [4] ∧ borrowBusy s.dev 4 = false →
      happens (.domainBorrow on beacon) s fun d d' => d' = cutDomain d 4) ∧
  (∀ (s : State),
      happens .ppsFight s fun d d' => d' = raiseEv (((d.onTmb fun t => { t with ppsEnable := false, ppsLevel := false }).onPwr fun p => { p with ppsFight := true }).pwrCount 6 1) EV.pwrPpsFight []) ∧
  (∀ (s : State),
      s.dev.axis % 512 = 0 →
      happens .biasQueueStep s fun d d' => d' = (List.range 136).foldl (fun d n => d.onDac n fun x =>
        { x with code := (x.queue.filter fun e => decide (e.1 ≤ d.axis)).foldl (fun _ e => e.2) x.code, queue := x.queue.filter fun e => decide (d.axis < e.1) }) d) ∧
  (∀ (s : State),
      s.dev.axis % 512 ≠ 0 →
      happens .biasQueueStep s fun d d' => d' = d) ∧
  (∀ (s : State) (q : QStake) (l : List QStake),
      (stakesInOrder s.dev (s.dev.tmb.stakes.filter fun x => x.trig.isSome && (x.stake.action == 0x0F01 || x.stake.action == 0x0F02)) = q :: l) →
      q.late = false ∧ q.stake.action = 0x0F01 ∧ bitsOf q.stake.argument 17 16 = 0 →
      ((biasDacs q.stake.target).any (fun n => decide (32 < (nth s.dev.pwr.dacs n).queue.length + 1)) = false) →
      happens .biasStep s fun d d' => d' = markDone ((biasDacs q.stake.target).foldl (fun e n => biasPlace e n (q.trig.getD 0 + 512 * 0) (q.stake.argument % 65536)) (d.onTmb (·.advance q))) q) ∧
  (∀ (s : State) (q : QStake) (l : List QStake),
      (stakesInOrder s.dev (s.dev.tmb.stakes.filter fun x => x.trig.isSome && (x.stake.action == 0x0F01 || x.stake.action == 0x0F02)) = q :: l) →
      q.late = false ∧ q.stake.action = 0x0F02 →
      ((biasDacs q.stake.target).any (fun n => decide (32 < (nth s.dev.pwr.dacs n).queue.length + (nth s.dev.pwr.dacs n).ramp.length)) = false) →
      happens .biasRamp s fun d d' => d' = markDone ((biasDacs q.stake.target).foldl (fun e n =>
        (nth e.pwr.dacs n).ramp.zipIdx.foldl (fun e x => biasPlace e n (q.trig.getD 0 + 512 * x.2) x.1) e) (d.onTmb (·.advance q))) q) ∧
  (∀ (s : State) (q : QStake) (l : List QStake),
      (stakesInOrder s.dev (s.dev.tmb.stakes.filter fun x => x.trig.isSome && (x.stake.action == 0x0F01 || x.stake.action == 0x0F02)) = q :: l) →
      q.late = true ∧ q.stake.action = 0x0F01 →
      happens .biasStep s fun d d' => d' = raiseLate (d.onTmb (·.advance q)) q) ∧
  (∀ (s : State),
      (s.dev.tmb.stakes.filter (fun x => x.trig.isSome && (x.stake.action == 0x0F01 || x.stake.action == 0x0F02)) = []) →
      happens .biasStep s fun d d' => d' = d) ∧
  (∀ (s : State) (q : QStake) (l : List QStake),
      (stakesInOrder s.dev (s.dev.tmb.stakes.filter fun x => x.trig.isSome && (x.stake.action == 0x0F01 || x.stake.action == 0x0F02)) = q :: l) →
      q.stake.action = 0x0F02 →
      happens .biasStep s fun d d' => d' = d) ∧
  (∀ (s : State) (q : QStake) (l : List QStake),
      (stakesInOrder s.dev (s.dev.tmb.stakes.filter fun x => x.trig.isSome && (x.stake.action == 0x0F01 || x.stake.action == 0x0F02)) = q :: l) →
      q.late = true ∧ q.stake.action = 0x0F02 →
      happens .biasRamp s fun d d' => d' = raiseLate (d.onTmb (·.advance q)) q) ∧
  (∀ (s : State) (q : QStake) (l : List QStake),
      (stakesInOrder s.dev (s.dev.tmb.stakes.filter fun x => x.trig.isSome && (x.stake.action == 0x0F01 || x.stake.action == 0x0F02)) = q :: l) →
      q.stake.action = 0x0F01 →
      happens .biasRamp s fun d d' => d' = d)

/-- The housekeeping and thermal commands do what chapter 17 says. (R602, R603, R604, R605, R606, R610, R614, R615.) -/
def Obligations.HousekeepingCommands : Prop :=
  (∀ (s : State) (h : Hdr) (first count clear : Nat),
      starts s.dev h (askClear 0x0F20 clear (spanWidths 64 count [4, 4, 4, 4])) = true →
      1 ≤ count ∧ count ≤ 64 ∧ first + count ≤ 256 ∧ clear ≤ 1 →
      completes (.hkRead h first count clear) s h (askClear 0x0F20 clear (spanWidths 64 count [4, 4, 4, 4])) fun d d' fs => d' = (if clear = 1 then ((List.range count).map (first + ·)).foldl (fun d n => d.onHk n fun c => { c with sum := 0, count := 0, lo := 0, hi := 0 }) d else d) ∧
      fs = ((List.range count).map (first + ·)).flatMap fun n =>
        [sfld 4 (if (nth d.pwr.chans n).count = 0 then 0 else divHalfEven (nth d.pwr.chans n).sum (nth d.pwr.chans n).count),
         sfld 4 (nth d.pwr.chans n).lo, sfld 4 (nth d.pwr.chans n).hi, fld 4 (nth d.pwr.chans n).count]) ∧
  (∀ (s : State) (h : Hdr),
      starts s.dev h (ask 0x0F21 [4, 4, 8, 4]) = true →
      completes (.hkStatus h) s h (ask 0x0F21 [4, 4, 8, 4]) fun d d' fs => d' = d ∧ fs = [sfld 4 (10 * (nth d.pwr.chans 0).last), sfld 4 (10 * (nth d.pwr.chans 128).last), fld 8 d.pwr.rounds, fld 4 d.pwr.suspects]) ∧
  (∀ (s : State) (h : Hdr) (start : Nat) (inputs : ExtInputs),
      starts s.dev h (cmd 0x0F30 [1, 1, 1, 1]) = true →
      thermConfigCheck start inputs (found s.dev h) = none →
      (nth inputs.list 0).enable = 0 ∧ (nth inputs.list 1).enable = 0 ∧ (nth inputs.list 2).enable = 0 ∧ (nth inputs.list 3).enable = 0 →
      completes (.thermConfig h start inputs) s h (cmd 0x0F30 [1, 1, 1, 1]) fun d d' fs => d' = (List.range 4).foldl (fun d k => (d.onPwr fun p => { p with exts := upd p.exts k fun x => { x with enabled := false, kind := 0 } }).onHk (81 + k) fun c =>
        { c with bad := 0, good := 0, broken := false, level := 0, coolSince := none }) (d.onPwr fun p => { p with start := start }) ∧
      fs = d'.pwr.exts.map fun e => fld 1 e.kind) ∧
  (∀ (s : State) (h : Hdr),
      starts s.dev h (ask 0x0F31 [4, 4, 32, 8, 2, 8, 2, 32]) = true →
      completes (.thermStatus h) s h (ask 0x0F31 [4, 4, 32, 8, 2, 8, 2, 32]) fun d d' fs => d' = d ∧ fs = [fld 4 (thermStatus d), sfld 4 (hottest d).2,
        fld 32 (((sensors d).filter fun n => (nth d.pwr.chans n).broken).map (2 ^ ·)).sum,
        fld 8 (planAt d (frameNo d d.axis)).frame, fld 2 (partMask (planAt d (frameNo d d.axis)).unit),
        fld 8 (((d.pwr.plans.filter fun x => decide (frameNo d d.axis < x.frame)).head?).getD {}).frame,
        fld 2 (partMask (((d.pwr.plans.filter fun x => decide (frameNo d d.axis < x.frame)).head?).getD {}).unit),
        fld 32 (d.pwr.pathLevels.foldl (fun n l => 16 * n + l) 0)])

/-- Conversions, rounds, sensors, shutdown and throttling go as chapter 17 says. (R598, R602, R603, R604, R606, R607, R608,
R609, R610, R611, R612.) -/
def Obligations.HeatHappenings : Prop :=
  (∀ (s : State) (q : QStake),
      (due 0x0F03 (fun _ _ => true) s.dev q = true) →
      happens .hkLatch s fun d d' => d' = markDone ((d.onTmb (·.advance q)).onPwr fun p => { p with chans := p.chans.map fun c => { c with sum := 0, count := 0, lo := 0, hi := 0 } }) q) ∧
  (∀ (s : State) (chan : Nat) (reading : Int) (openShort : Nat),
      domOn s.dev 0 = true ∧ chan ≤ 255 ∧ internalDiodes.contains chan = false ∧ conversionDue s.dev chan = true →
      happens (.hkConversion chan reading openShort) s fun d d' => d' = (d.onHk chan fun c => { c with
        last := reading, fault := openShort, sum := c.sum + reading, count := sat32 (c.count + 1)
        lo := if c.count = 0 then reading else min c.lo reading
        hi := if c.count = 0 then reading else max c.hi reading
        hotRun := if openShort = 0 ∧ reading ≤ 15000 then (if 12500 ≤ reading then c.hotRun + 1 else 0) else c.hotRun
        below105 := if openShort = 0 ∧ reading ≤ 15000 then (if 10500 ≤ reading then none else some (c.below105.getD d.now)) else c.below105 }).onPwr fun p => { p with hkAt := upd p.hkAt (chan / 128) fun _ => some d.now }) ∧
  (∀ (s : State) (chan : Nat) (reading : Int) (openShort : Nat),
      domOn s.dev 0 = true ∧ chan ≤ 255 ∧ internalDiodes.contains chan = true ∧ s.dev.pwr.down = false ∧ conversionDue s.dev chan = true →
      2 ≤ (nth (s.dev.onHk chan (·.convert s.dev.now reading openShort)).pwr.chans chan).hotRun →
      happens (.hkConversion chan reading openShort) s fun d d' => d' = shutdown (((d.onHk chan (·.convert d.now reading openShort)).onPwr fun p => { p with hkAt := upd p.hkAt (chan / 128) fun _ => some d.now }).pwrCount 1 1) 1 chan reading) ∧
  (∀ (s : State) (chan : Nat) (reading : Int) (openShort : Nat),
      conversionDue s.dev chan = false →
      happens (.hkConversion chan reading openShort) s fun d d' => d' = d) ∧
  (∀ (s : State) (n : Nat),
      domOn s.dev 0 = false →
      happens .hkRound s fun d d' => d' = d) ∧
  (∀ (s : State) (e f : Dev) (n : Nat),
      (domOn s.dev 0 = true ∧ e = judgeRefs (s.dev.onPwr fun p => { p with rounds := p.rounds + 1, roundAt := some s.dev.now }) ∧ (s.dev.pwr.roundAt.any (fun t => decide (s.dev.now < t + 1966080))) = false) →
      f = (sensors ((sensors e).foldl (judgeSensor [median2 e 0, median2 e 1]) e)).foldl senseLevel ((sensors e).foldl (judgeSensor [median2 e 0, median2 e 1]) e) →
      brokenDie f = some n →
      happens .hkRound s fun d d' => d' = heatShutdown f 2 n (nth f.pwr.chans n).last) ∧
  (∀ (s : State) (e f : Dev),
      (domOn s.dev 0 = true ∧ e = judgeRefs (s.dev.onPwr fun p => { p with rounds := p.rounds + 1, roundAt := some s.dev.now }) ∧ (s.dev.pwr.roundAt.any (fun t => decide (s.dev.now < t + 1966080))) = false) →
      f = (sensors ((sensors e).foldl (judgeSensor [median2 e 0, median2 e 1]) e)).foldl senseLevel ((sensors e).foldl (judgeSensor [median2 e 0, median2 e 1]) e) →
      brokenDie f = none →
      happens .hkRound s fun d d' => d' = (List.range 64).foldl dpdJudge
        (if domOn (calTemperature (relevel f)) 4 then (List.range 64).foldl compTrack (calTemperature (relevel f)) else calTemperature (relevel f))) ∧
  (∀ (s : State) (n : Nat),
      ((s.dev.pwr.roundAt.any (fun t => decide (s.dev.now < t + 1966080))) = true) →
      happens .hkRound s fun d d' => d' = d) ∧
  (∀ (s : State),
      s.dev.pwr.suspect = true ∧ s.dev.pwr.suspectSince + tickHz ≤ s.dev.now →
      happens .hkSuspectTimeout s fun d d' => d' = d.onPwr fun p => { p with suspectAll := true }) ∧
  (∀ (s : State),
      s.dev.pwr.suspect = false →
      happens .hkSuspectTimeout s fun d d' => d' = d) ∧
  (∀ (s : State) (input kind : Nat),
      (nth s.dev.pwr.exts input).enabled = true ∧ input ≤ 3 ∧ 1 ≤ kind ∧ kind ≤ 3 →
      (nth s.dev.pwr.chans (81 + input)).broken = true ∧ (nth s.dev.pwr.exts input).typedAt + tickHz ≤ s.dev.now →
      happens (.sensorTyping input kind) s fun d d' => d' = raiseEv (d.onPwr fun p => { p with exts := upd p.exts input fun e => { e with kind := kind, typedAt := d.now } }) EV.thermExt [a4 input, a4 kind]) ∧
  (∀ (s : State) (input kind : Nat),
      (nth s.dev.pwr.chans (81 + input)).broken = false →
      happens (.sensorTyping input kind) s fun d d' => d' = d) ∧
  (∀ (s : State) (chan t : Nat),
      (nth s.dev.pwr.chans chan).coolSince = some t ∧ t + tickHz ≤ s.dev.now ∧ 2 ≤ (nth s.dev.pwr.chans chan).level ∧ (sensors s.dev).contains chan = true →
      happens (.throttleRelease chan) s fun d d' => d' = relevel (d.onHk chan fun c => { c with
        level := c.level - 1, coolSince := if cooler (startOf d chan) c.last (c.level - 1) then some d.now else none })) ∧
  (∀ (s : State) (chan : Nat),
      (nth s.dev.pwr.chans chan).coolSince = none →
      happens (.throttleRelease chan) s fun d d' => d' = d) ∧
  (∀ (s : State) (part : Nat),
      s.dev.axis = frameNo s.dev s.dev.axis * s.dev.tmb.frameLen + part * (s.dev.tmb.frameLen / 16) →
      happens (.throttleGapStart part) s fun d d' => d' = (gapPaths d (frameNo d d.axis) part).foldl (fun e p =>
        if txOpenNow (countMuted e p) p then
          gateOnAt (gateOffAt (countMuted e p) p (frameNo d d.axis * d.tmb.frameLen + part * (d.tmb.frameLen / 16))) p
            (gapEnd (countMuted e p) p (frameNo d d.axis * d.tmb.frameLen + part * (d.tmb.frameLen / 16)))
        else countMuted e p)
        (if part = 0 ∧ (0 < (planAt d (frameNo d d.axis)).unit ∨ (planAt d (frameNo d d.axis)).paths.any fun l => decide (0 < l)) then d.pwrCount 3 1 else d)) ∧
  (∀ (s : State) (part : Nat),
      s.dev.axis = frameNo s.dev (s.dev.axis - 1) * s.dev.tmb.frameLen + (part + 1) * (s.dev.tmb.frameLen / 16) →
      happens (.throttleGapEnd part) s fun d d' => d' = (gapPaths d (frameNo d (d.axis - 1)) part).foldl (fun e p =>
        if txOpenNow e p = true ∧ txMuted e p = false ∧ gateReady e p e.axis = false then
          raiseEv (e.onTx p fun x => { x with muteGate := true, gateOff := true }) EV.txGateOff [a4 p]
        else e) d)

/-- The security commands do what chapter 18 says. (R620, R622, R623, R626, R628, R630, R631, R632, R633, R641, R642.) -/
def Obligations.SecurityCommands : Prop :=
  (∀ (s : State) (h : Hdr),
      starts s.dev h (ask 0x1000 [4, 8, 4, 8]) = true →
      completes (.secStatus h) s h (ask 0x1000 [4, 8, 4, 8]) fun d d' fs => d' = d ∧ fs = [fld 4 (bootStatus d), fld 8 d.ctl.leaf, fld 4 (leavesLeft d.ctl), fld 8 d.nvm.enrolCount]) ∧
  (∀ (s : State) (h : Hdr) (handle : Nat) (sig : Bool),
      starts s.dev h (cmd 0x1001) = true →
      keyChangeCheck handle sig (found s.dev h) = none →
      completes (.keyChange h handle sig) s h (cmd 0x1001) fun d d' fs => ∃ e b, b = objBytes d handle ∧ e = (consume d handle).onNvm (fun n => { n with
        enrolCount := beAt b 16 8
        owners := match beAt b 3 1 with
          | 1 => upd n.owners (beAt b 4 1) fun _ => ⟨true, sha384 ((b.drop 24).take 97), sha384 ((b.drop 121).take 60), beAt b 5 1, (b.drop 24).take 97⟩
          | 2 => upd n.owners (beAt b 4 1) fun _ => {}
          | _ => List.replicate 4 {} }) ∧
      d' = raiseEv (journal e 0 0x0100 0 (ownerTable e.nvm ++ e.nvm.owners.flatMap (·.pub)) (.owners d.nvm.owners d.nvm.enrolCount))
        EV.keyChange [a4 (beAt b 3 1), a4 (beAt b 4 1)] ∧ fs = []) ∧
  (∀ (s : State) (h : Hdr),
      starts s.dev h (ask 0x1002 ((List.range 6).flatMap fun _ => [1, 1, 96])) = true →
      completes (.keyList h) s h (ask 0x1002 ((List.range 6).flatMap fun _ => [1, 1, 96])) fun d d' fs => d' = d ∧
      fs = [fld 1 (if nth d.nvm.revoked 0 then 2 else 1), fld 1 0, fld 96 ((nth d.ident.vendor 0).1 * 2 ^ 384 + (nth d.ident.vendor 0).2 % 2 ^ 384),
            fld 1 (if nth d.nvm.revoked 1 then 2 else 1), fld 1 0, fld 96 ((nth d.ident.vendor 1).1 * 2 ^ 384 + (nth d.ident.vendor 1).2 % 2 ^ 384)]
          ++ d.nvm.owners.flatMap fun o => [fld 1 (b2n o.enrolled), fld 1 o.authority, fld 96 (o.ecdsa * 2 ^ 384 + o.hss)]) ∧
  (∀ (s : State) (h : Hdr) (counter value : Nat),
      starts s.dev h (cmd 0x1003 [1]) = true →
      rollbackSetCheck counter value (found s.dev h) = none →
      counter = 0 ∧ s.dev.nvm.fwCounter < value →
      completes (.rollbackSet h counter value) s h (cmd 0x1003 [1]) fun d d' fs => d' = raiseEv (d.onNvm fun n => { n with fwCounter := value }) EV.rollback [a4 counter, a4 value] ∧ fs = [fld 1 value]) ∧
  (∀ (s : State) (h : Hdr) (counter value : Nat),
      starts s.dev h (cmd 0x1003 [1]) = true →
      rollbackSetCheck counter value (found s.dev h) = none →
      counter = 1 ∧ s.dev.nvm.appletCounter < value →
      completes (.rollbackSet h counter value) s h (cmd 0x1003 [1]) fun d d' fs => d' = raiseEv (d.onNvm fun n => { n with appletCounter := value }) EV.rollback [a4 counter, a4 value] ∧ fs = [fld 1 value]) ∧
  (∀ (s : State) (h : Hdr),
      starts s.dev h (ask 0x1004 [2]) = true →
      completes (.certRead h) s h (ask 0x1004 [2]) fun d d' fs => d' = (addOut d h.session 0x0F (certBytes d) [] (domOn d 9)).2 ∧ fs = [fld 2 (addOut d h.session 0x0F (certBytes d) [] (domOn d 9)).1]) ∧
  (∀ (s : State) (h : Hdr) (nonce : Nat),
      starts s.dev h (cmd 0x1005 [2]) = true →
      attestCheck (found s.dev h) = none →
      leafPending (reserveLeaf (found s.dev h)) = false →
      completes (.attest h nonce) s h (cmd 0x1005 [2]) fun d d' fs => ∃ b e, (b, e) = ((attestBytes (reserveLeaf d) nonce).1, useLeaf (attestBytes (reserveLeaf d) nonce).2 nonce) ∧
      d' = (addOut e h.session 0x0F b [] (domOn e 9)).2 ∧ fs = [fld 2 (addOut e h.session 0x0F b [] (domOn e 9)).1]) ∧
  (∀ (s : State) (h : Hdr) (nonce : Nat),
      starts s.dev h (cmd 0x1005 [2]) = true →
      attestCheck (found s.dev h) = none →
      leafPending (reserveLeaf (found s.dev h)) = true →
      begins (.attest h nonce) s h (.attest nonce) fun d d' => d' = reserveLeaf d) ∧
  (∀ (s : State) (h : Hdr) (handle : Nat) (sig : Bool),
      starts s.dev h (cmd 0x1006) = true →
      debugAuthCheck handle sig (found s.dev h) = none →
      completes (.debugAuth h handle sig) s h (cmd 0x1006) fun d d' fs => d' = raiseEv ((consume d handle).onCtl fun c => { c with debug := true }) EV.debug [] ∧ fs = []) ∧
  (∀ (s : State) (h : Hdr) (offset len : Nat),
      starts s.dev h (ask 0x1020 (spanWidths 8192 len [1])) = true →
      1 ≤ len ∧ len ≤ 8192 ∧ offset + len ≤ hostSize →
      completes (.nvmRead h offset len) s h (ask 0x1020 (spanWidths 8192 len [1])) fun d d' fs => d' = d ∧ fs = (List.range len).map fun i => fld 1 (d.mem.byte (nvmBase + hostArea + offset + i)).toNat) ∧
  (∀ (s : State) (h : Hdr) (offset : Nat) (data : List Nat),
      starts s.dev h (cmd 0x1021) = true →
      nvmWriteCheck offset data (found s.dev h) = none →
      begins (.nvmWrite h offset data) s h (.nvm 3) fun d d' => d' = d.onNvm fun n => { n with jobs := n.jobs ++ [{ pages := pagesOf (hostArea + offset) data }] }) ∧
  (∀ (s : State) (h : Hdr) (offset : Nat),
      starts s.dev h (cmd 0x1022) = true →
      nvmEraseCheck offset (found s.dev h) = none →
      begins (.nvmErase h offset) s h (.nvm 3) fun d d' => d' = d.onNvm fun n => { n with jobs := n.jobs ++ [{ erases := [hostArea + offset] }] })

/-- Firmware, stored applets and the NVM's work go as chapter 18 says. (R618, R624, R627, R633, R635, R637, R639, R640,
R642.) -/
def Obligations.FirmwareAndNvm : Prop :=
  (∀ (s : State) (h : Hdr) (handle : Nat) (sig : Bool),
      starts s.dev h ({ cmd 0x1010 [1, 4] with loader := true }) = true →
      fwLoadCheck handle sig (found s.dev h) = none →
      completes (.fwLoad h handle sig) s h ({ cmd 0x1010 [1, 4] with loader := true }) fun d d' fs => ∃ b, b = objBytes d handle ∧ d' = (consume d handle).onNvm (fun n => { n with
        images := upd n.images (1 - d.nvm.active) fun _ => {}
        jobs := n.jobs ++ [⟨2, blocksFor (0x00800000 + (1 - d.nvm.active) * 0x04000000) b.length,
          pagesOf (0x00800000 + (1 - d.nvm.active) * 0x04000000) b, 0,
          .stage (1 - d.nvm.active) ⟨true, beAt b 4 4, beAt b 8 2, sha384 (b.take (b.length - 3876)), (signSlot b).getD 0, b.length, beAt b 3 1⟩⟩] }) ∧
      fs = [fld 1 (1 - d.nvm.active), fld 4 (beAt b 4 4)]) ∧
  (∀ (s : State) (h : Hdr) (position : Nat),
      starts s.dev h ({ cmd 0x1011 with loader := true }) = true →
      fwActivateCheck position (found s.dev h) = none →
      completes (.fwActivate h position) s h ({ cmd 0x1011 with loader := true }) fun d d' fs => d' = (putBoot d d.nvm.active (some (1 - d.nvm.active)) 2).onCtl (fun c =>
        { c with activateAt := some (if position = 0 then d.axis else position) }) ∧ fs = []) ∧
  (∀ (s : State) (h : Hdr) (raise : Nat),
      starts s.dev h (cmd 0x1012) = true →
      fwCommitCheck raise (found s.dev h) = none →
      raise = 0 →
      completes (.fwCommit h raise) s h (cmd 0x1012) fun d d' fs => d' = (putBoot (d.onCtl fun c => { c with trial := false }) d.ctl.source none 0).onNvm (fun n => { n with
        revoked := [nth n.revoked 0 || ((nth d.nvm.images d.ctl.source).revoke.testBit 7 && (nth d.nvm.images d.ctl.source).signer == 1),
          nth n.revoked 1 || ((nth d.nvm.images d.ctl.source).revoke.testBit 6 && (nth d.nvm.images d.ctl.source).signer == 0)] }) ∧ fs = []) ∧
  (∀ (s : State) (h : Hdr) (raise : Nat),
      starts s.dev h (cmd 0x1012) = true →
      fwCommitCheck raise (found s.dev h) = none →
      raise = 1 ∧ s.dev.nvm.fwCounter < (nth s.dev.nvm.images s.dev.ctl.source).security →
      completes (.fwCommit h raise) s h (cmd 0x1012) fun d d' fs => d' = raiseEv ((putBoot (d.onCtl fun c => { c with trial := false }) d.ctl.source none 0).onNvm fun n => { n with
        revoked := [nth n.revoked 0 || ((nth d.nvm.images d.ctl.source).revoke.testBit 7 && (nth d.nvm.images d.ctl.source).signer == 1),
          nth n.revoked 1 || ((nth d.nvm.images d.ctl.source).revoke.testBit 6 && (nth d.nvm.images d.ctl.source).signer == 0)]
        fwCounter := (nth d.nvm.images d.ctl.source).security }) EV.rollback [a4 0, a4 (nth d.nvm.images d.ctl.source).security] ∧ fs = []) ∧
  (∀ (s : State) (h : Hdr),
      starts s.dev h (ask 0x1013 [1, 4, 2, 1, 4, 2, 8, 4]) = true →
      completes (.fwStatus h) s h (ask 0x1013 [1, 4, 2, 1, 4, 2, 8, 4]) fun d d' fs => d' = d ∧ ∃ done, fs = ((d.nvm.images.take 2).flatMap fun i => [fld 1 (b2n i.valid), fld 4 i.version, fld 2 i.security])
      ++ [fld 1 d.nvm.active, fld 1 (d.nvm.trial.getD 0xFF), fld 2 d.nvm.attempts, fld 4 d.nvm.trialLimit, fld 4 done] ∧
      done = (d.nvm.jobs.map fun j => match j.goal with
        | .stage _ _ => j.done
        | _ => 0).sum) ∧
  (∀ (s : State) (h : Hdr) (handle entry core autostart : Nat) (bases : List Nat) (sig : Bool),
      starts s.dev h (cmd 0x1014) = true →
      appletStoreCheck handle entry core autostart sig (found s.dev h) = none →
      begins (.appletStore h handle entry core autostart bases sig) s h (.nvm 2) fun d d' => d' = (consume d handle).onNvm fun n => { n with
        store := upd n.store entry fun _ => none
        jobs := n.jobs ++ [⟨2, blocksFor (storeArea + entry * entrySize) entrySize, pagesOf (storeArea + entry * entrySize) (objBytes d handle), 0,
          .store entry core autostart bases (objBytes d handle) sig⟩] }) ∧
  (∀ (s : State) (h : Hdr) (entry : Nat),
      starts s.dev h (cmd 0x1015) = true →
      entry ≤ 7 ∧ areaBusy s.dev 2 = none →
      begins (.appletStoreErase h entry) s h (.nvm 2) fun d d' => d' = d.onNvm fun n => { n with
        jobs := n.jobs ++ [{ area := 2, erases := blocksFor (storeArea + entry * entrySize) entrySize, goal := .unstore entry }] }) ∧
  (∀ (s : State) (ok : Bool) (k b : Nat) (l : List Nat),
      nvmNext s.dev = some k ∧ (nth s.dev.nvm.jobs k).erases = b :: l ∧ ok = true →
      happens (.eraseComplete ok) s fun d d' => d' = jobDone ((d.onMem (·.forget (nvmBase + b) (nvmBase + b + 0x40000))).onJob k fun j => { j with erases := l }) k) ∧
  (∀ (s : State) (ok : Bool) (k b : Nat) (l : List Nat),
      nvmNext s.dev = some k ∧ (nth s.dev.nvm.jobs k).erases = b :: l ∧ ok = false →
      happens (.eraseComplete ok) s fun d d' => d' = nvmFails d k) ∧
  (∀ (s : State) (ok : Bool) (k o : Nat) (b : List Nat) (l : List (Nat × List Nat)),
      nvmNext s.dev = some k ∧ (nth s.dev.nvm.jobs k).erases = [] ∧ (nth s.dev.nvm.jobs k).pages = (o, b) :: l ∧ ok = true →
      happens (.nvmPageProgram ok) s fun d d' => d' = jobDone ((nvmProgram d o b).onJob k fun j => { j with pages := l, done := j.done + 1 }) k) ∧
  (∀ (s : State) (k slot : Nat) (img : ImageSlot),
      (s.dev.nvm.jobs.findIdx? (fun j => !j.busy && j.stages) = some k) →
      recPending s.dev 0x0008 = false →
      (nth s.dev.nvm.jobs k).goal = .stage slot img →
      happens .fwStaged s fun d d' => d' = raiseEv (d.onNvm fun n => { n with jobs := n.jobs.eraseIdx k }) EV.fwStaged [a4 slot]) ∧
  (∀ (s : State),
      s.dev.ctl.treeGen.isNone = false →
      happens .lmsTreeReady s fun d d' => ∃ n e, n = ceilDiv d.ctl.leaf (2 ^ 20) * 2 ^ 20 ∧ e = d.onCtl (fun c => { c with treeGen := none, leaf := n }) ∧
        d' = raiseEv (if n ≤ e.nvm.leafReserved then e else reserveTo e n) EV.lmsTree []) ∧
  (∀ (s : State),
      s.dev.ctl.treeGen = none →
      happens .lmsTreeReady s fun d d' => d' = d)

/-- Reloads, the boot chain and the restarts asked for go as chapters 18 and 19 say. (R618, R624, R625, R637, R639, R644,
R646, R656, R657.) -/
def Obligations.BootAndRestart : Prop :=
  (∀ (s : State),
      s.dev.ctl.phase = .running ∧ s.dev.ctl.lastReload = none →
      happens .lockstepMismatch s fun d d' => d' = d.onCtl fun c => { c with phase := .reload, reloadSeen := true, lastReload := some d.now }) ∧
  (∀ (s : State) (t : Nat),
      s.dev.ctl.phase = .running ∧ s.dev.ctl.lastReload = some t ∧ s.dev.now < t + tickHz →
      happens .lockstepMismatch s fun d d' => d' = beginBoot (d.restart false) 5) ∧
  (∀ (s : State),
      s.dev.ctl.phase = .reload →
      happens .reloadComplete s fun d d' => d' = raiseEv (d.onCtl fun c => { c with phase := .running }) EV.ctlReload []) ∧
  (∀ (s : State) (chk : BootCheck),
      s.dev.ctl.phase ≠ .rom →
      happens (.boot chk) s fun d d' => d' = d) ∧
  (∀ (s : State) (chk : BootCheck),
      s.dev.ctl.phase = .rom ∧ domOn s.dev 1 = true ∧ s.dev.pwr.steps.isEmpty = true ∧ storeFailed s.dev 0 = false ∧ storeFailed s.dev 5 = false →
      chk.kat = false →
      happens (.boot chk) s fun d d' => d' = toHold d) ∧
  (∀ (s : State) (chk : BootCheck),
      s.dev.ctl.phase = .rom ∧ domOn s.dev 1 = true ∧ s.dev.pwr.steps.isEmpty = true ∧ storeFailed s.dev 0 = false ∧ storeFailed s.dev 5 = false →
      chk.kat = true ∧ chk.bootSel = true →
      happens (.boot chk) s fun d d' => d' = d.onCtl fun c => { c with phase := .loader, source := 2, bootedAt := d.now }) ∧
  (∀ (s : State) (chk : BootCheck),
      s.dev.ctl.phase = .rom ∧ domOn s.dev 1 = true ∧ s.dev.pwr.steps.isEmpty = true ∧ storeFailed s.dev 0 = false ∧ storeFailed s.dev 5 = false →
      chk.kat = true ∧ chk.bootSel = false →
      s.dev.nvm.trial = none ∧ slotBoots s.dev chk s.dev.nvm.active = true →
      happens (.boot chk) s fun d d' => d' = startRibel d chk d.nvm.active false) ∧
  (∀ (s : State) (chk : BootCheck),
      s.dev.ctl.phase = .rom ∧ domOn s.dev 1 = true ∧ s.dev.pwr.steps.isEmpty = true ∧ storeFailed s.dev 0 = false ∧ storeFailed s.dev 5 = false →
      chk.kat = true ∧ chk.bootSel = false →
      s.dev.nvm.trial = none ∧ slotBoots s.dev chk s.dev.nvm.active = false ∧ slotBoots s.dev chk (1 - s.dev.nvm.active) = false →
      happens (.boot chk) s fun d d' => d' = d.onCtl fun c => { c with phase := .loader, source := 2, bootedAt := d.now }) ∧
  (∀ (s : State) (p : Nat),
      s.dev.ctl.activateAt = some p ∧ p ≤ s.dev.axis →
      happens .fwActivationRestart s fun d d' => d' = beginBoot (d.restart false) 6) ∧
  (∀ (s : State),
      s.dev.ctl.activateAt = none →
      happens .fwActivationRestart s fun d d' => d' = d) ∧
  (∀ (s : State),
      s.dev.ctl.trial = true ∧ s.dev.ctl.trialSince + s.dev.nvm.trialLimit * tickHz ≤ s.dev.now →
      happens .trialLimit s fun d d' => d' = (putBoot (beginBoot (d.restart false) 6) d.nvm.active none 0).onCtl fun c => { c with reverted := true }) ∧
  (∀ (s : State) (p x c q : Nat),
      s.dev.ctl.resetAt = some (p, x, c, q) ∧ p ≤ s.dev.axis ∧ answered s.dev x c q = true →
      happens .sysResetAfterResponse s fun d d' => d' = beginBoot (d.restart false) 2) ∧
  (∀ (s : State) (p x c q : Nat),
      (s.dev.ctl.resetAt = some (p, x, c, q) ∧ (s.dev.axis < p ∨ answered s.dev x c q = false)) →
      happens .sysResetAfterResponse s fun d d' => d' = d) ∧
  (∀ (s : State),
      s.dev.ctl.resetAt = none →
      happens .sysResetAfterResponse s fun d d' => d' = d)

/-- The system commands and quickset do what chapter 19 says. (R27, R644, R647, R649, R651, R653, R654, R656, R657.) -/
def Obligations.SystemAndQuickset : Prop :=
  (∀ (s : State) (h : Hdr),
      starts s.dev h (ask 0x0082 [1, 1, 4, 8]) = true →
      completes (.quicksetStatus h) s h (ask 0x0082 [1, 1, 4, 8]) fun d d' fs => d' = d ∧ fs = [fld 1 d.qs.state, fld 1 d.qs.elements, fld 4 d.qs.integrations, fld 8 d.qs.lastReport]) ∧
  (∀ (s : State) (h : Hdr),
      starts s.dev h (ask 0x0085 [1, 1, 1, 4]) = true →
      completes (.sysStatus h) s h (ask 0x0085 [1, 1, 1, 4]) fun d d' fs => d' = d ∧ fs = [fld 1 d.ctl.cause, fld 1 d.ctl.source, fld 1 (failedStores d), fld 4 ((d.now - d.ctl.bootedAt) / tickHz)]) ∧
  (∀ (s : State) (h : Hdr) (position : Nat),
      starts s.dev h (cmd 0x0084) = true →
      (position = 0 ∨ s.dev.axis < position) →
      completes (.sysReset h position) s h (cmd 0x0084) fun d d' fs => d' = d.onCtl (fun c => { c with resetAt := some (if position = 0 then d.axis else position, h.session, h.channel, h.seq) }) ∧ fs = []) ∧
  (∀ (s : State) (h : Hdr) (number : Nat),
      starts s.dev h (cmd 0x0083) = true →
      number ≤ 262143 ∧ (s.dev.weave.on && !qsHeld s.dev) = false ∧ s.dev.chains.any (·.on) = false →
      s.dev.weave.on = false →
      completes (.unitNumberSet h number) s h (cmd 0x0083) fun d d' fs => d' = journal (d.onNvm fun n => { n with unitNumber := number }) 1 0x0001 0 (bytesOf [fld 4 number]) (.unit d.nvm.unitNumber) ∧ fs = []) ∧
  (∀ (s : State) (h : Hdr) (number : Nat),
      starts s.dev h (cmd 0x0083) = true →
      number ≤ 262143 ∧ (s.dev.weave.on && !qsHeld s.dev) = false ∧ s.dev.chains.any (·.on) = false →
      s.dev.weave.on = true →
      completes (.unitNumberSet h number) s h (cmd 0x0083) fun d d' fs => d' = (journal (d.onNvm fun n => { n with unitNumber := number }) 1 0x0001 0 (bytesOf [fld 4 number]) (.unit d.nvm.unitNumber)).onWeave
        (fun w => { w with banks := { w.banks with cur := { w.banks.cur with members := upd w.banks.cur.members 0 fun m => { m with unit := number } } } }) ∧ fs = []) ∧
  (∀ (s : State) (h : Hdr),
      starts s.dev h (cmd 0x0081) = true →
      quicksetEnterCheck (found s.dev h) = none →
      s.dev.pwr.steps.isEmpty = true ∧ s.dev.pwr.state = 4 →
      completes (.quicksetEnter h) s h (cmd 0x0081) fun d d' fs => d' = startQuickset d ∧ fs = []) ∧
  (∀ (s : State) (h : Hdr),
      starts s.dev h (cmd 0x0081) = true →
      quicksetEnterCheck (found s.dev h) = none →
      s.dev.pwr.steps.isEmpty = true ∧ s.dev.pwr.state ≠ 4 →
      completes (.quicksetEnter h) s h (cmd 0x0081) fun d d' fs => d' = beginTransition { d with qs := { d.qs with state := 1 } } 4 (transitionUs d 4) ∧ fs = []) ∧
  (∀ (s : State) (h : Hdr) (keep : Nat),
      starts s.dev h (cmd 0x0080) = true →
      keep ≤ 3 ∧ s.dev.qs.state ≠ 0 ∧ s.dev.qs.stopping = false →
      qsStopped (qsExit (found s.dev h) keep) = true →
      completes (.quicksetExit h keep) s h (cmd 0x0080) fun d d' fs => d' = qsOff (qsExit d keep) ∧ fs = []) ∧
  (∀ (s : State) (h : Hdr) (keep : Nat),
      starts s.dev h (cmd 0x0080) = true →
      keep ≤ 3 ∧ s.dev.qs.state ≠ 0 ∧ s.dev.qs.stopping = false →
      qsStopped (qsExit (found s.dev h) keep) = false →
      begins (.quicksetExit h keep) s h (.quickset) fun d d' => d' = { qsExit d keep with qs := { (qsExit d keep).qs with stopping := true, keep := keep } }) ∧
  (∀ (s : State),
      reportDue s.dev = none →
      happens .quicksetReport s fun d d' => d' = d) ∧
  (∀ (s : State) (i : Integ) (e : Dev),
      reportDue s.dev = some i ∧ e = sendEverywhere (reportFields s.dev i).2 0x0080 i.first (reportFields s.dev i).1 →
      happens .quicksetReport s fun d d' => d' = { e with
        xce := { e.xce with integs := e.xce.integs.map fun x => if x.num == i.num && x.st == 1 && x.handle == 0 then { x with st := 2 } else x }
        qs := { e.qs with restarted := false, reported := some i.num, lastReport := e.axis, heardNow := 0 } })

/-- A step with a command at the front of the queue is exec of that command on the rest of the queue. (R130, R132.) -/
def Obligations.StepRunsCommand : Prop :=
  ∀ (c : Instr) (rest : List Instr) (s : State), s.pending = c :: rest → step s = exec c { s with pending := rest }

/-- A step on an empty queue starts the command a mailbox class serves next, else a tick of the axis clock passes (log
entries 9 and 10). (R22, R37, R130, R132.) -/
def Obligations.StepOnEmptyQueue : Prop :=
  (∀ (s : State) (c : Instr) (d : Dev), s.pending = [] → mailStart s.dev = some (c, d) → step s = exec c { s with dev := d }) ∧
  (∀ s : State, s.pending = [] → mailStart s.dev = none →
    step s = .next ⟨s.pending, supplyTick (drainTick (otaStale (flushOut (linkTick
      ((((sampleTick s.dev).onTmb fun t => { t with clock := t.clock + 3125, cyc := t.cyc + 1 }).each 64
        (fun d p => (d.txPath p).sbs.any (toneOver d)) tonesEnd).each 32 laneBusy laneTick)))))⟩)

/-- The memory of a unit at reset stands in its canonical form, nothing is listed in it and no command waits. (R482, R483.) -/
def Obligations.ResetIsCanonical : Prop :=
  Inv State.reset ∧ State.reset.dev.mem.cells = [] ∧ State.reset.pending = []

/-- Every step, whatever command it runs, keeps the stores in their canonical form and takes at most one command off the
queue. (R482, R483, R485, R487, R491, R493, R494, R503, R595, R639.) -/
def Obligations.StepKeepsCanonicalForm : Prop :=
  ∀ s : State, Inv s → ∃ s' : State, step s = .next s' ∧ Inv s' ∧ s'.pending = s.pending.tail

/-- A host's command that is refused, or a dry run, changes nothing but its answer on the link, be it any command of the
manual. (R5, R133, R134, R678.) -/
def Obligations.RefusalChangesNothing : Prop :=
  ∀ (d : Dev) (info : CmdInfo) (h : Hdr) (check : Dev → Option Reply) (eff : Dev → Eff),
    (check d).isSome = true ∨ h.dryRun = true →
    ∃ l launches, hostRun d info h check eff = { d with lnk := l, tmb := { d.tmb with launches := launches } }

/-- A write with all byte enables clear leaves every target as it was: no read, no merge, no write, no side effect of a
register. (R522.) -/
def Obligations.ByteEnablesClear : Prop :=
  ∀ (d : Dev) (t : Nat) (r : FabReq), r.write = true → (∀ i, i < r.data.length → i ∈ r.off) → perform d t r = ({}, d)

/-- A bias entry that finds its queue full is dropped, raises EV_BIAS_QUEUE, sets overflow_seen, and its stake takes R70.
(R599.) -/
def Obligations.BiasQueueFull : Prop :=
  (∀ (d : Dev) (dac step code : Nat), dac < d.pwr.dacs.length → 32 ≤ (nth d.pwr.dacs dac).queue.length →
    (∀ n, (nth (biasPlace d dac step code).pwr.dacs n).queue = (nth d.pwr.dacs n).queue) ∧
    (nth (biasPlace d dac step code).pwr.dacs dac).overflow = true ∧
    ∃ e, biasPlace d dac step code = raiseEv e EV.biasQueue [a4 dac] ∧ e.lnk = d.lnk ∧ e.tmb = d.tmb) ∧
  (∀ (s : State) (q : QStake) (rest : List QStake) (dac : Nat),
    stakesInOrder s.dev (s.dev.tmb.stakes.filter fun q => q.trig.isSome && (q.stake.action == 0x0F01 || q.stake.action == 0x0F02)) = q :: rest →
    q.stake.action = 0x0F01 → q.late = false → biasDacs q.stake.target = [dac] → 32 ≤ (nth s.dev.pwr.dacs dac).queue.length →
    ∃ code, exec .biasStep s = .next ⟨s.pending,
      raiseEv (biasPlace (s.dev.onTmb (·.advance q)) dac (q.trig.getD 0) code) EV.stakeLate [a4 q.stake.tag, a8 q.pos, a4 ST.late]⟩) ∧
  (∀ (s : State) (q : QStake) (rest : List QStake),
    stakesInOrder s.dev (s.dev.tmb.stakes.filter fun q => q.trig.isSome && (q.stake.action == 0x0F01 || q.stake.action == 0x0F02)) = q :: rest →
    q.stake.action = 0x0F02 → q.late = false →
    ((biasDacs q.stake.target).any fun n =>
      decide (32 < (nth s.dev.pwr.dacs n).queue.length + (nth s.dev.pwr.dacs n).ramp.length)) = true →
    ∃ d, exec .biasRamp s = .next ⟨s.pending, raiseEv d EV.stakeLate [a4 q.stake.tag, a8 q.pos, a4 ST.late]⟩)
end

