-- ==== Sys2Proof/Laws/Memory.lean ====
section
/-! SUPPORT. The laws of the stores: reading after writing, and that every operation keeps the canonical form. -/

namespace Sys2Proof.Machine

/-- The canonical form in two parts. -/
theorem wf_iff (m : Memory) :
    m.wf = true ↔ (m.cells.Pairwise fun x y => x.1 < y.1) ∧ ∀ c ∈ m.cells, c.2 ≠ m.unlisted c.1 := by
  simp [Memory.wf]

/-- Every key in a list after a cell is set was in it before or is the cell's. -/
theorem mem_putCell {l : List Host.Cell} {a : Nat} {b u : BitVec 8} {c : Host.Cell} (h : c ∈ putCell l a b u) : c ∈ l ∨ (c = (a, b) ∧ b ≠ u) := by
  induction l with
  | nil =>
    unfold putCell at h
    split at h
    · cases h
    · simp at h; exact .inr ⟨h, by assumption⟩
  | cons x l ih =>
    unfold putCell at h
    split at h
    · split at h
      · exact .inl h
      · rcases List.mem_cons.1 h with e | e
        · exact .inr ⟨e, by assumption⟩
        · exact .inl e
    · split at h
      · split at h
        · exact .inl (List.mem_cons_of_mem _ h)
        · rcases List.mem_cons.1 h with e | e
          · exact .inr ⟨e, by assumption⟩
          · exact .inl (List.mem_cons_of_mem _ e)
      · rcases List.mem_cons.1 h with e | e
        · exact .inl (e ▸ List.mem_cons_self)
        · rcases ih e with e | e
          · exact .inl (List.mem_cons_of_mem _ e)
          · exact .inr e

/-- A cell set in a rising list leaves it rising. -/
theorem putCell_rising {l : List Host.Cell} (a : Nat) (b u : BitVec 8) (h : l.Pairwise fun x y => x.1 < y.1) :
    (putCell l a b u).Pairwise fun x y => x.1 < y.1 := by
  induction l with
  | nil => unfold putCell; split <;> simp
  | cons x l ih =>
    have hx := List.pairwise_cons.1 h
    unfold putCell
    split
    · split
      · exact h
      · refine List.pairwise_cons.2 ⟨fun y hy => ?_, h⟩
        rcases List.mem_cons.1 hy with e | e
        · rw [e]; assumption
        · exact Nat.lt_trans (by assumption) (hx.1 y e)
    · split
      · split
        · exact hx.2
        · refine List.pairwise_cons.2 ⟨fun y hy => ?_, hx.2⟩
          have := hx.1 y hy
          simp_all
      · refine List.pairwise_cons.2 ⟨fun y hy => ?_, ih hx.2⟩
        rcases mem_putCell hy with e | ⟨e, _⟩
        · exact hx.1 y e
        · rw [e]; simp only; omega

/-- A byte written keeps the canonical form. -/
theorem wf_put {m : Memory} (a : Nat) (b : BitVec 8) (h : m.wf = true) : (m.put a b).wf = true := by
  rw [wf_iff] at h ⊢
  refine ⟨putCell_rising a b _ h.1, fun c hc => ?_⟩
  rcases mem_putCell hc with e | ⟨e, hb⟩
  · exact h.2 c e
  · rw [e]; exact hb

theorem wf_putBytes {m : Memory} (a v n : Nat) (h : m.wf = true) : (m.putBytes a v n).wf = true := by
  induction n generalizing m a v with
  | zero => exact h
  | succ n ih => exact ih _ _ (wf_put _ _ h)

theorem wf_store {m : Memory} (a w : Nat) (t : Bool) (h : m.wf = true) : (m.store a w t).wf = true := by
  unfold Memory.store
  split
  · exact wf_putBytes _ _ _ (wf_putBytes _ _ _ h)
  · exact wf_put _ _ (wf_putBytes _ _ _ (wf_putBytes _ _ _ h))

/-- Cells taken out keep the canonical form. -/
theorem wf_filter {m : Memory} (p : Host.Cell → Bool) (h : m.wf = true) : ({ m with cells := m.cells.filter p } : Memory).wf = true := by
  rw [wf_iff] at h ⊢
  exact ⟨h.1.filter _, fun c hc => h.2 c (List.mem_filter.1 hc).1⟩

theorem wf_forget {m : Memory} (lo hi : Nat) (h : m.wf = true) : (m.forget lo hi).wf = true := wf_filter _ h

/-- What an unlisted key reads as depends on the undefined regions only at the DRAM's addresses. -/
theorem unlisted_undef (m n : Memory) (a : Nat) (h : m.undef.lookup (regionOf a) = n.undef.lookup (regionOf a) ∨ a < 0x1000000000 ∨ 0x2000000000 ≤ a) :
    m.unlisted a = n.unlisted a := by
  unfold Memory.unlisted
  split
  · rfl
  · split
    · rcases h with h | h
      · rw [h]
      · omega
    · rfl

/-- The undefined regions changed, where no cell listed lies in a region they changed for. -/
theorem wf_undef {m n : Memory} (hc : n.cells = m.cells) (h : m.wf = true)
    (hu : ∀ c ∈ m.cells, m.undef.lookup (regionOf c.1) = n.undef.lookup (regionOf c.1) ∨ c.1 < 0x1000000000 ∨ 0x2000000000 ≤ c.1) :
    n.wf = true := by
  rw [wf_iff] at h ⊢
  rw [hc]
  exact ⟨h.1, fun c hm => by rw [← unlisted_undef m n c.1 (hu c hm)]; exact h.2 c hm⟩

/-- The memory at reset is canonical. -/
theorem wf_reset : ({} : Memory).wf = true := by decide

/-! ### Reading after writing -/

theorem lookup_putCell_same (l : List Host.Cell) (a : Nat) (b u : BitVec 8) (h : l.Pairwise fun x y => x.1 < y.1) :
    ((putCell l a b u).lookup a).getD u = b := by
  have hgt : ∀ l : List Host.Cell, (∀ y ∈ l, a < y.1) → l.lookup a = none := by
    intro l hl
    induction l with
    | nil => rfl
    | cons y l ih =>
      have := hl y List.mem_cons_self
      rw [List.lookup_cons, beq_false_of_ne (by omega)]
      exact ih fun z hz => hl z (List.mem_cons_of_mem _ hz)
  induction l with
  | nil => unfold putCell; split <;> simp_all
  | cons x l ih =>
    have hx := List.pairwise_cons.1 h
    unfold putCell
    split
    · split
      · rw [hgt]
        · simp_all
        · intro y hy
          rcases List.mem_cons.1 hy with e | e
          · rw [e]; assumption
          · exact Nat.lt_trans (by assumption) (hx.1 y e)
      · simp
    · split
      · split
        · rw [hgt]
          · simp_all
          · intro y hy; have := hx.1 y hy; simp_all
        · simp
      · rw [List.lookup_cons, beq_false_of_ne (by assumption)]
        exact ih hx.2

theorem lookup_putCell_other (l : List Host.Cell) (a k : Nat) (b u : BitVec 8) (hk : k ≠ a) :
    (putCell l a b u).lookup k = l.lookup k := by
  have hb : (k == a) = false := beq_false_of_ne hk
  induction l with
  | nil => unfold putCell; split <;> simp [List.lookup_cons, hb]
  | cons x l ih =>
    unfold putCell
    split
    · split <;> simp [List.lookup_cons, hb]
    · split
      · rename_i e
        have hx : (k == x.1) = false := beq_false_of_ne (by omega)
        split
        · rw [List.lookup_cons, hx]
        · rw [List.lookup_cons, List.lookup_cons, hx]; simp [hb]
      · rw [List.lookup_cons, List.lookup_cons, ih]

/-- A byte read where one was written is the byte written. -/
theorem byte_put_same {m : Memory} (a : Nat) (b : BitVec 8) (h : m.wf = true) : (m.put a b).byte a = b :=
  lookup_putCell_same _ _ _ _ ((wf_iff m).1 h).1

/-- A byte written leaves every other byte as it was. -/
theorem byte_put_other (m : Memory) {a k : Nat} (b : BitVec 8) (hk : k ≠ a) : (m.put a b).byte k = m.byte k := by
  unfold Memory.byte Memory.put
  simp only
  rw [lookup_putCell_other _ _ _ _ _ hk]
  rfl

/-- Bytes written leave every byte outside them as it was. -/
theorem byte_putBytes_other (m : Memory) (a v n : Nat) {k : Nat} (hk : k < a ∨ a + n ≤ k) : (m.putBytes a v n).byte k = m.byte k := by
  induction n generalizing m a v with
  | zero => rfl
  | succ n ih => unfold Memory.putBytes; rw [ih _ _ _ (by omega), byte_put_other _ _ (by omega)]

end Sys2Proof.Machine
end

