-- ==== Sys2Proof/Laws/Canon.lean ====
section
/-! SUPPORT. What the shared operations do to the stores: each keeps their canonical form (`Canon`). The invariant of a step
cites these instead of unfolding an operation. -/

namespace Sys2Proof.Machine

/-- The stores of a unit stand in their canonical form. -/
def Canon (d : Dev) : Prop := d.mem.wf = true
theorem canon_ite {c : Prop} [Decidable c] {a b : Dev} (ha : Canon a) (hb : Canon b) : Canon (if c then a else b) := by
  split
  · exact ha
  · exact hb
theorem canon_foldl {α : Type} {f : Dev → α → Dev} {l : List α} {d : Dev} (hf : ∀ d x, Canon d → Canon (f d x)) (h : Canon d) : Canon (l.foldl f d) := by
  induction l generalizing d with
  | nil => exact h
  | cons x l ih => exact ih (hf _ _ h)
theorem canon_Dev_each {d : Dev} {n : Nat} {busy : Dev → Nat → Bool} {f : Dev → Nat → Dev} (hf : ∀ d x, Canon d → Canon (f d x)) (h : Canon d) :
    Canon (d.each n busy f) := canon_foldl hf h
theorem canon_foldr {α : Type} {f : α → Dev → Dev} {l : List α} {d : Dev} (hf : ∀ x d, Canon d → Canon (f x d)) (h : Canon d) : Canon (l.foldr f d) := by
  induction l with
  | nil => exact h
  | cons x l ih => exact hf _ _ ih
theorem canon_mk {a1 a2 a3 a4 a5 a6 a7 a8 a9 a10 a11 a12 a13 a14 a15 a16} {m : Memory} {a18 a19 a20 a21 a22 a23 a24 a25 a26 a27 a28 a29} (h : m.wf = true) :
    Canon (Dev.mk a1 a2 a3 a4 a5 a6 a7 a8 a9 a10 a11 a12 a13 a14 a15 a16 m a18 a19 a20 a21 a22 a23 a24 a25 a26 a27 a28 a29) := h
theorem wf_mk {m : Memory} {a3 a4 a5 a6 a7 a8 a9 a10 a11 a12 a13 a14 a15 a16 a17 a18} {p} (h : m.wf = true) :
    (Memory.mk m.cells p m.undef a3 a4 a5 a6 a7 a8 a9 a10 a11 a12 a13 a14 a15 a16 a17 a18).wf = true := h
theorem wf_onStore {m : Memory} {n : Nat} {f : Store → Store} (h : m.wf = true) : (m.onStore n f).wf = true := h
theorem wf_foldl {α : Type} {f : Memory → α → Memory} {l : List α} {m : Memory} (hf : ∀ m x, m.wf = true → (f m x).wf = true) (h : m.wf = true) :
    (l.foldl f m).wf = true := by
  induction l generalizing m with
  | nil => exact h
  | cons x l ih => exact ih (hf _ _ h)
theorem ite_some {α : Type} {c : Prop} [Decidable c] {a b : α} {r : Option α} (e : (if c then some a else r) = some b) :
    (c ∧ a = b) ∨ (¬c ∧ r = some b) := by
  by_cases h : c
  · rw [if_pos h] at e; cases e; exact .inl ⟨h, rfl⟩
  · rw [if_neg h] at e; exact .inr ⟨h, e⟩
theorem ite_eq_cases {α : Type} {c : Prop} [Decidable c] {a r b : α} (e : (if c then a else r) = b) : (c ∧ a = b) ∨ (¬c ∧ r = b) := by
  by_cases h : c
  · rw [if_pos h] at e; exact .inl ⟨h, e⟩
  · rw [if_neg h] at e; exact .inr ⟨h, e⟩
/-- A meaning answers a next state and keeps the form. -/
def Keeps (m : Meaning) : Prop := ∀ s, Canon s.dev → ∃ d, m s = .next { s with dev := d } ∧ Canon d
theorem canon_onDev {f : Dev → Dev} (hf : ∀ d, Canon d → Canon (f d)) : Keeps (onDev f) :=
  fun _ h => ⟨_, rfl, hf _ h⟩

theorem canon_Dev_onLnk {v1 : Dev} {v2 : (Lnk → Lnk)} (h1 : Canon v1) : Canon (Dev.onLnk v1 v2) := canon_mk h1
theorem canon_Dev_onTmb {v1 : Dev} {v2 : (Tmb → Tmb)} (h1 : Canon v1) : Canon (Dev.onTmb v1 v2) := canon_mk h1
theorem canon_Dev_fresh_aux {v1 : Dev} {v2 : Nat} (h1 : Canon v1) : Canon (Dev.fresh v1 v2).2 := canon_mk h1
theorem canon_Dev_fresh {v1 : Dev} {v2 : Nat} {x0 : Nat} {d9 : Dev} (h1 : Canon v1) (e : Dev.fresh v1 v2 = (x0, d9)) : Canon d9 := by
  have h9 := @canon_Dev_fresh_aux v1 v2 h1
  rw [e] at h9
  exact h9
theorem canon_raiseTo {v1 : Option Nat} {v2 : Dev} {v3 : EvCode} {v4 : List Field} (h2 : Canon v2) : Canon (raiseTo v1 v2 v3 v4) :=
  canon_Dev_onLnk h2
theorem canon_raiseEv {v1 : Dev} {v2 : EvCode} {v3 : List Field} (h1 : Canon v1) : Canon (raiseEv v1 v2 v3) := canon_raiseTo h1
theorem canon_raiseLimited {v1 : Dev} {v2 : EvCode} {v3 : Nat} {v4 : List Field} (h1 : Canon v1) : Canon (raiseLimited v1 v2 v3 v4) := by
  unfold raiseLimited
  split
  · exact canon_ite h1 (canon_raiseEv (canon_Dev_onLnk h1))
  · exact canon_raiseEv (canon_Dev_onLnk h1)
theorem canon_closeSession {v1 : Dev} {v2 v3 : Nat} (h1 : Canon v1) : Canon (closeSession v1 v2 v3) := by
  unfold closeSession
  split
  · exact h1
  · exact canon_raiseEv (canon_Dev_onLnk h1)
theorem canon_Dev_onLane {v1 : Dev} {v2 : Nat} {v3 : (Lane → Lane)} (h1 : Canon v1) : Canon (Dev.onLane v1 v2 v3) := canon_mk h1
theorem canon_Dev_post {v1 : Dev} {v2 : Nat} {v3 : Waiting} (h1 : Canon v1) : Canon (Dev.post v1 v2 v3) := canon_ite (canon_Dev_onLnk h1) h1
theorem canon_Dev_nextSeq_aux {v1 : Dev} {v2 v3 : Nat} (h1 : Canon v1) : Canon (Dev.nextSeq v1 v2 v3).2 := canon_Dev_onLnk h1
theorem canon_Dev_nextSeq {v1 : Dev} {v2 : Nat} {v3 : Nat} {x0 : Nat} {d9 : Dev} (h1 : Canon v1) (e : Dev.nextSeq v1 v2 v3 = (x0, d9)) : Canon d9 := by
  have h9 := @canon_Dev_nextSeq_aux v1 v2 v3 h1
  rw [e] at h9
  exact h9
theorem canon_Dev_sendPkt {v1 : Dev} {v2 v3 : Nat} {v4 : Addr} {v5 v6 : Nat} {v7 v8 : Nat} {v9 : List Nat} {v10 v11 : optParam Nat 0} (h1
    : Canon v1) : Canon (Dev.sendPkt v1 v2 v3 v4 v5 v6 v7 v8 v9 v10 v11) := by
  unfold Dev.sendPkt
  split
  exact canon_Dev_post (canon_Dev_nextSeq h1 (by assumption))
theorem canon_Dev_sendRsp {v1 : Dev} {v2 : Rsp} (h1 : Canon v1) : Canon (Dev.sendRsp v1 v2) :=
  canon_foldl (fun _ _ k3 => canon_Dev_post k3) h1
theorem canon_Dev_send {v1 : Dev} {v2 : Out} (h1 : Canon v1) : Canon (Dev.send v1 v2) := canon_Dev_onLnk h1
theorem canon_Dev_start {v1 : Dev} {v2 v3 : Nat} {v4 : Out} (h1 : Canon v1) : Canon (Dev.start v1 v2 v3 v4) :=
  canon_Dev_onLnk (canon_Dev_send h1)
theorem canon_Dev_onMail {v1 : Dev} {v2 : Nat} {v3 : (MailClass → MailClass)} (h1 : Canon v1) : Canon (Dev.onMail v1 v2 v3) :=
  canon_Dev_onLnk h1
theorem canon_sendSpread {v1 : Dev} {v2 : SpreadBlock} {v3 : Rsp} (h1 : Canon v1) : Canon (sendSpread v1 v2 v3) := by
  unfold sendSpread
  apply canon_ite
  · split
    · exact canon_Dev_onTmb h1
    · exact canon_Dev_onLnk h1
  · exact canon_Dev_onLnk h1
theorem canon_Dev_answer {v1 : Dev} {v2 : Hdr} {v3 : Rsp} (h1 : Canon v1) : Canon (Dev.answer v1 v2 v3) := by
  unfold Dev.answer
  split
  · exact canon_ite (canon_sendSpread h1) (canon_Dev_sendRsp h1)
  · exact canon_Dev_sendRsp h1
theorem canon_respond_aux {v1 : Dev} {v2 : Hdr} {v3 : CmdInfo} {v4 : Reply} (h1 : Canon v1) : Canon (respond v1 v2 v3 v4).1 := by
  unfold respond
  dsimp only
  split
  · exact canon_ite h1 (canon_Dev_onLnk h1)
  · split
    · exact h1
    · exact canon_Dev_answer h1
theorem canon_respond {v1 : Dev} {v2 : Hdr} {v3 : CmdInfo} {v4 : Reply} {d9 : Dev} {x1 : Option Rsp} (h1 : Canon v1) (e : respond v1 v2 v3 v4 = (d9, x1)) : Canon d9 := by
  have h9 := @canon_respond_aux v1 v2 v3 v4 h1
  rw [e] at h9
  exact h9
theorem canon_keepDone {v1 : Dev} {v2 : Hdr} {v3 : Option Rsp} (h1 : Canon v1) : Canon (keepDone v1 v2 v3) := canon_Dev_onLnk h1
theorem canon_finish {v1 : Dev} {v2 : Hdr} {v3 : CmdInfo} {v4 : Reply} {v5 : Nat} (h1 : Canon v1) : Canon (finish v1 v2 v3 v4 v5) := by
  unfold finish
  split
  exact canon_Dev_onMail (canon_keepDone (canon_respond h1 (by assumption)))
theorem canon_conclude {v1 : Hdr} {v2 : CmdInfo} {v3 : Nat} {v4 : Eff} (h4 : Canon v4.dev) : Canon (conclude v1 v2 v3 v4) := by
  unfold conclude
  split
  · exact canon_finish h4
  · exact canon_Dev_onMail h4
theorem canon_hostRun {v1 : Dev} {v2 : CmdInfo} {v3 : Hdr} {v4 : (Dev → Option Reply)} {v5 : (Dev → Eff)} (h1 : Canon v1) (h5
    : ∀ y0, Canon y0 → Canon (v5 y0).dev) : Canon (hostRun v1 v2 v3 v4 v5) := by
  unfold hostRun
  dsimp only
  apply canon_ite
  · exact canon_finish h1
  · apply canon_ite
    · exact canon_finish h1
    · apply canon_ite
      · exact canon_finish h1
      · apply canon_ite
        · exact canon_finish h1
        · apply canon_ite
          · exact canon_finish h1
          · apply canon_ite
            · exact canon_finish h1
            · split
              · exact canon_ite (canon_finish h1) (canon_finish h1)
              · exact canon_ite (canon_finish h1) (canon_conclude (h5 _ h1))
theorem canon_takeSeq {v1 : Dev} {v2 : Hdr} (h1 : Canon v1) : Canon (takeSeq v1 v2) := canon_Dev_onLnk h1
theorem canon_heard {v1 : Dev} {v2 : Hdr} (h1 : Canon v1) : Canon (heard v1 v2) := canon_Dev_onLnk h1
theorem canon_hostArrive {v1 : Dev} {v2 : CmdInfo} {v3 : Hdr} {v4 : Instr} {v5 : Dev → Option Reply} {v6 : Dev → Eff} (h1 : Canon v1)
    (h6 : ∀ d, Canon d → Canon (v6 d).dev) : Canon (hostArrive v1 v2 v3 v4 v5 v6) := by
  have hr : ∀ d r, Canon d → Canon (respond d v3 v2 r).1 := fun d r h => canon_respond_aux h
  unfold hostArrive
  simp only
  by_cases c1 : v1.ctl.phase ≠ Phase.running ∧ v1.ctl.phase ≠ Phase.loader ∧ v1.ctl.phase ≠ Phase.reload
  · rw [if_pos c1]; exact h1
  rw [if_neg c1]
  by_cases c2 : v1.ctl.phase = Phase.loader ∧ v3.port < 32
  · rw [if_pos c2]; exact h1
  rw [if_neg c2]
  by_cases c2' : (!portUp v1 v3.port || !carried v1 v3.src v3.wire) = true
  · rw [if_pos c2']; exact h1
  rw [if_neg c2']
  generalize (if v3.broadcast then !(bound v1 v3 || (v2.opcode == 0 && v3.session == 0)) else v3.unit != v1.nvm.unitNumber) = m
  cases m
  case true => exact h1
  case false =>
    simp only [Bool.false_eq_true, if_false]
    have hd : Canon (v1.onLnk fun l => { l with ports := upd l.ports v3.port fun c => { c with received := c.received + 1 } }) := h1
    generalize (v1.onLnk fun l => { l with ports := upd l.ports v3.port fun c => { c with received := c.received + 1 } }) = d at hd ⊢
    generalize hb : bound v1 v3 = b
    by_cases c3 : (!b && !(v2.opens && v3.session == 0)) = true
    · rw [if_pos c3]; exact hr _ _ hd
    rw [if_neg c3]
    have hd2 : Canon (if b = true then heard d v3 else d) := by split; exacts [canon_heard hd, hd]
    generalize (if b = true then heard d v3 else d) = d2 at hd2 ⊢
    by_cases c4 : 3 < v3.channel
    · rw [if_pos c4]; exact canon_respond_aux hd2
    rw [if_neg c4]
    by_cases c5 : v3.thorn = true
    · rw [if_pos c5]; exact canon_respond_aux (canon_Dev_onLnk hd2)
    rw [if_neg c5]
    cases hs : seqCase d2 v3 with
    | queued => exact hd2
    | kept r => cases r with
      | none => exact hd2
      | some r => exact canon_Dev_answer hd2
    | stale => exact hr _ _ hd2
    | fresh =>
      simp only
      split
      · exact hr _ _ (canon_Dev_onLnk hd2)
      · split
        · exact canon_hostRun (canon_takeSeq hd2) h6
        · exact canon_Dev_onMail (canon_takeSeq hd2)
theorem canon_hostCmd {info : CmdInfo} {h : Hdr} {i : Instr} {check : Dev → Option Reply} {eff : Dev → Eff}
    (he : ∀ d, Canon d → Canon (eff d).dev) : Keeps (hostCmd info h i check eff) := by
  apply canon_onDev
  intro d hd
  split
  · exact canon_hostRun (canon_Dev_onLnk hd) he
  · exact canon_hostArrive hd he
theorem canon_query {info : CmdInfo} {h : Hdr} {i : Instr} {check : Dev → Option Reply} {reply : Dev → List Field} :
    Keeps (query info h i check reply) := canon_hostCmd fun _ hd => hd
theorem canon_complete {v1 : Dev} {v2 : (Running → Bool)} {v3 : (Running → Reply)} (h1 : Canon v1) : Canon (complete v1 v2 v3) := by
  unfold complete
  refine canon_foldl ?_ ?_
  · intro k1 k2 k3
    split
    · exact canon_ite (canon_ite (canon_Dev_onMail k3) (canon_finish (canon_Dev_onMail k3))) k3
    · exact k3
  · exact h1
theorem canon_onWaits {v1 : Dev} {v2 : (Wait → Wait)} (h1 : Canon v1) : Canon (onWaits v1 v2) := canon_Dev_onLnk h1
theorem canon_consume {v1 : Dev} {v2 : Nat} (h1 : Canon v1) : Canon (consume v1 v2) := canon_Dev_onLnk h1
theorem canon_addOut_aux {v1 : Dev} {v2 v3 : Nat} {v4 v5 : List Nat} {v6 : Bool} (h1 : Canon v1) : Canon (addOut v1 v2 v3 v4 v5 v6).2 :=
  canon_Dev_onLnk h1
theorem canon_addOut {v1 : Dev} {v2 : Nat} {v3 : Nat} {v4 : List Nat} {v5 : List Nat} {v6 : Bool} {x0 : Nat} {d9 : Dev} (h1 : Canon v1) (e : addOut v1 v2 v3 v4 v5 v6 = (x0, d9)) : Canon d9 := by
  have h9 := @canon_addOut_aux v1 v2 v3 v4 v5 v6 h1
  rw [e] at h9
  exact h9
theorem canon_just {v1 : (Dev → Dev)} {v2 : Dev} (h1 : ∀ y0, Canon y0 → Canon (v1 y0)) (h2 : Canon v2) : Canon (just v1 v2).dev := h1 _ h2
theorem canon_Dev_portMoves {v1 : Dev} {v2 v3 : Nat} (h1 : Canon v1) : Canon (Dev.portMoves v1 v2 v3) := canon_mk (by assumption)
theorem canon_freshMany_aux {v1 : Nat} {v2 : Dev} (h2 : Canon v2) : Canon (freshMany v1 v2).2 := by
  induction v1 generalizing v2 with
  | zero => exact h2
  | succ n ih => exact ih (v2 := (v2.fresh 2).2) (canon_Dev_fresh_aux h2)
theorem canon_freshMany {v1 : Nat} {v2 : Dev} {x0 : List Nat} {d9 : Dev} (h2 : Canon v2) (e : freshMany v1 v2 = (x0, d9)) : Canon d9 := by
  have h9 := @canon_freshMany_aux v1 v2 h2
  rw [e] at h9
  exact h9
theorem canon_markDone {v1 : Dev} {v2 : QStake} (h1 : Canon v1) : Canon (markDone v1 v2) := canon_ite (canon_raiseEv h1) h1
theorem canon_raiseLate {v1 : Dev} {v2 : QStake} (h1 : Canon v1) : Canon (raiseLate v1 v2) := canon_raiseEv h1
theorem canon_raiseDropped {v1 : Dev} {v2 : QStake} (h1 : Canon v1) : Canon (raiseDropped v1 v2) := canon_raiseEv h1
theorem canon_hold {v1 : Dev} {v2 : QStake} (h1 : Canon v1) : Canon (hold v1 v2) := canon_ite (canon_raiseDropped h1) (canon_Dev_onTmb h1)
theorem canon_stakeRun {v1 : (Dev → QStake → Bool)} {v2 v3 : (Dev → QStake → Dev)} {v4 : Dev} {v5 : QStake} (h2 : ∀ y0 y1, Canon y0 → Canon
    (v2 y0 y1)) (h3 : ∀ y0 y1, Canon y0 → Canon (v3 y0 y1)) (h4 : Canon v4) : Canon (stakeRun v1 v2 v3 v4 v5) :=
  canon_ite (canon_markDone (h3 _ _ (canon_Dev_onTmb h4))) (canon_ite (canon_hold (canon_Dev_onTmb h4)) (h2 _ _ (canon_raiseLate
  (canon_Dev_onTmb h4))))
theorem canon_stakeAct {v1 : Nat} {v2 : (Dev → QStake → Bool)} {v3 v4 : (Dev → QStake → Dev)} {v5 : Dev} (h3 : ∀ y0 y1, Canon y0 → Canon
    (v3 y0 y1)) (h4 : ∀ y0 y1, Canon y0 → Canon (v4 y0 y1)) (h5 : Canon v5) : Canon (stakeAct v1 v2 v3 v4 v5) := by
  unfold stakeAct
  split
  · exact canon_markDone (h4 _ _ (canon_Dev_onTmb h5))
  · split
    · exact h5
    · exact canon_ite h5 (canon_stakeRun (fun _ _ k6 => h3 _ _ k6) (fun _ _ k6 => h4 _ _ k6) h5)
theorem canon_swapRefused {v1 : Dev} {v2 : EvCode} {v3 : QStake} (h1 : Canon v1) : Canon (swapRefused v1 v2 v3) := canon_raiseEv h1
theorem canon_Dev_onRx {v1 : Dev} {v2 : Nat} {v3 : (RxPath → RxPath)} (h1 : Canon v1) : Canon (Dev.onRx v1 v2 v3) := canon_mk h1
theorem canon_Dev_onTx {v1 : Dev} {v2 : Nat} {v3 : (TxPath → TxPath)} (h1 : Canon v1) : Canon (Dev.onTx v1 v2 v3) := canon_mk h1
theorem canon_Dev_onFe {v1 : Dev} {v2 : Nat} {v3 : (Fe → Fe)} (h1 : Canon v1) : Canon (Dev.onFe v1 v2 v3) := canon_mk h1
theorem canon_Dev_onRxSb {v1 : Dev} {v2 v3 : Nat} {v4 : (RxSb → RxSb)} (h1 : Canon v1) : Canon (Dev.onRxSb v1 v2 v3 v4) := canon_Dev_onRx h1
theorem canon_Dev_onTxSb {v1 : Dev} {v2 v3 : Nat} {v4 : (TxSb → TxSb)} (h1 : Canon v1) : Canon (Dev.onTxSb v1 v2 v3 v4) := canon_Dev_onTx h1
theorem canon_Dev_onFre {v1 : Dev} {v2 : Nat} {v3 : (FreSlot → FreSlot)} (h1 : Canon v1) : Canon (Dev.onFre v1 v2 v3) := canon_mk h1
theorem canon_Dev_onDac {v1 : Dev} {v2 : Nat} {v3 : (Dac → Dac)} (h1 : Canon v1) : Canon (Dev.onDac v1 v2 v3) := canon_mk h1
theorem canon_Dev_pwrCount {v1 : Dev} {v2 v3 : Nat} (h1 : Canon v1) : Canon (Dev.pwrCount v1 v2 v3) := canon_mk h1
theorem canon_biasPlace {v1 : Dev} {v2 v3 v4 : Nat} (h1 : Canon v1) : Canon (biasPlace v1 v2 v3 v4) :=
  canon_ite (canon_raiseEv (canon_Dev_pwrCount (canon_Dev_onDac h1))) (canon_Dev_onDac h1)
theorem canon_biasSafe {v1 : Dev} {v2 : Nat} {v3 v4 : Bool} (h1 : Canon v1) : Canon (biasSafe v1 v2 v3 v4) :=
  canon_raiseEv (canon_Dev_pwrCount (canon_Dev_onDac h1))
theorem canon_qsPlace {v1 : Dev} (h1 : Canon v1) : Canon (qsPlace v1) := canon_mk h1
theorem canon_qsDiscard {v1 : Dev} (h1 : Canon v1) : Canon (qsDiscard v1) := canon_mk h1
theorem canon_qsOff {v1 : Dev} (h1 : Canon v1) : Canon (qsOff v1) := canon_raiseEv (canon_mk (canon_qsDiscard h1))
theorem canon_qsExitCheck {v1 : Dev} (h1 : Canon v1) : Canon (qsExitCheck v1) := canon_ite (canon_complete (canon_qsOff h1)) h1
theorem canon_Dev_onDpd {v1 : Dev} {v2 : (Dpd → Dpd)} (h1 : Canon v1) : Canon (Dev.onDpd v1 v2) := canon_mk h1
theorem canon_Dev_onDpdPath {v1 : Dev} {v2 : Nat} {v3 : (DpdPath → DpdPath)} (h1 : Canon v1) : Canon (Dev.onDpdPath v1 v2 v3) :=
  canon_Dev_onDpd h1
theorem canon_reserveSlots {v1 : Dev} {v2 v3 : Nat} (h1 : Canon v1) : Canon (reserveSlots v1 v2 v3) :=
  canon_foldl (fun _ _ k4 => canon_Dev_onDpdPath k4) (canon_Dev_onDpd h1)
theorem canon_dpdCount {v1 : Dev} {v2 v3 : Nat} (h1 : Canon v1) : Canon (dpdCount v1 v2 v3) := canon_Dev_onDpdPath h1
theorem canon_dpdRequest {v1 : Dev} {v2 : Nat} {v3 : Bool} (h1 : Canon v1) : Canon (dpdRequest v1 v2 v3) := canon_Dev_onDpdPath h1
theorem canon_dpdJudge {v1 : Dev} {v2 : Nat} (h1 : Canon v1) : Canon (dpdJudge v1 v2) :=
  canon_ite h1 (canon_ite (canon_dpdRequest (canon_Dev_onDpdPath (canon_ite (canon_raiseEv h1) h1))) (canon_Dev_onDpdPath (canon_ite
  (canon_raiseEv h1) h1)))
theorem canon_dpdPowerStep {v1 : Dev} {v2 : Nat} {v3 : Int} (h1 : Canon v1) : Canon (dpdPowerStep v1 v2 v3) :=
  canon_dpdJudge (canon_Dev_onDpdPath h1)
theorem canon_dpdSwapOne {v1 v2 : Nat} {v3 : Dev} {v4 : Nat} (h3 : Canon v3) : Canon (dpdSwapOne v1 v2 v3 v4) :=
  canon_ite (canon_raiseEv h3) (canon_Dev_onDpdPath h3)
theorem canon_dpdTxOpen {v1 : Dev} {v2 : Nat} (h1 : Canon v1) : Canon (dpdTxOpen v1 v2) :=
  canon_ite (canon_Dev_onDpdPath (canon_Dev_onDpdPath h1)) (canon_ite (canon_dpdSwapOne (canon_Dev_onDpdPath (canon_Dev_onDpdPath h1)))
  (canon_Dev_onDpdPath h1))
theorem canon_Dev_onCal {v1 : Dev} {v2 : (Cal → Cal)} (h1 : Canon v1) : Canon (Dev.onCal v1 v2) := canon_mk h1
theorem canon_calCount {v1 : Dev} {v2 : Nat} (h1 : Canon v1) : Canon (calCount v1 v2) := canon_Dev_onCal h1
theorem canon_calStick {v1 : Dev} {v2 : Nat} (h1 : Canon v1) : Canon (calStick v1 v2) := canon_Dev_onCal h1
theorem canon_calTxOpen {v1 : Dev} {v2 : Nat} (h1 : Canon v1) : Canon (calTxOpen v1 v2) :=
  canon_ite (canon_Dev_onCal h1) (canon_dpdPowerStep (canon_raiseEv (canon_Dev_onCal h1)))
theorem canon_atTxOpen {v1 : Dev} {v2 : Nat} (h1 : Canon v1) : Canon (atTxOpen v1 v2) := canon_calTxOpen (canon_dpdTxOpen h1)
theorem canon_calTrigger {v1 : Dev} {v2 v3 v4 : Nat} (h1 : Canon v1) : Canon (calTrigger v1 v2 v3 v4) :=
  canon_ite h1 (canon_raiseEv (canon_Dev_onCal h1))
theorem canon_calNotice {v1 : Dev} (h1 : Canon v1) : Canon (calNotice v1) := canon_ite (canon_calTrigger h1) h1
theorem canon_calTemperature {v1 : Dev} (h1 : Canon v1) : Canon (calTemperature v1) := by
  unfold calTemperature
  dsimp only
  split
  · exact canon_ite (canon_calTrigger (canon_Dev_onCal h1)) (canon_Dev_onCal h1)
  · exact canon_Dev_onCal h1
theorem canon_feFromCal {v1 : Dev} {v2 : Nat} (h1 : Canon v1) : Canon (feFromCal v1 v2) := canon_ite (canon_Dev_onFe h1) h1
theorem canon_calAbandon {v1 : Dev} (h1 : Canon v1) : Canon (calAbandon v1) := by
  unfold calAbandon
  split
  · exact h1
  · exact canon_ite (canon_foldl (fun _ _ k6 => canon_ite (canon_Dev_onFe (canon_feFromCal k6)) k6) (canon_calCount
      (canon_Dev_onCal h1))) (canon_calCount (canon_Dev_onCal h1))
theorem canon_laneLost {v1 : Dev} {v2 : Nat} (h1 : Canon v1) : Canon (laneLost v1 v2) :=
  canon_foldl (fun _ _ k3 => canon_ite (canon_raiseEv (canon_mk k3)) k3) h1
theorem canon_rxReplace {v1 : Dev} {v2 : Nat} (h1 : Canon v1) : Canon (rxReplace v1 v2) :=
  canon_ite (canon_raiseLimited (canon_Dev_onRx h1)) (canon_Dev_onRx h1)
theorem canon_rxRestore {v1 : Dev} {v2 : Nat} (h1 : Canon v1) : Canon (rxRestore v1 v2) := by
  unfold rxRestore
  split
  · exact h1
  · exact canon_Dev_onFe (canon_Dev_onRx h1)
theorem canon_mismatchEnds {v1 : Dev} {v2 : Nat} (h1 : Canon v1) : Canon (mismatchEnds v1 v2) :=
  canon_ite (canon_ite (canon_Dev_onFe h1) (canon_Dev_onFe h1)) h1
theorem canon_closeRaw {v1 : Dev} {v2 v3 : Nat} {v4 : Bool} (h1 : Canon v1) : Canon (closeRaw v1 v2 v3 v4) := canon_mk h1
theorem canon_rxStop {v1 : Dev} {v2 v3 : Nat} (h1 : Canon v1) : Canon (rxStop v1 v2 v3) := canon_Dev_onRxSb (canon_closeRaw h1)
theorem canon_streamStop {v1 : Dev} {v2 : (OutStream → Bool)} (h1 : Canon v1) : Canon (streamStop v1 v2) := canon_mk h1
theorem canon_rxEach {v1 : (Nat → Nat → Dev → Dev)} {v2 : Dev} {v3 : QStake} (h1 : ∀ y0 y1 y2, Canon y2 → Canon (v1 y0 y1 y2)) (h2
    : Canon v2) : Canon (rxEach v1 v2 v3) := by
  unfold rxEach
  refine canon_foldl ?_ ?_
  · intro k1 k2 k3
    split
    exact canon_ite (h1 _ _ _ k3) k3
  · exact h2
theorem canon_lateDrop {v1 : Dev} {v2 : QStake} (h1 : Canon v1) : Canon (lateDrop v1 v2) := h1
theorem canon_rxSwapOne {v1 : QStake} {v2 v3 : Nat} {v4 : Dev} (h4 : Canon v4) : Canon (rxSwapOne v1 v2 v3 v4) :=
  canon_ite (canon_swapRefused h4) (canon_Dev_onRxSb h4)
theorem canon_noteLost {v1 : Dev} {v2 : Nat} (h1 : Canon v1) : Canon (noteLost v1 v2) := by
  unfold noteLost
  split
  · exact h1
  · exact canon_ite h1 (canon_raiseTo (canon_Dev_onLnk h1))
theorem canon_sendEvt {v1 : Dev} {v2 : Session} (h1 : Canon v1) : Canon (sendEvt v1 v2) :=
  canon_ite h1 (canon_noteLost (canon_Dev_sendPkt (canon_Dev_onLnk h1)))
theorem canon_evtTick {v1 : Dev} (h1 : Canon v1) : Canon (evtTick v1) := canon_foldl (fun _ _ k3 => canon_ite (canon_sendEvt k3) k3) h1
theorem canon_dataIn_aux {v1 : Dev} {v0 : Nat} {v2 : PktIn} {v3 : Nat} (h1 : Canon v1) : Canon (dataIn v1 v0 v2 v3).1 := by
  unfold dataIn
  split
  · exact h1
  · split
    · exact canon_Dev_onLnk h1
    · split
      · exact canon_Dev_onLnk h1
      · exact canon_Dev_onLnk h1
theorem canon_dataIn {v1 : Dev} {v0 : Nat} {v2 : PktIn} {v3 : Nat} {d9 : Dev} {x1 : Bool} (h1 : Canon v1) (e : dataIn v1 v0 v2 v3 = (d9, x1)) : Canon d9 := by
  have h9 := @canon_dataIn_aux v1 v0 v2 v3 h1
  rw [e] at h9
  exact h9
theorem canon_startTransfer {v1 : Dev} {v2 : Hdr} {v3 v4 v5 v6 : Nat} (h1 : Canon v1) : Canon (startTransfer v1 v2 v3 v4 v5 v6) := by
  have key : ∀ (l : List (List Nat × Nat)) (g : Dev × Nat → List Nat × Nat → Dev × Nat) (x : Dev × Nat),
      (∀ x k, Canon x.1 → Canon (g x k).1) → Canon x.1 → Canon (l.foldl g x).1 := by
    intro l g x hg hx
    induction l generalizing x with
    | nil => exact hx
    | cons k l ih => exact ih _ (hg _ _ hx)
  have hp : Canon (if (v1.obj? v3).any (·.inDram) then v1.portMoves 5 v5 else v1) := canon_ite (canon_Dev_portMoves h1) h1
  unfold startTransfer
  split
  · exact h1
  · exact canon_Dev_onLnk (key _ _ _ (fun x k hx => canon_Dev_sendPkt hx) hp)
theorem canon_reportNow {v1 : Dev} {v2 v3 : Nat} {v4 v5 : Nat} {v6 v7 : List Nat} (h1 : Canon v1) : Canon (reportNow v1 v2 v3 v4 v5 v6 v7) :=
  canon_foldl (fun _ _ k4 => canon_Dev_sendPkt k4) h1
theorem canon_sendReport {v1 : Dev} {v2 v3 : Nat} {v4 v5 : Nat} {v6 : List Field} {v7 : optParam (List Nat) []} (h1 : Canon v1) : Canon
    (sendReport v1 v2 v3 v4 v5 v6 v7) :=
  canon_ite (canon_Dev_onLnk h1) (canon_reportNow h1)
theorem canon_giveBuffer {v1 : Dev} {v2 : Nat} (h1 : Canon v1) : Canon (giveBuffer v1 v2) := by
  unfold giveBuffer
  dsimp only
  split
  · apply canon_ite
    · exact canon_Dev_onTmb (canon_Dev_onLnk h1)
    · split
      · exact canon_Dev_onTmb (canon_Dev_onLnk h1)
      · exact h1
  · split
    · exact canon_Dev_onTmb (canon_Dev_onLnk h1)
    · exact h1
theorem canon_placeParts {v1 : Dev} (h1 : Canon v1) : Canon (placeParts v1) := by
  unfold placeParts
  refine canon_foldl ?_ ?_
  · intro k1 k2 k3
    split
    · exact canon_ite k3 (canon_giveBuffer k3)
    · exact k3
  · exact h1
theorem canon_launchNow {v1 : Dev} {v2 : Launch} {v3 : (Dev → Dev)} (h1 : Canon v1) (h3 : ∀ y0, Canon y0 → Canon (v3 y0)) : Canon
    (launchNow v1 v2 v3) :=
  canon_ite h1 (canon_giveBuffer (canon_ite (h3 _ (canon_Dev_onTmb h1)) (canon_raiseEv (canon_Dev_onTmb h1))))
theorem canon_egress {v1 : Dev} {v2 : Nat} (h1 : Canon v1) : Canon (egress v1 v2) := by
  unfold egress
  dsimp only
  apply canon_ite
  · exact canon_Dev_onLnk h1
  · apply canon_ite
    · exact canon_Dev_onLnk h1
    · split
      · exact canon_Dev_onLnk h1
      · exact canon_ite (canon_Dev_onLnk (canon_Dev_start (canon_Dev_onLnk h1))) (canon_Dev_onLnk h1)
theorem canon_sendPfc {v1 : Dev} {v2 : Nat} {v3 : Bool} (h1 : Canon v1) : Canon (sendPfc v1 v2 v3) := canon_Dev_onLnk h1
theorem canon_ingressTick {v1 : Dev} {v2 : Nat} (h1 : Canon v1) : Canon (ingressTick v1 v2) := by
  unfold ingressTick
  dsimp only
  exact canon_ite (canon_Dev_onLnk (canon_Dev_fresh_aux h1)) (canon_ite (canon_sendPfc (canon_Dev_onLnk (canon_Dev_fresh_aux h1)))
    (canon_ite (canon_sendPfc (canon_Dev_onLnk (canon_Dev_fresh_aux h1))) (canon_Dev_onLnk (canon_Dev_fresh_aux h1))))
theorem canon_timedLeave {v1 : Dev} (h1 : Canon v1) : Canon (timedLeave v1) :=
  canon_foldl (fun _ _ k4 => canon_Dev_sendRsp k4) (canon_Dev_onLnk h1)
theorem canon_linkTick {v1 : Dev} (h1 : Canon v1) : Canon (linkTick v1) :=
  canon_Dev_each (fun _ _ k3 => canon_egress k3) (canon_Dev_each (fun _ _ k4 => canon_ingressTick k4) (canon_evtTick (canon_timedLeave h1)))
theorem canon_steerNow {v1 : Dev} (h1 : Canon v1) : Canon (steerNow v1) :=
  canon_ite (canon_Dev_onTmb h1) (canon_raiseLimited (canon_Dev_onTmb h1))
theorem canon_cancelAll {v1 : Dev} (h1 : Canon v1) : Canon (cancelAll v1) :=
  canon_foldl (fun _ _ k3 => canon_raiseEv k3) (canon_Dev_onTmb h1)
theorem canon_quicksetRestart {v1 : Dev} (h1 : Canon v1) : Canon (quicksetRestart v1) :=
  canon_ite (canon_raiseEv (canon_qsPlace (canon_qsDiscard (canon_mk h1)))) h1
theorem canon_clockStep {v1 : Dev} {v2 : Int} {v3 : optParam (Tmb → Tmb) id} (h1 : Canon v1) : Canon (clockStep v1 v2 v3) :=
  canon_quicksetRestart (canon_Dev_onTmb (canon_mk (canon_cancelAll h1)))
theorem canon_follow {v1 : Dev} {v2 : Nat} (h1 : Canon v1) : Canon (follow v1 v2) := canon_steerNow (canon_raiseEv (canon_Dev_onTmb h1))
theorem canon_firstQualify {v1 : Dev} {v2 : Nat} (h1 : Canon v1) : Canon (firstQualify v1 v2) :=
  canon_Dev_onTmb (canon_follow (canon_ite (canon_clockStep h1) h1))
theorem canon_switchTo {v1 : Dev} {v2 : Nat} (h1 : Canon v1) : Canon (switchTo v1 v2) :=
  canon_ite (canon_firstQualify h1) (canon_ite (canon_raiseEv h1) (canon_follow h1))
theorem canon_reselect {v1 : Dev} (h1 : Canon v1) : Canon (reselect v1) := by
  unfold reselect
  apply canon_ite
  · exact h1
  · split
    · exact canon_switchTo h1
    · exact h1
theorem canon_noteHoldover {v1 : Dev} (h1 : Canon v1) : Canon (noteHoldover v1) :=
  canon_ite h1 (canon_steerNow (canon_raiseEv (canon_Dev_onTmb h1)))
theorem canon_servoTo {v1 : Dev} {v2 v3 : Nat} (h1 : Canon v1) : Canon (servoTo v1 v2 v3) :=
  canon_reselect (canon_noteHoldover (canon_Dev_onTmb h1))
theorem canon_reEnable {v1 : Dev} (h1 : Canon v1) : Canon (reEnable v1) :=
  canon_foldl (fun _ _ k3 => canon_ite (canon_ite (canon_servoTo k3) k3) (canon_ite k3 (canon_servoTo k3))) h1
theorem canon_qsPorts {v1 : Dev} (h1 : Canon v1) : Canon (qsPorts v1) := by
  unfold qsPorts
  split
  · exact h1
  · exact canon_ite h1 (canon_foldl (fun _ _ k5 => canon_ite k5 (canon_servoTo (canon_Dev_onTmb k5))) h1)
theorem canon_retake {v1 : Dev} (h1 : Canon v1) : Canon (retake v1) := by
  unfold retake
  apply canon_ite
  · exact h1
  · split
    · exact canon_ite h1 (canon_follow h1)
    · exact h1
theorem canon_measured {v1 : Dev} {v2 : Nat} {v3 v4 : Int} {v5 v6 : Bool} (h1 : Canon v1) : Canon (measured v1 v2 v3 v4 v5 v6) :=
  canon_ite (canon_steerNow (canon_Dev_onTmb h1)) (canon_retake (canon_Dev_onTmb h1))
theorem canon_delayReq {v1 : Dev} {v2 : Servo} (h1 : Canon v1) : Canon (delayReq v1 v2) := canon_Dev_post h1
theorem canon_sourceLost {v1 : Dev} {v2 : Nat} (h1 : Canon v1) : Canon (sourceLost v1 v2) :=
  canon_ite (canon_servoTo h1) (canon_ite (canon_servoTo h1) h1)
theorem canon_partnerTraced {v1 : Dev} {v2 : Bool} (h1 : Canon v1) : Canon (partnerTraced v1 v2) :=
  canon_ite (canon_ite (canon_servoTo (canon_Dev_onTmb h1)) (canon_Dev_onTmb h1)) (canon_sourceLost (canon_Dev_onTmb (canon_Dev_onTmb
  h1)))
theorem canon_Dev_sendFrame {v1 : Dev} {v2 v3 : Nat} {v4 : List Nat} {v5 : optParam (List Nat) []} (h1 : Canon v1) : Canon
    (Dev.sendFrame v1 v2 v3 v4 v5) :=
  canon_ite (canon_Dev_send (canon_Dev_onLane h1)) h1
theorem canon_clearPort {v1 : Dev} {v2 : Nat} (h1 : Canon v1) : Canon (clearPort v1 v2) := canon_Dev_onLnk h1
theorem canon_leaveUp {v1 : Dev} {v2 v3 v4 : Nat} {v5 : Bool} (h1 : Canon v1) : Canon (leaveUp v1 v2 v3 v4 v5) :=
  canon_laneLost (canon_ite (canon_steerNow (canon_Dev_onTmb (canon_ite (canon_sourceLost (canon_ite (canon_raiseEv (canon_Dev_onLane
  (canon_raiseEv (canon_clearPort h1)))) (canon_Dev_onLane (canon_raiseEv (canon_clearPort h1))))) (canon_ite (canon_raiseEv
  (canon_Dev_onLane (canon_raiseEv (canon_clearPort h1)))) (canon_Dev_onLane (canon_raiseEv (canon_clearPort h1))))))) (canon_ite
  (canon_sourceLost (canon_ite (canon_raiseEv (canon_Dev_onLane (canon_raiseEv (canon_clearPort h1)))) (canon_Dev_onLane (canon_raiseEv
  (canon_clearPort h1))))) (canon_ite (canon_raiseEv (canon_Dev_onLane (canon_raiseEv (canon_clearPort h1)))) (canon_Dev_onLane
  (canon_raiseEv (canon_clearPort h1))))))
theorem canon_startLane {v1 : Dev} {v2 v3 v4 : Nat} (h1 : Canon v1) : Canon (startLane v1 v2 v3 v4) := by
  unfold startLane
  dsimp only
  apply canon_Dev_onLane
  split
  · exact canon_Dev_fresh_aux h1
  · exact h1
theorem canon_afterDown {v1 : Dev} {v2 : Nat} {v3 : After} (h1 : Canon v1) : Canon (afterDown v1 v2 v3) := by
  unfold afterDown
  split
  · exact canon_startLane h1
  · exact canon_ite (canon_foldl (fun _ _ k5 => canon_startLane k5) h1) h1
  · exact canon_startLane (canon_Dev_onLane h1)
  · exact canon_Dev_onLane h1
  · exact canon_ite (canon_mk h1) h1
theorem canon_takeDown {v1 : Dev} {v2 : Nat} {v3 : After} (h1 : Canon v1) : Canon (takeDown v1 v2 v3) :=
  canon_afterDown (canon_Dev_onLane (canon_ite (canon_Dev_send (canon_ite (canon_leaveUp h1) h1)) (canon_ite (canon_leaveUp h1) h1)))
theorem canon_markDown {v1 : Dev} {v2 : Hdr} {v3 : Nat} {v4 : After} (h1 : Canon v1) : Canon (markDown v1 v2 v3 v4) := canon_Dev_onLane h1
theorem canon_enterTest {v1 : Dev} {v2 : Hdr} {v3 : Nat} (h1 : Canon v1) : Canon (enterTest v1 v2 v3) :=
  canon_ite (canon_markDown h1) (canon_afterDown h1)
theorem canon_leaveTest {v1 : Dev} {v2 : Nat} (h1 : Canon v1) : Canon (leaveTest v1 v2) := canon_ite (canon_Dev_onLane h1) h1
theorem canon_prbsAdd {v1 : Dev} {v2 v3 v4 : Nat} (h1 : Canon v1) : Canon (prbsAdd v1 v2 v3 v4) := canon_Dev_onLane h1
theorem canon_prbsCatch {v1 : Dev} {v2 : Nat} (h1 : Canon v1) : Canon (prbsCatch v1 v2) := by
  unfold prbsCatch
  apply canon_ite
  · split
    split
    exact canon_prbsAdd (canon_Dev_fresh (canon_Dev_fresh h1 (by assumption)) (by assumption))
  · exact h1
theorem canon_sendIdent {v1 : Dev} {v2 : Nat} (h1 : Canon v1) : Canon (sendIdent v1 v2) := canon_Dev_send (canon_Dev_onLane h1)
theorem canon_sendFill {v1 : Dev} {v2 : Nat} (h1 : Canon v1) : Canon (sendFill v1 v2) := canon_Dev_send (canon_Dev_onLane h1)
theorem canon_blockTurn {v1 : Dev} {v2 : Nat} (h1 : Canon v1) : Canon (blockTurn v1 v2) :=
  canon_ite (canon_sendIdent (canon_Dev_onLane h1)) (canon_ite (canon_sendFill (canon_Dev_onLane h1)) (canon_Dev_onLane h1))
theorem canon_blockTick {v1 : Dev} {v2 : Nat} (h1 : Canon v1) : Canon (blockTick v1 v2) :=
  canon_ite (canon_ite (canon_Dev_onLane h1) (canon_blockTurn (canon_Dev_onLane h1))) h1
theorem canon_codewordTick {v1 : Dev} {v2 : Nat} (h1 : Canon v1) : Canon (codewordTick v1 v2) := by
  unfold codewordTick
  dsimp only
  exact canon_ite h1 (canon_ite (canon_Dev_onLane h1) (canon_ite (canon_raiseLimited (canon_Dev_onLane (canon_Dev_fresh_aux h1)))
    (canon_Dev_onLane (canon_Dev_fresh_aux h1))))
theorem canon_laneTick {v1 : Dev} {v2 : Nat} (h1 : Canon v1) : Canon (laneTick v1 v2) :=
  canon_codewordTick (canon_blockTick h1)
theorem canon_timePartner {v1 : Dev} {v2 v3 : Nat} (h1 : Canon v1) : Canon (timePartner v1 v2 v3) :=
  canon_ite h1 (canon_Dev_onTmb (canon_ite h1 (canon_raiseEv h1)))
theorem canon_identify {v1 : Dev} {v2 : Nat} (h1 : Canon v1) : Canon (identify v1 v2) := by
  unfold identify
  dsimp only
  split
  · exact canon_ite (canon_timePartner h1) (canon_timePartner (canon_raiseEv (canon_Dev_onLane h1)))
  · exact canon_ite h1 (canon_ite (canon_ite (canon_leaveUp h1) (canon_Dev_onLane h1)) (canon_raiseEv (canon_Dev_onLane (canon_ite
      (canon_leaveUp h1) (canon_Dev_onLane h1)))))
theorem canon_Dev_onNvm {v1 : Dev} {v2 : (Nvm → Nvm)} (h1 : Canon v1) : Canon (Dev.onNvm v1 v2) := canon_mk h1
theorem canon_journal {v1 : Dev} {v2 v3 v4 : Nat} {v5 : List Nat} {v6 : NvmOld} {v7 : optParam Bool false} (h1 : Canon v1) : Canon
    (journal v1 v2 v3 v4 v5 v6 v7) :=
  canon_Dev_onNvm h1
theorem canon_NvmOld_restore {v1 : Dev} {v2 : NvmOld} (h1 : Canon v1) : Canon (NvmOld.restore v1 v2) := by
  unfold NvmOld.restore
  split
  · exact h1
  · exact canon_Dev_onNvm h1
  · exact canon_Dev_onNvm h1
  · exact canon_Dev_onNvm h1
  · exact canon_Dev_onNvm h1
  · exact canon_Dev_onNvm h1
  · exact canon_mk h1
  · exact canon_mk h1
  · exact canon_mk h1
  · exact canon_Dev_onNvm h1
  · exact canon_Dev_onNvm h1
  · exact canon_Dev_onNvm h1
  · exact canon_Dev_onNvm h1
  · exact canon_Dev_onNvm h1
theorem canon_nvmStop {v1 : Dev} (h1 : Canon v1) : Canon (nvmStop v1) := by
  unfold nvmStop
  dsimp only
  apply canon_Dev_onNvm
  refine canon_foldl ?_ ?_
  · intro k3 k4 k5
    split
    · exact canon_NvmOld_restore k5
    · exact k5
  · exact h1
theorem canon_countMuted {v1 : Dev} {v2 : Nat} (h1 : Canon v1) : Canon (countMuted v1 v2) := canon_ite (canon_Dev_onTx h1) h1
theorem canon_txProtect {v1 : Dev} {v2 v3 : Nat} (h1 : Canon v1) : Canon (txProtect v1 v2 v3) :=
  canon_rxReplace (canon_Dev_onFe (canon_biasSafe (canon_countMuted h1)))
theorem canon_protectRelease {v1 : Dev} {v2 : Nat} (h1 : Canon v1) : Canon (protectRelease v1 v2) :=
  canon_ite (canon_Dev_onFe h1) (canon_ite (canon_rxRestore (canon_Dev_onFe h1)) (canon_Dev_onFe h1))
theorem canon_feToTx {v1 : Dev} {v2 : Nat} (h1 : Canon v1) : Canon (feToTx v1 v2) := canon_ite (canon_rxReplace (canon_Dev_onFe h1)) h1
theorem canon_feFromTx {v1 : Dev} {v2 : Nat} (h1 : Canon v1) : Canon (feFromTx v1 v2) :=
  canon_ite (canon_ite (canon_rxRestore (canon_Dev_onFe h1)) (canon_Dev_onFe h1)) h1
theorem canon_applyComp {v1 : Dev} {v2 : Nat} {v3 : Int} (h1 : Canon v1) : Canon (applyComp v1 v2 v3) := by
  unfold applyComp
  split
  · exact h1
  · exact canon_dpdPowerStep (canon_raiseEv (canon_Dev_onTx h1))
theorem canon_txStop {v1 : Dev} {v2 v3 : Nat} (h1 : Canon v1) : Canon (txStop v1 v2 v3) := canon_Dev_onTxSb h1
theorem canon_hostStream {v1 : Bool} {v0 : Nat} {v2 : PktIn} {v3 : StreamPkt} {v4 : EvCode} {v5 : (Dev → InStream → Timing)} {v6 : Dev} (h6 : Canon v6)
    : Canon (hostStream v1 v0 v2 v3 v4 v5 v6) := by
  unfold hostStream
  split
  split
  · exact canon_dataIn h6 (by assumption)
  · exact canon_ite (canon_dataIn h6 (by assumption)) (canon_ite (canon_mk (canon_dataIn h6 (by assumption))) (canon_raiseLimited
      (canon_ite (canon_mk (canon_dataIn h6 (by assumption))) (canon_foldl (fun _ _ k10 => canon_Dev_onTx k10) (canon_mk
      (canon_dataIn h6 (by assumption)))))))
theorem canon_underrunTick {v1 : Dev} {v2 : InStream} {v3 : EvCode} {v4 : Timing} (h1 : Canon v1) : Canon (underrunTick v1 v2 v3 v4) :=
  canon_ite h1 (canon_raiseLimited (canon_ite (canon_mk h1) (canon_foldl (fun _ _ k7 => canon_Dev_onTx k7) (canon_mk h1))))
theorem canon_noteTx {v1 : Dev} {v2 v3 v4 : Nat} (h1 : Canon v1) : Canon (noteTx v1 v2 v3 v4) := canon_mk h1
theorem canon_noteStake {v1 : Dev} {v2 : QStake} (h1 : Canon v1) : Canon (noteStake v1 v2) := by
  unfold noteStake
  refine canon_foldl ?_ ?_
  · intro k1 k2 k3
    split
    exact canon_ite (canon_noteTx k3) k3
  · exact h1
theorem canon_gateOnAt {v1 : Dev} {v2 v3 : Nat} (h1 : Canon v1) : Canon (gateOnAt v1 v2 v3) := canon_ite (canon_biasPlace h1) h1
theorem canon_gateOffAt {v1 : Dev} {v2 v3 : Nat} (h1 : Canon v1) : Canon (gateOffAt v1 v2 v3) := canon_ite (canon_biasPlace h1) h1
theorem canon_openPath {v1 : Bool} {v2 : Dev} {v3 : QStake} {v4 : Nat} (h2 : Canon v2) : Canon (openPath v1 v2 v3 v4) :=
  canon_ite (canon_countMuted (canon_ite (canon_raiseEv (canon_Dev_onTx (canon_Dev_onTx (canon_atTxOpen (canon_applyComp h2)))))
  (canon_Dev_onTx (canon_atTxOpen (canon_applyComp h2))))) (canon_ite (canon_raiseEv (canon_Dev_onTx (canon_Dev_onTx (canon_atTxOpen
  (canon_applyComp h2))))) (canon_Dev_onTx (canon_atTxOpen (canon_applyComp h2))))
theorem canon_openWindows {v1 : Bool} {v2 : Dev} {v3 : QStake} (h2 : Canon v2) : Canon (openWindows v1 v2 v3) :=
  canon_foldl (fun _ _ k4 => canon_openPath k4) (canon_foldl (fun _ _ k5 => canon_Dev_onTxSb k5) h2)
theorem canon_closeWindows {v1 : Dev} {v2 : QStake} (h1 : Canon v1) : Canon (closeWindows v1 v2) :=
  canon_foldl (fun _ _ k4 => canon_ite k4 (canon_gateOffAt (canon_Dev_onTx k4))) (canon_foldl (fun _ _ k5 => canon_Dev_onTxSb (canon_ite
  (canon_Dev_onTx k5) k5)) h1)
theorem canon_txSwapOne {v1 : QStake} {v2 : Dev} {v3 : Nat × Nat} (h2 : Canon v2) : Canon (txSwapOne v1 v2 v3) :=
  canon_ite (canon_swapRefused h2) (canon_Dev_onTxSb h2)
theorem canon_txSwaps {v1 : Dev} {v2 : QStake} (h1 : Canon v1) : Canon (txSwaps v1 v2) := canon_foldl (fun _ _ k3 => canon_txSwapOne k3) h1
theorem canon_Dev_onMem {v1 : Dev} {v2 : Memory → Memory} (h1 : Canon v1) (hf : v1.mem.wf = true → (v2 v1.mem).wf = true) : Canon (v1.onMem v2) := hf h1
theorem canon_noteDecoded {v1 : Dev} {v2 v3 : Nat} {v4 : Decoded} {v5 : Bool} (h1 : Canon v1) : Canon (noteDecoded v1 v2 v3 v4 v5) := by
  unfold noteDecoded
  split
  · exact canon_ite (canon_Dev_onMem h1 (fun k3 => wf_onStore k3)) h1
  · exact canon_Dev_onMem h1 (fun k2 => wf_onStore k2)
  · exact canon_raiseLimited (canon_Dev_onMem h1 (fun k3 => wf_onStore k3))
  · exact canon_raiseLimited (canon_Dev_onMem h1 (fun k3 => wf_onStore k3))
  · exact canon_raiseLimited (canon_Dev_onMem h1 (fun k3 => wf_onStore k3))
theorem canon_readWord_aux {v1 : Dev} {v2 : Nat} (h1 : Canon v1) : Canon (readWord v1 v2).2.2 := by
  unfold readWord
  dsimp only
  split
  · exact h1
  · split
    · exact h1
    · split
      · exact h1
      · split
        · exact canon_noteDecoded h1
        · exact canon_noteDecoded h1
        · exact canon_noteDecoded h1
        · exact canon_noteDecoded h1
        · exact canon_noteDecoded h1
theorem canon_readWord {v1 : Dev} {v2 : Nat} {x0 : Nat} {x1 : Bool} {d9 : Dev} (h1 : Canon v1) (e : readWord v1 v2 = (x0, x1, d9)) : Canon d9 := by
  have h9 := @canon_readWord_aux v1 v2 h1
  rw [e] at h9
  exact h9
theorem canon_thornDropped {v1 : Dev} {v2 : Nat} (h1 : Canon v1) : Canon (thornDropped v1 v2) :=
  canon_raiseLimited (canon_Dev_onMem h1 (fun _ => (by assumption)))
theorem canon_writeWord {v1 : Dev} {v2 v3 v4 : Nat} {v5 : Bool} (h1 : Canon v1) : Canon (writeWord v1 v2 v3 v4 v5) := by
  unfold writeWord
  split
  · exact h1
  · apply canon_ite
    · exact h1
    · apply canon_ite
      · exact canon_Dev_onMem (canon_ite (canon_thornDropped h1) h1) (fun k5 => wf_putBytes _ _ _ k5)
      · apply canon_ite
        · exact canon_Dev_onMem h1 (fun k5 => wf_store _ _ _ k5)
        · split
          exact canon_Dev_onMem (canon_readWord h1 (by assumption)) (fun k6 => wf_store _ _ _ k6)
theorem canon_readSpan_aux {v1 : Dev} {v2 v3 : Nat} (h1 : Canon v1) : Canon (readSpan v1 v2 v3).2.2 := by
  have key : ∀ (l : List Nat) (g : List Nat × List Nat × Dev → Nat → List Nat × List Nat × Dev) (x : List Nat × List Nat × Dev),
      (∀ x k, Canon x.2.2 → Canon (g x k).2.2) → Canon x.2.2 → Canon (l.foldl g x).2.2 := by
    intro l g x hg hx
    induction l generalizing x with
    | nil => exact hx
    | cons k l ih => exact ih _ (hg _ _ hx)
  unfold readSpan
  exact key _ _ _ (fun x k hx => canon_readWord_aux hx) h1
theorem canon_readSpan {v1 : Dev} {v2 v3 : Nat} {x0 x1 : List Nat} {d9 : Dev} (h1 : Canon v1) (e : readSpan v1 v2 v3 = (x0, x1, d9)) : Canon d9 := by
  have h9 := @canon_readSpan_aux v1 v2 v3 h1
  rw [e] at h9
  exact h9
theorem canon_writeSpan {v1 : Dev} {v2 : Nat} {v3 v4 v5 : List Nat} (h1 : Canon v1) : Canon (writeSpan v1 v2 v3 v4 v5) :=
  canon_foldl (fun _ _ k4 => canon_writeWord k4) h1
theorem canon_storeLost {v1 : Dev} {v2 : Nat} (h1 : Canon v1) : Canon (storeLost v1 v2) := canon_Dev_onMem h1 (fun k1 => wf_forget _ _ k1)
theorem canon_closeSlot {v1 : Dev} {v2 : Nat} {v3 : Bool} (h1 : Canon v1) : Canon (closeSlot v1 v2 v3) := canon_ite (canon_streamStop h1) h1
theorem canon_freStop {v1 : Dev} {v2 : Nat} (h1 : Canon v1) : Canon (freStop v1 v2) := canon_Dev_onFre (canon_closeSlot h1)
theorem canon_manyStreams {v1 : Dev} {v2 : StreamKind} {v3 v4 : Nat} {v5 v6 : Nat} {v7 v8 : Nat} {v9 : List Nat} (h1 : Canon v1) : Canon
    (manyStreams v1 v2 v3 v4 v5 v6 v7 v8 v9) :=
  canon_mk h1
theorem canon_stopBase {v1 : StreamKind} {v2 : Nat} {v3 : Dev} (h3 : Canon v3) : Canon (stopBase v1 v2 v3).dev := canon_streamStop h3
theorem canon_allotPages {v1 : List Nat} {v2 : Dev} (h2 : Canon v2) : Canon (allotPages v1 v2) :=
  canon_foldl (fun _ _ k4 => canon_Dev_onFre k4) (canon_foldl (fun _ _ k5 => canon_Dev_onFre k5) h2)
theorem canon_noteFre {v1 : Dev} {v2 v3 : Nat} (h1 : Canon v1) : Canon (noteFre v1 v2 v3) := canon_mk h1
theorem canon_noteSlot {v1 : Dev} {v2 : QStake} (h1 : Canon v1) : Canon (noteSlot v1 v2) := canon_ite h1 (canon_noteFre h1)
theorem canon_topSwap {v1 : Nat} {v2 : Dev} {v3 : QStake} (h2 : Canon v2) : Canon (topSwap v1 v2 v3) :=
  canon_ite (canon_swapRefused (canon_Dev_onFre h2)) (canon_raiseEv (canon_Dev_onFre h2))
theorem canon_freSwap {v1 : Dev} {v2 : QStake} (h1 : Canon v1) : Canon (freSwap v1 v2) :=
  canon_ite (canon_swapRefused h1) (canon_Dev_onFre h1)
theorem canon_observeRx {v1 : Dev} {v2 : Nat} (h1 : Canon v1) : Canon (observeRx v1 v2) := canon_mk h1
theorem canon_observeFre {v1 : Dev} {v2 : Nat} (h1 : Canon v1) : Canon (observeFre v1 v2) := canon_noteFre h1
theorem canon_Dev_onChain {v1 : Dev} {v2 : Nat} {v3 : (ChainNode → ChainNode)} (h1 : Canon v1) : Canon (Dev.onChain v1 v2 v3) := canon_mk h1
theorem canon_chainLeave {v1 : Dev} {v2 : Nat} (h1 : Canon v1) : Canon (chainLeave v1 v2) :=
  canon_ite (canon_raiseEv (canon_Dev_onChain h1)) h1
theorem canon_chainSwap {v1 : Dev} {v2 : QStake} (h1 : Canon v1) : Canon (chainSwap v1 v2) :=
  canon_ite (canon_swapRefused h1) (canon_Dev_onChain h1)
theorem canon_sumArrive {v1 : Dev} {v2 v3 : Nat} {v4 : ChainFrame} (h1 : Canon v1) : Canon (sumArrive v1 v2 v3 v4) :=
  canon_ite (canon_raiseLimited (canon_Dev_onChain h1)) (canon_ite (canon_raiseLimited (canon_Dev_onChain h1)) (canon_ite
  (canon_raiseLimited (canon_Dev_onChain h1)) (canon_ite (canon_raiseLimited (canon_Dev_onChain h1)) (canon_Dev_onChain h1))))
theorem canon_rootFrame {v1 : Dev} {v2 : Nat} {v3 : ChainSend} (h1 : Canon v1) : Canon (rootFrame v1 v2 v3) := by
  unfold rootFrame
  split
  · exact h1
  · exact canon_ite (canon_Dev_onChain (canon_ite h1 (canon_raiseLimited (canon_Dev_onChain h1)))) (canon_ite (canon_raiseLimited
      (canon_Dev_onChain (canon_Dev_onChain (canon_Dev_onChain (canon_ite h1 (canon_raiseLimited (canon_Dev_onChain h1)))))))
      (canon_Dev_onChain (canon_Dev_onChain (canon_ite h1 (canon_raiseLimited (canon_Dev_onChain h1))))))
theorem canon_frameOut {v1 : Dev} {v2 : Nat} {v3 : ChainSend} (h1 : Canon v1) : Canon (frameOut v1 v2 v3) :=
  canon_ite (canon_rootFrame h1) (canon_Dev_sendFrame h1)
theorem canon_reframe {v1 : Dev} {v2 : Nat} {v3 v4 : ChainSend} (h1 : Canon v1) : Canon (reframe v1 v2 v3 v4) :=
  canon_Dev_onLnk (canon_Dev_onChain h1)
theorem canon_chainCut {v1 : Dev} {v2 : Nat} (h1 : Canon v1) : Canon (chainCut v1 v2) := by
  unfold chainCut
  dsimp only
  apply canon_chainLeave
  split
  · exact h1
  · exact canon_ite h1 (canon_reframe h1)
theorem canon_layerFeed {v1 : Dev} {v2 : Nat} {v3 : ChainFrame} (h1 : Canon v1) : Canon (layerFeed v1 v2 v3) :=
  canon_ite h1 (canon_ite (canon_Dev_onFre (canon_Dev_onChain h1)) (canon_raiseLimited (canon_Dev_onFre (canon_Dev_onChain h1))))
theorem canon_bcastTick {v1 : Dev} {v2 : Nat} (h1 : Canon v1) : Canon (bcastTick v1 v2) :=
  canon_ite h1 (canon_ite h1 (canon_ite (canon_raiseLimited (canon_Dev_onChain h1)) (canon_raiseEv (canon_Dev_onChain h1))))
theorem canon_passDown {v1 : Dev} {v2 : ChainCfg} {v3 : ChainFrame} (h1 : Canon v1) : Canon (passDown v1 v2 v3) :=
  canon_foldl (fun _ _ k3 => canon_Dev_sendFrame k3) h1
theorem canon_rootBroadcast {v1 : Dev} {v2 v3 : Nat} (h1 : Canon v1) : Canon (rootBroadcast v1 v2 v3) :=
  canon_ite (canon_foldl (fun _ _ k5 => canon_passDown k5) h1) h1
theorem canon_observeTx {v1 : Dev} {v2 : Nat} (h1 : Canon v1) : Canon (observeTx v1 v2) := canon_noteTx h1
theorem canon_observePath {v1 : Dev} {v2 : Nat} (h1 : Canon v1) : Canon (observePath v1 v2) := canon_mk h1
theorem canon_trTick {v1 : Dev} {v2 : Nat} (h1 : Canon v1) : Canon (trTick v1 v2) :=
  canon_ite (canon_ite h1 (canon_feFromTx h1)) (canon_ite (canon_feToTx h1) h1)
theorem canon_muteTick {v1 : Dev} {v2 : Nat} (h1 : Canon v1) : Canon (muteTick v1 v2) := by
  unfold muteTick
  split
  · exact canon_ite (canon_Dev_onTx (canon_countMuted h1)) h1
  · exact h1
theorem canon_txTick {v1 : Dev} {v2 : Nat} (h1 : Canon v1) : Canon (txTick v1 v2) :=
  canon_ite (canon_ite (canon_raiseLimited (canon_Dev_onTx h1)) (canon_Dev_onTx h1)) (canon_raiseLimited
  (canon_Dev_onDpdPath (canon_ite (canon_raiseLimited (canon_Dev_onTx h1)) (canon_Dev_onTx h1))))
theorem canon_dpdBackoffTo {v1 : Dev} {v2 v3 : Nat} (h1 : Canon v1) : Canon (dpdBackoffTo v1 v2 v3) :=
  canon_raiseEv (canon_Dev_onDpdPath h1)
theorem canon_dpdSave {v1 : Dev} {v2 : Nat} (h1 : Canon v1) : Canon (dpdSave v1 v2) := canon_Dev_onDpdPath (canon_journal (canon_mk h1))
theorem canon_dpdRestore {v1 : Dev} (h1 : Canon v1) : Canon (dpdRestore v1) := by
  unfold dpdRestore
  refine canon_foldl ?_ ?_
  · intro k1 k2 k3
    split
    · exact canon_ite (canon_dpdRequest (canon_Dev_onDpdPath k3)) (canon_Dev_onDpdPath k3)
    · exact canon_ite (canon_dpdRequest (canon_Dev_onDpdPath k3)) (canon_Dev_onDpdPath k3)
  · exact h1
theorem canon_dpdLost {v1 : Dev} (h1 : Canon v1) : Canon (dpdLost v1) := canon_Dev_onDpd h1
theorem canon_dpdAssign {v1 : Dev} {v2 : Nat} (h1 : Canon v1) : Canon (dpdAssign v1 v2) := by
  unfold dpdAssign
  refine canon_foldl ?_ ?_
  · intro k1 k2 k3
    split
    · exact k3
    · exact canon_dpdCount (canon_Dev_onDpdPath k3)
  · exact h1
theorem canon_dpdSlotEnd {v1 : Dev} {v2 : Nat} (h1 : Canon v1) : Canon (dpdSlotEnd v1 v2) := by
  unfold dpdSlotEnd
  refine canon_foldl ?_ ?_
  · intro k1 k2 k3
    dsimp only
    split
    · apply canon_ite
      · apply canon_dpdSwapOne
        apply canon_Dev_onDpdPath
        split
        · exact canon_ite (canon_Dev_onDpdPath (canon_ite (canon_dpdCount k3) k3)) k3
        · exact k3
      · split
        · exact canon_ite (canon_Dev_onDpdPath (canon_ite (canon_dpdCount k3) k3)) k3
        · exact k3
    · split
      · exact canon_ite (canon_Dev_onDpdPath (canon_ite (canon_dpdCount k3) k3)) k3
      · exact k3
  · exact h1
theorem canon_dpdReleases {v1 : Dev} (h1 : Canon v1) : Canon (dpdReleases v1) :=
  canon_foldl (fun _ _ k3 => canon_ite (canon_ite (canon_Dev_onDpdPath k3) (canon_dpdBackoffTo (canon_Dev_onDpdPath k3))) k3) h1
theorem canon_dpdBackoffs {v1 : Dev} {v2 : Nat} (h1 : Canon v1) : Canon (dpdBackoffs v1 v2) := by
  unfold dpdBackoffs
  refine canon_foldl ?_ ?_
  · intro k1 k2 k3
    dsimp only
    split
    · exact canon_ite (canon_dpdBackoffTo k3) k3
    · exact k3
  · exact h1
theorem canon_onRun {v1 : Dev} {v2 : (CalRun → CalRun)} (h1 : Canon v1) : Canon (onRun v1 v2) := canon_Dev_onCal h1
theorem canon_calDiscard {v1 : Dev} (h1 : Canon v1) : Canon (calDiscard v1) := by
  unfold calDiscard
  split
  · exact canon_raiseEv (canon_Dev_onCal h1)
  · exact h1
theorem canon_storeTable {v1 : Dev} {v2 : Nat × Nat} {v3 : CalTable} (h1 : Canon v1) : Canon (storeTable v1 v2 v3) :=
  canon_journal (canon_mk h1)
theorem canon_putTable {v1 : Dev} {v2 : Nat × Nat} {v3 : CalTable} (h1 : Canon v1) : Canon (putTable v1 v2 v3) := canon_Dev_onCal h1
theorem canon_planStep {v1 : Dev} (h1 : Canon v1) : Canon (planStep v1) := by
  unfold planStep
  split
  · apply canon_ite
    · split
      · exact canon_ite (canon_reserveSlots (canon_onRun (canon_Dev_onCal h1))) (canon_onRun (canon_Dev_onCal h1))
      · exact h1
    · exact h1
  · exact h1
theorem canon_beginStep {v1 : Dev} {v2 : Nat} (h1 : Canon v1) : Canon (beginStep v1 v2) :=
  canon_foldl (fun _ _ k4 => canon_rxReplace (canon_ite (canon_Dev_onFe k4) k4)) (canon_onRun (canon_Dev_onCal h1))
theorem canon_restoreAll {v1 : Dev} (h1 : Canon v1) : Canon (restoreAll v1) :=
  canon_foldl (fun _ _ k3 => canon_ite (canon_rxRestore k3) k3) h1
theorem canon_endStep {v1 : Dev} (h1 : Canon v1) : Canon (endStep v1) := by
  unfold endStep
  dsimp only
  split
  · exact canon_ite (canon_complete (canon_calDiscard (canon_onRun (canon_restoreAll (canon_foldl (fun _ _ k10 => canon_feFromCal
      k10) (canon_calCount (canon_Dev_onCal h1))))))) (canon_onRun (canon_restoreAll (canon_foldl (fun _ _ k8 => canon_feFromCal k8)
      (canon_calCount (canon_Dev_onCal h1)))))
  · exact canon_onRun (canon_restoreAll (canon_foldl (fun _ _ k7 => canon_feFromCal k7) (canon_calCount (canon_Dev_onCal h1))))
theorem canon_calRecheck {v1 : Dev} (h1 : Canon v1) : Canon (calRecheck v1) := by
  unfold calRecheck
  split
  · exact canon_ite h1 (canon_restoreAll (canon_calAbandon h1))
  · exact h1
theorem canon_calLost {v1 : Dev} (h1 : Canon v1) : Canon (calLost v1) := canon_Dev_onCal (canon_restoreAll (canon_calAbandon h1))
theorem canon_keepTx {v1 : Dev} {v2 : List Nat} (h1 : Canon v1) : Canon (keepTx v1 v2) :=
  canon_foldl (fun _ _ k3 => canon_ite k3 (canon_Dev_onCal k3)) h1
theorem canon_autoStore {v1 : Dev} {v2 : Nat × Nat} (h1 : Canon v1) : Canon (autoStore v1 v2) := by
  unfold autoStore
  split
  · exact canon_ite h1 (canon_storeTable h1)
  · exact canon_storeTable h1
theorem canon_useLoaded {v1 : Dev} (h1 : Canon v1) : Canon (useLoaded v1) := by
  unfold useLoaded
  split
  · exact canon_putTable (canon_keepTx (canon_Dev_onCal h1))
  · exact h1
theorem canon_useResults {v1 : Dev} {v2 : Nat} {v3 : CalResults} {v4 : List (Nat × Nat)} (h1 : Canon v1) : Canon (useResults v1 v2 v3 v4) :=
  canon_foldl (fun _ _ k4 => canon_autoStore (canon_putTable k4)) (canon_keepTx h1)
theorem canon_runDone {v1 : Dev} {v2 : CalRun} {v3 : List CalRun} {v4 : CalResults} {v5 : Nat} {v6 : List (Nat × Nat)} (h1 : Canon v1)
    : Canon (runDone v1 v2 v3 v4 v5 v6) :=
  canon_raiseEv (canon_calCount (canon_Dev_onCal h1))
theorem canon_onPartner {v1 : Dev} {v2 : Nat} {v3 : (OtaPartner → OtaPartner)} (h1 : Canon v1) : Canon (onPartner v1 v2 v3) :=
  canon_Dev_onCal h1
theorem canon_otaFault {v1 : Dev} {v2 v3 : Nat} (h1 : Canon v1) : Canon (otaFault v1 v2 v3) := canon_calStick (canon_raiseEv h1)
theorem canon_otaCorrect {v1 : Dev} {v2 : Nat} (h1 : Canon v1) : Canon (otaCorrect v1 v2) :=
  canon_ite (canon_otaFault (canon_onPartner (canon_ite (canon_Dev_onCal (canon_ite (canon_onPartner (canon_Dev_onTmb h1)) h1))
  (canon_ite (canon_onPartner (canon_Dev_onTmb h1)) h1)))) (canon_onPartner (canon_ite (canon_Dev_onCal (canon_ite (canon_onPartner
  (canon_Dev_onTmb h1)) h1)) (canon_ite (canon_onPartner (canon_Dev_onTmb h1)) h1)))
theorem canon_otaSolve {v1 : Dev} {v2 : Nat} (h1 : Canon v1) : Canon (otaSolve v1 v2) := by
  unfold otaSolve
  dsimp only
  split
  · exact canon_ite (canon_otaFault h1) (canon_ite (canon_otaFault h1) (canon_otaCorrect (canon_raiseEv (canon_calCount
      (canon_onPartner h1)))))
  · exact h1
theorem canon_otaStale {v1 : Dev} (h1 : Canon v1) : Canon (otaStale v1) := canon_foldl (fun _ _ k4 => canon_otaFault k4) h1
theorem canon_Dev_onSyn {v1 : Dev} {v2 : (Syn → Syn)} (h1 : Canon v1) : Canon (Dev.onSyn v1 v2) := canon_mk h1
theorem canon_makeRecord {v1 : Dev} {v2 v3 : Nat} (h1 : Canon v1) : Canon (makeRecord v1 v2 v3) := by
  unfold makeRecord
  split
  split
  split
  split
  exact canon_journal (canon_mk (canon_Dev_fresh (canon_Dev_fresh (canon_Dev_fresh (canon_Dev_fresh h1 (by assumption)) (by
    assumption)) (by assumption)) (by assumption)))
theorem canon_replaceAll {v1 : Dev} (h1 : Canon v1) : Canon (replaceAll v1) :=
  canon_foldl (fun _ _ k3 => canon_ite k3 (canon_rxReplace k3)) h1
theorem canon_discontinue {v1 : Dev} (h1 : Canon v1) : Canon (discontinue v1) := canon_mk h1
theorem canon_sbCalibrated {v1 : Dev} (h1 : Canon v1) : Canon (sbCalibrated v1) := by
  unfold sbCalibrated
  dsimp only
  apply canon_ite
  · exact canon_raiseEv (canon_Dev_onSyn (canon_makeRecord h1))
  · split
    · exact canon_onWaits (canon_Dev_onSyn (canon_makeRecord h1))
    · exact canon_complete (canon_raiseEv (canon_Dev_onSyn (canon_makeRecord h1)))
theorem canon_hopGlitch {v1 : Dev} (h1 : Canon v1) : Canon (hopGlitch v1) :=
  canon_foldl (fun _ _ k3 => canon_ite (canon_Dev_onRx (canon_rxReplace k3)) k3) h1
theorem canon_exchange {v1 : Dev} {v2 : Nat} (h1 : Canon v1) : Canon (exchange v1 v2) := canon_Dev_onSyn h1
theorem canon_Dev_onBcn {v1 : Dev} {v2 : (Bcn → Bcn)} (h1 : Canon v1) : Canon (Dev.onBcn v1 v2) := canon_mk h1
theorem canon_bcnCount {v1 : Dev} {v2 : Nat} (h1 : Canon v1) : Canon (bcnCount v1 v2) := canon_Dev_onBcn h1
theorem canon_qsHear {v1 : Dev} {v2 : BcnLock} {v3 : BcnHdr} {v4 : Bool} (h1 : Canon v1) : Canon (qsHear v1 v2 v3 v4) := canon_mk h1
theorem canon_bcnReport {v1 : Dev} {v2 : BcnLock} {v3 : Bool} (h1 : Canon v1) : Canon (bcnReport v1 v2 v3) := by
  unfold bcnReport
  split
  · exact h1
  · exact canon_ite (canon_Dev_onBcn (canon_ite (canon_qsHear (canon_Dev_onBcn h1)) (canon_Dev_onBcn h1))) (canon_ite
      (canon_sendReport (canon_ite (canon_qsHear (canon_Dev_onBcn h1)) (canon_Dev_onBcn h1))) (canon_ite (canon_qsHear
      (canon_Dev_onBcn h1)) (canon_Dev_onBcn h1)))
theorem canon_bcnAbandon {v1 : Dev} (h1 : Canon v1) : Canon (bcnAbandon v1) := by
  unfold bcnAbandon
  split
  · exact canon_Dev_onBcn (canon_bcnReport h1)
  · exact canon_Dev_onBcn h1
theorem canon_bcnAct {v1 : Dev} {v2 : QStake} (h1 : Canon v1) : Canon (bcnAct v1 v2) :=
  canon_ite (canon_raiseEv (canon_gateOffAt (canon_bcnCount (canon_ite (canon_gateOnAt h1) h1)))) (canon_Dev_onBcn (canon_Dev_send
  (canon_bcnCount (canon_gateOffAt (canon_feToTx (canon_ite (canon_gateOnAt h1) h1))))))
theorem canon_bcnPromote {v1 : Dev} (h1 : Canon v1) : Canon (bcnPromote v1) := by
  unfold bcnPromote
  split
  · exact canon_ite (canon_Dev_onBcn h1) (canon_bcnCount (canon_Dev_onBcn h1))
  · exact canon_Dev_onBcn h1
theorem canon_bcnFalse {v1 : Dev} (h1 : Canon v1) : Canon (bcnFalse v1) :=
  canon_bcnPromote (canon_raiseLimited (canon_bcnCount (canon_Dev_onBcn h1)))
theorem canon_bcnCollide {v1 : Dev} (h1 : Canon v1) : Canon (bcnCollide v1) :=
  canon_ite (canon_raiseLimited (canon_bcnCount (canon_Dev_onBcn h1))) h1
theorem canon_takeTheirs {v1 : Dev} {v2 : BcnHdr} {v3 : List Nat} (h1 : Canon v1) : Canon (takeTheirs v1 v2 v3) := by
  unfold takeTheirs
  split
  · exact h1
  · apply canon_ite
    · exact h1
    · split
      · exact h1
      · exact canon_otaSolve (canon_onPartner h1)
theorem canon_takeOurs {v1 : Dev} {v2 : BcnHdr} {v3 : BcnEnd} (h1 : Canon v1) : Canon (takeOurs v1 v2 v3) := by
  unfold takeOurs
  split
  · exact h1
  · exact canon_otaSolve (canon_onPartner h1)
theorem canon_Dev_onWeave {v1 : Dev} {v2 : (Weave → Weave)} (h1 : Canon v1) : Canon (Dev.onWeave v1 v2) := canon_mk h1
theorem canon_Dev_onXce {v1 : Dev} {v2 : (Xce → Xce)} (h1 : Canon v1) : Canon (Dev.onXce v1 v2) := canon_mk h1
theorem canon_feedGroup {v1 : Dev} {v2 : WeaveBank} {v3 : Nat} {v4 : List (Nat × InCount)} {v5 : List WeaveFrame} (h1 : Canon v1) :
    Canon (feedGroup v1 v2 v3 v4 v5) := by
  unfold feedGroup
  extract_lets c cut d1 covCut d2 d3
  have k1 : Canon d1 := by dsimp only [d1]; split <;> exact h1
  have k2 : Canon d2 := by dsimp only [d2]; split <;> exact k1
  have k3 : Canon d3 := by
    dsimp only [d3]; split
    · exact k2
    · split <;> exact k2
  clear_value d1 d2 d3
  split
  · exact k3
  · extract_lets s d4 d5 n
    have k5 : Canon d5 := k3
    split
    · exact k3
    · split
      · exact k5
      · split
        · exact canon_raiseEv (canon_Dev_onXce k5)
        · exact k5
theorem canon_xceHalt {v1 : Dev} {v2 : Bool} (h1 : Canon v1) : Canon (xceHalt v1 v2) := canon_Dev_onXce h1
theorem canon_regionFrees {v1 : Dev} (h1 : Canon v1) : Canon (regionFrees v1) := canon_Dev_onWeave h1
theorem canon_weaveLeave {v1 : Dev} (h1 : Canon v1) : Canon (weaveLeave v1) :=
  canon_ite (canon_raiseEv (canon_Dev_onXce (canon_Dev_onWeave (canon_regionFrees (canon_xceHalt h1))))) h1
theorem canon_weaveSwap {v1 : Dev} {v2 : QStake} (h1 : Canon v1) : Canon (weaveSwap v1 v2) :=
  canon_ite (canon_swapRefused h1) (canon_ite (canon_Dev_onWeave (canon_weaveLeave (canon_raiseEv (canon_Dev_onXce h1)))) (canon_raiseEv
  (canon_ite (canon_Dev_onXce (canon_xceHalt (canon_Dev_onWeave (canon_Dev_onXce h1)))) (canon_Dev_onWeave (canon_Dev_onXce h1)))))
theorem canon_routeFrame {v1 : Dev} {v2 : WeaveBank} {v3 : WeaveFrame} {v4 : Nat} (h1 : Canon v1) : Canon (routeFrame v1 v2 v3 v4) := by
  unfold routeFrame
  dsimp only
  split
  · exact h1
  · split
    · exact canon_raiseLimited (canon_Dev_onWeave h1)
    · exact canon_Dev_sendFrame (canon_Dev_onWeave h1)
theorem canon_ownerFrame {v1 : Dev} {v2 : WeaveFrame} (h1 : Canon v1) : Canon (ownerFrame v1 v2) :=
  canon_ite (canon_raiseLimited (canon_Dev_onWeave (canon_Dev_onWeave h1))) (canon_ite (canon_raiseLimited (canon_Dev_onWeave
  (canon_Dev_onWeave h1))) (canon_ite (canon_raiseLimited (canon_Dev_onWeave (canon_Dev_onWeave h1))) (canon_Dev_onWeave
  (canon_Dev_onWeave h1))))
theorem canon_countMissing {v1 : WeaveBank} {v2 : Nat} {v3 : Dev} {v4 : Nat} (h3 : Canon v3) : Canon (countMissing v1 v2 v3 v4) :=
  canon_raiseLimited (canon_Dev_onWeave h3)
theorem canon_weaveOverflow {v1 : Dev} (h1 : Canon v1) : Canon (weaveOverflow v1) := by
  unfold weaveOverflow
  apply canon_ite
  · exact h1
  · split
    · exact canon_raiseLimited (canon_Dev_onWeave h1)
    · split
      exact canon_raiseLimited (canon_Dev_onWeave (canon_Dev_onXce (canon_freshMany h1 (by assumption))))
theorem canon_regionDone {v1 : Dev} {v2 : Nat} (h1 : Canon v1) : Canon (regionDone v1 v2) :=
  canon_ite h1 (canon_complete (canon_Dev_onMem h1 (fun k4 => wf_mk (wf_forget _ _ k4))))
theorem canon_scrubWord {v1 : Dev} {v2 v3 : Nat} (h1 : Canon v1) : Canon (scrubWord v1 v2 v3) := by
  unfold scrubWord
  apply canon_ite
  · exact h1
  · dsimp only
    split
    · exact canon_Dev_onMem (canon_readWord_aux h1) (fun k4 => wf_store _ _ _ k4)
    · exact canon_Dev_onMem (canon_readWord_aux h1) (fun k4 => wf_store _ _ _ k4)
    · exact canon_Dev_onMem (canon_readWord_aux h1) (fun k4 => wf_store _ _ _ k4)
    · exact canon_readWord_aux h1
    · exact canon_readWord_aux h1
theorem canon_stopDone {v1 : Dev} (h1 : Canon v1) : Canon (stopDone v1) := by
  unfold stopDone
  split
  · exact h1
  · exact canon_ite (canon_qsExitCheck (canon_complete (canon_raiseEv (canon_Dev_onXce h1)))) h1
theorem canon_qsRequant {v1 : Dev} {v2 : Nat} (h1 : Canon v1) : Canon (qsRequant v1 v2) := by
  unfold qsRequant
  apply canon_ite
  · exact h1
  · split
    exact canon_noteFre (canon_Dev_onFre (canon_Dev_fresh h1 (by assumption)))
theorem canon_xceSwap {v1 : Dev} {v2 : QStake} (h1 : Canon v1) : Canon (xceSwap v1 v2) :=
  canon_ite (canon_swapRefused h1) (canon_Dev_onXce h1)
theorem canon_beginRound {v1 : Dev} {v2 : XcePass} (h1 : Canon v1) : Canon (beginRound v1 v2) := canon_Dev_onXce h1
theorem canon_countStall {v1 : Dev} {v2 : Nat} (h1 : Canon v1) : Canon (countStall v1 v2) :=
  canon_ite h1 (canon_raiseLimited (canon_Dev_onXce h1))
theorem canon_freeBanks {v1 : Dev} {v2 : List TileJob} (h1 : Canon v1) : Canon (freeBanks v1 v2) := canon_countStall (canon_Dev_onXce h1)
theorem canon_flushOut {v1 : Dev} (h1 : Canon v1) : Canon (flushOut v1) :=
  canon_foldl (fun _ _ k4 => canon_sendReport k4) (canon_Dev_onXce h1)
theorem canon_sendCounts {v1 : Dev} {v2 v3 : Nat} {v4 v5 v6 : Nat} {v7 : List (Nat × InCount)} (h1 : Canon v1) : Canon
    (sendCounts v1 v2 v3 v4 v5 v6 v7) :=
  canon_foldl (fun _ _ k3 => canon_sendReport k3) h1
theorem canon_loseInt {v1 : Dev} {v2 : Nat} (h1 : Canon v1) : Canon (loseInt v1 v2) :=
  canon_foldl (fun _ _ k3 => canon_ite (canon_Dev_onXce k3) (canon_raiseEv (canon_Dev_onXce (canon_Dev_onLnk k3)))) h1
theorem canon_countFormat {v1 : Dev} {v2 : OutStream} {v3 : List Feed} (h1 : Canon v1) : Canon (countFormat v1 v2 v3) :=
  canon_ite h1 (canon_ite h1 (canon_foldl (fun _ _ k6 => canon_raiseLimited (canon_Dev_onRxSb k6)) h1))
theorem canon_dropGroups {v1 : Dev} {v2 : OutStream} {v3 : Nat} (h1 : Canon v1) : Canon (dropGroups v1 v2 v3) :=
  canon_raiseLimited (canon_Dev_onLnk h1)
theorem canon_onOut {v1 : Dev} {v2 : Nat} {v3 : (OutStream → Option OutStream)} (h1 : Canon v1) : Canon (onOut v1 v2 v3) := canon_mk h1
theorem canon_pruneSums {v1 : Dev} {v2 : OutStream} (h1 : Canon v1) : Canon (pruneSums v1 v2) := canon_ite h1 (canon_Dev_onChain h1)
theorem canon_Dev_onPwr {v1 : Dev} {v2 : (Pwr → Pwr)} (h1 : Canon v1) : Canon (Dev.onPwr v1 v2) := canon_mk h1
theorem canon_setDomain {v1 : Dev} {v2 : Nat} {v3 : Bool} (h1 : Canon v1) : Canon (setDomain v1 v2 v3) := canon_Dev_onPwr h1
theorem canon_freeChans {v1 : Dev} {v2 : Nat} (h1 : Canon v1) : Canon (freeChans v1 v2) := canon_mk h1
theorem canon_coresLost {v1 : Dev} (h1 : Canon v1) : Canon (coresLost v1) :=
  canon_mk (canon_foldl (fun _ _ k6 => canon_ite k6 (canon_raiseEv (canon_freeChans k6))) h1)
theorem canon_integsLost {v1 : Dev} (h1 : Canon v1) : Canon (integsLost v1) :=
  canon_Dev_onXce (canon_foldl (fun _ _ k5 => canon_raiseEv (canon_Dev_onXce k5)) h1)
theorem canon_signalLost {v1 : Dev} (h1 : Canon v1) : Canon (signalLost v1) :=
  canon_complete (canon_foldl (fun _ _ k5 => canon_feFromTx k5) (canon_mk (canon_foldl (fun _ _ k8 => canon_chainCut k8) h1)))
theorem canon_receiveLost {v1 : Dev} (h1 : Canon v1) : Canon (receiveLost v1) :=
  canon_complete (canon_calLost (canon_mk (canon_foldl (fun _ _ k8 => canon_ite (canon_txStop (canon_ite (canon_rxStop k8) k8))
  (canon_ite (canon_rxStop k8) k8)) h1)))
theorem canon_cutBlocks {v1 : Dev} {v2 : Nat} (h1 : Canon v1) : Canon (cutBlocks v1 v2) := by
  unfold cutBlocks
  split
  · exact canon_complete (canon_mk h1)
  · exact canon_receiveLost h1
  · exact canon_mk (canon_foldl (f := countMuted) (fun d x hd => canon_countMuted hd) h1)
  · exact canon_foldl (fun d x hd => canon_feFromTx (canon_countMuted hd)) h1
  · exact canon_coresLost (canon_calLost (canon_dpdLost (canon_signalLost (canon_storeLost (canon_storeLost h1)))))
  · refine canon_mk (canon_stopDone ?_)
    split
    · exact canon_Dev_onXce (canon_storeLost (canon_regionFrees (canon_xceHalt h1)))
    · exact canon_storeLost (canon_regionFrees (canon_xceHalt h1))
  · refine canon_mk (canon_foldl (fun d x hd => ?_) (canon_weaveLeave h1))
    split
    · exact canon_leaveUp hd
    · exact hd
  · have hl := canon_storeLost (v2 := 3) (canon_integsLost (canon_regionFrees (canon_xceHalt (v2 := false) h1)))
    refine canon_mk (wf_undef (m := (storeLost (integsLost (regionFrees (xceHalt v1 false))) 3).mem) rfl hl fun c hc => .inr ?_)
    have hc := (List.mem_filter.1 hc).2
    have hs : storeSpan 3 = (0x1000000000, 0x1000000000) := rfl
    rw [hs] at hc
    simp only [Bool.not_eq_true', Bool.or_eq_false_iff, Bool.and_eq_false_iff, decide_eq_false_iff_not] at hc
    have := hc.1.1
    omega
  · exact h1
theorem canon_mastersCut {v1 : Dev} {v2 : Nat} (h1 : Canon v1) : Canon (mastersCut v1 v2) := canon_mk h1
theorem canon_cutDomain {v1 : Dev} {v2 : Nat} (h1 : Canon v1) : Canon (cutDomain v1 v2) :=
  canon_ite (canon_mastersCut (canon_Dev_onPwr (canon_setDomain (canon_cutBlocks h1)))) h1
theorem canon_Dev_restart {v1 : Dev} {v2 : Bool} (h1 : Canon v1) : Canon (v1.restart v2) := by
  have h := wf_filter (fun c => decide (nvmBase ≤ c.1) && decide (c.1 < nvmBase + nvmSize)) (m := (nvmStop v1).mem) (canon_nvmStop h1)
  refine wf_undef (m := { (nvmStop v1).mem with cells := (nvmStop v1).mem.cells.filter fun c => decide (nvmBase ≤ c.1) && decide (c.1 < nvmBase + nvmSize) })
    (n := (v1.restart v2).mem) rfl h fun c hc => .inr (.inl ?_)
  have hc := (List.mem_filter.1 hc).2
  simp only [Bool.and_eq_true, decide_eq_true_eq] at hc
  have h2 := hc.2
  unfold nvmBase nvmSize at h2
  omega
theorem canon_beginBoot {v1 : Dev} {v2 : Nat} (h1 : Canon v1) : Canon (beginBoot v1 v2) := canon_mk h1
theorem canon_shutdown {v1 : Dev} {v2 v3 : Nat} {v4 : Int} (h1 : Canon v1) : Canon (shutdown v1 v2 v3 v4) :=
  canon_mk (canon_Dev_restart (canon_Dev_pwrCount (canon_foldl (fun _ _ k8 => canon_Dev_onDac k8) h1)))
theorem canon_unpowered {v1 : Dev} (h1 : Canon v1) : Canon (unpowered v1) := canon_mk (canon_Dev_restart h1)
theorem canon_supplyTick {v1 : Dev} (h1 : Canon v1) : Canon (supplyTick v1) := by
  unfold supplyTick
  apply canon_ite
  · split
    exact canon_ite (canon_Dev_fresh h1 (by assumption)) (canon_unpowered (canon_Dev_fresh h1 (by assumption)))
  · exact h1
theorem canon_Dev_onGov {v1 : Dev} {v2 : (Gov → Gov)} (h1 : Canon v1) : Canon (Dev.onGov v1 v2) := canon_mk h1
theorem canon_govJournal {v1 : Dev} {v2 v3 : Nat} (h1 : Canon v1) : Canon (govJournal v1 v2 v3) := by
  have hp : Canon (govJournal.put v1 v2 v3) := canon_journal (canon_Dev_onGov h1)
  unfold govJournal
  split
  · exact canon_ite h1 hp
  · exact hp
theorem canon_ceilStep {v1 : List Nat} {v2 : Dev} {v3 : Nat} (h2 : Canon v2) : Canon (ceilStep v1 v2 v3) := by
  unfold ceilStep
  split
  · exact canon_Dev_onGov h2
  · exact canon_ite (canon_ite (canon_Dev_onGov h2) (canon_foldl (fun _ _ k7 => canon_govJournal k7) (canon_raiseEv
      (canon_Dev_onGov (canon_Dev_onGov (canon_Dev_onGov (canon_Dev_onGov h2))))))) (canon_ite (canon_ite (canon_Dev_onGov
      (canon_Dev_onGov (canon_Dev_onGov (canon_Dev_onGov h2)))) (canon_raiseEv (canon_Dev_onGov (canon_Dev_onGov (canon_Dev_onGov
      (canon_Dev_onGov h2)))))) (canon_ite (canon_ite (canon_raiseEv (canon_Dev_onGov (canon_Dev_onGov h2))) (canon_Dev_onGov
      (canon_Dev_onGov h2))) (canon_Dev_onGov h2)))
theorem canon_setGains {v1 : Dev} (h1 : Canon v1) : Canon (setGains v1) :=
  canon_foldl (fun _ _ k3 => canon_Dev_onTx (canon_ite (canon_dpdCount (canon_ite (canon_countMuted k3) k3)) (canon_ite
  (canon_countMuted k3) k3))) h1
theorem canon_Dev_onChan {v1 : Dev} {v2 : Nat} {v3 : (DmaCh → DmaCh)} (h1 : Canon v1) : Canon (Dev.onChan v1 v2 v3) := canon_mk h1
theorem canon_coreIrq {v1 : Dev} {v2 v3 : Nat} (h1 : Canon v1) : Canon (coreIrq v1 v2 v3) := canon_mk h1
theorem canon_chanIrq {v1 : Dev} {v2 : Nat} (h1 : Canon v1) : Canon (chanIrq v1 v2) :=
  canon_ite (canon_ite (canon_coreIrq h1) (canon_ite (canon_coreIrq h1) h1)) h1
theorem canon_chanEnable {v1 : Dev} {v2 : Nat} (h1 : Canon v1) : Canon (chanEnable v1 v2) := canon_ite h1 (canon_Dev_onChan h1)
theorem canon_writeBack {v1 : Dev} {v2 v3 : Nat} {v4 : Bool} (h1 : Canon v1) : Canon (writeBack v1 v2 v3 v4) := by
  unfold writeBack
  dsimp only
  split
  · exact h1
  · exact canon_ite (canon_writeSpan h1) h1
theorem canon_chanStop {v1 : Dev} {v2 v3 : Nat} (h1 : Canon v1) : Canon (chanStop v1 v2 v3) :=
  canon_ite (canon_raiseEv (canon_chanIrq (canon_Dev_onChan (canon_writeBack h1)))) (canon_chanIrq (canon_Dev_onChan (canon_writeBack
  h1)))
theorem canon_chanDisable {v1 : Dev} {v2 : Nat} (h1 : Canon v1) : Canon (chanDisable v1 v2) :=
  canon_ite h1 (canon_ite (canon_raiseEv (canon_chanIrq (canon_Dev_onChan (canon_ite (canon_writeBack h1) h1)))) (canon_chanIrq
  (canon_Dev_onChan (canon_ite (canon_writeBack h1) h1))))
theorem canon_chanDoorbell {v1 : Dev} {v2 : Nat} (h1 : Canon v1) : Canon (chanDoorbell v1 v2) := canon_Dev_onChan h1
theorem canon_writeCtl {v1 : Dev} {v2 v3 : Nat} (h1 : Canon v1) : Canon (writeCtl v1 v2 v3) :=
  canon_ite (canon_chanEnable (canon_Dev_onChan h1)) (canon_chanDisable (canon_Dev_onChan h1))
theorem canon_writeFabMode {v1 : Dev} {v2 : Nat} (h1 : Canon v1) : Canon (writeFabMode v1 v2) := canon_mk h1
theorem canon_regWrite {v1 : Dev} {v2 : Reg} {v3 v4 : Nat} (h1 : Canon v1) : Canon (regWrite v1 v2 v3 v4) := by
  unfold regWrite
  dsimp only
  split
  · exact canon_Dev_onRx h1
  · exact canon_Dev_onFe h1
  · exact canon_Dev_onSyn h1
  · exact canon_Dev_onTx h1
  · exact canon_mk h1
  · exact canon_Dev_onRxSb h1
  · exact canon_Dev_onFre h1
  · exact canon_Dev_onFre h1
  · exact canon_Dev_onChain h1
  · exact canon_Dev_onDpdPath h1
  · exact canon_Dev_onDpd h1
  · exact canon_Dev_onWeave h1
  · exact canon_Dev_onXce h1
  · exact canon_Dev_onCal h1
  · exact canon_Dev_onCal h1
  · exact canon_Dev_onTmb h1
  · exact canon_Dev_onBcn h1
  · exact canon_Dev_onLane h1
  · exact canon_Dev_onLane h1
  · exact h1
  · exact canon_writeFabMode h1
  · exact h1
  · exact h1
  · exact canon_mk h1
  · exact canon_mk h1
  · split
    · exact canon_writeCtl h1
    · exact canon_Dev_onChan h1
    · exact canon_Dev_onChan h1
    · exact canon_Dev_onChan h1
    · exact canon_chanDoorbell h1
    · exact h1
  · exact canon_Dev_onMem h1 (fun k3 => wf_onStore k3)
  · exact canon_Dev_onMem h1 (fun k3 => wf_onStore k3)
  · exact canon_Dev_onMem h1 (fun _ => (by assumption))
  · exact canon_Dev_onMem h1 (fun _ => (by assumption))
  · exact canon_mk h1
  · exact canon_mk h1
  · exact canon_Dev_onPwr h1
  · exact canon_Dev_onPwr h1
  · exact canon_Dev_onDac h1
theorem canon_writeReg {v1 : Dev} {v2 v3 v4 : Nat} (h1 : Canon v1) : Canon (writeReg v1 v2 v3 v4) := by
  unfold writeReg
  split
  · exact h1
  · exact canon_ite h1 (canon_regWrite h1)
theorem canon_commitStakes {v1 : Dev} {v2 : List Stake} (h1 : Canon v1) : Canon (commitStakes v1 v2) :=
  canon_calRecheck (canon_Dev_onTmb h1)
theorem canon_gatesAhead {v1 : Dev} {v2 : QStake} (h1 : Canon v1) : Canon (gatesAhead v1 v2) := by
  unfold gatesAhead
  split
  · exact canon_foldl (fun _ _ k4 => canon_gateOnAt k4) h1
  · exact canon_foldl (fun _ _ k4 => canon_gateOnAt k4) h1
  · exact canon_gateOnAt h1
  · exact h1
theorem canon_bankSwap {v1 : Dev} {v2 : QStake} (h1 : Canon v1) : Canon (bankSwap v1 v2) := by
  unfold bankSwap
  split
  · exact canon_rxEach (fun _ _ _ k5 => canon_rxSwapOne k5) h1
  · exact canon_txSwaps h1
  · exact canon_freSwap h1
  · exact canon_topSwap h1
  · exact canon_foldl (fun _ _ k4 => canon_dpdSwapOne k4) h1
  · exact canon_chainSwap h1
  · exact canon_weaveSwap h1
  · exact canon_xceSwap h1
theorem canon_freed {v1 : Dev} {v2 : Bool} {v3 : (Dev → Dev)} (h1 : Canon v1) (h3 : ∀ y0, Canon y0 → Canon (v3 y0)) : Canon (freed v1 v2 v3) :=
  canon_ite (canon_raiseEv (h3 _ h1)) h1
theorem canon_qsRun {v1 : Dev} (h1 : Canon v1) : Canon (qsRun v1) := canon_ite (canon_calRecheck (canon_qsPlace (canon_mk h1))) h1
theorem canon_qsCalibrate {v1 : Dev} (h1 : Canon v1) : Canon (qsCalibrate v1) :=
  canon_foldl (fun _ _ k3 => canon_ite k3 (canon_Dev_onCal k3)) h1
theorem canon_startQuickset {v1 : Dev} (h1 : Canon v1) : Canon (startQuickset v1) := by
  unfold startQuickset
  dsimp only
  apply canon_qsRun
  refine canon_foldl ?_ ?_
  · exact fun _ _ k5 => canon_raiseEv k5
  · apply canon_raiseEv
    apply canon_qsPorts
    apply canon_reEnable
    apply canon_mk
    show Canon _
    apply canon_Dev_onLnk
    apply canon_Dev_onTmb
    apply canon_Dev_onBcn
    apply canon_ite
    · apply canon_Dev_onXce
      apply canon_Dev_onWeave
      apply canon_ite
      · apply canon_Dev_onFre
        refine canon_foldl ?_ ?_
        · exact fun _ _ k19 => canon_ite (canon_Dev_onRxSb (canon_Dev_onRx k19)) (canon_rxReplace (canon_Dev_onRxSb (canon_Dev_onRx k19)))
        · apply canon_mk
          show Canon _
          exact canon_qsCalibrate (canon_Dev_fresh_aux (canon_Dev_fresh_aux (canon_Dev_fresh_aux h1)))
      · refine canon_foldl ?_ ?_
        · exact fun _ _ k18 => canon_ite (canon_Dev_onRxSb (canon_Dev_onRx k18)) (canon_rxReplace (canon_Dev_onRxSb (canon_Dev_onRx k18)))
        · apply canon_mk
          show Canon _
          exact canon_qsCalibrate (canon_Dev_fresh_aux (canon_Dev_fresh_aux (canon_Dev_fresh_aux h1)))
    · apply canon_ite
      · apply canon_Dev_onFre
        refine canon_foldl ?_ ?_
        · exact fun _ _ k17 => canon_ite (canon_Dev_onRxSb (canon_Dev_onRx k17)) (canon_rxReplace (canon_Dev_onRxSb (canon_Dev_onRx k17)))
        · apply canon_mk
          show Canon _
          exact canon_qsCalibrate (canon_Dev_fresh_aux (canon_Dev_fresh_aux (canon_Dev_fresh_aux h1)))
      · refine canon_foldl ?_ ?_
        · exact fun _ _ k16 => canon_ite (canon_Dev_onRxSb (canon_Dev_onRx k16)) (canon_rxReplace (canon_Dev_onRxSb (canon_Dev_onRx k16)))
        · apply canon_mk
          show Canon _
          exact canon_qsCalibrate (canon_Dev_fresh_aux (canon_Dev_fresh_aux (canon_Dev_fresh_aux h1)))
theorem canon_qsPath0 {v1 : Dev} (h1 : Canon v1) : Canon (qsPath0 v1) := canon_ite h1 (canon_Dev_onTx h1)
theorem canon_qsExit {v1 : Dev} {v2 : Nat} (h1 : Canon v1) : Canon (qsExit v1 v2) := by
  unfold qsExit
  extract_lets dr on d1 d2 d3 d4 d5
  have k1 : Canon d1 := h1
  have k2 : Canon d2 := by dsimp only [d2]; split <;> exact k1
  have k3 : Canon d3 := canon_weaveLeave k2
  clear_value d1 d2 d3
  have k4 : Canon d4 := by
    dsimp only [d4]; split
    · exact canon_stopDone (canon_Dev_onXce k3)
    · exact k3
  clear_value d4
  have k5 : Canon d5 := by
    dsimp only [d5]; split
    · exact k4
    · exact canon_freStop k4
  clear_value d5
  split
  · exact k5
  · refine canon_foldl (fun d x hd => ?_) k5
    dsimp only
    split
    · exact canon_rxStop hd
    · exact hd
theorem canon_Dev_onMaster {v1 : Dev} {v2 : Nat} {v3 : (Master → Master)} (h1 : Canon v1) : Canon (Dev.onMaster v1 v2 v3) := canon_mk h1
theorem canon_Dev_onTarget {v1 : Dev} {v2 : Nat} {v3 : (Target → Target)} (h1 : Canon v1) : Canon (Dev.onTarget v1 v2 v3) := canon_mk h1
theorem canon_fabError {v1 : Dev} {v2 : FabReq} {v3 : Nat} (h1 : Canon v1) : Canon (fabError v1 v2 v3) :=
  canon_ite (canon_mk (canon_Dev_onMaster h1)) (canon_raiseLimited (canon_mk (canon_Dev_onMaster h1)))
theorem canon_perform_aux {v1 : Dev} {v2 : Nat} {v3 : FabReq} (h1 : Canon v1) : Canon (perform v1 v2 v3).2 := by
  unfold perform
  dsimp only
  split
  · exact canon_foldl (fun _ _ k6 => canon_writeReg k6) h1
  · exact h1
  · exact h1
  · exact h1
  · exact h1
  · exact canon_writeSpan h1
  · exact canon_readSpan_aux h1
theorem canon_perform {v1 : Dev} {v2 : Nat} {v3 : FabReq} {x0 : FabResp} {d9 : Dev} (h1 : Canon v1) (e : perform v1 v2 v3 = (x0, d9)) : Canon d9 := by
  have h9 := @canon_perform_aux v1 v2 v3 h1
  rw [e] at h9
  exact h9
theorem canon_relock {v1 : Dev} {v2 : Nat} {v3 : FabReq} (h1 : Canon v1) : Canon (relock v1 v2 v3) := canon_mk (canon_Dev_onTarget h1)
theorem canon_lockLost {v1 : Dev} {v2 : Nat} {v3 : FabReq} (h1 : Canon v1) : Canon (lockLost v1 v2 v3) := canon_Dev_onMaster h1
theorem canon_lockLate {v1 : Dev} {v2 : Nat} {v3 : FabReq} (h1 : Canon v1) : Canon (lockLate v1 v2 v3) :=
  canon_ite (canon_Dev_onTarget (canon_lockLost h1)) (canon_Dev_onMaster h1)
theorem canon_answer {v1 : Dev} {v2 : FabReq} {v3 : Taken} (h1 : Canon v1) : Canon (answer v1 v2 v3) := by
  unfold answer
  split
  · exact canon_fabError h1
  · exact h1
  · apply canon_ite
    · exact canon_lockLate h1
    · split
      exact canon_Dev_onMaster (canon_relock (canon_perform h1 (by assumption)))
theorem canon_fabServe {v1 : Nat} {v2 : Dev} (h2 : Canon v2) : Canon (fabServe v1 v2) := by
  induction v1 generalizing v2 with
  | zero => exact h2
  | succ n ih =>
    unfold fabServe
    split
    · exact h2
    · exact ih (canon_answer (canon_mk h2))
theorem canon_fabWake {v1 : Dev} (h1 : Canon v1) : Canon (fabWake v1) := canon_mk (canon_fabServe h1)
theorem canon_fabIssue {v1 : Dev} {v2 : FabReq} (h1 : Canon v1) : Canon (fabIssue v1 v2) := by
  unfold fabIssue
  split
  · exact canon_mk h1
  · exact canon_fabWake (canon_answer h1)
theorem canon_discard {v1 : Dev} {v2 : Nat} (h1 : Canon v1) : Canon (discard v1 v2) := canon_mk h1
theorem canon_drainDone {v1 : Dev} {v2 : Nat} (h1 : Canon v1) : Canon (drainDone v1 v2) := canon_raiseEv (canon_Dev_onMaster h1)
theorem canon_drainTick {v1 : Dev} (h1 : Canon v1) : Canon (drainTick v1) := by
  unfold drainTick
  split
  · exact h1
  · exact canon_fabWake (canon_foldl (fun _ _ k5 => canon_drainDone k5) h1)
theorem canon_closeMasters {v1 : Dev} {v2 : Nat} (h1 : Canon v1) : Canon (closeMasters v1 v2) :=
  canon_foldl (fun _ _ k3 => canon_Dev_onMaster (canon_discard k3)) h1
theorem canon_enterRecovery {v1 : Dev} (h1 : Canon v1) : Canon (enterRecovery v1) :=
  canon_raiseEv (canon_mk (canon_foldl (fun _ _ k7 => canon_ite (canon_drainDone (canon_discard k7)) (canon_discard k7)) h1))
theorem canon_busDo {v1 : Dev} {v2 : FabReq} {x0 : Option Nat} {x1 : FabResp} {d9 : Dev} (h1 : Canon v1) (e : busDo v1 v2 = some (x0, x1, d9)) : Canon d9 := by
  unfold busDo at e
  split at e
  · cases e
  · cases e; exact canon_fabError h1
  · cases e; exact canon_relock (canon_perform_aux h1)
theorem canon_rereadLink {v1 : Dev} {v2 : Nat} (h1 : Canon v1) : Canon (rereadLink v1 v2) := by
  unfold rereadLink
  dsimp only
  split
  · exact h1
  · exact canon_chanStop (canon_busDo h1 (by assumption))
  · exact canon_ite (canon_Dev_onChan (canon_busDo h1 (by assumption))) (canon_Dev_onChan (canon_busDo h1 (by assumption)))
theorem canon_fetchDesc {v1 : Dev} {v2 : Nat} (h1 : Canon v1) : Canon (fetchDesc v1 v2) := by
  unfold fetchDesc
  dsimp only
  apply canon_ite
  · exact canon_chanStop h1
  · split
    · exact h1
    · exact canon_chanStop (canon_busDo h1 (by assumption))
    · exact canon_ite (canon_chanStop (canon_busDo h1 (by assumption))) (canon_ite (canon_chanStop (canon_busDo h1 (by
        assumption))) (canon_Dev_onChan (canon_busDo h1 (by assumption))))
theorem canon_chanPort {v1 : Dev} {v2 v3 : Nat} {v4 v5 : Nat} (h1 : Canon v1) : Canon (chanPort v1 v2 v3 v4 v5) :=
  canon_ite (canon_Dev_portMoves h1) h1
theorem canon_descNext {v1 : Dev} {v2 : Nat} {v3 : DmaCh} {v4 : Desc} (h1 : Canon v1) : Canon (descNext v1 v2 v3 v4) :=
  canon_ite (canon_Dev_onChan h1) (canon_ite (canon_Dev_onChan (canon_ite (canon_raiseEv h1) h1)) (canon_rereadLink (canon_Dev_onChan
  (canon_ite (canon_raiseEv h1) h1))))
theorem canon_assignChan {v1 : Dev} {v2 v3 : Nat} (h1 : Canon v1) : Canon (assignChan v1 v2 v3) := canon_mk (canon_Dev_onChan h1)
theorem canon_Dev_onCore {v1 : Dev} {v2 : Nat} {v3 : (Core → Core)} (h1 : Canon v1) : Canon (Dev.onCore v1 v2 v3) := canon_mk h1
theorem canon_appletPut {v1 : Dev} {v2 : Nat} {v3 v4 : List Nat} (h1 : Canon v1) : Canon (appletPut v1 v2 v3 v4) :=
  canon_foldl (fun _ _ k4 => canon_assignChan k4) (canon_Dev_onCore (canon_writeSpan (canon_writeSpan (canon_Dev_onMem h1 (fun k6 =>
  wf_forget _ _ k6)))))
theorem canon_coreStart {v1 : Dev} {v2 : Nat} (h1 : Canon v1) : Canon (coreStart v1 v2) := canon_Dev_onCore h1
theorem canon_stopChans {v1 : Dev} {v2 : Nat} (h1 : Canon v1) : Canon (stopChans v1 v2) :=
  canon_foldl (fun _ _ k3 => canon_chanDisable k3) h1
theorem canon_coreFault {v1 : Dev} {v2 v3 : Nat} {v4 v5 : Nat} (h1 : Canon v1) : Canon (coreFault v1 v2 v3 v4 v5) :=
  canon_raiseEv (canon_Dev_onCore (canon_stopChans h1))
theorem canon_transferDone {v1 : Dev} {v2 : Nat} {d9 : Dev} (h1 : Canon v1) (e : transferDone v1 v2 = some d9) : Canon d9 := by
  unfold transferDone at e
  split at e
  · cases e
  · dsimp only at e
    split at e
    · cases e
    · rename_i hb
      have hd := canon_busDo h1 hb
      split at e
      · cases e
        split
        · exact canon_coreFault (canon_Dev_onCore hd)
        · exact canon_Dev_onCore hd
      · cases e
        have y : ∀ (c : Bool) (a b : Nat) (l m : List Nat) (f : Core → Core),
            Canon (if c = true then Dev.onCore _ a f else writeSpan (Dev.onCore _ a f) b l m []) := fun c a b l m f =>
          canon_ite (canon_Dev_onCore hd) (canon_writeSpan (canon_Dev_onCore hd))
        refine canon_ite (canon_Dev_onCore (canon_coreIrq (canon_ite (y _ _ _ _ _ _) (canon_Dev_onCore (y _ _ _ _ _ _)))))
          (canon_ite (y _ _ _ _ _ _) (canon_Dev_onCore (y _ _ _ _ _ _)))
theorem canon_transfersDone {v1 : Dev} {v2 : Nat} (h1 : Canon v1) : Canon (transfersDone v1 v2) := by
  refine canon_foldl (fun d x hd => ?_) h1
  cases e : transferDone d v2 with
  | none => exact hd
  | some d' => exact canon_transferDone hd e
theorem canon_coreHalt {v1 : Dev} {v2 v3 : Nat} (h1 : Canon v1) : Canon (coreHalt v1 v2 v3) :=
  canon_Dev_onCore (canon_stopChans (canon_transfersDone h1))
theorem canon_appletStop {v1 : Dev} {v2 : Nat} (h1 : Canon v1) : Canon (appletStop v1 v2) := canon_raiseEv (canon_coreHalt h1)
theorem canon_coreCmd {v1 : CmdInfo} {v2 : Hdr} {v3 : Instr} {v4 : Nat} {v5 : Core → Bool} {v6 : Dev → Eff} (h6 : ∀ d, Canon d → Canon (v6 d).dev) :
    Keeps (coreCmd v1 v2 v3 v4 v5 v6) := canon_hostCmd h6
theorem canon_memReadOut {v0 : Nat} {v1 : List Nat × List Nat × Dev} (h1 : Canon v1.2.2) : Canon (memReadOut v0 v1).dev := h1
theorem canon_biasStake {v1 : Nat} {v2 : (Dev → QStake → Nat → List Nat)} {v3 : Dev} (h3 : Canon v3) : Canon (biasStake v1 v2 v3) := by
  unfold biasStake
  split
  · exact h3
  · exact canon_ite h3 (canon_ite (canon_raiseLate (canon_Dev_onTmb h3)) (canon_ite (canon_raiseLate (canon_foldl (fun _ _ k9 =>
      canon_foldl (fun _ _ k13 => canon_biasPlace k13) k9) (canon_Dev_onTmb h3))) (canon_markDone (canon_foldl (fun _ _ k9 =>
      canon_foldl (fun _ _ k13 => canon_biasPlace k13) k9) (canon_Dev_onTmb h3)))))
theorem canon_Dev_onHk {v1 : Dev} {v2 : Nat} {v3 : (Chan → Chan)} (h1 : Canon v1) : Canon (Dev.onHk v1 v2 v3) := canon_Dev_onPwr h1
theorem canon_heatShutdown {v1 : Dev} {v2 v3 : Nat} {v4 : Int} (h1 : Canon v1) : Canon (heatShutdown v1 v2 v3 v4) :=
  canon_ite h1 (canon_shutdown (canon_Dev_pwrCount h1))
theorem canon_sensorBreaks {v1 : Dev} {v2 : Nat} (h1 : Canon v1) : Canon (sensorBreaks v1 v2) :=
  canon_ite (canon_ite (canon_txProtect (canon_raiseEv (canon_Dev_onPwr h1))) (canon_raiseEv (canon_Dev_onPwr h1))) (canon_ite (canon_mk
  (by assumption)) (canon_raiseEv (canon_Dev_onPwr h1)))
theorem canon_sensorRecovers {v1 : Dev} {v2 : Nat} (h1 : Canon v1) : Canon (sensorRecovers v1 v2) :=
  canon_ite (canon_ite (canon_protectRelease (canon_raiseEv h1)) (canon_raiseEv h1)) (canon_ite (canon_mk (by assumption))
  (canon_raiseEv h1))
theorem canon_judgeSensor {v1 : List Int} {v2 : Dev} {v3 : Nat} (h2 : Canon v2) : Canon (judgeSensor v1 v2 v3) :=
  canon_ite (canon_ite (canon_sensorBreaks (canon_Dev_onHk h2)) (canon_Dev_onHk h2)) (canon_ite (canon_sensorRecovers (canon_Dev_onHk
  h2)) (canon_Dev_onHk h2))
theorem canon_judgeRefs {v1 : Dev} (h1 : Canon v1) : Canon (judgeRefs v1) :=
  canon_ite (canon_ite (canon_Dev_onPwr h1) (canon_raiseEv (canon_Dev_onPwr (canon_Dev_onPwr h1)))) (canon_Dev_onPwr h1)
theorem canon_senseLevel {v1 : Dev} {v2 : Nat} (h1 : Canon v1) : Canon (senseLevel v1 v2) := canon_Dev_onHk h1
theorem canon_relevel {v1 : Dev} (h1 : Canon v1) : Canon (relevel v1) :=
  canon_ite h1 (canon_foldl (fun _ _ k5 => canon_ite k5 (canon_raiseEv k5)) (canon_ite (canon_foldl (fun _ _ k7 => canon_raiseEv k7)
  (canon_ite (canon_Dev_onPwr h1) (canon_raiseEv (canon_Dev_onPwr h1)))) (canon_raiseEv (canon_foldl (fun _ _ k8 => canon_raiseEv k8)
  (canon_ite (canon_Dev_onPwr h1) (canon_raiseEv (canon_Dev_onPwr h1)))))))
theorem canon_compTrack {v1 : Dev} {v2 : Nat} (h1 : Canon v1) : Canon (compTrack v1 v2) := canon_Dev_onTx h1
theorem canon_typeInput {v1 : Dev} {v2 v3 : Nat} (h1 : Canon v1) : Canon (typeInput v1 v2 v3) :=
  canon_ite (canon_Dev_onPwr h1) (canon_raiseEv (canon_Dev_onPwr h1))
theorem canon_placeSafe {v1 : Dev} {v2 : Nat} (h1 : Canon v1) : Canon (placeSafe v1 v2) := canon_foldl (fun _ _ k3 => canon_Dev_onDac k3) h1
theorem canon_openStep {v1 : Dev} (h1 : Canon v1) : Canon (openStep v1) := by
  unfold openStep
  split
  · exact canon_fabWake (canon_closeMasters (canon_mk (canon_placeSafe h1)))
  · exact h1
theorem canon_beginTransition {v1 : Dev} {v2 v3 : Nat} (h1 : Canon v1) : Canon (beginTransition v1 v2 v3) :=
  canon_openStep (canon_Dev_onPwr h1)
theorem canon_settle {v1 : Dev} (h1 : Canon v1) : Canon (settle v1) :=
  canon_ite (canon_ite (canon_raiseEv (canon_Dev_onPwr h1)) (canon_ite (canon_startQuickset (canon_raiseEv (canon_Dev_onPwr h1)))
  (canon_beginTransition (canon_raiseEv (canon_Dev_onPwr h1))))) (canon_openStep h1)
theorem canon_stepDone {v1 : Dev} (h1 : Canon v1) : Canon (stepDone v1) := canon_settle (canon_Dev_onPwr h1)
theorem canon_toHold {v1 : Dev} (h1 : Canon v1) : Canon (toHold v1) := canon_mk (canon_Dev_restart h1)
theorem canon_cutStep {v1 : Dev} {v2 : Nat} (h1 : Canon v1) : Canon (cutStep v1 v2) :=
  canon_ite (canon_ite (canon_toHold h1) (canon_stepDone (canon_cutDomain h1))) h1
theorem canon_selfTests {v1 : Dev} {v2 : Nat} {v3 : List Nat} (h1 : Canon v1) : Canon (selfTests v1 v2 v3) :=
  canon_foldl (fun _ _ k3 => canon_ite k3 (canon_ite (canon_Dev_onMem k3 (fun k8 => wf_onStore k8)) (canon_raiseEv (canon_Dev_onMem k3
  (fun k9 => wf_onStore k9))))) h1
theorem canon_autostart {v1 : Dev} (h1 : Canon v1) : Canon (autostart v1) := by
  unfold autostart
  refine canon_foldl ?_ ?_
  · intro k1 k2 k3
    split
    split
    · exact k3
    · exact canon_ite k3 (canon_ite (canon_raiseEv k3) (canon_coreStart (canon_appletPut k3)))
  · exact h1
theorem canon_txStart {v1 : Dev} (h1 : Canon v1) : Canon (txStart v1) := canon_mk h1
theorem canon_domainStarts {v1 : Dev} {v2 : Nat} (h1 : Canon v1) : Canon (domainStarts v1 v2) := by
  unfold domainStarts
  split
  · exact canon_Dev_onSyn h1
  · exact canon_mk h1
  · exact canon_mk h1
  · exact canon_txStart h1
  · exact canon_autostart (canon_dpdRestore h1)
  · exact canon_foldl (fun _ _ k4 => canon_startLane k4) (canon_mk h1)
  · exact canon_Dev_onMem h1 (fun _ => (by assumption))
  · exact h1
theorem canon_forceStops {v1 : Dev} {v2 : List Nat} (h1 : Canon v1) : Canon (forceStops v1 v2) :=
  canon_foldl (fun _ _ k4 => canon_ite (canon_txStop (canon_ite (canon_rxStop k4) k4)) (canon_ite (canon_rxStop k4) k4)) (canon_ite
  (canon_stopDone (canon_Dev_onXce (canon_xceHalt (canon_ite (canon_foldl (fun _ _ k10 => canon_chainLeave k10) (canon_ite
  (canon_weaveLeave h1) h1)) (canon_ite (canon_weaveLeave h1) h1))))) (canon_ite (canon_foldl (fun _ _ k7 => canon_chainLeave k7)
  (canon_ite (canon_weaveLeave h1) h1)) (canon_ite (canon_weaveLeave h1) h1)))
theorem canon_powerUp {v1 : Dev} (h1 : Canon v1) : Canon (powerUp v1) := canon_beginBoot (canon_mk (canon_Dev_restart h1))
theorem canon_powerFail {v1 : Dev} {v2 : Nat} {v3 : Bool} (h1 : Canon v1) : Canon (powerFail v1 v2 v3) :=
  canon_Dev_onPwr (canon_shutdown (canon_Dev_pwrCount (canon_raiseEv (canon_Dev_onPwr h1))))
theorem canon_Dev_onCtl {v1 : Dev} {v2 : (Ctl → Ctl)} (h1 : Canon v1) : Canon (Dev.onCtl v1 v2) := canon_mk h1
theorem canon_freeBytes_aux {v1 : Dev} {v2 : Nat} (h1 : Canon v1) : Canon (freeBytes v1 v2).2 := by
  unfold freeBytes
  split
  exact canon_Dev_fresh h1 (by assumption)
theorem canon_freeBytes {v1 : Dev} {v2 : Nat} {x0 : List Nat} {d9 : Dev} (h1 : Canon v1) (e : freeBytes v1 v2 = (x0, d9)) : Canon d9 := by
  have h9 := @canon_freeBytes_aux v1 v2 h1
  rw [e] at h9
  exact h9
theorem canon_sigBlock_aux {v1 : Dev} {v2 : Nat} (h1 : Canon v1) : Canon (sigBlock v1 v2).2 := by
  unfold sigBlock
  split
  exact canon_freeBytes h1 (by assumption)
theorem canon_sigBlock {v1 : Dev} {v2 : Nat} {x0 : List Nat} {d9 : Dev} (h1 : Canon v1) (e : sigBlock v1 v2 = (x0, d9)) : Canon d9 := by
  have h9 := @canon_sigBlock_aux v1 v2 h1
  rw [e] at h9
  exact h9
theorem canon_resetBoot {v1 : Dev} {v2 : Nat} (h1 : Canon v1) : Canon (resetBoot v1 v2) := canon_beginBoot (canon_Dev_restart h1)
theorem canon_treeCheck {v1 : Dev} (h1 : Canon v1) : Canon (treeCheck v1) := canon_ite (canon_Dev_onCtl h1) h1
theorem canon_startRibel {v1 : Dev} {v2 : BootCheck} {v3 : Nat} {v4 : Bool} (h1 : Canon v1) : Canon (startRibel v1 v2 v3 v4) :=
  canon_treeCheck (canon_beginTransition (canon_ite (canon_raiseEv (canon_Dev_onPwr (canon_foldl (fun _ _ k9 => canon_raiseEv k9)
  (canon_Dev_onNvm (canon_ite (canon_raiseEv (canon_raiseEv (canon_raiseEv (canon_mk h1)))) (canon_raiseEv (canon_raiseEv (canon_mk
  h1)))))))) (canon_foldl (fun _ _ k7 => canon_raiseEv k7) (canon_Dev_onNvm (canon_ite (canon_raiseEv (canon_raiseEv (canon_raiseEv
  (canon_mk h1)))) (canon_raiseEv (canon_raiseEv (canon_mk h1))))))))
theorem canon_putBoot {v1 : Dev} {v2 : Nat} {v3 : Option Nat} {v4 : Nat} (h1 : Canon v1) : Canon (putBoot v1 v2 v3 v4) :=
  canon_journal (canon_Dev_onNvm h1)
theorem canon_startLoader {v1 : Dev} (h1 : Canon v1) : Canon (startLoader v1) := canon_Dev_onCtl h1
theorem canon_bootSlots {v1 : Dev} {v2 : BootCheck} (h1 : Canon v1) : Canon (bootSlots v1 v2) := by
  unfold bootSlots
  split
  rename_i d f t e
  have k : Canon d := by
    split at e
    · cases e; exact h1
    · split at e <;> (cases e; exact h1)
  split
  · split
    · exact canon_startRibel (canon_Dev_onNvm k)
    · exact canon_startRibel k
  · split
    · exact canon_startRibel k
    · exact canon_startLoader k
theorem canon_answerObject {v1 : Nat} {v2 : List Nat × Dev} (h2 : Canon v2.2) : Canon (answerObject v1 v2).dev := canon_addOut_aux h2
theorem canon_reserveTo {v1 : Dev} {v2 : Nat} (h1 : Canon v1) : Canon (reserveTo v1 v2) := canon_journal (canon_Dev_onNvm h1)
theorem canon_reserveLeaf {v1 : Dev} (h1 : Canon v1) : Canon (reserveLeaf v1) := canon_ite h1 (canon_reserveTo h1)
theorem canon_attestBytes_aux {v1 : Dev} {v2 : Nat} (h1 : Canon v1) : Canon (attestBytes v1 v2).2 := by
  unfold attestBytes
  dsimp only
  exact canon_sigBlock_aux h1
theorem canon_attestBytes {v1 : Dev} {v2 : Nat} {x0 : List Nat} {d9 : Dev} (h1 : Canon v1) (e : attestBytes v1 v2 = (x0, d9)) : Canon d9 := by
  have h9 := @canon_attestBytes_aux v1 v2 h1
  rw [e] at h9
  exact h9
theorem canon_useLeaf {v1 : Dev} {v2 : Nat} (h1 : Canon v1) : Canon (useLeaf v1 v2) := canon_treeCheck (canon_Dev_onCtl h1)
theorem canon_attestGo {v1 : Dev} (h1 : Canon v1) : Canon (attestGo v1) := by
  unfold attestGo
  apply canon_ite
  · exact h1
  · refine canon_foldl ?_ ?_
    · intro k2 k3 k4
      split
      · split
        · exact canon_complete (canon_answerObject (canon_useLeaf (canon_attestBytes_aux k4)))
        · exact k4
      · exact k4
    · exact h1
theorem canon_nvmProgram {v1 : Dev} {v2 : Nat} {v3 : List Nat} (h1 : Canon v1) : Canon (nvmProgram v1 v2 v3) := by
  unfold nvmProgram
  apply canon_Dev_onMem
  · exact h1
  · intro k1
    apply wf_foldl
    · intro k3 k4 k5
      split
      exact wf_put _ _ k5
    · exact k1
theorem canon_nvmErase {v1 : Dev} {v2 : Nat} (h1 : Canon v1) : Canon (nvmErase v1 v2) := canon_Dev_onMem h1 (fun k1 => wf_forget _ _ k1)
theorem canon_Dev_onJob {v1 : Dev} {v2 : Nat} {v3 : (NvmJob → NvmJob)} (h1 : Canon v1) : Canon (Dev.onJob v1 v2 v3) := canon_Dev_onNvm h1
theorem canon_nvmAnswer {v1 : Dev} {v2 : Nat} {v3 : Reply} (h1 : Canon v1) : Canon (nvmAnswer v1 v2 v3) := canon_complete h1
theorem canon_putEntry {v1 : Dev} {v2 : Nat} {v3 : Option StoreEntry} (h1 : Canon v1) : Canon (putEntry v1 v2 v3) :=
  canon_journal (canon_Dev_onNvm h1)
theorem canon_jobDone {v1 : Dev} {v2 : Nat} (h1 : Canon v1) : Canon (jobDone v1 v2) := by
  unfold jobDone
  dsimp only
  apply canon_ite
  · exact h1
  · split
    · exact canon_ite h1 (canon_journal (canon_Dev_onNvm h1))
    · exact canon_ite (canon_nvmAnswer (canon_attestGo (canon_Dev_onNvm (canon_Dev_onNvm h1)))) (canon_attestGo (canon_Dev_onNvm
        (canon_Dev_onNvm h1)))
    · exact canon_Dev_onNvm (canon_Dev_onNvm h1)
    · exact canon_nvmAnswer (canon_Dev_onNvm h1)
    · exact canon_putEntry (canon_Dev_onNvm h1)
    · exact canon_putEntry (canon_Dev_onNvm h1)
theorem canon_nvmFails {v1 : Dev} {v2 : Nat} (h1 : Canon v1) : Canon (nvmFails v1 v2) :=
  canon_ite (canon_nvmAnswer (canon_Dev_onNvm (canon_raiseEv h1))) (canon_ite (canon_Dev_onNvm (canon_raiseEv h1)) (canon_raiseEv h1))
theorem canon_codeAt_aux {v1 : Dev} {v2 : Nat} (h1 : Canon v1) : Canon (codeAt v1 v2).2.2 := canon_readSpan_aux h1
theorem canon_codeAt {v1 : Dev} {v2 : Nat} {x0 : List Nat} {x1 : List Nat} {d9 : Dev} (h1 : Canon v1) (e : codeAt v1 v2 = (x0, x1, d9)) : Canon d9 := by
  have h9 := @canon_codeAt_aux v1 v2 h1
  rw [e] at h9
  exact h9
theorem canon_openBundle {v1 : Dev} {v2 : Nat} {v3 : List (Nat × Nat × Nat)} {v4 : (Core → SlotOut)} {v5 : List Nat × List Nat × Dev} (h1
    : Canon v1) (h5 : Canon v5.2.2) : Canon (openBundle v1 v2 v3 v4 v5) :=
  canon_ite (canon_coreFault h5) (canon_ite (canon_coreFault h5) (canon_ite h1 (canon_Dev_onCore h5)))
theorem canon_runMac {v1 : Nat} {v2 : List (Nat × Nat × Nat)} {v3 : (Core → SlotOut)} : Keeps (runMac v1 v2 v3) :=
  canon_onDev (fun _ k2 => canon_ite k2 (canon_openBundle k2 (canon_codeAt_aux k2)))
theorem canon_runAlu {v1 : Nat} {v2 : List (Nat × Nat × Nat)} {v3 : (Core → SlotOut)} : Keeps (runAlu v1 v2 v3) :=
  canon_onDev (fun _ k2 => canon_ite k2 (canon_Dev_onCore k2))
theorem canon_closeBundle {v1 : Dev} {v2 : Nat} (h1 : Canon v1) : Canon (closeBundle v1 v2) := by
  unfold closeBundle
  dsimp only
  split
  · exact canon_Dev_onCore (canon_ite (canon_raiseLimited (canon_Dev_onCore (canon_Dev_onCore h1))) (canon_Dev_onCore
      (canon_Dev_onCore h1)))
  · exact canon_Dev_onCore (canon_ite (canon_raiseLimited (canon_Dev_onCore (canon_Dev_onCore h1))) (canon_Dev_onCore
      (canon_Dev_onCore h1)))
  · exact canon_raiseEv (canon_coreHalt (canon_ite (canon_raiseLimited (canon_Dev_onCore (canon_Dev_onCore h1))) (canon_Dev_onCore
      (canon_Dev_onCore h1))))
  · exact canon_ite (canon_raiseLimited (canon_Dev_onCore (canon_Dev_onCore h1))) (canon_Dev_onCore (canon_Dev_onCore h1))
/-- The unit a load/store slot leaves. -/
def lsDev : LsOut → Dev
  | .fault _ _ d => d
  | .stall d => d
  | .done _ d => d
theorem canon_LsOut_fault {c a : Nat} {d : Dev} (h : Canon d) : Canon (lsDev (.fault c a d)) := h
theorem canon_LsOut_stall {d : Dev} (h : Canon d) : Canon (lsDev (.stall d)) := h
theorem canon_LsOut_done {o : SlotOut} {d : Dev} (h : Canon d) : Canon (lsDev (.done o d)) := h
theorem canon_loadOut {v1 : Nat} {v2 : List Nat → SlotOut} {v3 : List Nat × List Nat × Dev} (h3 : Canon v3.2.2) : Canon (lsDev (loadOut v1 v2 v3)) := by
  unfold loadOut; split <;> exact h3
theorem canon_runLs {v1 : Nat} {v2 : Core → Nat → Bool} {v3 : Dev → Core → LsOut} (h3 : ∀ d c, Canon d → Canon (lsDev (v3 d c))) : Keeps (runLs v1 v2 v3) := by
  apply canon_onDev
  intro d hd
  have h := h3 d (nth d.cores v1) hd
  dsimp only
  split
  · exact hd
  · split
    · rename_i e; rw [e] at h; exact canon_coreFault h
    · rename_i e; rw [e] at h; exact h
    · rename_i e; rw [e] at h; exact canon_closeBundle (canon_Dev_onCore h)
theorem canon_runLoad {v1 v2 : Nat} {v3 v4 : Nat} {v5 v6 : Nat} {v7 : Bool} {v8 : Int} {v9 : (List Nat → List (Nat × CoreRes))} : Keeps
    (runLoad v1 v2 v3 v4 v5 v6 v7 v8 v9) := by
  unfold runLoad
  apply canon_runLs
  intro k1 k2 k3
  split
  · exact canon_LsOut_fault k3
  · exact canon_loadOut (canon_readSpan_aux k3)
theorem canon_runStore {v1 v2 : Nat} {v3 v4 : Nat} {v5 v6 : Nat} {v7 : Bool} {v8 : Int} {v9 : (Core → List Nat)} {v10 : (Core → Nat)}
    : Keeps (runStore v1 v2 v3 v4 v5 v6 v7 v8 v9 v10) := by
  unfold runStore
  apply canon_runLs
  intro k1 k2 k3
  split
  · exact canon_LsOut_fault k3
  · exact canon_LsOut_done (canon_writeSpan k3)
theorem canon_xferIn_aux {v1 : Bool} {v2 : Dev} {v3 : Nat} (h2 : Canon v2) : Canon (xferIn v1 v2 v3).2.2 := by
  unfold xferIn
  split
  · exact canon_readSpan_aux h2
  · exact h2
theorem canon_xferIn {v1 : Bool} {v2 : Dev} {v3 : Nat} {x0 : List Nat} {x1 : List Nat} {d9 : Dev} (h2 : Canon v2) (e : xferIn v1 v2 v3 = (x0, x1, d9)) : Canon d9 := by
  have h9 := @canon_xferIn_aux v1 v2 v3 h2
  rw [e] at h9
  exact h9
theorem canon_runXfer {v1 v2 : Nat} {v3 v4 : Nat} {v5 : Bool} {v6 : Int} {v7 : Bool} : Keeps (runXfer v1 v2 v3 v4 v5 v6 v7) := by
  unfold runXfer
  apply canon_runLs
  intro k1 k2 k3
  dsimp only
  split
  · exact canon_LsOut_fault k3
  · split
    · exact canon_LsOut_fault k3
    · exact canon_LsOut_fault k3
  · split
    · exact canon_LsOut_fault k3
    · split
      · exact canon_LsOut_fault k3
      · exact canon_LsOut_done (canon_Dev_onCore (canon_xferIn_aux k3))
theorem canon_sportPop_aux {v1 : Dev} {v2 : Nat} (h1 : Canon v1) : Canon (sportPop v1 v2).2 := by
  unfold sportPop
  dsimp only
  split
  · exact h1
  · split
    · split
      · exact canon_readSpan_aux (canon_Dev_portMoves (canon_Dev_onCore h1))
      · exact canon_Dev_fresh_aux (canon_Dev_onCore h1)
    · exact canon_Dev_fresh_aux (canon_Dev_onCore h1)
theorem canon_sportPop {v1 : Dev} {v2 : Nat} {x0 : Nat} {d9 : Dev} (h1 : Canon v1) (e : sportPop v1 v2 = (x0, d9)) : Canon d9 := by
  have h9 := @canon_sportPop_aux v1 v2 h1
  rw [e] at h9
  exact h9
theorem canon_sportPush {v1 : Dev} {v2 v3 : Nat} (h1 : Canon v1) : Canon (sportPush v1 v2 v3) := by
  unfold sportPush
  dsimp only
  apply canon_ite
  · exact h1
  · split
    · exact canon_ite (canon_writeSpan (canon_Dev_portMoves (canon_Dev_onCore h1))) (canon_Dev_onCore h1)
    · exact canon_Dev_onCore h1
theorem canon_ioRead {v1 : Dev} {v2 v3 : Nat} {x0 : Nat} {d9 : Dev} (h1 : Canon v1) (e : ioRead v1 v2 v3 = some (x0, d9)) : Canon d9 := by
  have hp : ∀ x, sportPop v1 v2 = x → Canon x.2 := fun x hx => hx ▸ canon_sportPop_aux h1
  unfold ioRead at e
  dsimp only at e
  repeat
    rcases ite_some e with ⟨-, e⟩ | ⟨-, e⟩
    · first | exact hp _ e | (cases e; first | exact h1 | exact canon_Dev_onCore h1)
  cases e
theorem canon_msgSend {v1 : Dev} {v2 : Nat} (h1 : Canon v1) : Canon (msgSend v1 v2) :=
  canon_ite (canon_Dev_onCore h1) (canon_raiseEv (canon_Dev_onCore h1))
theorem canon_ioWrite {v1 : Dev} {v2 v3 v4 : Nat} {d9 : Dev} (h1 : Canon v1) (e : ioWrite v1 v2 v3 v4 = some d9) : Canon d9 := by
  unfold ioWrite at e
  rcases ite_some e with ⟨-, e⟩ | ⟨-, e⟩
  · subst e; exact canon_Dev_onCore h1
  rcases ite_some e with ⟨-, e⟩ | ⟨-, e⟩
  · subst e; exact canon_Dev_onCore h1
  rcases ite_eq_cases e with ⟨-, e⟩ | ⟨-, e⟩
  · rcases ite_some e with ⟨-, e⟩ | ⟨-, e⟩
    · subst e; exact h1
    · cases e
  repeat
    rcases ite_some e with ⟨-, e⟩ | ⟨-, e⟩
    · subst e
      first
        | exact h1
        | exact canon_Dev_onCore h1
        | exact canon_msgSend h1
        | exact canon_sportPush h1
        | (split; · (split; exacts [canon_regWrite h1, h1])
           · exact h1)
  cases e
theorem canon_writesFirst {v1 : Dev} {v2 : Nat} (h1 : Canon v1) : Canon (writesFirst v1 v2) := by
  refine canon_foldl (fun d x hd => ?_) h1
  split
  · cases e : transferDone d v2 with
    | none => exact hd
    | some d' => exact canon_transferDone hd e
  · exact hd
theorem canon_inOrderIo {v1 : Dev} {v2 v3 : Nat} {v4 : Dev → LsOut} (h1 : Canon v1) (h4 : ∀ d, Canon d → Canon (lsDev (v4 d))) :
    Canon (lsDev (inOrderIo v1 v2 v3 v4)) := by
  have hw := canon_writesFirst (v2 := v2) h1
  unfold inOrderIo
  generalize writesFirst v1 v2 = w at hw ⊢
  split
  · dsimp only
    split
    · exact hw
    · exact h4 _ hw
  · exact h4 _ h1
theorem canon_runIoRead {v1 v2 : Nat} {v3 : Int} {v4 : (Nat → Bool)} : Keeps (runIoRead v1 v2 v3 v4) := by
  unfold runIoRead
  apply canon_runLs
  intro k1 k2 k3
  split
  · exact canon_LsOut_fault k3
  · apply canon_inOrderIo
    · exact k3
    · intro k6 k7
      split
      · exact canon_LsOut_done (canon_ioRead k7 (by assumption))
      · exact canon_LsOut_fault k7
theorem canon_runIoWrite {v1 : Nat} {v2 : Int} {v3 : (Core → Nat → Bool)} : Keeps (runIoWrite v1 v2 v3) := by
  unfold runIoWrite
  apply canon_runLs
  intro k1 k2 k3
  split
  · exact canon_LsOut_fault k3
  · apply canon_inOrderIo
    · exact k3
    · intro k6 k7
      split
      · exact canon_LsOut_done (canon_ioWrite k7 (by assumption))
      · exact canon_LsOut_fault k7
theorem canon_rxTick {v1 : Dev} {v2 : Nat} (h1 : Canon v1) : Canon (rxTick v1 v2) :=
  canon_ite h1 (canon_raiseLimited (canon_Dev_onRxSb h1))
theorem canon_secondTick {v1 : Dev} (h1 : Canon v1) : Canon (secondTick v1) := canon_ite (canon_mk h1) h1
theorem canon_meterTick {v1 : Dev} (h1 : Canon v1) : Canon (meterTick v1) := canon_ite h1 (canon_mk h1)
theorem canon_countGroup {v1 : Dev} {v2 v3 v4 : Nat} {v5 : Option Group} (h1 : Canon v1) : Canon (countGroup v1 v2 v3 v4 v5) :=
  canon_ite (canon_raiseLimited (canon_Dev_onFre (canon_ite (canon_raiseLimited (canon_ite (canon_raiseLimited (canon_Dev_onFre h1))
  (canon_Dev_onFre h1))) (canon_ite (canon_raiseLimited (canon_Dev_onFre h1)) (canon_Dev_onFre h1))))) (canon_ite (canon_raiseLimited
  (canon_ite (canon_raiseLimited (canon_Dev_onFre h1)) (canon_Dev_onFre h1))) (canon_ite (canon_raiseLimited (canon_Dev_onFre h1))
  (canon_Dev_onFre h1)))
theorem canon_countGroups {v1 v2 : Nat} {v3 : Dev} (h3 : Canon v3) : Canon (countGroups v1 v2 v3) := by
  induction v2 generalizing v3 with
  | zero => exact h3
  | succ n ih =>
    unfold countGroups
    split
    · exact h3
    · split
      · exact ih (canon_mk (canon_countGroup h3))
      · exact h3
theorem canon_freTick {v1 : Dev} {v2 : Nat} (h1 : Canon v1) : Canon (freTick v1 v2) := by
  unfold freTick
  dsimp only
  apply canon_ite
  · exact canon_ite (canon_mk h1) h1
  · split
    · exact canon_mk h1
    · exact canon_countGroups (canon_ite (canon_mk h1) h1)
theorem canon_cutTick {v1 : Dev} {v2 : Nat} (h1 : Canon v1) : Canon (cutTick v1 v2) := by
  unfold cutTick
  dsimp only
  split
  · exact h1
  · split
    · exact canon_ite (canon_Dev_onRxSb h1) h1
    · exact canon_ite h1 (canon_Dev_onRxSb (canon_Dev_sendFrame (canon_countFormat h1)))
theorem canon_sampleTick {v1 : Dev} (h1 : Canon v1) : Canon (sampleTick v1) :=
  canon_Dev_each (fun _ _ k => canon_muteTick k) (canon_Dev_each (fun _ _ k => canon_trTick k) (canon_Dev_each (fun _ _ k => canon_txTick k)
  (canon_meterTick (canon_secondTick (canon_foldl (fun _ _ k => canon_freTick k) (canon_foldl (fun _ _ k => canon_bcastTick k)
  (canon_foldl (fun _ _ k => canon_underrunTick k) (canon_Dev_each (fun _ _ k => canon_cutTick k) (canon_Dev_each (fun _ _ k => canon_rxTick k)
  (canon_Dev_each (fun _ _ k => canon_observePath k) (canon_Dev_each (fun _ _ k => canon_observeFre k) (canon_Dev_each (fun _ _ k => canon_observeTx k)
  (canon_Dev_each (fun _ _ k => canon_observeRx k) h1)))))))))))))
theorem canon_sendEverywhere {v1 : Dev} {v2 v3 : Nat} {v4 : List Field} (h1 : Canon v1) : Canon (sendEverywhere v1 v2 v3 v4) :=
  canon_foldl (fun _ _ k4 => canon_reportNow k4) (canon_ite (canon_sendReport h1) h1)
theorem canon_reportFields_aux {v1 : Dev} {v2 : Integ} (h1 : Canon v1) : Canon (reportFields v1 v2).2 := by
  unfold reportFields
  split
  exact canon_Dev_fresh h1 (by assumption)
theorem canon_reportFields {v1 : Dev} {v2 : Integ} {x0 : List Field} {d9 : Dev} (h1 : Canon v1) (e : reportFields v1 v2 = (x0, d9)) : Canon d9 := by
  have h9 := @canon_reportFields_aux v1 v2 h1
  rw [e] at h9
  exact h9
theorem canon_mailStart {v1 : Dev} {x0 : Instr} {d9 : Dev} (h1 : Canon v1) (e : mailStart v1 = some (x0, d9)) : Canon d9 := by
  unfold mailStart at e
  split at e
  · cases e
  · split at e
    · cases e
    · cases e; exact canon_Dev_onLnk (canon_Dev_onMail h1)
theorem canon_tonesEnd {v1 : Dev} {v2 : Nat} (h1 : Canon v1) : Canon (tonesEnd v1 v2) := canon_feFromTx (canon_Dev_onTx h1)
theorem canon_idle {v1 : Dev} (h1 : Canon v1) : Canon (idle v1) :=
  canon_supplyTick (canon_drainTick (canon_otaStale (canon_flushOut (canon_linkTick (canon_Dev_each (fun _ _ k => canon_laneTick k)
  (canon_Dev_each (fun _ _ k => canon_tonesEnd k) (canon_Dev_onTmb (canon_sampleTick h1))))))))

end Sys2Proof.Machine
end

