-- ==== Sys2Proof/Laws/Word.lean ====
section
/-! SUPPORT. What changing a bank at a number does: the entry there takes the change, every other entry stays. -/

namespace Sys2Proof

@[simp] theorem length_upd {α : Type} (l : List α) (n : Nat) (f : α → α) : (upd l n f).length = l.length := by
  induction l generalizing n with
  | nil => rfl
  | cons a l ih => cases n <;> simp [upd, ih]

theorem nth_upd_same {α : Type} [Inhabited α] (l : List α) (n : Nat) (f : α → α) (h : n < l.length) : nth (upd l n f) n = f (nth l n) := by
  induction l generalizing n with
  | nil => simp at h
  | cons a l ih =>
    cases n with
    | zero => rfl
    | succ n => simpa [upd, nth] using ih n (by simpa using h)

theorem nth_upd_other {α : Type} [Inhabited α] (l : List α) (n m : Nat) (f : α → α) (h : n ≠ m) : nth (upd l n f) m = nth l m := by
  induction l generalizing n m with
  | nil => rfl
  | cons a l ih =>
    cases n with
    | zero =>
      cases m with
      | zero => exact absurd rfl h
      | succ m => rfl
    | succ n =>
      cases m with
      | zero => rfl
      | succ m => simpa [upd, nth] using ih n m (by omega)

/-- What a change keeps of every entry, it keeps of the bank. -/
theorem nth_upd_keep {α β : Type} [Inhabited α] (g : α → β) (l : List α) (n m : Nat) (f : α → α) (h : ∀ x, g (f x) = g x) :
    g (nth (upd l n f) m) = g (nth l m) := by
  induction l generalizing n m with
  | nil => rfl
  | cons a l ih =>
    cases n with
    | zero =>
      cases m with
      | zero => exact h a
      | succ m => rfl
    | succ n =>
      cases m with
      | zero => rfl
      | succ m => simpa [upd, nth] using ih n m

/-- A bank outside its numbers stays as it is. -/
theorem upd_beyond {α : Type} (l : List α) (n : Nat) (f : α → α) (h : l.length ≤ n) : upd l n f = l := by
  induction l generalizing n with
  | nil => rfl
  | cons a l ih =>
    cases n with
    | zero => simp at h
    | succ n => simp [upd, ih n (by simpa using h)]

/-- Two changes that agree on the entry change the bank alike. -/
theorem upd_congr {α : Type} [Inhabited α] (l : List α) (n : Nat) (f g : α → α) (h : f (nth l n) = g (nth l n)) : upd l n f = upd l n g := by
  induction l generalizing n with
  | nil => rfl
  | cons a l ih =>
    cases n with
    | zero => simpa [upd, nth] using h
    | succ n => simp [upd, ih n (by simpa [nth] using h)]

/-- Two changes of one entry are one change. -/
theorem upd_upd {α : Type} (l : List α) (n : Nat) (f g : α → α) : upd (upd l n f) n g = upd l n (g ∘ f) := by
  induction l generalizing n with
  | nil => rfl
  | cons a l ih => cases n <;> simp [upd, ih]

end Sys2Proof
end

