-- ==== Sys2Proof/Laws/Cores.lean ====
section
/-! SUPPORT. What the slots of a bundle do, said once for each kind of slot. -/

namespace Sys2Proof.Machine

theorem onCore_onCore (d : Dev) (n : Nat) (f g : Core → Core) : (d.onCore n f).onCore n g = d.onCore n fun c => g (f c) := by
  simp only [Dev.onCore, upd_upd]
  rfl

/-- The MAC slot that comes next fetches its bundle and stages its results. -/
theorem happens_mac {i : Instr} {s : State} {core : Nat} {fields : List (Nat × Nat × Nat)} {f : Core → SlotOut}
    (he : exec i s = runMac core fields f s) (hf : ∀ c w, f { c with bundle := w } = f c) (h : macNext s.dev core fields = true) :
    happens i s fun d d' => d' = (fetched d core).onCore core fun c => c.stage (f c) 1 := by
  simp only [macNext, Bool.and_eq_true, Bool.not_eq_true'] at h
  obtain ⟨⟨⟨⟨a, b⟩, c⟩, e⟩, g⟩ := h
  refine ⟨_, he, ?_⟩
  beta_reduce
  rw [a, b]
  unfold openBundle fetched
  rw [c, e, g, onCore_onCore]
  simp only [hf]
  rfl

/-- The ALU slot that comes next stages its results. -/
theorem happens_alu {i : Instr} {s : State} {core : Nat} {fields : List (Nat × Nat × Nat)} {f : Core → SlotOut}
    (he : exec i s = runAlu core fields f s) (h : aluNext s.dev core fields = true) :
    happens i s fun d d' => d' = d.onCore core fun c => c.stage (f c) 2 := by
  refine ⟨_, he, ?_⟩
  simp only [aluNext, Bool.and_eq_true] at h
  simp [h]

/-- The load/store slot that comes next closes its bundle. -/
theorem exec_ls {i : Instr} {s : State} {core : Nat} {sel : Core → Nat → Bool} {f : Dev → Core → LsOut} {o : SlotOut} {e : Dev}
    (he : exec i s = runLs core sel f s) (ht : Core.takes s.dev core 2 = true)
    (hs : sel (nth s.dev.cores core) (lsSlot (nth s.dev.cores core).bundle) = true) (hf : f s.dev (nth s.dev.cores core) = .done o e) :
    exec i s = .next { s with dev := closeBundle (e.onCore core fun c => c.stage o 0) core } := by
  rw [he]
  unfold runLs onDev
  dsimp only
  rw [ht, hs, hf]
  rfl

/-- Or it faults. -/
theorem exec_ls_fault {i : Instr} {s : State} {core cause addr : Nat} {sel : Core → Nat → Bool} {f : Dev → Core → LsOut} {e : Dev}
    (he : exec i s = runLs core sel f s) (ht : Core.takes s.dev core 2 = true)
    (hs : sel (nth s.dev.cores core) (lsSlot (nth s.dev.cores core).bundle) = true) (hf : f s.dev (nth s.dev.cores core) = .fault cause addr e) :
    exec i s = .next { s with dev := coreFault e core cause addr 0 } := by
  rw [he]
  unfold runLs onDev
  dsimp only
  rw [ht, hs, hf]
  rfl

/-! A load that finds its bytes, one that is out of place, and one that meets a thorn. -/

theorem happens_load {i : Instr} {s : State} {core op size align z p k : Nat} {u : Bool} {off : Int} {f : List Nat → List (Nat × CoreRes)}
    (he : exec i s = runLoad core op size align z p u off f s) (h : lsNext s.dev core (lsFields op z p u off) = true)
    (ha : (nth s.dev.cores core).dataAddr p off size align = some k) (ht : (readSpan s.dev (dataKey core + k) size).2.1.isEmpty = true) :
    happens i s fun d d' => d' = closeBundle ((readSpan d (dataKey core + k) size).2.2.onCore core fun c => c.stage {
        res := f (readSpan d (dataKey core + k) size).1 ++ (nth d.cores core).post p u } 0) core := by
  simp only [lsNext, Bool.and_eq_true] at h
  refine ⟨_, exec_ls he h.1 h.2 ?_, rfl⟩
  rw [ha]
  dsimp only
  unfold loadOut
  rw [ht]
  rfl

theorem load_misplaced {i : Instr} {s : State} {core op size align z p : Nat} {u : Bool} {off : Int} {f : List Nat → List (Nat × CoreRes)}
    (he : exec i s = runLoad core op size align z p u off f s) (h : lsNext s.dev core (lsFields op z p u off) = true)
    (ha : (nth s.dev.cores core).dataAddr p off size align = none) :
    happens i s fun d d' => d' = coreFault d core 2 ((nth d.cores core).faultAt p off size) 0 := by
  simp only [lsNext, Bool.and_eq_true] at h
  refine ⟨_, exec_ls_fault he h.1 h.2 ?_, rfl⟩
  rw [ha]

theorem load_thorned {i : Instr} {s : State} {core op size align z p k : Nat} {u : Bool} {off : Int} {f : List Nat → List (Nat × CoreRes)}
    (he : exec i s = runLoad core op size align z p u off f s) (h : lsNext s.dev core (lsFields op z p u off) = true)
    (ha : (nth s.dev.cores core).dataAddr p off size align = some k) (ht : (readSpan s.dev (dataKey core + k) size).2.1.isEmpty = false) :
    happens i s fun d d' => d' = coreFault (readSpan d (dataKey core + k) size).2.2 core 3 k 0 := by
  simp only [lsNext, Bool.and_eq_true] at h
  refine ⟨_, exec_ls_fault he h.1 h.2 ?_, rfl⟩
  rw [ha]
  dsimp only
  unfold loadOut
  rw [ht]
  rfl

/-- A store in place writes its bytes and closes the bundle. -/
theorem happens_store {i : Instr} {s : State} {core op size align z p k : Nat} {u : Bool} {off : Int} {bytes : Core → List Nat} {sats : Core → Nat}
    (he : exec i s = runStore core op size align z p u off bytes sats s) (h : lsNext s.dev core (lsFields op z p u off) = true)
    (ha : (nth s.dev.cores core).dataAddr p off size align = some k) :
    happens i s fun d d' => d' = closeBundle ((writeSpan d (dataKey core + k) (bytes (nth d.cores core)) [] []).onCore core fun c => c.stage {
        res := (nth d.cores core).post p u, roundSats := sats (nth d.cores core) } 0) core := by
  simp only [lsNext, Bool.and_eq_true] at h
  refine ⟨_, exec_ls he h.1 h.2 ?_, rfl⟩
  rw [ha]

/-- A transfer that passes its checks is queued. -/
theorem happens_xfer {i : Instr} {s : State} {core op z p fa k : Nat} {u write : Bool} {off : Int}
    (he : exec i s = runXfer core op z p u off write s) (h : lsNext s.dev core (lsFields op z p u off) = true)
    (hw : (nth s.dev.cores core).aperture ((nth s.dev.cores core).zr z) 64 write = some fa)
    (ha : (nth s.dev.cores core).dataAddr p off 64 64 = some k) (hv : (nth s.dev.cores core).zr z % 64 = 0)
    (hx : (nth s.dev.cores core).xfers.length < 8) :
    happens i s fun d d' => d' = closeBundle (((xferIn write d (dataKey core + k)).2.2.onCore core fun c => { c with
          xfers := c.xfers ++ [⟨write, fa, k, (xferIn write d (dataKey core + k)).1,
            (xferIn write d (dataKey core + k)).2.1.map fun w => (w - (dataKey core + k)) / 8⟩] }).onCore core fun c =>
        c.stage { res := (nth d.cores core).post p u } 0) core := by
  simp only [lsNext, Bool.and_eq_true] at h
  refine ⟨_, exec_ls he h.1 h.2 ?_, rfl⟩
  have hx : ¬ 8 ≤ (nth s.dev.cores core).xfers.length := by omega
  have hv : ¬ (nth s.dev.cores core).zr z % 64 ≠ 0 := by omega
  dsimp only
  rw [hw, ha]
  dsimp only
  rw [if_neg hv, if_neg hx]

/-- A transfer outside its windows faults. -/
theorem xfer_outside {i : Instr} {s : State} {core op z p : Nat} {u write : Bool} {off : Int}
    (he : exec i s = runXfer core op z p u off write s) (h : lsNext s.dev core (lsFields op z p u off) = true)
    (hw : (nth s.dev.cores core).aperture ((nth s.dev.cores core).zr z) 64 write = none) :
    happens i s fun d d' => d' = coreFault d core 5 ((nth d.cores core).zr z) 0 := by
  simp only [lsNext, Bool.and_eq_true] at h
  refine ⟨_, exec_ls_fault he h.1 h.2 ?_, rfl⟩
  dsimp only
  rw [hw]

/-- R561: with no write of the core outstanding, or outside its channels' registers, an I/O access goes on at once. -/
theorem inOrderIo_of {d : Dev} {n o : Nat} {f : Dev → LsOut}
    (h : 0x100 ≤ o ∧ o < 0x180 → (nth d.cores n).xfers.any (·.write) = false ∧ (nth d.cores n).st = 2) : inOrderIo d n o f = f d := by
  unfold inOrderIo
  split
  · rename_i ho
    obtain ⟨hx, hs⟩ := h ho
    have hw : writesFirst d n = d := by
      unfold writesFirst
      generalize List.range 8 = l
      induction l with
      | nil => rfl
      | cons a l ih => rw [List.foldl_cons, hx]; exact ih
    simp only [hw, hx, hs]
    rfl
  · rfl

/-- A core whose slot is next to run is RUNNING. -/
theorem takes_running {d : Dev} {core k : Nat} (h : Core.takes d core k = true) : (nth d.cores core).st = 2 := by
  unfold Core.takes at h
  simp only [Bool.and_eq_true, beq_iff_eq] at h
  tauto

/-- A read of the I/O space returns its register's word. -/
theorem exec_ioRead {i : Instr} {s : State} {core z v : Nat} {o : Int} {e : Dev}
    (he : exec i s = runIoRead core z o (fun _ => true) s) (h : lsNext s.dev core [(18, 4, 0xB), (13, 5, z), (0, 9, ofSigned 9 o)] = true)
    (hx : 0x100 ≤ o.toNat * 4 ∧ o.toNat * 4 < 0x180 → (nth s.dev.cores core).xfers.any (·.write) = false)
    (ho : 0 ≤ o) (hr : ioRead s.dev core (o.toNat * 4) = some (v, e)) :
    exec i s = .next { s with dev := closeBundle (e.onCore core fun c => c.stage { res := [(4, .z z v)] } 0) core } := by
  simp only [lsNext, Bool.and_eq_true] at h
  refine exec_ls he h.1 (by simp [h.2]) ?_
  rw [if_neg (by omega), inOrderIo_of fun k => ⟨hx k, takes_running h.1⟩, hr]

/-- A read where no register is faults. -/
theorem exec_ioRead_none {i : Instr} {s : State} {core z : Nat} {o : Int}
    (he : exec i s = runIoRead core z o (fun _ => true) s) (h : lsNext s.dev core [(18, 4, 0xB), (13, 5, z), (0, 9, ofSigned 9 o)] = true)
    (hx : 0x100 ≤ o.toNat * 4 ∧ o.toNat * 4 < 0x180 → (nth s.dev.cores core).xfers.any (·.write) = false)
    (ho : 0 ≤ o) (hr : ioRead s.dev core (o.toNat * 4) = none) :
    exec i s = .next { s with dev := coreFault s.dev core 2 (o.toNat * 4) 0 } := by
  simp only [lsNext, Bool.and_eq_true] at h
  refine exec_ls_fault he h.1 (by simp [h.2]) ?_
  rw [if_neg (by omega), inOrderIo_of fun k => ⟨hx k, takes_running h.1⟩, hr]

/-- A write of the I/O space does what its register's write does. -/
theorem exec_ioWrite {i : Instr} {s : State} {core : Nat} {o : Int} {sel : Core → Nat → Bool} {e : Dev}
    (he : exec i s = runIoWrite core o sel s) (ht : Core.takes s.dev core 2 = true)
    (h : slotIs (lsSlot (nth s.dev.cores core).bundle) [(18, 4, 0xC), (0, 9, ofSigned 9 o)] = true)
    (hs : sel (nth s.dev.cores core) (lsSlot (nth s.dev.cores core).bundle) = true)
    (hx : 0x100 ≤ o.toNat * 4 ∧ o.toNat * 4 < 0x180 → (nth s.dev.cores core).xfers.any (·.write) = false)
    (ho : 0 ≤ o) (hr : ioWrite s.dev core (o.toNat * 4) ((nth s.dev.cores core).zr (bitsOf (lsSlot (nth s.dev.cores core).bundle) 17 13)) = some e) :
    exec i s = .next { s with dev := closeBundle (e.onCore core fun c => c.stage {} 0) core } := by
  refine exec_ls he ht (by simp [h, hs]) ?_
  rw [if_neg (by omega), inOrderIo_of fun k => ⟨hx k, takes_running ht⟩, hr]

/-- The same where the value is that of a Z register named in the slot. -/
theorem exec_ioWrite_of {i : Instr} {s : State} {core z : Nat} {o : Int} {sel : Core → Nat → Bool} {e : Dev}
    (he : exec i s = runIoWrite core o sel s) (h : lsNext s.dev core [(18, 4, 0xC), (13, 5, z), (0, 9, ofSigned 9 o)] = true)
    (hs : slotIs (lsSlot (nth s.dev.cores core).bundle) [(13, 5, z)] = true →
      bitsOf (lsSlot (nth s.dev.cores core).bundle) 17 13 = z → sel (nth s.dev.cores core) (lsSlot (nth s.dev.cores core).bundle) = true)
    (hx : 0x100 ≤ o.toNat * 4 ∧ o.toNat * 4 < 0x180 → (nth s.dev.cores core).xfers.any (·.write) = false)
    (ho : 0 ≤ o) (hr : ioWrite s.dev core (o.toNat * 4) ((nth s.dev.cores core).zr z) = some e) :
    exec i s = .next { s with dev := closeBundle (e.onCore core fun c => c.stage {} 0) core } := by
  simp only [lsNext, slotIs, List.all_cons, List.all_nil, Bool.and_true, Bool.and_eq_true, beq_iff_eq] at h
  obtain ⟨ht, h1, h2, h3⟩ := h
  have hz : bitsOf (lsSlot (nth s.dev.cores core).bundle) 17 13 = z := h2
  refine exec_ioWrite he ht ?_ (hs ?_ hz) hx ho (by rw [hz]; exact hr)
  · simp only [slotIs, List.all_cons, List.all_nil, Bool.and_true, Bool.and_eq_true, beq_iff_eq]
    exact ⟨h1, h3⟩
  · simp only [slotIs, List.all_cons, List.all_nil, Bool.and_true, beq_iff_eq]
    exact h2

end Sys2Proof.Machine
end

