-- ==== Sys2Proof/Laws/Link.lean ====
section
/-! SUPPORT. The way of a host's command, said once: what it finds (`found`), and what a command that starts does. -/

namespace Sys2Proof.Machine

theorem find_map_session (l : List Session) (f : Session → Session) (n m : Nat) (hf : ∀ s, (f s).num = s.num) :
    (l.map fun s => if s.num == n then f s else s).find? (·.num == m)
      = (l.find? (·.num == m)).map fun s => if s.num == n then f s else s := by
  induction l with
  | nil => rfl
  | cons a l ih =>
    simp only [List.map_cons, List.find?_cons]
    by_cases ha : a.num == m
    · have : ((if a.num == n then f a else a).num == m) = true := by split <;> simp_all
      rw [this, ha]; rfl
    · have : ((if a.num == n then f a else a).num == m) = false := by split <;> simp_all
      rw [this, ih, Bool.eq_false_iff.mpr ha]

/-- A change of a session that keeps its number and its role keeps every session's role. -/
theorem owner_onSession (d : Dev) (h : Hdr) (n : Nat) (f : Session → Session) (hn : ∀ s, (f s).num = s.num) (ho : ∀ s, (f s).owner = s.owner) :
    isOwner (d.onLnk (·.onSession n f)) h = isOwner d h := by
  simp only [isOwner, Dev.session?, Dev.onLnk, Lnk.onSession, find_map_session _ f _ _ hn]
  cases d.lnk.sessions.find? (·.num == h.session) with
  | none => rfl
  | some s => simp only [Option.map_some]; split <;> simp [ho]

theorem isOwner_found (d : Dev) (h : Hdr) : isOwner (found d h) h = isOwner d h := by
  unfold found
  split
  · rfl
  · simp only [takeSeq, received, heard]
    rw [owner_onSession]
    · split
      · rw [owner_onSession] <;> intros <;> rfl
      · rfl
    all_goals intros; rfl

@[simp] theorem refusal_none (st : Nat) : (refusal st = none) = False := by simp [refusal]

@[simp] theorem firstBad_nil : firstBad [] = none := rfl

/-- A list of checks passes where each of them does. -/
@[simp] theorem firstBad_cons (b : Bool) (st : Nat) (l : List (Bool × Nat)) :
    (firstBad ((b, st) :: l) = none) = (b = false ∧ firstBad l = none) := by
  cases b <;> simp [firstBad, refusal]

/-- Two groups of checks pass where each does. -/
@[simp] theorem orElse_none (a b : Option Reply) : (Checks.orElse a b = none) = (a = none ∧ b = none) := by
  cases a <;> simp [Checks.orElse]

/-! The packet steps change nothing but the link. -/

@[simp] theorem found_ident (d : Dev) (h : Hdr) : (found d h).ident = d.ident := by unfold found received; split <;> [rfl; (split <;> rfl)]
@[simp] theorem found_tmb (d : Dev) (h : Hdr) : (found d h).tmb = d.tmb := by unfold found received; split <;> [rfl; (split <;> rfl)]
@[simp] theorem found_lanes (d : Dev) (h : Hdr) : (found d h).lanes = d.lanes := by unfold found received; split <;> [rfl; (split <;> rfl)]
@[simp] theorem found_quads (d : Dev) (h : Hdr) : (found d h).quads = d.quads := by unfold found received; split <;> [rfl; (split <;> rfl)]
@[simp] theorem found_rx (d : Dev) (h : Hdr) : (found d h).rx = d.rx := by unfold found received; split <;> [rfl; (split <;> rfl)]
@[simp] theorem found_outs (d : Dev) (h : Hdr) : (found d h).outs = d.outs := by unfold found received; split <;> [rfl; (split <;> rfl)]
@[simp] theorem found_ins (d : Dev) (h : Hdr) : (found d h).ins = d.ins := by unfold found received; split <;> [rfl; (split <;> rfl)]
@[simp] theorem found_tx (d : Dev) (h : Hdr) : (found d h).tx = d.tx := by unfold found received; split <;> [rfl; (split <;> rfl)]
@[simp] theorem found_fe (d : Dev) (h : Hdr) : (found d h).fe = d.fe := by unfold found received; split <;> [rfl; (split <;> rfl)]
@[simp] theorem found_gov (d : Dev) (h : Hdr) : (found d h).gov = d.gov := by unfold found received; split <;> [rfl; (split <;> rfl)]
@[simp] theorem found_fre (d : Dev) (h : Hdr) : (found d h).fre = d.fre := by unfold found received; split <;> [rfl; (split <;> rfl)]
@[simp] theorem found_sig (d : Dev) (h : Hdr) : (found d h).sig = d.sig := by unfold found received; split <;> [rfl; (split <;> rfl)]
@[simp] theorem found_chains (d : Dev) (h : Hdr) : (found d h).chains = d.chains := by unfold found received; split <;> [rfl; (split <;> rfl)]
@[simp] theorem found_weave (d : Dev) (h : Hdr) : (found d h).weave = d.weave := by unfold found received; split <;> [rfl; (split <;> rfl)]
@[simp] theorem found_xce (d : Dev) (h : Hdr) : (found d h).xce = d.xce := by unfold found received; split <;> [rfl; (split <;> rfl)]
@[simp] theorem found_mem (d : Dev) (h : Hdr) : (found d h).mem = d.mem := by unfold found received; split <;> [rfl; (split <;> rfl)]
@[simp] theorem found_fab (d : Dev) (h : Hdr) : (found d h).fab = d.fab := by unfold found received; split <;> [rfl; (split <;> rfl)]
@[simp] theorem found_dma (d : Dev) (h : Hdr) : (found d h).dma = d.dma := by unfold found received; split <;> [rfl; (split <;> rfl)]
@[simp] theorem found_cores (d : Dev) (h : Hdr) : (found d h).cores = d.cores := by unfold found received; split <;> [rfl; (split <;> rfl)]
@[simp] theorem found_dpd (d : Dev) (h : Hdr) : (found d h).dpd = d.dpd := by unfold found received; split <;> [rfl; (split <;> rfl)]
@[simp] theorem found_cal (d : Dev) (h : Hdr) : (found d h).cal = d.cal := by unfold found received; split <;> [rfl; (split <;> rfl)]
@[simp] theorem found_syn (d : Dev) (h : Hdr) : (found d h).syn = d.syn := by unfold found received; split <;> [rfl; (split <;> rfl)]
@[simp] theorem found_bcn (d : Dev) (h : Hdr) : (found d h).bcn = d.bcn := by unfold found received; split <;> [rfl; (split <;> rfl)]
@[simp] theorem found_ctl (d : Dev) (h : Hdr) : (found d h).ctl = d.ctl := by unfold found received; split <;> [rfl; (split <;> rfl)]
@[simp] theorem found_nvm (d : Dev) (h : Hdr) : (found d h).nvm = d.nvm := by unfold found received; split <;> [rfl; (split <;> rfl)]
@[simp] theorem found_pwr (d : Dev) (h : Hdr) : (found d h).pwr = d.pwr := by unfold found received; split <;> [rfl; (split <;> rfl)]
@[simp] theorem found_qs (d : Dev) (h : Hdr) : (found d h).qs = d.qs := by unfold found received; split <;> [rfl; (split <;> rfl)]
@[simp] theorem found_free (d : Dev) (h : Hdr) : (found d h).free = d.free := by unfold found received; split <;> [rfl; (split <;> rfl)]

@[simp] theorem found_now (d : Dev) (h : Hdr) : (found d h).now = d.now := by simp [Dev.now]
@[simp] theorem found_axis (d : Dev) (h : Hdr) : (found d h).axis = d.axis := by simp [Dev.axis]
@[simp] theorem found_domOn (d : Dev) (h : Hdr) (n : Nat) : domOn (found d h) n = domOn d n := by simp [domOn]

/-! Of the link they change the sessions, the port counters and the mark of a command from the mailbox. -/

@[simp] theorem found_mail (d : Dev) (h : Hdr) : (found d h).lnk.mail = d.lnk.mail := by
  unfold found received; split <;> [rfl; (split <;> rfl)]
@[simp] theorem found_evNumber (d : Dev) (h : Hdr) : (found d h).lnk.evNumber = d.lnk.evNumber := by
  unfold found received; split <;> [rfl; (split <;> rfl)]
@[simp] theorem found_history (d : Dev) (h : Hdr) : (found d h).lnk.history = d.lnk.history := by
  unfold found received; split <;> [rfl; (split <;> rfl)]
@[simp] theorem found_lastRaised (d : Dev) (h : Hdr) : (found d h).lnk.lastRaised = d.lnk.lastRaised := by
  unfold found received; split <;> [rfl; (split <;> rfl)]
@[simp] theorem found_bulk (d : Dev) (h : Hdr) : (found d h).lnk.bulk = d.lnk.bulk := by
  unfold found received; split <;> [rfl; (split <;> rfl)]
@[simp] theorem found_nextHandle (d : Dev) (h : Hdr) : (found d h).lnk.nextHandle = d.lnk.nextHandle := by
  unfold found received; split <;> [rfl; (split <;> rfl)]
@[simp] theorem found_dests (d : Dev) (h : Hdr) : (found d h).lnk.dests = d.lnk.dests := by
  unfold found received; split <;> [rfl; (split <;> rfl)]
@[simp] theorem found_slots (d : Dev) (h : Hdr) : (found d h).lnk.slots = d.lnk.slots := by
  unfold found received; split <;> [rfl; (split <;> rfl)]
@[simp] theorem found_reports (d : Dev) (h : Hdr) : (found d h).lnk.reports = d.lnk.reports := by
  unfold found received; split <;> [rfl; (split <;> rfl)]
@[simp] theorem found_encap (d : Dev) (h : Hdr) : (found d h).lnk.encap = d.lnk.encap := by
  unfold found received; split <;> [rfl; (split <;> rfl)]
@[simp] theorem found_newEncap (d : Dev) (h : Hdr) : (found d h).lnk.newEncap = d.lnk.newEncap := by
  unfold found received; split <;> [rfl; (split <;> rfl)]
@[simp] theorem found_dhcpAddr (d : Dev) (h : Hdr) : (found d h).lnk.dhcpAddr = d.lnk.dhcpAddr := by
  unfold found received; split <;> [rfl; (split <;> rfl)]
@[simp] theorem found_svcUp (d : Dev) (h : Hdr) : (found d h).lnk.svcUp = d.lnk.svcUp := by
  unfold found received; split <;> [rfl; (split <;> rfl)]
@[simp] theorem found_transfers (d : Dev) (h : Hdr) : (found d h).lnk.transfers = d.lnk.transfers := by
  unfold found received; split <;> [rfl; (split <;> rfl)]
@[simp] theorem found_held (d : Dev) (h : Hdr) : (found d h).lnk.held = d.lnk.held := by
  unfold found received; split <;> [rfl; (split <;> rfl)]
@[simp] theorem found_timed (d : Dev) (h : Hdr) : (found d h).lnk.timed = d.lnk.timed := by
  unfold found received; split <;> [rfl; (split <;> rfl)]
@[simp] theorem found_repParts (d : Dev) (h : Hdr) : (found d h).lnk.repParts = d.lnk.repParts := by
  unfold found received; split <;> [rfl; (split <;> rfl)]
@[simp] theorem found_txSeq (d : Dev) (h : Hdr) : (found d h).lnk.txSeq = d.lnk.txSeq := by
  unfold found received; split <;> [rfl; (split <;> rfl)]
@[simp] theorem found_badFragments (d : Dev) (h : Hdr) : (found d h).lnk.badFragments = d.lnk.badFragments := by
  unfold found received; split <;> [rfl; (split <;> rfl)]
@[simp] theorem found_sent (d : Dev) (h : Hdr) : (found d h).lnk.sent = d.lnk.sent := by
  unfold found received; split <;> [rfl; (split <;> rfl)]

@[simp] theorem found_obj (d : Dev) (h : Hdr) (n : Nat) : (found d h).obj? n = d.obj? n := by simp [Dev.obj?]

@[simp] theorem found_sessions_length (d : Dev) (h : Hdr) : (found d h).lnk.sessions.length = d.lnk.sessions.length := by
  unfold found received heard takeSeq
  split <;> (try split) <;> simp [Dev.onLnk, Lnk.onSession]

/-- A packet that arrives, or that its class starts, runs on the unit it finds (R121, R131). -/
theorem hostCmd_runs (info : CmdInfo) (h : Hdr) (i : Instr) (check : Dev → Option Reply) (eff : Dev → Eff) (s : State)
    (hp : s.dev.ctl.phase = .running) (ha : s.dev.lnk.admitted = true ∨ arrives s.dev h info = true) :
    hostCmd info h i check eff s = .next { s with dev := hostRun (found s.dev h) info h check eff } := by
  rw [hostCmd, onDev]
  congr 2
  by_cases hadm : s.dev.lnk.admitted = true
  · have hf : found s.dev h = s.dev.onLnk fun l => { l with admitted := false } := by simp [found, hadm]
    rw [if_pos hadm, ← hf]
  · have hf : found s.dev h = takeSeq (received s.dev h) h := by simp [found, hadm]
    have ha := ha.resolve_left hadm
    simp only [arrives, reaches, Bool.and_eq_true, Bool.not_eq_true', decide_eq_true_eq, Option.isNone_iff_eq_none,
      List.isEmpty_iff] at ha
    obtain ⟨⟨⟨⟨⟨⟨⟨⟨⟨hup, hca⟩, hun⟩, hb⟩, hch⟩, hth⟩, hsq⟩, hen⟩, hrn⟩, hqe⟩ := ha
    have hm : (if h.broadcast = true then !(bound s.dev h || (info.opcode == 0 && h.session == 0)) else h.unit != s.dev.nvm.unitNumber) = false := by
      split at hun
      · rename_i hbc
        rw [if_pos hbc, hun]; rfl
      · simp_all
    have hno : (!bound s.dev h && !(info.opens && h.session == 0)) = false := by
      cases hbd : bound s.dev h <;> simp_all
    rw [if_neg hadm, hf, hostArrive]
    have hrec : (if bound s.dev h then heard (s.dev.onLnk fun l => { l with ports := upd l.ports h.port fun c => { c with received := c.received + 1 } }) h
      else s.dev.onLnk fun l => { l with ports := upd l.ports h.port fun c => { c with received := c.received + 1 } }) = received s.dev h := rfl
    have hctl : (received s.dev h).ctl.phase = .running := by unfold received; split <;> exact hp
    simp only [hp, hup, hca, hm, hno]
    simp [hrec, hth, hsq, hen, hrn, hqe, hctl, Nat.not_lt.mpr hch]

/-- What a command that starts comes to: its checks, then its effect and its response. -/
theorem hostCmd_starts (info : CmdInfo) (h : Hdr) (i : Instr) (check : Dev → Option Reply) (eff : Dev → Eff) (s : State)
    (hs : starts s.dev h info = true) (hu : info.unknown = false) (hc : check (found s.dev h) = none) :
    hostCmd info h i check eff s = .next { s with dev := conclude h info s.dev.now (eff (found s.dev h)) } := by
  simp only [starts, Bool.and_eq_true, beq_iff_eq, Bool.not_eq_true', Bool.or_eq_true] at hs
  obtain ⟨⟨⟨⟨⟨⟨hp, ha⟩, hr⟩, hl⟩, ho⟩, hsp⟩, hd⟩ := hs
  rw [hostCmd_runs info h i check eff s hp ha]
  have hw := isOwner_found s.dev h
  unfold hostRun
  simp only [hw, found_ctl, hp, hu, hr, hl, hsp, hc, hd]
  rcases ho with (ho | ho) | ho <;> simp [ho]

/-- A command that starts and passes its checks completes: its effect is related to what it found. -/
theorem completes_of {info : CmdInfo} {h : Hdr} {i : Instr} {check : Dev → Option Reply} {eff : Dev → Eff} {s : State}
    {rel : Dev → Dev → List Field → Prop} (he : exec i s = hostCmd info h i check eff s) (hs : starts s.dev h info = true)
    (hu : info.unknown = false) (hc : check (found s.dev h) = none) (d : Dev) (fields : List Field)
    (hf : eff (found s.dev h) = { dev := d, reply := { fields := fields } }) (hr : rel (found s.dev h) d fields) : completes i s h info rel := by
  refine ⟨d, fields, ?_, hr⟩
  rw [he, hostCmd_starts info h i check eff s hs hu hc, hf]
  simp [conclude]

/-- The same for a command whose unit and answer are functions of what it found. -/
theorem completes_eq {info : CmdInfo} {h : Hdr} {i : Instr} {check : Dev → Option Reply} {eff : Dev → Eff} {s : State}
    {F : Dev → Dev} {G : Dev → List Field} (he : exec i s = hostCmd info h i check eff s) (hs : starts s.dev h info = true)
    (hu : info.unknown = false) (hc : check (found s.dev h) = none)
    (hf : eff (found s.dev h) = { dev := F (found s.dev h), reply := { fields := G (found s.dev h) } }) :
    completes i s h info fun d d' fs => d' = F d ∧ fs = G d :=
  completes_of he hs hu hc _ _ hf ⟨rfl, rfl⟩

/-- A command that starts, passes its checks and waits begins. -/
theorem begins_of {info : CmdInfo} {h : Hdr} {i : Instr} {check : Dev → Option Reply} {eff : Dev → Eff} {s : State} {w : Wait}
    {rel : Dev → Dev → Prop} (he : exec i s = hostCmd info h i check eff s) (hs : starts s.dev h info = true)
    (hu : info.unknown = false) (hc : check (found s.dev h) = none) (d : Dev) (r : Reply)
    (hf : eff (found s.dev h) = { dev := d, reply := r, wait := some w }) (hr : rel (found s.dev h) d) : begins i s h w rel := by
  refine ⟨d, ⟨h, info.opcode, if r.fields.isEmpty then zeroFields info.widths else r.fields, w, s.dev.now, false⟩, ?_, rfl, rfl, rfl, hr⟩
  rw [he, hostCmd_starts info h i check eff s hs hu hc, hf]
  simp [conclude]

/-- The same for a unit that is a function of what the command found, and no answer yet. -/
theorem begins_eq {info : CmdInfo} {h : Hdr} {i : Instr} {check : Dev → Option Reply} {eff : Dev → Eff} {s : State} {w : Wait}
    {F : Dev → Dev} (he : exec i s = hostCmd info h i check eff s) (hs : starts s.dev h info = true) (hu : info.unknown = false)
    (hc : check (found s.dev h) = none) (hf : eff (found s.dev h) = { dev := F (found s.dev h), wait := some w }) :
    begins i s h w fun d d' => d' = F d :=
  begins_of he hs hu hc _ _ hf rfl

/-! A part changed in two ways that agree on it is changed alike. -/

theorem onLane_congr (d : Dev) (n : Nat) (f g : Lane → Lane) (h : f (nth d.lanes n) = g (nth d.lanes n)) : d.onLane n f = d.onLane n g := by
  simp only [Dev.onLane, upd_congr _ _ _ _ h]

theorem onRx_congr (d : Dev) (n : Nat) (f g : RxPath → RxPath) (h : f (d.rxPath n) = g (d.rxPath n)) : d.onRx n f = d.onRx n g := by
  simp only [Dev.onRx, upd_congr d.rx n f g h]

theorem onTx_congr (d : Dev) (n : Nat) (f g : TxPath → TxPath) (h : f (d.txPath n) = g (d.txPath n)) : d.onTx n f = d.onTx n g := by
  simp only [Dev.onTx, upd_congr d.tx n f g h]

theorem onFe_congr (d : Dev) (n : Nat) (f g : Fe → Fe) (h : f (nth d.fe n) = g (nth d.fe n)) : d.onFe n f = d.onFe n g := by
  simp only [Dev.onFe, upd_congr _ _ _ _ h]

theorem onRxSb_congr (d : Dev) (p s : Nat) (f g : RxSb → RxSb) (h : f ((d.rxPath p).sb s) = g ((d.rxPath p).sb s)) :
    d.onRxSb p s f = d.onRxSb p s g := by
  unfold Dev.onRxSb
  refine onRx_congr _ _ _ _ ?_
  simp only [upd_congr _ _ _ _ h]

theorem onTxSb_congr (d : Dev) (p s : Nat) (f g : TxSb → TxSb) (h : f ((d.txPath p).sb s) = g ((d.txPath p).sb s)) :
    d.onTxSb p s f = d.onTxSb p s g := by
  unfold Dev.onTxSb
  refine onTx_congr _ _ _ _ ?_
  simp only [upd_congr _ _ _ _ h]

theorem onFre_congr (d : Dev) (n : Nat) (f g : FreSlot → FreSlot) (h : f (nth d.fre n) = g (nth d.fre n)) : d.onFre n f = d.onFre n g := by
  simp only [Dev.onFre, upd_congr _ _ _ _ h]

/-- A stake that is next to act leaves the queue or stands for its next repetition, acts, and its mark is raised (R61, R68). -/
theorem stakeAct_due {code : Nat} {able : Dev → QStake → Bool} {late act : Dev → QStake → Dev} {d : Dev} {q : QStake}
    (h : due code able d q = true) : stakeAct code able late act d = markDone (act (d.onTmb (·.advance q)) q) q := by
  simp only [due, Bool.and_eq_true, Bool.not_eq_true', Option.isNone_iff_eq_none, decide_eq_true_eq, beq_iff_eq] at h
  obtain ⟨⟨⟨⟨hh, hf⟩, hc⟩, hl⟩, ha⟩ := h
  unfold stakeAct
  rw [hh, hf]
  simp [hc, stakeRun, hl, ha]

/-- What a BULK or STREAM packet's arrival does by itself, it does to the link. -/
theorem dataIn_eq (d : Dev) (session : Nat) (rx : PktIn) (n : Nat) : ∃ l, (dataIn d session rx n).1 = { d with lnk := l } := by
  unfold dataIn
  repeat' split
  all_goals exact ⟨_, rfl⟩

/-- What the packet steps do to the unit, they do to the link. -/
theorem found_eq (d : Dev) (h : Hdr) : ∃ l, found d h = { d with lnk := l } := by
  unfold found received
  split
  · exact ⟨_, rfl⟩
  · split <;> exact ⟨_, rfl⟩

end Sys2Proof.Machine
end

