-- ==== Sys2Proof/Laws/Meanings.lean ====
section
/-! SUPPORT. Every meaning answers a next state and keeps the canonical form of the stores (`Keeps`), one lemma per meaning. -/

namespace Sys2Proof.Machine

theorem keeps_rxPathSet {v1 : Hdr} {v2 v3 : Nat} {v4 v5 v6 : Nat} : Keeps (execRxPathSet v1 v2 v3 v4 v5 v6) := by
  unfold execRxPathSet
  apply canon_hostCmd
  intro k1 k2
  apply canon_just
  · intro k4 k5
    dsimp only
    apply canon_ite
    · apply canon_calNotice
      refine canon_foldl ?_ ?_
      · intro k10 k11 k12
        apply canon_ite
        · exact canon_Dev_onRx (canon_Dev_fresh_aux (canon_rxReplace (canon_Dev_onRx k12)))
        · exact canon_Dev_onRx k12
      · exact k5
    · refine canon_foldl ?_ ?_
      · intro k9 k10 k11
        apply canon_ite
        · exact canon_Dev_onRx (canon_Dev_fresh_aux (canon_rxReplace (canon_Dev_onRx k11)))
        · exact canon_Dev_onRx k11
      · exact k5
  · exact k2
theorem keeps_rxPathGet {v1 : Hdr} {v2 : Nat} : Keeps (execRxPathGet v1 v2) := canon_query
theorem keeps_adcOverload {v1 v2 : Nat} : Keeps (execAdcOverload v1 v2) :=
  canon_onDev (fun _ k2 => canon_ite k2 (canon_ite (canon_raiseEv (canon_Dev_onRx k2)) (canon_raiseLimited (canon_Dev_onRx k2))))
theorem keeps_rxProtectEntry {v1 : Nat} : Keeps (execRxProtectEntry v1) :=
  canon_onDev (fun _ k2 => canon_ite k2 (canon_raiseEv (canon_rxReplace (canon_Dev_onRx (canon_Dev_onFe k2)))))
theorem keeps_rxProtectExit {v1 : Nat} : Keeps (execRxProtectExit v1) :=
  canon_onDev (fun _ k2 => canon_ite (canon_raiseEv (canon_ite (canon_rxRestore (canon_Dev_onFe k2)) (canon_Dev_onFe k2))) k2)
theorem keeps_biasFoldback {v1 : Nat} : Keeps (execBiasFoldback v1) :=
  canon_onDev (fun _ k2 => canon_ite k2 (canon_raiseEv (canon_Dev_onRx k2)))
theorem keeps_biasRetry {v1 : Nat} {v2 : Bool} : Keeps (execBiasRetry v1 v2) :=
  canon_onDev (fun _ k2 => canon_ite (canon_ite (canon_raiseEv (canon_Dev_onRx k2)) (canon_Dev_onRx k2)) k2)
theorem keeps_portCheck {v1 : Hdr} {v2 v3 : Nat} : Keeps (execPortCheck v1 v2 v3) := by
  unfold execPortCheck
  apply canon_hostCmd
  intro k1 k2
  split
  · exact k2
  · exact k2
theorem keeps_portMeasurement {v1 v2 : Nat} {v3 : Int} : Keeps (execPortMeasurement v1 v2 v3) :=
  canon_onDev (fun _ k2 => canon_ite (canon_complete (canon_onWaits (canon_ite (canon_mismatchEnds (canon_ite (canon_Dev_onRx
  (canon_Dev_onRx (canon_ite k2 (canon_reserveSlots k2)))) (canon_raiseEv (canon_Dev_onRx (canon_Dev_onRx (canon_ite k2
  (canon_reserveSlots k2))))))) (canon_ite (canon_Dev_onRx (canon_Dev_onRx (canon_ite k2 (canon_reserveSlots k2)))) (canon_raiseEv
  (canon_Dev_onRx (canon_Dev_onRx (canon_ite k2 (canon_reserveSlots k2))))))))) k2)
theorem keeps_rxSubbandSet {v1 : Hdr} {v2 v3 : Nat} {v4 : RxCfg} : Keeps (execRxSubbandSet v1 v2 v3 v4) :=
  canon_hostCmd (fun _ k2 => canon_just (fun _ k5 => canon_foldl (fun _ _ k9 => canon_ite (canon_Dev_onRxSb k9) (canon_rxReplace
  (canon_Dev_onRxSb k9))) k5) k2)
theorem keeps_rxSubbandGet {v1 : Hdr} {v2 v3 v4 : Nat} : Keeps (execRxSubbandGet v1 v2 v3 v4) := canon_query
theorem keeps_rxSubbandDisable {v1 : Hdr} {v2 v3 : Nat} : Keeps (execRxSubbandDisable v1 v2 v3) := by
  unfold execRxSubbandDisable
  apply canon_hostCmd
  intro k1 k2
  dsimp only
  split
  · exact canon_foldl (fun _ _ k9 => canon_rxStop k9) k2
  · exact canon_foldl (fun _ _ k9 => canon_rxStop k9) k2
theorem keeps_rxFlushDone {v1 v2 v3 : Nat} : Keeps (execRxFlushDone v1 v2 v3) :=
  canon_onDev (fun _ k2 => canon_ite (canon_qsExitCheck (canon_complete (canon_onWaits (canon_raiseEv (canon_Dev_onRxSb (canon_Dev_onRx
  k2)))))) k2)
theorem keeps_rxCoefLoad {v1 : Hdr} {v2 v3 v4 : Nat} : Keeps (execRxCoefLoad v1 v2 v3 v4) := by
  unfold execRxCoefLoad
  apply canon_hostCmd
  intro k1 k2
  apply canon_just
  · intro k4 k5
    split
    · exact k5
    · exact canon_consume (canon_foldl (fun _ _ k11 => canon_Dev_onRxSb k11) k5)
  · exact k2
theorem keeps_rxStreamSet {v1 : Hdr} {v2 v3 : Nat} {v4 v5 : Nat} {v6 v7 v8 : Nat} : Keeps (execRxStreamSet v1 v2 v3 v4 v5 v6 v7 v8) :=
  canon_hostCmd (fun _ k2 => canon_just (fun _ k5 => canon_mk k5) k2)
theorem keeps_rxStreamStop {v1 : Hdr} {v2 : Nat} : Keeps (execRxStreamStop v1 v2) := canon_hostCmd (fun _ k2 => canon_streamStop k2)
theorem keeps_rxCutSet {v1 : Hdr} {v2 v3 : Nat} {v4 v5 v6 : Nat} : Keeps (execRxCutSet v1 v2 v3 v4 v5 v6) :=
  canon_hostCmd (fun _ k2 => canon_just (fun _ k5 => canon_Dev_onRxSb k5) k2)
theorem keeps_rxMeterGet {v1 : Hdr} {v2 v3 v4 : Nat} : Keeps (execRxMeterGet v1 v2 v3 v4) :=
  canon_hostCmd (fun _ k2 => canon_ite (canon_Dev_onRx k2) k2)
theorem keeps_rxCounters {v1 : Hdr} {v2 v3 : Nat} : Keeps (execRxCounters v1 v2 v3) :=
  canon_hostCmd (fun _ k2 => canon_ite (canon_Dev_onRx k2) k2)
theorem keeps_rxOpen  : Keeps (execRxOpen) :=
  canon_onDev (fun _ k2 => canon_stakeAct (fun _ _ k6 => canon_lateDrop k6) (fun _ _ k6 => canon_rxEach (fun _ _ _ k11 =>
  canon_Dev_onRxSb k11) k6) k2)
theorem keeps_rxClose  : Keeps (execRxClose) :=
  canon_onDev (fun _ k2 => canon_stakeAct (fun _ _ k6 => canon_lateDrop k6) (fun _ _ k6 => canon_rxEach (fun _ _ _ k11 =>
  canon_Dev_onRxSb (canon_closeRaw k11)) k6) k2)
theorem keeps_rxSwap  : Keeps (execRxSwap) :=
  canon_onDev (fun _ k2 => canon_stakeAct (fun _ _ k6 => canon_lateDrop k6) (fun _ _ k6 => canon_rxEach (fun _ _ _ k11 =>
  canon_rxSwapOne k11) k6) k2)
theorem keeps_ncoReset  : Keeps (execNcoReset) :=
  canon_onDev (fun _ k2 => canon_stakeAct (fun _ _ k6 => canon_lateDrop k6) (fun _ _ k6 => canon_rxEach (fun _ _ _ k11 =>
  canon_Dev_onRxSb k11) k6) k2)
theorem keeps_attenStep  : Keeps (execAttenStep) :=
  canon_onDev (fun _ k2 => canon_stakeAct (fun _ _ k6 => canon_lateDrop k6) (fun _ _ k6 => canon_foldl (fun _ _ k10 => canon_Dev_onRx
  k10) k6) k2)
theorem keeps_meterLatch  : Keeps (execMeterLatch) :=
  canon_onDev (fun _ k2 => canon_stakeAct (fun _ _ k6 => canon_lateDrop k6) (fun _ _ k6 => canon_foldl (fun _ _ k11 => canon_Dev_onRx
  k11) k6) k2)
theorem keeps_discover {v1 : Hdr} : Keeps (execDiscover v1) := canon_query
theorem keeps_sessionOpen {v1 : Hdr} {v2 v3 : Nat} {v4 v5 : Nat} : Keeps (execSessionOpen v1 v2 v3 v4 v5) := by
  unfold execSessionOpen
  apply canon_hostCmd
  intro k1 k2
  dsimp only
  apply canon_raiseEv
  apply canon_Dev_onLnk
  apply canon_ite
  · split
    · apply canon_closeSession
      split
      · exact canon_Dev_fresh_aux k2
      · exact k2
    · split
      · exact canon_Dev_fresh_aux k2
      · exact k2
  · split
    · exact canon_Dev_fresh_aux k2
    · exact k2
theorem keeps_sessionAuth {v1 : Hdr} {v2 : Nat} {v3 : EcdsaSig} : Keeps (execSessionAuth v1 v2 v3) := by
  unfold execSessionAuth
  dsimp only
  apply canon_hostCmd
  intro k2 k3
  split
  · dsimp only
    apply canon_Dev_onLnk
    split
    · exact canon_ite k3 (canon_closeSession k3)
    · exact k3
  · exact canon_ite (canon_closeSession (canon_Dev_onLnk k3)) (canon_Dev_onLnk k3)
theorem keeps_sessionClose {v1 : Hdr} : Keeps (execSessionClose v1) :=
  canon_hostCmd (fun _ k2 => canon_just (fun _ k5 => canon_closeSession k5) k2)
theorem keeps_sessionKeepalive {v1 : Hdr} : Keeps (execSessionKeepalive v1) := canon_query
theorem keeps_sessionStatus {v1 : Hdr} : Keeps (execSessionStatus v1) := canon_query
theorem keeps_sessionList {v1 : Hdr} : Keeps (execSessionList v1) := canon_query
theorem keeps_sessionEvict {v1 : Hdr} {v2 : Nat} : Keeps (execSessionEvict v1 v2) :=
  canon_hostCmd (fun _ k2 => canon_just (fun _ k5 => canon_closeSession k5) k2)
theorem keeps_eventSubscribe {v1 : Hdr} {v2 v3 : Nat} : Keeps (execEventSubscribe v1 v2 v3) :=
  canon_hostCmd (fun _ k2 => canon_just (fun _ k5 => canon_Dev_onLnk k5) k2)
theorem keeps_eventGet {v1 : Hdr} {v2 v3 : Nat} : Keeps (execEventGet v1 v2 v3) := canon_hostCmd (fun _ k2 => canon_noteLost k2)
theorem keeps_evtPacketSend {v1 : Nat} : Keeps (execEvtPacketSend v1) := by
  unfold execEvtPacketSend
  apply canon_onDev
  intro k1 k2
  split
  · exact k2
  · exact canon_sendEvt k2
theorem keeps_sessionTimeout {v1 : Nat} : Keeps (execSessionTimeout v1) := by
  unfold execSessionTimeout
  apply canon_onDev
  intro k1 k2
  split
  · exact k2
  · exact canon_ite (canon_closeSession k2) k2
theorem keeps_swiosPacketDropped {v1 : Nat} {v2 : Bool} {v3 : RawPkt} : Keeps (execSwiosPacketDropped v1 v2 v3) := by
  unfold execSwiosPacketDropped
  apply canon_onDev
  intro k1 k2
  apply canon_ite
  · exact k2
  · apply canon_ite
    · exact canon_Dev_onLnk k2
    · apply canon_ite
      · exact k2
      · split
        · exact canon_Dev_onLnk k2
        · exact k2
theorem keeps_bulkOpen {v1 : Hdr} {v2 v3 v4 : Nat} : Keeps (execBulkOpen v1 v2 v3 v4) := canon_hostCmd (fun _ k2 => canon_Dev_onLnk k2)
theorem keeps_bulkStatus {v1 : Hdr} {v2 : Nat} : Keeps (execBulkStatus v1 v2) := canon_query
theorem keeps_bulkClose {v1 : Hdr} {v2 : Nat} : Keeps (execBulkClose v1 v2) :=
  canon_hostCmd (fun _ k2 => canon_just (fun _ k5 => canon_Dev_onLnk k5) k2)
theorem keeps_bulkAbort {v1 : Hdr} {v2 : Nat} : Keeps (execBulkAbort v1 v2) :=
  canon_hostCmd (fun _ k2 => canon_just (fun _ k5 => canon_Dev_onLnk (canon_consume k5)) k2)
theorem keeps_bulkRead {v1 : Hdr} {v2 v3 : Nat} {v4 v5 : Nat} : Keeps (execBulkRead v1 v2 v3 v4 v5) :=
  canon_hostCmd (fun _ k2 => canon_just (fun _ k5 => canon_startTransfer (canon_Dev_onLnk k5)) k2)
theorem keeps_bulkResend {v1 : Hdr} {v2 v3 v4 : Nat} : Keeps (execBulkResend v1 v2 v3 v4) :=
  canon_hostCmd (fun _ k2 => canon_just (fun _ k5 => canon_startTransfer k5) k2)
theorem keeps_bulkDone {v1 : Nat} : Keeps (execBulkDone v1) := by
  unfold execBulkDone
  apply canon_onDev
  intro k1 k2
  split
  · exact k2
  · exact canon_ite k2 (canon_raiseEv (canon_Dev_onLnk k2))
theorem keeps_bulkFragment {v0 : Nat} {v1 : PktIn} {v2 v3 : Nat} {v4 v5 : List Nat} : Keeps (execBulkFragment v0 v1 v2 v3 v4 v5) := by
  unfold execBulkFragment
  apply canon_onDev
  intro k1 k2
  split
  apply canon_ite
  · exact canon_dataIn k2 (by assumption)
  · dsimp only
    split
    · exact canon_Dev_onLnk (canon_dataIn k2 (by assumption))
    · exact canon_ite (canon_Dev_onLnk (canon_dataIn k2 (by assumption))) (canon_ite (canon_dataIn k2 (by assumption))
        (canon_Dev_onLnk (canon_dataIn k2 (by assumption))))
theorem keeps_destSet {v1 : Hdr} {v2 v3 : Nat} {v4 v5 : Nat} {v6 v7 : Nat} : Keeps (execDestSet v1 v2 v3 v4 v5 v6 v7) :=
  canon_hostCmd (fun _ k2 => canon_just (fun _ k5 => canon_Dev_onLnk k5) k2)
theorem keeps_reportSlotSet {v1 : Hdr} {v2 v3 : Nat} {v4 v5 : Nat} {v6 v7 : Nat} : Keeps (execReportSlotSet v1 v2 v3 v4 v5 v6 v7) :=
  canon_hostCmd (fun _ k2 => canon_just (fun _ k5 => canon_Dev_onLnk k5) k2)
theorem keeps_reportSlotGet {v1 : Hdr} {v2 : Nat} : Keeps (execReportSlotGet v1 v2) := canon_query
theorem keeps_reportSlot {v1 : Nat} : Keeps (execReportSlot v1) := by
  unfold execReportSlot
  apply canon_onDev
  intro k1 k2
  split
  · exact k2
  · dsimp only
    apply canon_ite
    · exact k2
    · split
      · exact canon_ite (canon_raiseEv (canon_Dev_onLnk k2)) (canon_placeParts (canon_Dev_onLnk (canon_Dev_onLnk k2)))
      · exact canon_raiseEv (canon_Dev_onLnk k2)
theorem keeps_linkEncapSet {v1 : Hdr} {v2 : Encap} : Keeps (execLinkEncapSet v1 v2) :=
  canon_hostCmd (fun _ k2 => canon_just (fun _ k5 => canon_Dev_onLnk k5) k2)
theorem keeps_linkEncapApply  : Keeps (execLinkEncapApply) := by
  unfold execLinkEncapApply
  apply canon_onDev
  intro k1 k2
  split
  · exact k2
  · exact canon_ite (canon_Dev_onLnk k2) k2
theorem keeps_linkEncapGet {v1 : Hdr} : Keeps (execLinkEncapGet v1) := canon_query
theorem keeps_linkCounters {v1 : Hdr} {v2 v3 : Nat} : Keeps (execLinkCounters v1 v2 v3) :=
  canon_hostCmd (fun _ k2 => canon_ite (canon_Dev_onLnk k2) k2)
theorem keeps_priorityFlowControl {v1 v2 : Nat} {v3 : Bool} : Keeps (execPriorityFlowControl v1 v2 v3) :=
  canon_onDev (fun _ k2 => canon_ite (canon_Dev_onLnk k2) k2)
theorem keeps_spreadResponse {v1 : Nat} : Keeps (execSpreadResponse v1) := by
  unfold execSpreadResponse
  apply canon_onDev
  intro k1 k2
  split
  · exact k2
  · split
    · exact canon_launchNow k2 (fun _ k7 => canon_foldl (fun _ _ k11 => canon_Dev_start k11) k7)
    · exact k2
theorem keeps_launchTrigger {v1 : Nat} : Keeps (execLaunchTrigger v1) := by
  unfold execLaunchTrigger
  apply canon_onDev
  intro k1 k2
  split
  · exact k2
  · split
    · exact canon_launchNow k2 (fun _ k7 => canon_Dev_start k7)
    · apply canon_launchNow
      · exact k2
      · intro k6 k7
        split
        split
        exact canon_Dev_start (canon_Dev_nextSeq k7 (by assumption))
    · exact k2
theorem keeps_dhcpReply {v1 : Nat} : Keeps (execDhcpReply v1) := canon_onDev (fun _ k2 => canon_ite (canon_Dev_onLnk k2) k2)
theorem keeps_servicePortLink {v1 : Bool} : Keeps (execServicePortLink v1) := canon_onDev (fun _ k2 => canon_Dev_onLnk k2)
theorem keeps_undefinedOpcode {v1 : Hdr} {v2 : Nat} : Keeps (execUndefinedOpcode v1 v2) := canon_hostCmd fun _ hd => hd
theorem keeps_timeGet {v1 : Hdr} : Keeps (execTimeGet v1) := canon_query
theorem keeps_timeSourceSet {v1 : Hdr} {v2 v3 : Nat} {v4 v5 : Nat} {v6 v7 : Nat} : Keeps (execTimeSourceSet v1 v2 v3 v4 v5 v6 v7) :=
  canon_hostCmd (fun _ k2 => canon_just (fun _ k5 => canon_reEnable (canon_Dev_onTmb k5)) k2)
theorem keeps_ptpConfig {v1 : Hdr} {v2 v3 : Nat} {v4 v5 : Nat} : Keeps (execPtpConfig v1 v2 v3 v4 v5) :=
  canon_hostCmd (fun _ k2 => canon_just (fun _ k5 => canon_ite (canon_Dev_onTmb (canon_servoTo (canon_Dev_onTmb k5))) (canon_Dev_onTmb
  k5)) k2)
theorem keeps_ptpStatus {v1 : Hdr} {v2 : Nat} : Keeps (execPtpStatus v1 v2) := canon_query
theorem keeps_timeSwitch {v1 : Hdr} {v2 : Nat} : Keeps (execTimeSwitch v1 v2) := by
  unfold execTimeSwitch
  apply canon_hostCmd
  intro k1 k2
  split
  · exact k2
  · split
    · exact canon_raiseEv k2
    · exact canon_switchTo k2
theorem keeps_timeSlewSet {v1 : Hdr} {v2 v3 : Nat} : Keeps (execTimeSlewSet v1 v2 v3) :=
  canon_hostCmd (fun _ k2 => canon_just (fun _ k5 => canon_steerNow (canon_Dev_onTmb k5)) k2)
theorem keeps_timeStep {v1 : Hdr} {v2 v3 : Nat} {v4 : Time12} {v5 : Nat} : Keeps (execTimeStep v1 v2 v3 v4 v5) :=
  canon_hostCmd (fun _ k2 => canon_Dev_onTmb (canon_follow (canon_clockStep (canon_Dev_onTmb k2))))
theorem keeps_laneTimeConfig {v1 : Hdr} {v2 v3 : Nat} {v4 : Int} : Keeps (execLaneTimeConfig v1 v2 v3 v4) :=
  canon_hostCmd (fun _ k2 => canon_just (fun _ k5 => canon_reEnable (canon_ite (canon_Dev_onTmb k5) (canon_servoTo (canon_Dev_onTmb
  k5)))) k2)
theorem keeps_laneTimeStatus {v1 : Hdr} : Keeps (execLaneTimeStatus v1) := canon_query
theorem keeps_ppsConfig {v1 : Hdr} {v2 v3 : Nat} {v4 v5 : Nat} : Keeps (execPpsConfig v1 v2 v3 v4 v5) :=
  canon_hostCmd (fun _ k2 => canon_just (fun _ k5 => canon_reEnable (canon_Dev_onTmb k5)) k2)
theorem keeps_refConfig {v1 : Hdr} {v2 : Nat} : Keeps (execRefConfig v1 v2) :=
  canon_hostCmd (fun _ k2 => canon_steerNow (canon_Dev_onTmb k2))
theorem keeps_axisSet {v1 : Hdr} {v2 : Time12} {v3 : Nat} : Keeps (execAxisSet v1 v2 v3) :=
  canon_hostCmd (fun _ k2 => canon_just (fun _ k5 => canon_Dev_onTmb (canon_mk k5)) k2)
theorem keeps_axisGet {v1 : Hdr} : Keeps (execAxisGet v1) := canon_query
theorem keeps_ptpAnnounce {v1 v2 : Nat} {v3 : Announce} : Keeps (execPtpAnnounce v1 v2 v3) :=
  canon_onDev (fun _ k2 => canon_ite k2 (canon_ite (canon_servoTo (canon_Dev_onTmb k2)) (canon_ite (canon_servoTo (canon_Dev_onTmb k2))
  (canon_Dev_onTmb k2))))
theorem keeps_ptpSync {v1 : Nat} {v2 v3 : Int} {v4 : PtpCorr} : Keeps (execPtpSync v1 v2 v3 v4) :=
  canon_onDev (fun _ k2 => canon_ite k2 (canon_measured (canon_Dev_onTmb k2)))
theorem keeps_delayReq {v1 : Nat} : Keeps (execDelayReq v1) := canon_onDev (fun _ k2 => canon_ite k2 (canon_delayReq (canon_Dev_onTmb k2)))
theorem keeps_announceTimeout {v1 : Nat} : Keeps (execAnnounceTimeout v1) :=
  canon_onDev (fun _ k2 => canon_ite k2 (canon_sourceLost (canon_Dev_onTmb k2)))
theorem keeps_syncLoss {v1 : Nat} : Keeps (execSyncLoss v1) := canon_onDev (fun _ k2 => canon_ite k2 (canon_ite (canon_sourceLost k2) k2))
theorem keeps_servoQualify {v1 : Nat} : Keeps (execServoQualify v1) := by
  unfold execServoQualify
  apply canon_onDev
  intro k1 k2
  apply canon_ite
  · dsimp only
    apply canon_ite
    · exact canon_foldl (fun _ _ k9 => canon_ite (canon_servoTo k9) k9) k2
    · split
      · exact canon_firstQualify (canon_foldl (fun _ _ k11 => canon_ite (canon_servoTo k11) k11) k2)
      · exact canon_foldl (fun _ _ k10 => canon_ite (canon_servoTo k10) k10) k2
  · exact k2
theorem keeps_holdoverExpiry {v1 : Nat} : Keeps (execHoldoverExpiry v1) := canon_onDev (fun _ k2 => canon_ite (canon_servoTo k2) k2)
theorem keeps_timeBlockSend {v1 : Nat} : Keeps (execTimeBlockSend v1) :=
  canon_onDev (fun _ k2 => canon_ite (canon_Dev_send (canon_Dev_onTmb k2)) k2)
theorem keeps_timeBlock {v1 v2 v3 v4 v5 : Nat} : Keeps (execTimeBlock v1 v2 v3 v4 v5) :=
  canon_onDev (fun _ k2 => canon_ite (canon_partnerTraced (canon_Dev_send (canon_Dev_onTmb k2))) k2)
theorem keeps_timeReply {v1 : Nat} {v2 : Bool} {v3 : Nat} {v4 : Bool} {v5 v6 v7 : Nat} : Keeps (execTimeReply v1 v2 v3 v4 v5 v6 v7) := by
  unfold execTimeReply
  apply canon_onDev
  intro k1 k2
  apply canon_ite
  · dsimp only
    split
    · exact canon_measured (canon_Dev_onTmb (canon_partnerTraced k2))
    · exact canon_partnerTraced k2
  · exact k2
theorem keeps_timeBlockTimeout  : Keeps (execTimeBlockTimeout) := canon_onDev (fun _ k2 => canon_ite (canon_sourceLost k2) k2)
theorem keeps_laneResidualFault  : Keeps (execLaneResidualFault) := by
  unfold execLaneResidualFault
  apply canon_onDev
  intro k1 k2
  split
  · exact canon_ite (canon_servoTo (canon_raiseEv k2)) k2
  · exact k2
theorem keeps_ppsInEdge {v1 : Int} : Keeps (execPpsInEdge v1) :=
  canon_onDev (fun _ k2 => canon_ite (canon_Dev_onTmb k2) (canon_ite (canon_servoTo (canon_measured (canon_Dev_onTmb k2))) (canon_ite
  (canon_servoTo (canon_measured (canon_Dev_onTmb k2))) (canon_measured (canon_Dev_onTmb k2)))))
theorem keeps_ppsInTimeout  : Keeps (execPpsInTimeout) := by
  unfold execPpsInTimeout
  apply canon_onDev
  intro k1 k2
  split
  · exact canon_ite (canon_sourceLost k2) k2
  · exact canon_sourceLost k2
theorem keeps_ppsOutRise  : Keeps (execPpsOutRise) := canon_onDev (fun _ k2 => canon_ite (canon_Dev_onTmb k2) k2)
theorem keeps_ppsOutFall  : Keeps (execPpsOutFall) := canon_onDev (fun _ k2 => canon_ite (canon_Dev_onTmb k2) k2)
theorem keeps_refInLoss  : Keeps (execRefInLoss) := canon_onDev (fun _ k2 => canon_steerNow (canon_Dev_onTmb k2))
theorem keeps_refInReturn {v1 : Int} : Keeps (execRefInReturn v1) := canon_onDev (fun _ k2 => canon_steerNow (canon_Dev_onTmb k2))
theorem keeps_esmcQuality {v1 : Nat} {v2 : SyncEQl} : Keeps (execEsmcQuality v1 v2) :=
  canon_onDev (fun _ k2 => canon_steerNow (canon_Dev_onTmb k2))
theorem keeps_revertiveSwitch {v1 : Nat} : Keeps (execRevertiveSwitch v1) := canon_onDev (fun _ k2 => canon_ite (canon_switchTo k2) k2)
theorem keeps_slewDone  : Keeps (execSlewDone) := canon_onDev (fun _ k2 => canon_ite (canon_steerNow (canon_Dev_onTmb k2)) k2)
theorem keeps_laneTakeDown {v1 : Nat} : Keeps (execLaneTakeDown v1) := by
  unfold execLaneTakeDown
  apply canon_onDev
  intro k1 k2
  split
  · exact k2
  · exact canon_ite (canon_takeDown k2) k2
theorem keeps_laneConfig {v1 : Hdr} {v2 v3 : Nat} {v4 v5 : Nat} {v6 v7 v8 : Nat} : Keeps (execLaneConfig v1 v2 v3 v4 v5 v6 v7 v8) :=
  canon_hostCmd (fun _ k2 => canon_just (fun _ k5 => canon_ite (canon_ite (canon_foldl (fun _ _ k12 => canon_startLane k12) (canon_foldl
  (fun _ _ k13 => canon_Dev_onLane k13) k5)) (canon_foldl (fun _ _ k12 => canon_ite k12 (canon_markDown k12)) (canon_foldl (fun _ _ k13
  => canon_Dev_onLane k13) k5))) (canon_foldl (fun _ _ k11 => canon_ite (canon_startLane k11) (canon_markDown k11)) (canon_foldl (fun _
  _ k12 => canon_Dev_onLane k12) k5))) k2)
theorem keeps_laneStatus {v1 : Hdr} {v2 : Nat} : Keeps (execLaneStatus v1 v2) := canon_query
theorem keeps_laneEqGet {v1 : Hdr} {v2 : Nat} : Keeps (execLaneEqGet v1 v2) := canon_query
theorem keeps_laneEqSet {v1 : Hdr} {v2 v3 : Nat} : Keeps (execLaneEqSet v1 v2 v3) :=
  canon_hostCmd (fun _ k2 => canon_just (fun _ k5 => canon_Dev_onLane k5) k2)
theorem keeps_lanePrbs {v1 : Hdr} {v2 v3 : Nat} {v4 v5 v6 : Nat} : Keeps (execLanePrbs v1 v2 v3 v4 v5 v6) :=
  canon_hostCmd (fun _ k2 => canon_just (fun _ k5 => canon_ite (canon_ite (canon_leaveTest (canon_Dev_onLane (canon_prbsCatch k5)))
  (canon_Dev_onLane (canon_prbsCatch k5))) (canon_enterTest (canon_Dev_onLane (canon_prbsCatch k5)))) k2)
theorem keeps_lanePrbsRead {v1 : Hdr} {v2 v3 : Nat} : Keeps (execLanePrbsRead v1 v2 v3) :=
  canon_hostCmd (fun _ k2 => canon_ite (canon_Dev_onLane (canon_prbsCatch k2)) (canon_prbsCatch k2))
theorem keeps_laneLoopback {v1 : Hdr} {v2 v3 v4 : Nat} : Keeps (execLaneLoopback v1 v2 v3 v4) :=
  canon_hostCmd (fun _ k2 => canon_just (fun _ k5 => canon_ite (canon_ite (canon_Dev_onLane (canon_Dev_onLane k5)) (canon_leaveTest
  (canon_Dev_onLane k5))) (canon_enterTest (canon_Dev_onLane k5))) k2)
theorem keeps_laneReset {v1 : Hdr} {v2 : Nat} : Keeps (execLaneReset v1 v2) :=
  canon_hostCmd (fun _ k2 => canon_just (fun _ k5 => canon_Dev_onLane (canon_markDown k5)) k2)
theorem keeps_quadPower {v1 : Hdr} {v2 v3 v4 : Nat} : Keeps (execQuadPower v1 v2 v3 v4) :=
  canon_hostCmd (fun _ k3 => canon_just (fun _ k6 => canon_ite (canon_ite k6 (canon_foldl (fun _ _ k12 => canon_startLane k12) (canon_mk
  k6))) (canon_ite (canon_mk k6) (canon_foldl (fun _ _ k12 => canon_ite k12 (canon_markDown k12)) k6))) k3)
theorem keeps_laneCounters {v1 : Hdr} {v2 v3 : Nat} : Keeps (execLaneCounters v1 v2 v3) :=
  canon_hostCmd (fun _ k2 => canon_ite (canon_Dev_onLane k2) k2)
theorem keeps_identSend {v1 : Nat} : Keeps (execIdentSend v1) := canon_onDev (fun _ k2 => canon_ite (canon_sendIdent k2) k2)
theorem keeps_fillSend {v1 : Nat} : Keeps (execFillSend v1) := canon_onDev (fun _ k2 => canon_ite (canon_sendFill k2) k2)
theorem keeps_ident {v1 v2 v3 v4 v5 v6 : Nat} : Keeps (execIdent v1 v2 v3 v4 v5 v6) :=
  canon_onDev (fun _ k2 => canon_ite k2 (canon_ite (canon_Dev_onLane k2) (canon_ite (canon_identify (canon_Dev_onLane (canon_Dev_onLane
  k2))) (canon_Dev_onLane k2))))
theorem keeps_fill {v1 : Nat} : Keeps (execFill v1) := by
  unfold execFill
  apply canon_onDev
  intro k1 k2
  apply canon_ite
  · split
    exact canon_Dev_onLane (canon_Dev_fresh k2 (by assumption))
  · exact k2
theorem keeps_fillInsertion {v1 : Nat} : Keeps (execFillInsertion v1) := by
  unfold execFillInsertion
  apply canon_onDev
  intro k1 k2
  apply canon_ite
  · split
    exact canon_Dev_onLane (canon_Dev_fresh k2 (by assumption))
  · exact k2
theorem keeps_elasticSlip {v1 : Nat} : Keeps (execElasticSlip v1) :=
  canon_onDev (fun _ k2 => canon_ite (canon_raiseEv (canon_Dev_onLane k2)) k2)
theorem keeps_laserStable {v1 : LaserReading} : Keeps (execLaserStable v1) := canon_onDev (fun _ k2 => canon_Dev_onLane k2)
theorem keeps_lossOfSignalClear {v1 : Nat} {v2 : Int} : Keeps (execLossOfSignalClear v1 v2) := canon_onDev (fun _ k2 => canon_Dev_onLane k2)
theorem keeps_lossOfSignal {v1 : Nat} {v2 : Int} : Keeps (execLossOfSignal v1 v2) :=
  canon_onDev (fun _ k2 => canon_ite (canon_Dev_onLane k2) (canon_Dev_onLane (canon_ite (canon_leaveUp k2) (canon_raiseEv
  (canon_Dev_onLane k2)))))
theorem keeps_clockRecoveryLock {v1 : Nat} : Keeps (execClockRecoveryLock v1) := canon_onDev (fun _ k2 => canon_Dev_onLane k2)
theorem keeps_equaliserAdapted {v1 : Nat} {v2 : EqState} : Keeps (execEqualiserAdapted v1 v2) :=
  canon_onDev (fun _ k2 => canon_Dev_onLane k2)
theorem keeps_blockLock {v1 : LockAt} : Keeps (execBlockLock v1) :=
  canon_onDev (fun _ k2 => canon_ite (canon_ite (canon_Dev_onLane (canon_Dev_onLane k2)) (canon_qsPorts (canon_raiseEv (canon_Dev_onLane
  (canon_Dev_onLane k2))))) (canon_ite (canon_Dev_onLane k2) k2))
theorem keeps_noAlignment {v1 : Nat} : Keeps (execNoAlignment v1) :=
  canon_onDev (fun _ k2 => canon_ite (canon_raiseEv (canon_Dev_onLane k2)) k2)
theorem keeps_lockLost {v1 : Nat} {v2 : LockWindow} : Keeps (execLockLost v1 v2) :=
  canon_onDev (fun _ k2 => canon_ite k2 (canon_ite (canon_leaveUp (canon_Dev_onLane k2)) (canon_ite (canon_Dev_onLane (canon_Dev_onLane
  k2)) (canon_Dev_onLane k2))))
theorem keeps_prbsLock {v1 : PrbsRun} : Keeps (execPrbsLock v1) := canon_onDev (fun _ k2 => canon_Dev_onLane k2)
theorem keeps_prbsLockLoss {v1 v2 : Nat} {v3 v4 : Nat} : Keeps (execPrbsLockLoss v1 v2 v3 v4) :=
  canon_onDev (fun _ k2 => canon_ite (canon_Dev_onLane (canon_prbsAdd k2)) k2)
theorem keeps_compensationStep {v1 : Nat} : Keeps (execCompensationStep v1) := by
  unfold execCompensationStep
  apply canon_onDev
  intro k1 k2
  apply canon_ite
  · exact canon_applyComp k2
  · split
    · exact canon_ite (canon_applyComp k2) k2
    · exact k2
theorem keeps_txPathSet {v1 : Hdr} {v2 : Nat} {v3 : Int} {v4 v5 : Nat} {v6 v7 : Nat} : Keeps (execTxPathSet v1 v2 v3 v4 v5 v6 v7) :=
  canon_hostCmd (fun _ k2 => canon_just (fun _ k5 => canon_foldl (fun _ _ k9 => canon_ite (canon_Dev_onTx k9) (canon_dpdPowerStep
  (canon_Dev_onTx k9))) k5) k2)
theorem keeps_txPathGet {v1 : Hdr} {v2 : Nat} : Keeps (execTxPathGet v1 v2) := canon_query
theorem keeps_txSubbandSet {v1 : Hdr} {v2 v3 : Nat} {v4 : TxCfg} : Keeps (execTxSubbandSet v1 v2 v3 v4) :=
  canon_hostCmd (fun _ k2 => canon_just (fun _ k5 => canon_foldl (fun _ _ k9 => canon_ite (canon_Dev_onTx (canon_Dev_onTxSb k9))
  (canon_Dev_onTxSb k9)) k5) k2)
theorem keeps_txSubbandGet {v1 : Hdr} {v2 v3 v4 : Nat} : Keeps (execTxSubbandGet v1 v2 v3 v4) := canon_query
theorem keeps_txSubbandDisable {v1 : Hdr} {v2 v3 : Nat} : Keeps (execTxSubbandDisable v1 v2 v3) := by
  unfold execTxSubbandDisable
  apply canon_hostCmd
  intro k1 k2
  apply canon_just
  · intro k4 k5
    refine canon_foldl ?_ ?_
    · intro k7 k8 k9
      split
      exact canon_ite (canon_txStop k9) k9
    · exact k5
  · exact k2
theorem keeps_txFlushDone {v1 v2 : Nat} : Keeps (execTxFlushDone v1 v2) :=
  canon_onDev (fun _ k2 => canon_ite (canon_raiseEv (canon_Dev_onTxSb k2)) k2)
theorem keeps_txCoefLoad {v1 : Hdr} {v2 v3 v4 : Nat} : Keeps (execTxCoefLoad v1 v2 v3 v4) := by
  unfold execTxCoefLoad
  apply canon_hostCmd
  intro k1 k2
  apply canon_just
  · intro k4 k5
    split
    · exact k5
    · exact canon_consume (canon_foldl (fun _ _ k11 => canon_Dev_onTxSb k11) k5)
  · exact k2
theorem keeps_txStreamSet {v1 : Hdr} {v2 v3 : Nat} {v4 v5 : Nat} : Keeps (execTxStreamSet v1 v2 v3 v4 v5) :=
  canon_hostCmd (fun _ k2 => canon_mk k2)
theorem keeps_hostStreamPacket {v0 : Nat} {v1 : PktIn} {v2 : StreamPkt} : Keeps (execHostStreamPacket v0 v1 v2) :=
  canon_onDev (fun _ k2 => canon_hostStream k2)
theorem keeps_txStreamStop {v1 : Hdr} {v2 : Nat} : Keeps (execTxStreamStop v1 v2) := canon_hostCmd (fun _ k2 => canon_mk k2)
theorem keeps_txCutSet {v1 : Hdr} {v2 v3 : Nat} {v4 v5 : Nat} : Keeps (execTxCutSet v1 v2 v3 v4 v5) :=
  canon_hostCmd (fun _ k2 => canon_just (fun _ k5 => canon_Dev_onTxSb k5) k2)
theorem keeps_cutThroughFrame {v1 : Nat} {v2 : DirectFrame} : Keeps (execCutThroughFrame v1 v2) :=
  canon_onDev (fun _ k2 => canon_ite k2 (canon_foldl (fun _ _ k8 => canon_ite (canon_ite (canon_Dev_onTx (canon_Dev_onTxSb k8))
  (canon_raiseEv (canon_Dev_onTx (canon_Dev_onTxSb k8)))) k8) k2))
theorem keeps_txMute {v1 : Hdr} {v2 v3 v4 : Nat} : Keeps (execTxMute v1 v2 v3 v4) := by
  unfold execTxMute
  apply canon_hostCmd
  intro k1 k2
  apply canon_just
  · intro k4 k5
    refine canon_foldl ?_ ?_
    · intro k7 k8 k9
      apply canon_ite
      · split
        · exact canon_Dev_onTx k9
        · exact canon_Dev_onTx (canon_countMuted k9)
      · exact canon_Dev_onTx k9
    · exact k5
  · exact k2
theorem keeps_txProtectClear {v1 : Hdr} {v2 : Nat} : Keeps (execTxProtectClear v1 v2) :=
  canon_hostCmd (fun _ k2 => canon_just (fun _ k5 => canon_foldl (fun _ _ k9 => canon_ite k9 (canon_ite (canon_Dev_onFe k9)
  (canon_protectRelease k9))) k5) k2)
theorem keeps_txCompLoad {v1 : Hdr} {v2 : Nat} : Keeps (execTxCompLoad v1 v2) :=
  canon_hostCmd (fun _ k2 => canon_just (fun _ k5 => canon_consume (canon_foldl (fun _ _ k11 => canon_journal (canon_Dev_onTx k11)) k5))
  k2)
theorem keeps_txCounters {v1 : Hdr} {v2 v3 : Nat} : Keeps (execTxCounters v1 v2 v3) :=
  canon_hostCmd (fun _ k2 => canon_ite (canon_Dev_onTx k2) k2)
theorem keeps_inhibitLoopOpen {v1 : Nat} : Keeps (execInhibitLoopOpen v1) :=
  canon_onDev (fun _ k2 => canon_ite (canon_mk k2) (canon_raiseEv (canon_foldl (fun _ _ k9 => canon_biasSafe (canon_Dev_onTx
  (canon_countMuted k9))) (canon_mk k2))))
theorem keeps_inhibitLoopClosed {v1 : Nat} : Keeps (execInhibitLoopClosed v1) :=
  canon_onDev (fun _ k2 => canon_ite (canon_mk k2) (canon_raiseEv (canon_mk k2)))
theorem keeps_portFault {v1 : Nat} : Keeps (execPortFault v1) := canon_onDev (fun _ k2 => canon_ite (canon_raiseEv (canon_txProtect k2)) k2)
theorem keeps_txOpen  : Keeps (execTxOpen) :=
  canon_onDev (fun _ k2 => canon_stakeAct (fun _ _ k6 => canon_noteStake (canon_openWindows k6)) (fun _ _ k6 => canon_noteStake
  (canon_openWindows k6)) k2)
theorem keeps_txClose  : Keeps (execTxClose) :=
  canon_onDev (fun _ k2 => canon_stakeAct (fun _ _ k6 => canon_noteStake (canon_closeWindows k6)) (fun _ _ k6 => canon_noteStake
  (canon_closeWindows k6)) k2)
theorem keeps_txSwap  : Keeps (execTxSwap) :=
  canon_onDev (fun _ k2 => canon_stakeAct (fun _ _ k6 => canon_lateDrop k6) (fun _ _ k6 => canon_noteStake (canon_txSwaps k6)) k2)
theorem keeps_txNcoReset  : Keeps (execTxNcoReset) := by
  unfold execTxNcoReset
  apply canon_onDev
  intro k1 k2
  apply canon_stakeAct
  · exact fun _ _ k6 => canon_lateDrop k6
  · intro k4 k5 k6
    apply canon_noteStake
    refine canon_foldl ?_ ?_
    · intro k9 k10 k11
      split
      exact canon_Dev_onTxSb k11
    · exact k6
  · exact k2
theorem keeps_txTone  : Keeps (execTxTone) :=
  canon_onDev (fun _ k2 => canon_stakeAct (fun _ _ k6 => canon_lateDrop k6) (fun _ _ k6 => canon_ite k6 (canon_noteStake (canon_foldl
  (fun _ _ k13 => canon_gateOffAt (canon_ite k13 (canon_gateOnAt k13))) (canon_foldl (fun _ _ k14 => canon_Dev_onTxSb k14) k6)))) k2)
theorem keeps_freSet {v1 : Hdr} {v2 v3 : Nat} {v4 : FreCfg} : Keeps (execFreSet v1 v2 v3 v4) :=
  canon_hostCmd (fun _ k3 => canon_Dev_onFre k3)
theorem keeps_freGet {v1 : Hdr} {v2 v3 v4 : Nat} : Keeps (execFreGet v1 v2 v3 v4) := canon_query
theorem keeps_freDisable {v1 : Hdr} {v2 v3 : Nat} : Keeps (execFreDisable v1 v2 v3) := by
  unfold execFreDisable
  apply canon_hostCmd
  intro k1 k2
  dsimp only
  split
  · exact canon_foldl (fun _ _ k9 => canon_freStop k9) k2
  · exact canon_foldl (fun _ _ k9 => canon_freStop k9) k2
theorem keeps_freFlushDone {v1 v2 v3 : Nat} : Keeps (execFreFlushDone v1 v2 v3) :=
  canon_onDev (fun _ k2 => canon_ite (canon_qsExitCheck (canon_complete (canon_onWaits (canon_raiseEv (canon_Dev_onFre k2))))) k2)
theorem keeps_freEqLoad {v1 : Hdr} {v2 : Nat} : Keeps (execFreEqLoad v1 v2) :=
  canon_hostCmd (fun _ k2 => canon_just (fun _ k5 => canon_consume (canon_Dev_onFre k5)) k2)
theorem keeps_freWindowLoad {v1 : Hdr} {v2 v3 v4 : Nat} : Keeps (execFreWindowLoad v1 v2 v3 v4) := by
  unfold execFreWindowLoad
  dsimp only
  apply canon_hostCmd
  intro k2 k3
  apply canon_just
  · intro k5 k6
    split
    · exact canon_consume (canon_Dev_onFre k6)
    · exact k6
  · exact k3
theorem keeps_freCounters {v1 : Hdr} {v2 v3 : Nat} {v4 v5 : Nat} : Keeps (execFreCounters v1 v2 v3 v4 v5) :=
  canon_hostCmd (fun _ k3 => canon_ite (canon_Dev_onFre k3) k3)
theorem keeps_freStreamSet {v1 : Hdr} {v2 v3 : Nat} {v4 v5 : Nat} {v6 v7 : Nat} : Keeps (execFreStreamSet v1 v2 v3 v4 v5 v6 v7) :=
  canon_hostCmd (fun _ k2 => canon_just (fun _ k5 => canon_manyStreams k5) k2)
theorem keeps_freStreamStop {v1 : Hdr} {v2 : Nat} : Keeps (execFreStreamStop v1 v2) := canon_hostCmd (fun _ k2 => canon_stopBase k2)
theorem keeps_topiaryAlloc {v1 : Hdr} {v2 : List Nat} : Keeps (execTopiaryAlloc v1 v2) := canon_hostCmd (fun _ k2 => canon_allotPages k2)
theorem keeps_topiaryLoad {v1 : Hdr} {v2 : Nat} : Keeps (execTopiaryLoad v1 v2) := by
  have hw : ∀ (f : FreSlot) bank b (m : Memory), m.wf = true → (writeTop f bank b m).wf = true := fun _ _ _ _ h =>
    wf_foldl (fun _ _ hm => wf_store _ _ _ hm) h
  apply canon_hostCmd
  intro d hd
  dsimp only
  split
  · exact hd
  · refine canon_consume (canon_Dev_onFre ?_)
    refine canon_mk (hw _ _ _ _ ?_)
    split
    · exact hd
    · exact hw _ _ _ _ hd
theorem keeps_topiaryGet {v1 : Hdr} {v2 v3 : Nat} : Keeps (execTopiaryGet v1 v2 v3) := canon_query
theorem keeps_beamSet {v1 : Hdr} {v2 v3 : Nat} {v4 v5 : Nat} {v6 v7 : Nat} : Keeps (execBeamSet v1 v2 v3 v4 v5 v6 v7) :=
  canon_hostCmd (fun _ k3 => canon_Dev_onFre (canon_ite (canon_closeSlot k3) k3))
theorem keeps_beamStreamSet {v1 : Hdr} {v2 v3 : Nat} {v4 v5 : Nat} {v6 v7 v8 : Nat} : Keeps (execBeamStreamSet v1 v2 v3 v4 v5 v6 v7 v8) :=
  canon_hostCmd (fun _ k2 => canon_just (fun _ k5 => canon_manyStreams k5) k2)
theorem keeps_beamStreamStop {v1 : Hdr} {v2 : Nat} : Keeps (execBeamStreamStop v1 v2) := canon_hostCmd (fun _ k2 => canon_stopBase k2)
theorem keeps_layerStreamStop {v1 : Hdr} {v2 : Nat} : Keeps (execLayerStreamStop v1 v2) := canon_hostCmd (fun _ k2 => canon_mk k2)
theorem keeps_topSwap  : Keeps (execTopSwap) :=
  canon_onDev (fun _ k2 => canon_stakeAct (fun _ _ k6 => canon_lateDrop k6) (fun _ _ k6 => canon_noteSlot (canon_topSwap k6)) k2)
theorem keeps_freSwap  : Keeps (execFreSwap) :=
  canon_onDev (fun _ k2 => canon_stakeAct (fun _ _ k6 => canon_lateDrop k6) (fun _ _ k6 => canon_noteSlot (canon_freSwap k6)) k2)
theorem keeps_chainSet {v1 : Hdr} {v2 : ChainCfg} : Keeps (execChainSet v1 v2) := canon_hostCmd (fun _ k2 => canon_Dev_onChain k2)
theorem keeps_chainGet {v1 : Hdr} {v2 v3 : Nat} : Keeps (execChainGet v1 v2 v3) := canon_query
theorem keeps_chainLeave {v1 : Hdr} {v2 : Nat} : Keeps (execChainLeave v1 v2) := canon_hostCmd (fun _ k2 => canon_chainLeave k2)
theorem keeps_chainDeliverSet {v1 : Hdr} {v2 v3 : Nat} {v4 v5 : Nat} {v6 v7 : Nat} : Keeps (execChainDeliverSet v1 v2 v3 v4 v5 v6 v7) :=
  canon_hostCmd (fun _ k2 => canon_just (fun _ k5 => canon_Dev_onChain (canon_manyStreams (canon_mk k5))) k2)
theorem keeps_chainDeliverStop {v1 : Hdr} {v2 : Nat} : Keeps (execChainDeliverStop v1 v2) :=
  canon_hostCmd (fun _ k2 => canon_Dev_onChain (canon_streamStop k2))
theorem keeps_chainStatus {v1 : Hdr} {v2 : Nat} : Keeps (execChainStatus v1 v2) := canon_query
theorem keeps_chainCounters {v1 : Hdr} {v2 v3 : Nat} : Keeps (execChainCounters v1 v2 v3) :=
  canon_hostCmd (fun _ k2 => canon_ite (canon_Dev_onChain k2) k2)
theorem keeps_chainSwap  : Keeps (execChainSwap) :=
  canon_onDev (fun _ k2 => canon_stakeAct (fun _ _ k6 => canon_lateDrop k6) (fun _ _ k6 => canon_chainSwap k6) k2)
theorem keeps_chainSumFrame {v1 : Nat} {v2 : DirectFrame} : Keeps (execChainSumFrame v1 v2) := by
  unfold execChainSumFrame
  apply canon_onDev
  intro k1 k2
  split
  · exact k2
  · dsimp only
    split
    · exact canon_sumArrive k2
    · exact canon_sumArrive k2
    · exact k2
theorem keeps_chainFrameStart {v1 v2 v3 : Nat} : Keeps (execChainFrameStart v1 v2 v3) := by
  unfold execChainFrameStart
  apply canon_onDev
  intro k1 k2
  dsimp only
  split
  · exact k2
  · exact canon_ite (canon_frameOut (canon_Dev_onChain k2)) k2
theorem keeps_chainStall {v1 v2 v3 : Nat} : Keeps (execChainStall v1 v2 v3) := by
  unfold execChainStall
  apply canon_onDev
  intro k1 k2
  dsimp only
  split
  · exact k2
  · exact canon_ite (canon_raiseLimited (canon_reframe (canon_Dev_onChain k2))) k2
theorem keeps_chainReport {v1 : Nat} : Keeps (execChainReport v1) := by
  unfold execChainReport
  apply canon_onDev
  intro k1 k2
  dsimp only
  split
  · exact k2
  · exact canon_ite (canon_ite (canon_Dev_onChain k2) (canon_sendReport (canon_Dev_onChain k2))) k2
theorem keeps_chainBroadcastFrame {v1 : Nat} {v2 : DirectFrame} : Keeps (execChainBroadcastFrame v1 v2) := by
  unfold execChainBroadcastFrame
  apply canon_onDev
  intro k1 k2
  split
  · exact k2
  · exact canon_ite (canon_layerFeed (canon_passDown k2)) k2
theorem keeps_layerStreamSet {v1 : Hdr} {v2 v3 : Nat} {v4 v5 : Nat} : Keeps (execLayerStreamSet v1 v2 v3 v4 v5) :=
  canon_hostCmd (fun _ k2 => canon_mk k2)
theorem keeps_layerStreamPacket {v0 : Nat} {v1 : PktIn} {v2 : StreamPkt} : Keeps (execLayerStreamPacket v0 v1 v2) :=
  canon_onDev (fun _ k2 => canon_foldl (fun _ _ k7 => canon_rootBroadcast k7) (canon_hostStream k2))
theorem keeps_dpdSet {v1 : Hdr} {v2 : Nat} {v3 : DpdCfg} : Keeps (execDpdSet v1 v2 v3) :=
  canon_hostCmd (fun _ k2 => canon_foldl (fun _ _ k7 => canon_dpdJudge (canon_ite (canon_Dev_onDpdPath (canon_Dev_onDpdPath k7))
  (canon_Dev_onDpdPath k7))) k2)
theorem keeps_dpdGet {v1 : Hdr} {v2 : Nat} : Keeps (execDpdGet v1 v2) := canon_query
theorem keeps_dpdCoefLoad {v1 : Hdr} {v2 v3 : Nat} : Keeps (execDpdCoefLoad v1 v2 v3) := by
  unfold execDpdCoefLoad
  apply canon_hostCmd
  intro k1 k2
  apply canon_just
  · intro k4 k5
    dsimp only
    split
    · exact k5
    · exact canon_consume (canon_foldl (fun _ _ k12 => canon_Dev_onDpdPath k12) k5)
  · exact k2
theorem keeps_dpdCoefRead {v1 : Hdr} {v2 v3 : Nat} : Keeps (execDpdCoefRead v1 v2 v3) := canon_hostCmd (fun _ k2 => canon_addOut_aux k2)
theorem keeps_dpdRequest {v1 : Hdr} {v2 v3 : Nat} : Keeps (execDpdRequest v1 v2 v3) :=
  canon_hostCmd (fun _ k2 => canon_foldl (fun _ _ k7 => canon_dpdRequest k7) k2)
theorem keeps_dpdMetricGet {v1 : Hdr} {v2 : Nat} : Keeps (execDpdMetricGet v1 v2) := canon_query
theorem keeps_dpdObsStatus {v1 : Hdr} : Keeps (execDpdObsStatus v1) := canon_query
theorem keeps_dpdCounters {v1 : Hdr} {v2 v3 : Nat} : Keeps (execDpdCounters v1 v2 v3) :=
  canon_hostCmd (fun _ k2 => canon_ite (canon_Dev_onDpdPath k2) k2)
theorem keeps_dpdReset {v1 : Hdr} {v2 : Nat} : Keeps (execDpdReset v1 v2) :=
  canon_hostCmd (fun _ k2 => canon_just (fun _ k5 => canon_foldl (fun _ _ k9 => canon_ite (canon_dpdRequest (canon_Dev_onDpdPath
  (canon_ite k9 (canon_dpdBackoffTo k9)))) (canon_Dev_onDpdPath (canon_ite k9 (canon_dpdBackoffTo k9)))) k5) k2)
theorem keeps_dpdSave {v1 : Hdr} {v2 : Nat} : Keeps (execDpdSave v1 v2) :=
  canon_hostCmd (fun _ k2 => canon_just (fun _ k5 => canon_foldl (fun _ _ k9 => canon_dpdSave k9) k5) k2)
theorem keeps_dpdAutosave {v1 : Nat} : Keeps (execDpdAutosave v1) := canon_onDev (fun _ k2 => canon_ite k2 (canon_dpdSave k2))
theorem keeps_dpdSlotStart  : Keeps (execDpdSlotStart) :=
  canon_onDev (fun _ k2 => canon_ite k2 (canon_ite (canon_dpdSlotEnd (canon_Dev_onDpd k2)) (canon_dpdBackoffs (canon_dpdAssign
  (canon_dpdReleases (canon_dpdSlotEnd (canon_Dev_onDpd k2)))))))
theorem keeps_captureComplete {v1 : Nat} {v2 v3 v4 : Int} {v5 : Bool} : Keeps (execCaptureComplete v1 v2 v3 v4 v5) := by
  unfold execCaptureComplete
  apply canon_onDev
  intro k1 k2
  split
  · exact k2
  · dsimp only
    split
    · exact k2
    · exact canon_ite k2 (canon_ite (canon_dpdJudge (canon_dpdCount (canon_Dev_onDpdPath k2))) (canon_ite (canon_dpdRequest
        (canon_raiseEv (canon_dpdCount (canon_Dev_onDpdPath (canon_Dev_onDpdPath k2))))) (canon_Dev_onDpdPath k2)))
theorem keeps_noCapture {v1 : Nat} : Keeps (execNoCapture v1) := by
  unfold execNoCapture
  apply canon_onDev
  intro k1 k2
  split
  · exact k2
  · split
    · exact k2
    · exact canon_ite k2 (canon_dpdCount (canon_Dev_onDpdPath k2))
theorem keeps_solveComplete {v1 : Nat} {v2 : Bool} {v3 : Int} {v4 : Coefs} : Keeps (execSolveComplete v1 v2 v3 v4) := by
  unfold execSolveComplete
  apply canon_onDev
  intro k1 k2
  split
  · exact k2
  · dsimp only
    split
    · exact k2
    · exact canon_ite k2 (canon_ite (canon_dpdJudge (canon_dpdCount (canon_Dev_onDpdPath k2))) (canon_ite (canon_dpdJudge
        (canon_raiseEv (canon_dpdCount (canon_Dev_onDpdPath (canon_Dev_onDpdPath k2))))) (canon_dpdJudge (canon_ite
        (canon_dpdRequest (canon_Dev_onDpdPath (canon_raiseEv (canon_Dev_onDpdPath (canon_Dev_onDpdPath k2))))) (canon_raiseEv
        (canon_Dev_onDpdPath (canon_Dev_onDpdPath k2)))))))
theorem keeps_captureAgeExpiry {v1 : Nat} : Keeps (execCaptureAgeExpiry v1) := canon_onDev (fun _ k2 => canon_ite (canon_dpdRequest k2) k2)
theorem keeps_dpdThorn {v1 : Nat} : Keeps (execDpdThorn v1) :=
  canon_onDev (fun _ k2 => canon_ite k2 (canon_ite (canon_dpdRequest (canon_raiseEv (canon_Dev_onDpdPath k2))) (canon_raiseEv
  (canon_Dev_onDpdPath k2))))
theorem keeps_dpdSwap  : Keeps (execDpdSwap) :=
  canon_onDev (fun _ k2 => canon_stakeAct (fun _ _ k6 => k6) (fun _ _ k6 => canon_foldl (fun _ _ k10 => canon_dpdSwapOne k10) k6) k2)
theorem keeps_observerFault {v1 : Nat} {v2 : Bool} : Keeps (execObserverFault v1 v2) :=
  canon_onDev (fun _ k2 => canon_ite k2 (canon_ite (canon_raiseEv (canon_Dev_onDpd k2)) (canon_Dev_onDpd k2)))
theorem keeps_calConfig {v1 : Hdr} {v2 v3 : Nat} {v4 v5 v6 : Nat} : Keeps (execCalConfig v1 v2 v3 v4 v5 v6) :=
  canon_hostCmd (fun _ k2 => canon_just (fun _ k5 => canon_Dev_onCal k5) k2)
theorem keeps_calRun {v1 : Hdr} {v2 v3 : Nat} : Keeps (execCalRun v1 v2 v3) := canon_hostCmd (fun _ k2 => canon_calTrigger k2)
theorem keeps_calStatus {v1 : Hdr} : Keeps (execCalStatus v1) := canon_query
theorem keeps_calAbort {v1 : Hdr} : Keeps (execCalAbort v1) := by
  unfold execCalAbort
  apply canon_hostCmd
  intro k1 k2
  split
  · exact k2
  · split
    · exact canon_onRun k2
    · exact canon_calDiscard (canon_Dev_onCal k2)
theorem keeps_calTrimGet {v1 : Hdr} {v2 v3 : Nat} : Keeps (execCalTrimGet v1 v2 v3) := canon_query
theorem keeps_calCounters {v1 : Hdr} {v2 : Nat} : Keeps (execCalCounters v1 v2) :=
  canon_hostCmd (fun _ k2 => canon_ite (canon_Dev_onCal k2) k2)
theorem keeps_calTableRead {v1 : Hdr} {v2 v3 : Nat} : Keeps (execCalTableRead v1 v2 v3) := by
  unfold execCalTableRead
  apply canon_hostCmd
  intro k1 k2
  split
  exact canon_addOut k2 (by assumption)
theorem keeps_calTableLoad {v1 : Hdr} {v2 : Nat} : Keeps (execCalTableLoad v1 v2) :=
  canon_hostCmd (fun _ k2 => canon_just (fun _ k5 => canon_consume (canon_ite (canon_Dev_onCal (canon_storeTable k5)) (canon_Dev_onCal
  (canon_storeTable k5)))) k2)
theorem keeps_calSave {v1 : Hdr} : Keeps (execCalSave v1) :=
  canon_hostCmd (fun _ k2 => canon_just (fun _ k5 => canon_foldl (fun _ _ k9 => canon_storeTable k9) k5) k2)
theorem keeps_calStep  : Keeps (execCalStep) := by
  unfold execCalStep
  apply canon_onDev
  intro k1 k2
  split
  · exact canon_planStep k2
  · exact canon_ite k2 (canon_ite (canon_calAbandon k2) (canon_beginStep k2))
  · exact canon_ite k2 (canon_endStep k2)
theorem keeps_calHold  : Keeps (execCalHold) :=
  canon_onDev (fun _ k2 => canon_stakeAct (fun _ _ k6 => k6) (fun _ _ k6 => canon_Dev_onCal k6) k2)
theorem keeps_calSolveComplete {v1 : CalResults} : Keeps (execCalSolveComplete v1) := by
  have hs : ∀ d (r : CalResults) b, Canon d → Canon (execCalSolveComplete.settle d r b) := by
    intro d r b h1
    unfold execCalSolveComplete.settle
    extract_lets fails jumped d1 kind d2 d3
    have k2 : Canon d2 := by
      dsimp only [d2]; split
      · exact h1
      · exact canon_calCount (canon_calStick (canon_raiseEv h1))
    clear_value d2
    have k3 : Canon d3 := by
      dsimp only [d3]; split
      · exact canon_calCount (canon_calStick (canon_raiseEv k2))
      · exact k2
    clear_value d3
    exact canon_onRun k3
  apply canon_onDev
  intro d hd
  dsimp only
  split
  · exact hd
  · split
    · exact hd
    · split
      · split
        · exact hs _ _ _ hd
        · exact canon_onRun hd
      · exact hs _ _ _ hd
theorem keeps_calTrimWrite  : Keeps (execCalTrimWrite) := by
  unfold execCalTrimWrite
  apply canon_onDev
  intro k1 k2
  apply canon_ite
  · exact k2
  · dsimp only
    split
    · exact canon_useLoaded k2
    · split
      · exact canon_useLoaded k2
      · exact canon_runDone (canon_useResults (canon_useLoaded k2))
theorem keeps_calRunTimeout  : Keeps (execCalRunTimeout) := by
  unfold execCalRunTimeout
  apply canon_onDev
  intro k1 k2
  split
  · exact k2
  · apply canon_ite
    · exact k2
    · dsimp only
      apply canon_Dev_onCal
      apply canon_restoreAll
      split
      · exact canon_foldl (fun _ _ k12 => canon_feFromCal k12) k2
      · exact k2
theorem keeps_calStarved  : Keeps (execCalStarved) := by
  unfold execCalStarved
  apply canon_onDev
  intro k1 k2
  split
  · exact k2
  · exact canon_ite k2 (canon_calCount (canon_calStick (canon_raiseEv (canon_onRun k2))))
theorem keeps_calInterval  : Keeps (execCalInterval) := canon_onDev (fun _ k2 => canon_ite (canon_calTrigger k2) k2)
theorem keeps_otaSet {v1 : Hdr} {v2 : Partners} : Keeps (execOtaSet v1 v2) :=
  canon_hostCmd (fun _ k2 => canon_just (fun _ k5 => canon_Dev_onCal k5) k2)
theorem keeps_otaGet {v1 : Hdr} {v2 : Nat} : Keeps (execOtaGet v1 v2) := canon_query
theorem keeps_synStatus {v1 : Hdr} : Keeps (execSynStatus v1) := canon_query
theorem keeps_profileDefine {v1 : Hdr} {v2 v3 : Nat} : Keeps (execProfileDefine v1 v2 v3) :=
  canon_hostCmd (fun _ k2 => canon_just (fun _ k5 => canon_Dev_onSyn k5) k2)
theorem keeps_profileSet {v1 : Hdr} {v2 : Nat} : Keeps (execProfileSet v1 v2) := by
  unfold execProfileSet
  apply canon_hostCmd
  intro k1 k2
  dsimp only
  exact canon_calNotice (canon_discontinue (canon_replaceAll (canon_Dev_onSyn k2)))
theorem keeps_synPrelock {v1 : Hdr} {v2 : Nat} : Keeps (execSynPrelock v1 v2) := by
  unfold execSynPrelock
  apply canon_hostCmd
  intro k1 k2
  split
  · exact canon_Dev_onSyn k2
  · exact canon_Dev_onSyn k2
theorem keeps_synCal {v1 : Hdr} {v2 : Nat} : Keeps (execSynCal v1 v2) := by
  unfold execSynCal
  apply canon_hostCmd
  intro k1 k2
  split
  · exact k2
  · exact canon_Dev_onSyn k2
theorem keeps_feStateGet {v1 : Hdr} {v2 : Nat} : Keeps (execFeStateGet v1 v2) := canon_query
theorem keeps_synLock {v1 : Nat} : Keeps (execSynLock v1) :=
  canon_onDev (fun _ k2 => canon_ite k2 (canon_ite (canon_ite k2 (canon_raiseEv (canon_Dev_onSyn (canon_ite k2 (canon_makeRecord k2)))))
  (canon_ite (canon_complete (canon_Dev_onSyn k2)) (canon_ite (canon_sbCalibrated k2) k2))))
theorem keeps_settlingEnd  : Keeps (execSettlingEnd) := canon_onDev (fun _ k2 => canon_ite k2 (canon_restoreAll (canon_Dev_onSyn k2)))
theorem keeps_lossOfLock {v1 : Nat} : Keeps (execLossOfLock v1) :=
  canon_onDev (fun _ k2 => canon_ite k2 (canon_ite (canon_replaceAll (canon_Dev_onSyn (canon_ite (canon_foldl (fun _ _ k12 =>
  canon_Dev_onTx (canon_countMuted k12)) (canon_raiseEv (canon_Dev_onSyn k2))) (canon_raiseEv (canon_foldl (fun _ _ k13 =>
  canon_Dev_onTx (canon_countMuted k13)) (canon_raiseEv (canon_Dev_onSyn k2))))))) (canon_Dev_onSyn (canon_raiseEv (canon_Dev_onSyn
  k2)))))
theorem keeps_synHop  : Keeps (execSynHop) :=
  canon_onDev (fun _ k2 => canon_stakeAct (fun _ _ k6 => canon_raiseEv (canon_Dev_onSyn k6)) (fun _ _ k6 => canon_calNotice
  (canon_raiseEv (canon_discontinue (canon_hopGlitch (canon_Dev_onSyn (canon_exchange k6)))))) k2)
theorem keeps_synRecalibration {v1 : Nat} : Keeps (execSynRecalibration v1) :=
  canon_onDev (fun _ k2 => canon_ite k2 (canon_ite (canon_Dev_onSyn (canon_ite (canon_raiseEv (canon_Dev_onSyn (canon_Dev_onSyn k2)))
  (canon_Dev_onSyn k2))) (canon_ite (canon_raiseEv (canon_Dev_onSyn (canon_Dev_onSyn k2))) (canon_Dev_onSyn k2))))
theorem keeps_synSwap  : Keeps (execSynSwap) :=
  canon_onDev (fun _ k2 => canon_ite (canon_raiseEv (canon_hopGlitch (canon_Dev_onSyn (canon_exchange k2)))) k2)
theorem keeps_bcnSet {v1 : Hdr} {v2 : BcnCfg} : Keeps (execBcnSet v1 v2) :=
  canon_hostCmd (fun _ k2 => canon_Dev_onBcn (canon_bcnAbandon k2))
theorem keeps_bcnGet {v1 : Hdr} : Keeps (execBcnGet v1) := canon_query
theorem keeps_bcnDataSet {v1 : Hdr} {v2 : List Nat} : Keeps (execBcnDataSet v1 v2) :=
  canon_hostCmd (fun _ k2 => canon_just (fun _ k5 => canon_Dev_onBcn k5) k2)
theorem keeps_bcnStatus {v1 : Hdr} : Keeps (execBcnStatus v1) := canon_query
theorem keeps_bcnCounters {v1 : Hdr} {v2 : Nat} : Keeps (execBcnCounters v1 v2) :=
  canon_hostCmd (fun _ k2 => canon_ite (canon_Dev_onBcn k2) k2)
theorem keeps_bcnTx  : Keeps (execBcnTx) :=
  canon_onDev (fun _ k2 => canon_ite (canon_bcnCount (canon_stakeAct (fun _ _ k9 => canon_bcnCount k9) (fun _ _ k9 => canon_bcnAct k9)
  k2)) (canon_stakeAct (fun _ _ k8 => canon_bcnCount k8) (fun _ _ k8 => canon_bcnAct k8) k2))
theorem keeps_beaconEnd  : Keeps (execBeaconEnd) := by
  unfold execBeaconEnd
  apply canon_onDev
  intro k1 k2
  split
  · exact k2
  · exact canon_ite (canon_feFromTx (canon_Dev_onBcn k2)) k2
theorem keeps_bcnListenOpen  : Keeps (execBcnListenOpen) :=
  canon_onDev (fun _ k2 => canon_stakeAct (fun _ _ k6 => k6) (fun _ _ k6 => canon_Dev_onBcn k6) k2)
theorem keeps_bcnListenClose  : Keeps (execBcnListenClose) :=
  canon_onDev (fun _ k3 => canon_stakeAct (fun _ _ k7 => canon_Dev_onBcn (canon_ite k7 (canon_bcnAbandon k7))) (fun _ _ k7 =>
  canon_Dev_onBcn (canon_ite k7 (canon_bcnAbandon k7))) k3)
theorem keeps_preambleDetect {v1 : Int} {v2 : Nat} : Keeps (execPreambleDetect v1 v2) := by
  unfold execPreambleDetect
  apply canon_onDev
  intro k1 k2
  apply canon_ite
  · exact k2
  · dsimp only
    split
    · exact canon_Dev_onBcn (canon_bcnCount k2)
    · exact canon_ite (canon_Dev_onBcn (canon_raiseEv (canon_bcnCount (canon_Dev_onBcn (canon_bcnReport (canon_bcnCount k2))))))
        (canon_Dev_onBcn (canon_ite (canon_bcnCount (canon_bcnCount k2)) (canon_bcnCount k2)))
theorem keeps_syncWordTimeout  : Keeps (execSyncWordTimeout) := by
  unfold execSyncWordTimeout
  apply canon_onDev
  intro k1 k2
  split
  · exact k2
  · exact canon_ite (canon_bcnFalse k2) k2
theorem keeps_beaconHeader {v1 : BcnHdr} : Keeps (execBeaconHeader v1) := by
  unfold execBeaconHeader
  apply canon_onDev
  intro k1 k2
  split
  · exact k2
  · exact canon_ite k2 (canon_ite (canon_Dev_onBcn k2) (canon_bcnFalse (canon_bcnCollide (canon_bcnCount k2))))
theorem keeps_beaconPacketEnd {v1 : BcnEnd} : Keeps (execBeaconPacketEnd v1) := by
  unfold execBeaconPacketEnd
  apply canon_onDev
  intro k1 k2
  split
  · exact k2
  · split
    · exact k2
    · exact canon_ite (canon_bcnPromote (canon_ite (canon_bcnReport (canon_bcnCount k2)) (canon_takeOurs (canon_bcnReport
        (canon_bcnCount k2))))) (canon_ite k2 (canon_ite (canon_Dev_onBcn (canon_ite (canon_ite (canon_bcnCollide (canon_bcnCount
        k2)) k2) (canon_takeTheirs (canon_ite (canon_bcnCollide (canon_bcnCount k2)) k2)))) (canon_bcnPromote (canon_bcnReport
        (canon_ite (canon_ite (canon_bcnCollide (canon_bcnCount k2)) k2) (canon_takeTheirs (canon_ite (canon_bcnCollide
        (canon_bcnCount k2)) k2)))))))
theorem keeps_noiseFloorReport {v1 v2 : Int} : Keeps (execNoiseFloorReport v1 v2) :=
  canon_onDev (fun _ k2 => canon_ite k2 (canon_ite (canon_sendReport (canon_Dev_onBcn k2)) (canon_Dev_onBcn k2)))
theorem keeps_weaveMembers {v1 : Hdr} {v2 : Nat} {v3 : Members} : Keeps (execWeaveMembers v1 v2 v3) :=
  canon_hostCmd (fun _ k2 => canon_just (fun _ k5 => canon_Dev_onWeave k5) k2)
theorem keeps_weaveSet {v1 : Hdr} {v2 : WeaveHdr} {v3 : LaneMaps} : Keeps (execWeaveSet v1 v2 v3) :=
  canon_hostCmd (fun _ k2 => canon_Dev_onWeave k2)
theorem keeps_weaveGet {v1 : Hdr} {v2 : Nat} : Keeps (execWeaveGet v1 v2) := canon_query
theorem keeps_weaveMembersGet {v1 : Hdr} {v2 v3 v4 : Nat} : Keeps (execWeaveMembersGet v1 v2 v3 v4) := canon_query
theorem keeps_weaveStatus {v1 : Hdr} {v2 v3 : Nat} : Keeps (execWeaveStatus v1 v2 v3) := canon_query
theorem keeps_weaveCounters {v1 : Hdr} {v2 : Nat} : Keeps (execWeaveCounters v1 v2) :=
  canon_hostCmd (fun _ k2 => canon_ite (canon_Dev_onWeave k2) k2)
theorem keeps_weaveLeave {v1 : Hdr} : Keeps (execWeaveLeave v1) := canon_hostCmd (fun _ k2 => canon_weaveLeave k2)
theorem keeps_weaveSwap  : Keeps (execWeaveSwap) :=
  canon_onDev (fun _ k2 => canon_stakeAct (fun _ _ k6 => canon_lateDrop k6) (fun _ _ k6 => canon_weaveSwap k6) k2)
theorem keeps_covCut  : Keeps (execCovCut) :=
  canon_onDev (fun _ k2 => canon_stakeAct (fun _ _ k6 => canon_lateDrop k6) (fun _ _ k6 => canon_Dev_onWeave k6) k2)
theorem keeps_weaveFrameSend {v1 : WeaveSend} : Keeps (execWeaveFrameSend v1) :=
  canon_onDev (fun _ k2 => canon_ite (canon_routeFrame (canon_Dev_onWeave k2)) k2)
theorem keeps_weaveFrame {v1 : Nat} {v2 : DirectFrame} : Keeps (execWeaveFrame v1 v2) := by
  unfold execWeaveFrame
  apply canon_onDev
  intro k1 k2
  split
  · exact k2
  · exact canon_ite k2 (canon_ite (canon_ownerFrame k2) (canon_routeFrame k2))
theorem keeps_weaveDeadline {v1 : Nat} : Keeps (execWeaveDeadline v1) :=
  canon_onDev (fun _ k2 => canon_ite (canon_Dev_portMoves (canon_Dev_onWeave (canon_feedGroup (canon_foldl (fun _ _ k11 =>
  canon_countMissing k11) k2)))) k2)
theorem keeps_memStatus {v1 : Hdr} : Keeps (execMemStatus v1) := canon_query
theorem keeps_memRegionSet {v1 : Hdr} {v2 v3 : Nat} : Keeps (execMemRegionSet v1 v2 v3) := by
  have key : ∀ (m n : Memory), m.wf = true → n.cells = (m.forget (0x1000000000 + v2 * 0x40000000) (0x1000000000 + v2 * 0x40000000 + 0x40000000)).cells →
      (∀ k, k ≠ v2 → n.undef.lookup k = m.undef.lookup k) → n.wf = true := by
    intro m n h hc hu
    refine wf_undef hc (wf_forget _ _ h) fun c hm => ?_
    have hm := (List.mem_filter.1 hm).2
    simp only [Bool.not_eq_true', Bool.or_eq_false_iff, Bool.and_eq_false_iff, decide_eq_false_iff_not] at hm
    have hm := hm.1.1
    by_cases hr : regionOf c.1 = v2
    · refine .inr ?_
      have := hr.symm
      unfold regionOf at this
      omega
    · exact .inl (hu _ hr).symm
  have hf : ∀ (l : List (Nat × Nat)) k, k ≠ v2 → (l.filter fun e => e.1 != v2).lookup k = l.lookup k := by
    intro l k hk
    induction l with
    | nil => rfl
    | cons x l ih =>
      by_cases e : x.1 = v2
      · rw [List.filter_cons_of_neg (by simp [e]), ih, List.lookup_cons, beq_false_of_ne (by omega)]
      · rw [List.filter_cons_of_pos (by simp [e]), List.lookup_cons, List.lookup_cons, ih]
  apply canon_hostCmd
  intro d hd
  dsimp only
  split
  · exact hd
  · split
    · refine key d.mem _ hd rfl fun k hk => ?_
      show List.lookup k ((v2, d.free) :: d.mem.undef.filter fun e => e.1 != v2) = _
      rw [List.lookup_cons, beq_false_of_ne hk]
      exact hf _ _ hk
    · exact key d.mem _ hd rfl fun k hk => hf _ _ hk
theorem keeps_memRegionGet {v1 : Hdr} : Keeps (execMemRegionGet v1) := canon_query
theorem keeps_memScrubSet {v1 : Hdr} {v2 v3 : Nat} : Keeps (execMemScrubSet v1 v2 v3) :=
  canon_hostCmd (fun _ k2 => canon_just (fun _ k5 => canon_Dev_onMem k5 (fun k7 => wf_onStore k7)) k2)
theorem keeps_memScrubRange {v1 : Hdr} {v2 v3 : Nat} : Keeps (execMemScrubRange v1 v2 v3) := by
  unfold execMemScrubRange
  apply canon_hostCmd
  intro k1 k2
  split
  · exact k2
  · exact canon_Dev_onMem k2 (fun k6 => wf_onStore k6)
theorem keeps_memInject {v1 : Hdr} {v2 v3 v4 : Nat} : Keeps (execMemInject v1 v2 v3 v4) := by
  have hf : ∀ (m : Memory) a b, m.wf = true → (m.flip a b).wf = true := fun m a b h => wf_putBytes _ _ _ (wf_putBytes _ _ _ h)
  apply canon_hostCmd
  intro d hd
  refine canon_Dev_onMem (v1 := d) hd fun h => ?_
  split
  · exact hf _ _ _ h
  · exact wf_putBytes _ _ _ h
  · exact hf _ _ _ (hf _ _ _ h)
  · exact wf_putBytes _ _ _ h
theorem keeps_memPortSet {v1 : Hdr} {v2 v3 : Nat} {v4 v5 : Nat} : Keeps (execMemPortSet v1 v2 v3 v4 v5) :=
  canon_hostCmd (fun _ k2 => canon_just (fun _ k5 => canon_Dev_onMem k5 (fun _ => (by assumption))) k2)
theorem keeps_memPortStatus {v1 : Hdr} {v2 : Nat} : Keeps (execMemPortStatus v1 v2) := canon_hostCmd (fun _ k2 => k2)
theorem keeps_memSelfrefresh {v1 : Hdr} {v2 v3 : Nat} : Keeps (execMemSelfrefresh v1 v2 v3) :=
  canon_hostCmd (fun _ k2 => canon_just (fun _ k5 => canon_Dev_onMem k5 (fun _ => (by assumption))) k2)
theorem keeps_memRowdisturbSet {v1 : Hdr} {v2 v3 v4 : Nat} : Keeps (execMemRowdisturbSet v1 v2 v3 v4) :=
  canon_hostCmd (fun _ k2 => canon_just (fun _ k5 => canon_Dev_onMem k5 (fun _ => (by assumption))) k2)
theorem keeps_memCounters {v1 : Hdr} {v2 v3 : Nat} : Keeps (execMemCounters v1 v2 v3) :=
  canon_hostCmd (fun _ k2 => canon_ite (canon_Dev_onMem k2 (fun k6 => wf_onStore k6)) k2)
theorem keeps_memSelftestGet {v1 : Hdr} : Keeps (execMemSelftestGet v1) := canon_query
theorem keeps_scrub {v1 v2 : Nat} : Keeps (execScrub v1 v2) :=
  canon_onDev (fun _ k2 => canon_ite k2 (canon_Dev_onMem (canon_scrubWord k2) (fun k6 => wf_onStore k6)))
theorem keeps_scrubRangeDone {v1 : Nat} : Keeps (execScrubRangeDone v1) := by
  unfold execScrubRangeDone
  apply canon_onDev
  intro k1 k2
  split
  · exact k2
  · exact canon_complete (canon_raiseEv (canon_Dev_onMem (canon_foldl (fun _ _ k11 => canon_scrubWord k11) k2) (fun k8 => wf_onStore k8)))
theorem keeps_refresh {v1 v2 : Nat} {v3 : Bool} : Keeps (execRefresh v1 v2 v3) :=
  canon_onDev (fun _ k2 => canon_ite k2 (canon_ite (canon_ite (canon_Dev_onMem k2 (fun _ => (by assumption))) k2) (canon_ite k2
  (canon_Dev_onMem k2 (fun _ => (by assumption))))))
theorem keeps_rowDisturb {v1 v2 : Nat} {v3 : RowHit} {v4 : Nat} : Keeps (execRowDisturb v1 v2 v3 v4) :=
  canon_onDev (fun _ k2 => canon_ite k2 (canon_raiseEv (canon_Dev_onMem k2 (fun _ => (by assumption)))))
theorem keeps_coolDownEnd {v1 v2 v3 : Nat} : Keeps (execCoolDownEnd v1 v2 v3) :=
  canon_onDev (fun _ k2 => canon_Dev_onMem k2 (fun _ => (by assumption)))
theorem keeps_streamPortPanic {v1 v2 : Nat} : Keeps (execStreamPortPanic v1 v2) :=
  canon_onDev (fun _ k2 => canon_ite k2 (canon_ite (canon_weaveOverflow (canon_ite (canon_raiseLimited (canon_Dev_onMem k2 (fun _ => (by
  assumption)))) (canon_Dev_onMem k2 (fun _ => (by assumption))))) (canon_ite (canon_raiseLimited (canon_Dev_onMem k2 (fun _ => (by
  assumption)))) (canon_Dev_onMem k2 (fun _ => (by assumption))))))
theorem keeps_memFreq  : Keeps (execMemFreq) :=
  canon_onDev (fun _ k2 => canon_stakeAct (fun _ _ k6 => canon_raiseEv k6) (fun _ _ k6 => canon_raiseEv (canon_Dev_onMem k6 (fun _ =>
  (by assumption)))) k2)
theorem keeps_xceSet {v1 : Hdr} {v2 : XceCfg} : Keeps (execXceSet v1 v2) := canon_hostCmd (fun _ k2 => canon_Dev_onXce k2)
theorem keeps_xceGet {v1 : Hdr} {v2 : Nat} : Keeps (execXceGet v1 v2) := canon_query
theorem keeps_xceStop {v1 : Hdr} : Keeps (execXceStop v1) := by
  unfold execXceStop
  apply canon_hostCmd
  intro k1 k2
  dsimp only
  split
  · exact canon_raiseEv (canon_Dev_onXce (canon_Dev_onXce (canon_xceHalt k2)))
  · exact canon_Dev_onXce (canon_xceHalt k2)
theorem keeps_xceIntGet {v1 : Hdr} {v2 : Nat} : Keeps (execXceIntGet v1 v2) := canon_query
theorem keeps_xceInputsGet {v1 : Hdr} {v2 v3 : Nat} : Keeps (execXceInputsGet v1 v2 v3) := canon_query
theorem keeps_xceCounters {v1 : Hdr} {v2 : Nat} : Keeps (execXceCounters v1 v2) :=
  canon_hostCmd (fun _ k3 => canon_ite (canon_Dev_onXce k3) k3)
theorem keeps_intCut  : Keeps (execIntCut) :=
  canon_onDev (fun _ k2 => canon_stakeAct (fun _ _ k6 => canon_lateDrop k6) (fun _ _ k6 => canon_qsRequant (canon_Dev_onXce k6)) k2)
theorem keeps_xceSwap  : Keeps (execXceSwap) :=
  canon_onDev (fun _ k2 => canon_stakeAct (fun _ _ k6 => canon_lateDrop k6) (fun _ _ k6 => canon_xceSwap k6) k2)
theorem keeps_passStart  : Keeps (execPassStart) := by
  unfold execPassStart
  apply canon_onDev
  intro k1 k2
  apply canon_ite
  · exact k2
  · split
    · exact k2
    · exact canon_ite (canon_raiseLimited (canon_Dev_onXce (canon_Dev_onXce k2))) (canon_beginRound (canon_Dev_portMoves
        (canon_Dev_onXce (canon_Dev_onXce k2))))
theorem keeps_roundEnd  : Keeps (execRoundEnd) := by
  unfold execRoundEnd
  apply canon_onDev
  intro k1 k2
  split
  · exact k2
  · exact canon_ite k2 (canon_ite (canon_beginRound (canon_countStall (canon_Dev_onXce k2))) (canon_ite (canon_beginRound
      (canon_countStall (canon_Dev_onXce k2))) (canon_Dev_onXce (canon_countStall (canon_Dev_onXce k2)))))
theorem keeps_collectorDrain {v1 : TileDump} : Keeps (execCollectorDrain v1) := by
  unfold execCollectorDrain
  apply canon_onDev
  intro k1 k2
  dsimp only
  split
  · exact canon_flushOut k2
  · exact canon_ite (canon_flushOut k2) (canon_stopDone (canon_ite (canon_ite (canon_sendCounts (canon_ite (canon_ite
      (canon_Dev_portMoves (canon_Dev_portMoves (canon_Dev_onXce (canon_Dev_onXce (canon_ite (canon_ite (canon_freeBanks
      (canon_Dev_onXce (canon_flushOut k2))) (canon_raiseLimited (canon_Dev_onXce (canon_freeBanks (canon_Dev_onXce (canon_flushOut
      k2)))))) (canon_raiseLimited (canon_Dev_onXce (canon_ite (canon_freeBanks (canon_Dev_onXce (canon_flushOut k2)))
      (canon_raiseLimited (canon_Dev_onXce (canon_freeBanks (canon_Dev_onXce (canon_flushOut k2))))))))))))) (canon_Dev_onXce
      (canon_ite (canon_ite (canon_freeBanks (canon_Dev_onXce (canon_flushOut k2))) (canon_raiseLimited (canon_Dev_onXce
      (canon_freeBanks (canon_Dev_onXce (canon_flushOut k2)))))) (canon_raiseLimited (canon_Dev_onXce (canon_ite (canon_freeBanks
      (canon_Dev_onXce (canon_flushOut k2))) (canon_raiseLimited (canon_Dev_onXce (canon_freeBanks (canon_Dev_onXce (canon_flushOut
      k2))))))))))) (canon_ite (canon_sendReport (canon_Dev_onXce (canon_Dev_onXce (canon_ite (canon_ite (canon_freeBanks
      (canon_Dev_onXce (canon_flushOut k2))) (canon_raiseLimited (canon_Dev_onXce (canon_freeBanks (canon_Dev_onXce (canon_flushOut
      k2)))))) (canon_raiseLimited (canon_Dev_onXce (canon_ite (canon_freeBanks (canon_Dev_onXce (canon_flushOut k2)))
      (canon_raiseLimited (canon_Dev_onXce (canon_freeBanks (canon_Dev_onXce (canon_flushOut k2)))))))))))) (canon_Dev_onXce
      (canon_Dev_onXce (canon_Dev_onXce (canon_ite (canon_ite (canon_freeBanks (canon_Dev_onXce (canon_flushOut k2)))
      (canon_raiseLimited (canon_Dev_onXce (canon_freeBanks (canon_Dev_onXce (canon_flushOut k2)))))) (canon_raiseLimited
      (canon_Dev_onXce (canon_ite (canon_freeBanks (canon_Dev_onXce (canon_flushOut k2))) (canon_raiseLimited (canon_Dev_onXce
      (canon_freeBanks (canon_Dev_onXce (canon_flushOut k2))))))))))))))) (canon_ite (canon_ite (canon_Dev_portMoves
      (canon_Dev_portMoves (canon_Dev_onXce (canon_Dev_onXce (canon_ite (canon_ite (canon_freeBanks (canon_Dev_onXce (canon_flushOut
      k2))) (canon_raiseLimited (canon_Dev_onXce (canon_freeBanks (canon_Dev_onXce (canon_flushOut k2)))))) (canon_raiseLimited
      (canon_Dev_onXce (canon_ite (canon_freeBanks (canon_Dev_onXce (canon_flushOut k2))) (canon_raiseLimited (canon_Dev_onXce
      (canon_freeBanks (canon_Dev_onXce (canon_flushOut k2))))))))))))) (canon_Dev_onXce (canon_ite (canon_ite (canon_freeBanks
      (canon_Dev_onXce (canon_flushOut k2))) (canon_raiseLimited (canon_Dev_onXce (canon_freeBanks (canon_Dev_onXce (canon_flushOut
      k2)))))) (canon_raiseLimited (canon_Dev_onXce (canon_ite (canon_freeBanks (canon_Dev_onXce (canon_flushOut k2)))
      (canon_raiseLimited (canon_Dev_onXce (canon_freeBanks (canon_Dev_onXce (canon_flushOut k2))))))))))) (canon_ite
      (canon_sendReport (canon_Dev_onXce (canon_Dev_onXce (canon_ite (canon_ite (canon_freeBanks (canon_Dev_onXce (canon_flushOut
      k2))) (canon_raiseLimited (canon_Dev_onXce (canon_freeBanks (canon_Dev_onXce (canon_flushOut k2)))))) (canon_raiseLimited
      (canon_Dev_onXce (canon_ite (canon_freeBanks (canon_Dev_onXce (canon_flushOut k2))) (canon_raiseLimited (canon_Dev_onXce
      (canon_freeBanks (canon_Dev_onXce (canon_flushOut k2)))))))))))) (canon_Dev_onXce (canon_Dev_onXce (canon_Dev_onXce (canon_ite
      (canon_ite (canon_freeBanks (canon_Dev_onXce (canon_flushOut k2))) (canon_raiseLimited (canon_Dev_onXce (canon_freeBanks
      (canon_Dev_onXce (canon_flushOut k2)))))) (canon_raiseLimited (canon_Dev_onXce (canon_ite (canon_freeBanks (canon_Dev_onXce
      (canon_flushOut k2))) (canon_raiseLimited (canon_Dev_onXce (canon_freeBanks (canon_Dev_onXce (canon_flushOut k2)))))))))))))))
      (canon_Dev_onXce (canon_ite (canon_sendCounts (canon_ite (canon_ite (canon_Dev_portMoves (canon_Dev_portMoves (canon_Dev_onXce
      (canon_Dev_onXce (canon_ite (canon_ite (canon_freeBanks (canon_Dev_onXce (canon_flushOut k2))) (canon_raiseLimited
      (canon_Dev_onXce (canon_freeBanks (canon_Dev_onXce (canon_flushOut k2)))))) (canon_raiseLimited (canon_Dev_onXce (canon_ite
      (canon_freeBanks (canon_Dev_onXce (canon_flushOut k2))) (canon_raiseLimited (canon_Dev_onXce (canon_freeBanks (canon_Dev_onXce
      (canon_flushOut k2))))))))))))) (canon_Dev_onXce (canon_ite (canon_ite (canon_freeBanks (canon_Dev_onXce (canon_flushOut k2)))
      (canon_raiseLimited (canon_Dev_onXce (canon_freeBanks (canon_Dev_onXce (canon_flushOut k2)))))) (canon_raiseLimited
      (canon_Dev_onXce (canon_ite (canon_freeBanks (canon_Dev_onXce (canon_flushOut k2))) (canon_raiseLimited (canon_Dev_onXce
      (canon_freeBanks (canon_Dev_onXce (canon_flushOut k2))))))))))) (canon_ite (canon_sendReport (canon_Dev_onXce (canon_Dev_onXce
      (canon_ite (canon_ite (canon_freeBanks (canon_Dev_onXce (canon_flushOut k2))) (canon_raiseLimited (canon_Dev_onXce
      (canon_freeBanks (canon_Dev_onXce (canon_flushOut k2)))))) (canon_raiseLimited (canon_Dev_onXce (canon_ite (canon_freeBanks
      (canon_Dev_onXce (canon_flushOut k2))) (canon_raiseLimited (canon_Dev_onXce (canon_freeBanks (canon_Dev_onXce (canon_flushOut
      k2)))))))))))) (canon_Dev_onXce (canon_Dev_onXce (canon_Dev_onXce (canon_ite (canon_ite (canon_freeBanks (canon_Dev_onXce
      (canon_flushOut k2))) (canon_raiseLimited (canon_Dev_onXce (canon_freeBanks (canon_Dev_onXce (canon_flushOut k2))))))
      (canon_raiseLimited (canon_Dev_onXce (canon_ite (canon_freeBanks (canon_Dev_onXce (canon_flushOut k2))) (canon_raiseLimited
      (canon_Dev_onXce (canon_freeBanks (canon_Dev_onXce (canon_flushOut k2))))))))))))))) (canon_ite (canon_ite
      (canon_Dev_portMoves (canon_Dev_portMoves (canon_Dev_onXce (canon_Dev_onXce (canon_ite (canon_ite (canon_freeBanks
      (canon_Dev_onXce (canon_flushOut k2))) (canon_raiseLimited (canon_Dev_onXce (canon_freeBanks (canon_Dev_onXce (canon_flushOut
      k2)))))) (canon_raiseLimited (canon_Dev_onXce (canon_ite (canon_freeBanks (canon_Dev_onXce (canon_flushOut k2)))
      (canon_raiseLimited (canon_Dev_onXce (canon_freeBanks (canon_Dev_onXce (canon_flushOut k2))))))))))))) (canon_Dev_onXce
      (canon_ite (canon_ite (canon_freeBanks (canon_Dev_onXce (canon_flushOut k2))) (canon_raiseLimited (canon_Dev_onXce
      (canon_freeBanks (canon_Dev_onXce (canon_flushOut k2)))))) (canon_raiseLimited (canon_Dev_onXce (canon_ite (canon_freeBanks
      (canon_Dev_onXce (canon_flushOut k2))) (canon_raiseLimited (canon_Dev_onXce (canon_freeBanks (canon_Dev_onXce (canon_flushOut
      k2))))))))))) (canon_ite (canon_sendReport (canon_Dev_onXce (canon_Dev_onXce (canon_ite (canon_ite (canon_freeBanks
      (canon_Dev_onXce (canon_flushOut k2))) (canon_raiseLimited (canon_Dev_onXce (canon_freeBanks (canon_Dev_onXce (canon_flushOut
      k2)))))) (canon_raiseLimited (canon_Dev_onXce (canon_ite (canon_freeBanks (canon_Dev_onXce (canon_flushOut k2)))
      (canon_raiseLimited (canon_Dev_onXce (canon_freeBanks (canon_Dev_onXce (canon_flushOut k2)))))))))))) (canon_Dev_onXce
      (canon_Dev_onXce (canon_Dev_onXce (canon_ite (canon_ite (canon_freeBanks (canon_Dev_onXce (canon_flushOut k2)))
      (canon_raiseLimited (canon_Dev_onXce (canon_freeBanks (canon_Dev_onXce (canon_flushOut k2)))))) (canon_raiseLimited
      (canon_Dev_onXce (canon_ite (canon_freeBanks (canon_Dev_onXce (canon_flushOut k2))) (canon_raiseLimited (canon_Dev_onXce
      (canon_freeBanks (canon_Dev_onXce (canon_flushOut k2))))))))))))))))))
theorem keeps_integrationClose  : Keeps (execIntegrationClose) := by
  unfold execIntegrationClose
  apply canon_onDev
  intro k1 k2
  split
  · exact k2
  · dsimp only
    apply canon_raiseEv
    apply canon_Dev_onXce
    apply canon_ite
    · split
      · split
        · exact canon_addOut_aux (canon_mk (canon_Dev_onXce (canon_loseInt k2)))
        · exact canon_mk (canon_Dev_onXce (canon_loseInt k2))
      · split
        · exact canon_addOut_aux (canon_Dev_onXce (canon_loseInt k2))
        · exact canon_Dev_onXce (canon_loseInt k2)
    · apply canon_sendCounts
      split
      · split
        · exact canon_addOut_aux (canon_mk (canon_Dev_onXce (canon_loseInt k2)))
        · exact canon_mk (canon_Dev_onXce (canon_loseInt k2))
      · split
        · exact canon_addOut_aux (canon_Dev_onXce (canon_loseInt k2))
        · exact canon_Dev_onXce (canon_loseInt k2)
theorem keeps_integrationReadout  : Keeps (execIntegrationReadout) := by
  unfold execIntegrationReadout
  apply canon_onDev
  intro k1 k2
  split
  · exact k2
  · dsimp only
    apply canon_ite
    · exact k2
    · split
      · exact canon_Dev_onXce k2
      · exact canon_ite (canon_Dev_onXce (canon_ite (canon_sendCounts (canon_sendReport (canon_Dev_onXce k2)))
          (canon_sendReport (canon_Dev_onXce k2)))) (canon_sendReport (canon_Dev_onXce k2))
theorem keeps_streamPacketSend {v1 : StreamSend} : Keeps (execStreamPacketSend v1) := by
  unfold execStreamPacketSend
  apply canon_onDev
  intro k1 k2
  split
  · exact k2
  · split
    · exact canon_ite (canon_onOut k2) k2
    · split
      exact canon_ite k2 (canon_ite (canon_onOut (canon_dropGroups k2)) (canon_pruneSums (canon_onOut (canon_foldl (fun _ _ k14
        => canon_Dev_sendPkt k14) (canon_countFormat k2)))))
theorem keeps_governorStep {v1 : Nat} : Keeps (execGovernorStep v1) :=
  canon_onDev (fun _ k2 => canon_ite k2 (canon_setGains (canon_foldl (fun _ _ k9 => canon_ceilStep k9) (canon_Dev_onGov k2))))
theorem keeps_adaptationResume {v1 : Nat} : Keeps (execAdaptationResume v1) := by
  unfold execAdaptationResume
  apply canon_onDev
  intro k1 k2
  split
  · exact canon_ite (canon_Dev_onTx k2) k2
  · exact k2
theorem keeps_govMismatch {v1 : Nat} : Keeps (execGovMismatch v1) :=
  canon_onDev (fun _ k2 => canon_ite (canon_govJournal (canon_raiseEv (canon_txProtect k2))) k2)
theorem keeps_govLogRecord  : Keeps (execGovLogRecord) := canon_onDev (fun _ k2 => canon_ite k2 (canon_Dev_onGov k2))
theorem keeps_govClassSet {v1 : Hdr} {v2 v3 : Nat} {v4 v5 : Nat} {v6 v7 : Nat} {v8 v9 : Nat} : Keeps
    (execGovClassSet v1 v2 v3 v4 v5 v6 v7 v8 v9) :=
  canon_hostCmd (fun _ k3 => canon_govJournal (canon_raiseEv (canon_journal (canon_Dev_onGov k3))))
theorem keeps_govStatus {v1 : Hdr} : Keeps (execGovStatus v1) := canon_query
theorem keeps_govLogRead {v1 : Hdr} {v2 v3 : Nat} : Keeps (execGovLogRead v1 v2 v3) := canon_hostCmd (fun _ k2 => canon_addOut_aux k2)
theorem keeps_registerWrite {v1 v2 : Nat} : Keeps (execRegisterWrite v1 v2) := canon_onDev (fun _ k2 => canon_ite (canon_writeReg k2) k2)
theorem keeps_channelEnable {v1 : Nat} : Keeps (execChannelEnable v1) := canon_onDev (fun _ k2 => canon_chanEnable k2)
theorem keeps_channelDisable {v1 : Nat} : Keeps (execChannelDisable v1) := canon_onDev (fun _ k2 => canon_chanDisable k2)
theorem keeps_dmaChDoorbell {v1 : Nat} : Keeps (execDmaChDoorbell v1) := canon_onDev (fun _ k2 => canon_chanDoorbell k2)
theorem keeps_fabMode  : Keeps (execFabMode) := canon_onDev (fun _ k2 => canon_writeFabMode k2)
theorem keeps_stakeSubmit {v1 : Hdr} {v2 : List Stake} : Keeps (execStakeSubmit v1 v2) := canon_hostCmd (fun _ k2 => canon_commitStakes k2)
theorem keeps_stakeCancel {v1 : Hdr} {v2 v3 : Nat} : Keeps (execStakeCancel v1 v2 v3) := canon_hostCmd (fun _ k3 => canon_Dev_onTmb k3)
theorem keeps_stakeList {v1 : Hdr} {v2 v3 : Nat} : Keeps (execStakeList v1 v2 v3) := canon_query
theorem keeps_axisDelays {v1 : Hdr} {v2 v3 : Nat} : Keeps (execAxisDelays v1 v2 v3) := canon_query
theorem keeps_stakePrefetch  : Keeps (execStakePrefetch) := by
  unfold execStakePrefetch
  apply canon_onDev
  intro k1 k2
  split
  · exact k2
  · exact canon_gatesAhead (canon_Dev_onTmb k2)
theorem keeps_stakeDeferExpiry  : Keeps (execStakeDeferExpiry) := by
  unfold execStakeDeferExpiry
  apply canon_onDev
  intro k1 k2
  split
  · exact k2
  · exact canon_ite (canon_bcnCount (canon_raiseDropped (canon_Dev_onTmb k2))) (canon_raiseDropped (canon_Dev_onTmb k2))
theorem keeps_mark  : Keeps (execMark) :=
  canon_onDev (fun _ k2 => canon_stakeAct (fun _ _ k6 => canon_lateDrop k6) (fun _ _ k6 => canon_raiseEv k6) k2)
theorem keeps_bankSwap  : Keeps (execBankSwap) :=
  canon_onDev (fun _ k2 => canon_stakeAct (fun _ _ k6 => canon_lateDrop k6) (fun _ _ k6 => canon_bankSwap k6) k2)
theorem keeps_bankFree {v1 v2 : Nat} : Keeps (execBankFree v1 v2) := by
  unfold execBankFree
  apply canon_onDev
  intro k1 k2
  apply canon_ite
  · exact k2
  · dsimp only
    split
    · exact canon_freed k2 (fun _ k8 => canon_Dev_onRxSb k8)
    · exact canon_freed k2 (fun _ k8 => canon_Dev_onTxSb k8)
    · exact canon_freed k2 (fun _ k8 => canon_Dev_onFre k8)
    · exact canon_freed k2 (fun _ k8 => canon_Dev_onFre k8)
    · exact canon_freed k2 (fun _ k8 => canon_Dev_onDpdPath k8)
    · exact canon_freed k2 (fun _ k8 => canon_Dev_onChain k8)
    · exact canon_freed k2 (fun _ k8 => canon_Dev_onWeave k8)
    · exact canon_freed k2 (fun _ k8 => canon_Dev_onXce k8)
theorem keeps_launchQueue {v1 : Hdr} {v2 v3 : Nat} {v4 : List Nat} : Keeps (execLaunchQueue v1 v2 v3 v4) :=
  canon_hostCmd (fun _ k2 => canon_Dev_onTmb k2)
theorem keeps_launchCancel {v1 : Hdr} {v2 : Nat} : Keeps (execLaunchCancel v1 v2) := by
  unfold execLaunchCancel
  apply canon_hostCmd
  intro k1 k2
  split
  · exact canon_giveBuffer (canon_Dev_onTmb k2)
  · exact k2
theorem keeps_memFreqSet {v1 : Hdr} {v2 v3 : Nat} : Keeps (execMemFreqSet v1 v2 v3) :=
  canon_hostCmd (fun _ k3 => canon_just (fun _ k6 => canon_commitStakes k6) k3)
theorem keeps_quicksetExit {v1 : Hdr} {v2 : Nat} : Keeps (execQuicksetExit v1 v2) := by
  unfold execQuicksetExit
  apply canon_hostCmd
  intro k1 k2
  dsimp only
  split
  · exact canon_qsOff (canon_qsExit k2)
  · exact canon_mk (canon_qsExit k2)
theorem keeps_fabricRequest {v1 : FabReq} : Keeps (execFabricRequest v1) :=
  canon_onDev (fun _ k2 => canon_ite k2 (canon_ite (canon_fabWake (canon_mk k2)) (canon_fabIssue k2)))
theorem keeps_ageLimit {v1 : Nat} : Keeps (execAgeLimit v1) := canon_onDev (fun _ k2 => canon_mk k2)
theorem keeps_lockTimeout {v1 : Nat} : Keeps (execLockTimeout v1) := by
  unfold execLockTimeout
  apply canon_onDev
  intro k1 k2
  split
  · exact k2
  · exact canon_ite k2 (canon_fabWake (canon_Dev_onTarget (canon_lockLost k2)))
theorem keeps_targetTimeout {v1 v2 : Nat} : Keeps (execTargetTimeout v1 v2) := by
  unfold execTargetTimeout
  apply canon_onDev
  intro k1 k2
  apply canon_ite
  · exact k2
  · split
    · exact k2
    · exact canon_fabWake (canon_fabError (canon_raiseEv (canon_Dev_onTarget (canon_mk k2))))
theorem keeps_masterReset {v1 : Nat} {v2 : Bool} : Keeps (execMasterReset v1 v2) :=
  canon_onDev (fun _ k2 => canon_ite k2 (canon_fabWake (canon_ite (canon_Dev_onMaster (canon_discard k2)) (canon_discard k2))))
theorem keeps_matrixHang  : Keeps (execMatrixHang) := canon_onDev (fun _ k2 => canon_ite (canon_enterRecovery k2) k2)
theorem keeps_recoveryExit {v1 : Bool} : Keeps (execRecoveryExit v1) :=
  canon_onDev (fun _ k2 => canon_ite k2 (canon_fabWake (canon_complete (canon_raiseEv (canon_mk k2)))))
theorem keeps_regionInitDone {v1 : Nat} : Keeps (execRegionInitDone v1) :=
  canon_onDev (fun _ k2 => canon_qsRun (canon_fabWake (canon_regionDone k2)))
theorem keeps_selfRefreshExit  : Keeps (execSelfRefreshExit) :=
  canon_onDev (fun _ k2 => canon_ite (canon_fabWake (canon_Dev_onMem k2 (fun _ => (by assumption)))) k2)
theorem keeps_fabStatus {v1 : Hdr} : Keeps (execFabStatus v1) := canon_query
theorem keeps_fabHoldGet {v1 : Hdr} : Keeps (execFabHoldGet v1) := canon_query
theorem keeps_fabPrioSet {v1 : Hdr} {v2 v3 v4 : Nat} : Keeps (execFabPrioSet v1 v2 v3 v4) :=
  canon_hostCmd (fun _ k2 => canon_just (fun _ k5 => canon_mk (canon_Dev_onMaster k5)) k2)
theorem keeps_fabTimingSet {v1 : Hdr} {v2 v3 v4 : Nat} : Keeps (execFabTimingSet v1 v2 v3 v4) :=
  canon_hostCmd (fun _ k2 => canon_just (fun _ k5 => canon_mk (canon_Dev_onTarget k5)) k2)
theorem keeps_fabTargetReset {v1 : Hdr} {v2 : Nat} : Keeps (execFabTargetReset v1 v2) :=
  canon_hostCmd (fun _ k2 => canon_just (fun _ k5 => canon_Dev_onTarget k5) k2)
theorem keeps_fabRecover {v1 : Hdr} : Keeps (execFabRecover v1) := canon_hostCmd (fun _ k2 => canon_enterRecovery k2)
theorem keeps_fabCounters {v1 : Hdr} {v2 : Nat} : Keeps (execFabCounters v1 v2) := canon_hostCmd (fun _ k2 => canon_ite (canon_mk k2) k2)
theorem keeps_descriptorFetch {v1 : Nat} : Keeps (execDescriptorFetch v1) :=
  canon_onDev (fun _ k2 => canon_ite k2 (canon_ite (canon_rereadLink k2) (canon_fetchDesc k2)))
theorem keeps_dmaBurst {v1 : Nat} : Keeps (execDmaBurst v1) := by
  unfold execDmaBurst
  apply canon_onDev
  intro k1 k2
  dsimp only
  split
  · exact k2
  · apply canon_ite
    · exact k2
    · apply canon_ite
      · apply canon_chanStop
        apply canon_mk
        show Canon _
        exact k2
      · split
        · exact k2
        · apply canon_chanStop
          refine canon_busDo ?_ (by assumption)
          apply canon_mk
          show Canon _
          exact k2
        · apply canon_ite
          · apply canon_chanStop
            refine canon_busDo ?_ (by assumption)
            apply canon_mk
            show Canon _
            exact k2
          · split
            · exact k2
            · apply canon_chanStop
              refine canon_busDo ?_ (by assumption)
              refine canon_busDo ?_ (by assumption)
              apply canon_mk
              show Canon _
              exact k2
            · apply canon_ite
              · apply canon_chanIrq
                apply canon_Dev_onChan
                apply canon_chanPort
                apply canon_chanPort
                refine canon_busDo ?_ (by assumption)
                refine canon_busDo ?_ (by assumption)
                apply canon_mk
                show Canon _
                exact k2
              · apply canon_Dev_onChan
                apply canon_chanPort
                apply canon_chanPort
                refine canon_busDo ?_ (by assumption)
                refine canon_busDo ?_ (by assumption)
                apply canon_mk
                show Canon _
                exact k2
theorem keeps_descriptorComplete {v1 : Nat} : Keeps (execDescriptorComplete v1) := by
  apply canon_onDev
  intro d hd
  dsimp only
  split
  · exact hd
  · split
    · exact hd
    · split
      · exact hd
      · rename_i e
        have k := e
        rcases ite_eq_cases k with ⟨-, k⟩ | ⟨-, k⟩
        · cases k
        · rcases ite_eq_cases k with ⟨-, k⟩ | ⟨-, k⟩
          · cases k; exact canon_chanStop hd
          · obtain ⟨⟨a, b, c⟩, hb, k⟩ := Option.map_eq_some_iff.1 k
            cases k; exact canon_chanStop (canon_busDo hd hb)
      · rename_i d' e
        have hd' : Canon d' := by
          rcases ite_eq_cases e with ⟨-, k⟩ | ⟨-, k⟩
          · cases k; exact hd
          · rcases ite_eq_cases k with ⟨-, k⟩ | ⟨-, k⟩
            · cases k
            · obtain ⟨⟨a, b, c⟩, hb, k⟩ := Option.map_eq_some_iff.1 k
              cases k; exact canon_busDo hd hb
        exact canon_descNext (canon_ite (canon_chanIrq (canon_Dev_onChan (canon_writeBack hd'))) (canon_Dev_onChan (canon_writeBack hd')))
theorem keeps_dmaRun {v1 : Hdr} {v2 : Nat} {v3 : Descs} : Keeps (execDmaRun v1 v2 v3) := by
  unfold execDmaRun
  apply canon_hostCmd
  intro k1 k2
  split
  · split
    exact canon_Dev_fresh k2 (by assumption)
  · exact canon_chanEnable (canon_Dev_onChan (canon_writeSpan k2))
theorem keeps_dmaChStatus {v1 : Hdr} {v2 : Nat} : Keeps (execDmaChStatus v1 v2) := canon_query
theorem keeps_dmaChStop {v1 : Hdr} {v2 : Nat} : Keeps (execDmaChStop v1 v2) := canon_hostCmd (fun _ k2 => canon_chanDisable k2)
theorem keeps_dmaChAssign {v1 : Hdr} {v2 v3 : Nat} : Keeps (execDmaChAssign v1 v2 v3) :=
  canon_hostCmd (fun _ k2 => canon_just (fun _ k5 => canon_assignChan k5) k2)
theorem keeps_appletLoad {v1 : Hdr} {v2 v3 : Nat} {v4 : List Nat} {v5 : Bool} : Keeps (execAppletLoad v1 v2 v3 v4 v5) :=
  canon_hostCmd (fun _ k2 => canon_consume (canon_appletPut k2))
theorem keeps_appletStart {v1 : Hdr} {v2 : Nat} : Keeps (execAppletStart v1 v2) :=
  canon_coreCmd (fun _ k2 => canon_just (fun _ k5 => canon_coreStart k5) k2)
theorem keeps_appletStop {v1 : Hdr} {v2 : Nat} : Keeps (execAppletStop v1 v2) := canon_coreCmd (fun _ k2 => canon_appletStop k2)
theorem keeps_appletUnload {v1 : Hdr} {v2 : Nat} : Keeps (execAppletUnload v1 v2) :=
  canon_coreCmd (fun _ k2 => canon_just (fun _ k5 => canon_Dev_onCore (canon_Dev_onMem (canon_freeChans (canon_ite (canon_appletStop k5)
  k5)) (fun k9 => wf_forget _ _ k9))) k2)
theorem keeps_appletStatus {v1 : Hdr} {v2 : Nat} : Keeps (execAppletStatus v1 v2) := canon_query
theorem keeps_appletMsg {v1 : Hdr} {v2 : Nat} {v3 : List Nat} : Keeps (execAppletMsg v1 v2 v3) :=
  canon_coreCmd (fun _ k2 => canon_just (fun _ k5 => canon_coreIrq (canon_Dev_onCore k5)) k2)
theorem keeps_appletMemRead {v1 : Hdr} {v2 v3 v4 : Nat} : Keeps (execAppletMemRead v1 v2 v3 v4) :=
  canon_hostCmd fun _ hd => canon_memReadOut (canon_readSpan_aux hd)
theorem keeps_appletMemWrite {v1 : Hdr} {v2 v3 : Nat} {v4 : List Nat} : Keeps (execAppletMemWrite v1 v2 v3 v4) :=
  canon_hostCmd (fun _ k2 => canon_just (fun _ k5 => canon_writeSpan k5) k2)
theorem keeps_coreStatus {v1 : Hdr} : Keeps (execCoreStatus v1) := by
  unfold execCoreStatus
  apply canon_hostCmd
  intro k1 k2
  split
  exact canon_freshMany k2 (by assumption)
theorem keeps_appletCounters {v1 : Hdr} {v2 v3 : Nat} : Keeps (execAppletCounters v1 v2 v3) :=
  canon_hostCmd (fun _ k2 => canon_ite (canon_Dev_onCore k2) k2)
theorem keeps_appletGo  : Keeps (execAppletGo) :=
  canon_onDev (fun _ k2 => canon_stakeAct (fun _ _ k6 => k6) (fun _ _ k6 => canon_coreStart k6) k2)
theorem keeps_appletTick  : Keeps (execAppletTick) :=
  canon_onDev (fun _ k2 => canon_stakeAct (fun _ _ k6 => k6) (fun _ _ k6 => canon_coreIrq k6) k2)
theorem keeps_transferDone {v1 : Nat} : Keeps (execTransferDone v1) := by
  apply canon_onDev
  intro d hd
  cases e : transferDone d v1 with
  | none => exact hd
  | some d' => exact canon_transferDone hd e
theorem keeps_transferError {v1 v2 : Nat} : Keeps (execTransferError v1 v2) :=
  canon_onDev (fun _ k2 => canon_ite (canon_coreFault (canon_Dev_onCore k2)) k2)
theorem keeps_watchdogExpiry {v1 : Nat} : Keeps (execWatchdogExpiry v1) := canon_onDev (fun _ k2 => canon_ite (canon_coreFault k2) k2)
theorem keeps_sportMark {v1 v2 : Nat} : Keeps (execSportMark v1 v2) :=
  canon_onDev (fun _ k2 => canon_ite (canon_coreIrq k2) (canon_ite (canon_coreIrq k2) k2))
theorem keeps_biasSet {v1 : Hdr} {v2 v3 v4 : Nat} : Keeps (execBiasSet v1 v2 v3 v4) :=
  canon_hostCmd (fun _ k2 => canon_biasPlace (canon_ite k2 (canon_Dev_onDac k2)))
theorem keeps_biasGet {v1 : Hdr} {v2 : Nat} : Keeps (execBiasGet v1 v2) := canon_query
theorem keeps_biasRampLoad {v1 : Hdr} {v2 : Nat} {v3 : List Nat} : Keeps (execBiasRampLoad v1 v2 v3) :=
  canon_hostCmd (fun _ k2 => canon_just (fun _ k5 => canon_Dev_onDac k5) k2)
theorem keeps_biasSafeSet {v1 : Hdr} {v2 v3 : Nat} : Keeps (execBiasSafeSet v1 v2 v3) :=
  canon_hostCmd (fun _ k2 => canon_just (fun _ k5 => canon_journal (canon_mk (canon_Dev_onDac k5))) k2)
theorem keeps_biasQueueStep  : Keeps (execBiasQueueStep) :=
  canon_onDev (fun _ k2 => canon_ite k2 (canon_foldl (fun _ _ k7 => canon_Dev_onDac k7) k2))
theorem keeps_biasStep  : Keeps (execBiasStep) := canon_onDev (fun _ k2 => canon_biasStake k2)
theorem keeps_biasRamp  : Keeps (execBiasRamp) := canon_onDev (fun _ k2 => canon_biasStake k2)
theorem keeps_hkLatch  : Keeps (execHkLatch) :=
  canon_onDev (fun _ k2 => canon_stakeAct (fun _ _ k6 => k6) (fun _ _ k6 => canon_Dev_onPwr k6) k2)
theorem keeps_hkConversion {v1 : Nat} {v2 : Int} {v3 : Nat} : Keeps (execHkConversion v1 v2 v3) :=
  canon_onDev (fun _ k2 => canon_ite k2 (canon_ite (canon_heatShutdown (canon_Dev_onPwr (canon_Dev_onHk k2))) (canon_Dev_onPwr
  (canon_Dev_onHk k2))))
theorem keeps_hkRead {v1 : Hdr} {v2 v3 v4 : Nat} : Keeps (execHkRead v1 v2 v3 v4) :=
  canon_hostCmd (fun _ k2 => canon_ite (canon_foldl (fun _ _ k8 => canon_Dev_onHk k8) k2) k2)
theorem keeps_hkStatus {v1 : Hdr} : Keeps (execHkStatus v1) := canon_query
theorem keeps_hkSuspectTimeout  : Keeps (execHkSuspectTimeout) := canon_onDev (fun _ k2 => canon_ite (canon_Dev_onPwr k2) k2)
theorem keeps_hkRound  : Keeps (execHkRound) := by
  unfold execHkRound
  apply canon_onDev
  intro k1 k2
  apply canon_ite
  · exact k2
  · dsimp only
    split
    · exact canon_heatShutdown (canon_foldl (fun _ _ k10 => canon_senseLevel k10) (canon_foldl (fun _ _ k11 => canon_judgeSensor
        k11) (canon_judgeRefs (canon_Dev_onPwr k2))))
    · exact canon_foldl (fun _ _ k9 => canon_dpdJudge k9) (canon_ite (canon_foldl (fun _ _ k11 => canon_compTrack k11)
        (canon_calTemperature (canon_relevel (canon_foldl (fun _ _ k14 => canon_senseLevel k14) (canon_foldl (fun _ _ k15 =>
        canon_judgeSensor k15) (canon_judgeRefs (canon_Dev_onPwr k2))))))) (canon_calTemperature (canon_relevel (canon_foldl (fun
        _ _ k13 => canon_senseLevel k13) (canon_foldl (fun _ _ k14 => canon_judgeSensor k14) (canon_judgeRefs (canon_Dev_onPwr
        k2)))))))
theorem keeps_throttleRelease {v1 : Nat} : Keeps (execThrottleRelease v1) := by
  unfold execThrottleRelease
  apply canon_onDev
  intro k1 k2
  dsimp only
  split
  · exact k2
  · exact canon_ite k2 (canon_relevel (canon_Dev_onHk k2))
theorem keeps_sensorTyping {v1 v2 : Nat} : Keeps (execSensorTyping v1 v2) := canon_onDev (fun _ k2 => canon_ite k2 (canon_typeInput k2))
theorem keeps_thermConfig {v1 : Hdr} {v2 : Nat} {v3 : ExtInputs} : Keeps (execThermConfig v1 v2 v3) := by
  unfold execThermConfig
  apply canon_hostCmd
  intro k1 k2
  dsimp only
  refine canon_foldl ?_ ?_
  · intro k5 k6 k7
    apply canon_ite
    · exact canon_typeInput (canon_Dev_onPwr (canon_Dev_fresh_aux k7))
    · exact canon_Dev_onHk (canon_Dev_onPwr k7)
  · exact canon_Dev_onPwr k2
theorem keeps_thermStatus {v1 : Hdr} : Keeps (execThermStatus v1) := canon_query
theorem keeps_throttleGapStart {v1 : Nat} : Keeps (execThrottleGapStart v1) :=
  canon_onDev (fun _ k2 => canon_ite k2 (canon_foldl (fun _ _ k8 => canon_ite (canon_gateOnAt (canon_gateOffAt (canon_countMuted k8)))
  (canon_countMuted k8)) (canon_ite (canon_Dev_pwrCount k2) k2)))
theorem keeps_throttleGapEnd {v1 : Nat} : Keeps (execThrottleGapEnd v1) :=
  canon_onDev (fun _ k2 => canon_ite k2 (canon_foldl (fun _ _ k7 => canon_ite (canon_raiseEv (canon_Dev_onTx k7)) k7) k2))
theorem keeps_fabricDrainComplete {v1 : Nat} : Keeps (execFabricDrainComplete v1) := canon_onDev (fun _ k2 => canon_cutStep k2)
theorem keeps_drainLimit {v1 v2 v3 : Nat} : Keeps (execDrainLimit v1 v2 v3) :=
  canon_onDev (fun _ k2 => canon_ite (canon_cutStep (canon_raiseEv (canon_mk k2))) k2)
theorem keeps_domainReady {v1 : Nat} {v2 : List Nat} : Keeps (execDomainReady v1 v2) :=
  canon_onDev (fun _ k2 => canon_ite (canon_stepDone (canon_fabWake (canon_domainStarts (canon_selfTests (canon_setDomain k2))))) k2)
theorem keeps_pwrStateSet {v1 : Hdr} {v2 v3 : Nat} : Keeps (execPwrStateSet v1 v2 v3) := by
  unfold execPwrStateSet
  apply canon_hostCmd
  intro k1 k2
  dsimp only
  apply canon_ite
  · apply canon_settle
    apply canon_beginTransition
    apply canon_ite
    · apply canon_forceStops
      split
      · exact canon_Dev_fresh_aux k2
      · exact k2
    · split
      · exact canon_Dev_fresh_aux k2
      · exact k2
  · apply canon_beginTransition
    apply canon_ite
    · apply canon_forceStops
      split
      · exact canon_Dev_fresh_aux k2
      · exact k2
    · split
      · exact canon_Dev_fresh_aux k2
      · exact k2
theorem keeps_powerGood  : Keeps (execPowerGood) := canon_onDev (fun _ k2 => canon_ite k2 (canon_powerUp k2))
theorem keeps_undervoltage {v1 : Nat} : Keeps (execUndervoltage v1) := canon_onDev (fun _ k2 => canon_ite (canon_powerFail k2) k2)
theorem keeps_overvoltage {v1 : Nat} : Keeps (execOvervoltage v1) := canon_onDev (fun _ k2 => canon_ite (canon_powerFail k2) k2)
theorem keeps_supplyRecovery {v1 : Nat} : Keeps (execSupplyRecovery v1) :=
  canon_onDev (fun _ k2 => canon_ite (canon_ite (canon_beginBoot (canon_Dev_onPwr (canon_Dev_restart k2))) (canon_powerUp k2)) k2)
theorem keeps_reversePolarity  : Keeps (execReversePolarity) := canon_onDev (fun _ k2 => canon_Dev_onPwr (canon_unpowered k2))
theorem keeps_powerCap {v1 : Nat} : Keeps (execPowerCap v1) :=
  canon_onDev (fun _ k2 => canon_ite k2 (canon_ite (canon_Dev_onPwr k2) (canon_relevel (canon_ite (canon_Dev_pwrCount (canon_raiseEv
  (canon_Dev_onPwr (canon_Dev_onPwr k2)))) (canon_raiseEv (canon_Dev_onPwr (canon_Dev_onPwr k2)))))))
theorem keeps_pwrCapSet {v1 : Hdr} {v2 : Nat} : Keeps (execPwrCapSet v1 v2) :=
  canon_hostCmd (fun _ k2 => canon_just (fun _ k5 => canon_Dev_onPwr k5) k2)
theorem keeps_thermalRestart  : Keeps (execThermalRestart) :=
  canon_onDev (fun _ k2 => canon_ite (canon_beginBoot (canon_Dev_restart k2)) k2)
theorem keeps_resetPin  : Keeps (execResetPin) := canon_onDev (fun _ k2 => canon_ite (canon_mk (canon_Dev_restart k2)) k2)
theorem keeps_resetRelease  : Keeps (execResetRelease) := canon_onDev (fun _ k2 => canon_ite (canon_beginBoot k2) k2)
theorem keeps_domainBorrow {v1 v2 : Bool} : Keeps (execDomainBorrow v1 v2) :=
  canon_onDev (fun _ k2 => canon_ite (canon_ite k2 (canon_fabWake (canon_ite (canon_qsPath0 (canon_Dev_onPwr (canon_ite (canon_txStart
  (canon_foldl (fun _ _ k15 => canon_setDomain k15) k2)) (canon_foldl (fun _ _ k14 => canon_setDomain k14) k2)))) (canon_Dev_onPwr
  (canon_ite (canon_txStart (canon_foldl (fun _ _ k14 => canon_setDomain k14) k2)) (canon_foldl (fun _ _ k13 => canon_setDomain k13)
  k2)))))) (canon_foldl (fun _ _ k8 => canon_cutDomain (canon_placeSafe k8)) k2))
theorem keeps_ppsFight  : Keeps (execPpsFight) :=
  canon_onDev (fun _ k2 => canon_raiseEv (canon_Dev_pwrCount (canon_Dev_onPwr (canon_Dev_onTmb k2))))
theorem keeps_pwrStatus {v1 : Hdr} : Keeps (execPwrStatus v1) := canon_query
theorem keeps_pwrRecordGet {v1 : Hdr} : Keeps (execPwrRecordGet v1) := canon_query
theorem keeps_pwrCounters {v1 : Hdr} {v2 : Nat} : Keeps (execPwrCounters v1 v2) :=
  canon_hostCmd (fun _ k2 => canon_ite (canon_Dev_onPwr k2) k2)
theorem keeps_lockstepMismatch  : Keeps (execLockstepMismatch) :=
  canon_onDev (fun _ k2 => canon_ite k2 (canon_ite (canon_resetBoot k2) (canon_Dev_onCtl k2)))
theorem keeps_reloadComplete  : Keeps (execReloadComplete) := canon_onDev (fun _ k2 => canon_ite (canon_raiseEv (canon_Dev_onCtl k2)) k2)
theorem keeps_boot {v1 : BootCheck} : Keeps (execBoot v1) :=
  canon_onDev (fun _ k2 => canon_ite k2 (canon_ite (canon_ite (canon_toHold k2) (canon_Dev_onCtl (canon_resetBoot k2))) (canon_ite
  (canon_toHold k2) (canon_ite (canon_startLoader k2) (canon_bootSlots k2)))))
theorem keeps_fwActivationRestart  : Keeps (execFwActivationRestart) := by
  unfold execFwActivationRestart
  apply canon_onDev
  intro k1 k2
  split
  · exact canon_ite (canon_resetBoot k2) k2
  · exact k2
theorem keeps_trialLimit  : Keeps (execTrialLimit) :=
  canon_onDev (fun _ k2 => canon_ite (canon_Dev_onCtl (canon_putBoot (canon_resetBoot k2))) k2)
theorem keeps_lmsTreeReady  : Keeps (execLmsTreeReady) :=
  canon_onDev (fun _ k2 => canon_ite k2 (canon_raiseEv (canon_ite (canon_Dev_onCtl k2) (canon_reserveTo (canon_Dev_onCtl k2)))))
theorem keeps_eraseComplete {v1 : Bool} : Keeps (execEraseComplete v1) := by
  unfold execEraseComplete
  apply canon_onDev
  intro k1 k2
  split
  · exact k2
  · split
    · exact k2
    · exact canon_ite (canon_jobDone (canon_Dev_onJob (canon_nvmErase k2))) (canon_nvmFails k2)
theorem keeps_nvmPageProgram {v1 : Bool} : Keeps (execNvmPageProgram v1) := by
  unfold execNvmPageProgram
  apply canon_onDev
  intro k1 k2
  split
  · exact k2
  · split
    · exact canon_ite (canon_jobDone (canon_Dev_onJob (canon_nvmProgram k2))) (canon_nvmFails k2)
    · exact k2
theorem keeps_fwStaged  : Keeps (execFwStaged) := by
  unfold execFwStaged
  apply canon_onDev
  intro k1 k2
  split
  · exact k2
  · split
    · exact canon_ite k2 (canon_raiseEv (canon_Dev_onNvm k2))
    · exact k2
theorem keeps_nvmRead {v1 : Hdr} {v2 v3 : Nat} : Keeps (execNvmRead v1 v2 v3) := canon_query
theorem keeps_nvmWrite {v1 : Hdr} {v2 : Nat} {v3 : List Nat} : Keeps (execNvmWrite v1 v2 v3) :=
  canon_hostCmd (fun _ k2 => canon_Dev_onNvm k2)
theorem keeps_nvmErase {v1 : Hdr} {v2 : Nat} : Keeps (execNvmErase v1 v2) := canon_hostCmd (fun _ k2 => canon_Dev_onNvm k2)
theorem keeps_fwLoad {v1 : Hdr} {v2 : Nat} {v3 : Bool} : Keeps (execFwLoad v1 v2 v3) :=
  canon_hostCmd (fun _ k2 => canon_Dev_onNvm (canon_consume k2))
theorem keeps_fwActivate {v1 : Hdr} {v2 : Nat} : Keeps (execFwActivate v1 v2) :=
  canon_hostCmd (fun _ k2 => canon_just (fun _ k5 => canon_Dev_onCtl (canon_putBoot k5)) k2)
theorem keeps_fwCommit {v1 : Hdr} {v2 : Nat} : Keeps (execFwCommit v1 v2) :=
  canon_hostCmd (fun _ k2 => canon_just (fun _ k5 => canon_ite (canon_raiseEv (canon_Dev_onNvm (canon_putBoot (canon_Dev_onCtl k5))))
  (canon_Dev_onNvm (canon_putBoot (canon_Dev_onCtl k5)))) k2)
theorem keeps_fwStatus {v1 : Hdr} : Keeps (execFwStatus v1) := canon_query
theorem keeps_appletStore {v1 : Hdr} {v2 v3 : Nat} {v4 v5 : Nat} {v6 : List Nat} {v7 : Bool} : Keeps (execAppletStore v1 v2 v3 v4 v5 v6 v7) :=
  canon_hostCmd (fun _ k2 => canon_Dev_onNvm (canon_consume k2))
theorem keeps_appletStoreErase {v1 : Hdr} {v2 : Nat} : Keeps (execAppletStoreErase v1 v2) := canon_hostCmd (fun _ k2 => canon_Dev_onNvm k2)
theorem keeps_keyChange {v1 : Hdr} {v2 : Nat} {v3 : Bool} : Keeps (execKeyChange v1 v2 v3) :=
  canon_hostCmd (fun _ k2 => canon_just (fun _ k5 => canon_raiseEv (canon_journal (canon_Dev_onNvm (canon_consume k5)))) k2)
theorem keeps_keyList {v1 : Hdr} : Keeps (execKeyList v1) := canon_query
theorem keeps_rollbackSet {v1 : Hdr} {v2 v3 : Nat} : Keeps (execRollbackSet v1 v2 v3) :=
  canon_hostCmd (fun _ k2 => canon_ite (canon_Dev_onNvm k2) (canon_raiseEv (canon_Dev_onNvm k2)))
theorem keeps_certRead {v1 : Hdr} : Keeps (execCertRead v1) := canon_hostCmd (fun _ k2 => canon_answerObject k2)
theorem keeps_attest {v1 : Hdr} {v2 : Nat} : Keeps (execAttest v1 v2) := by
  unfold execAttest
  apply canon_hostCmd
  intro k1 k2
  dsimp only
  split
  · exact canon_reserveLeaf k2
  · exact canon_answerObject (canon_useLeaf (canon_attestBytes_aux (canon_reserveLeaf k2)))
theorem keeps_debugAuth {v1 : Hdr} {v2 : Nat} {v3 : Bool} : Keeps (execDebugAuth v1 v2 v3) :=
  canon_hostCmd (fun _ k2 => canon_just (fun _ k5 => canon_raiseEv (canon_Dev_onCtl (canon_consume k5))) k2)
theorem keeps_secStatus {v1 : Hdr} : Keeps (execSecStatus v1) := canon_query
theorem keeps_macNop {v1 : Nat} : Keeps (execMacNop v1) := canon_runMac
theorem keeps_mul {v1 v2 : Nat} {v3 v4 v5 : Nat} : Keeps (execMul v1 v2 v3 v4 v5) := canon_runMac
theorem keeps_mac {v1 v2 : Nat} {v3 v4 v5 : Nat} : Keeps (execMac v1 v2 v3 v4 v5) := canon_runMac
theorem keeps_msu {v1 v2 : Nat} {v3 v4 v5 : Nat} : Keeps (execMsu v1 v2 v3 v4 v5) := canon_runMac
theorem keeps_aclr {v1 v2 : Nat} : Keeps (execAclr v1 v2) := canon_runMac
theorem keeps_amov {v1 v2 v3 : Nat} : Keeps (execAmov v1 v2 v3) := canon_runMac
theorem keeps_aadd {v1 v2 v3 : Nat} : Keeps (execAadd v1 v2 v3) := canon_runMac
theorem keeps_ashr {v1 v2 v3 : Nat} : Keeps (execAshr v1 v2 v3) := canon_runMac
theorem keeps_ashl {v1 v2 v3 : Nat} : Keeps (execAshl v1 v2 v3) := canon_runMac
theorem keeps_ald {v1 v2 : Nat} {v3 v4 : Nat} : Keeps (execAld v1 v2 v3 v4) := canon_runMac
theorem keeps_rnd {v1 v2 : Nat} {v3 v4 : Nat} : Keeps (execRnd v1 v2 v3 v4) := canon_runMac
theorem keeps_anorm {v1 v2 v3 : Nat} : Keeps (execAnorm v1 v2 v3) := canon_runMac
theorem keeps_aexp {v1 v2 : Nat} : Keeps (execAexp v1 v2) := canon_runMac
theorem keeps_aluNop {v1 : Nat} : Keeps (execAluNop v1) := canon_runAlu
theorem keeps_addl {v1 v2 : Nat} {v3 v4 : Nat} : Keeps (execAddl v1 v2 v3 v4) := canon_runAlu
theorem keeps_subl {v1 v2 : Nat} {v3 v4 : Nat} : Keeps (execSubl v1 v2 v3 v4) := canon_runAlu
theorem keeps_negl {v1 v2 v3 : Nat} : Keeps (execNegl v1 v2 v3) := canon_runAlu
theorem keeps_conj {v1 v2 v3 : Nat} : Keeps (execConj v1 v2 v3) := canon_runAlu
theorem keeps_swap {v1 v2 v3 : Nat} : Keeps (execSwap v1 v2 v3) := canon_runAlu
theorem keeps_shrl {v1 v2 : Nat} {v3 v4 : Nat} : Keeps (execShrl v1 v2 v3 v4) := canon_runAlu
theorem keeps_shll {v1 v2 : Nat} {v3 v4 : Nat} : Keeps (execShll v1 v2 v3 v4) := canon_runAlu
theorem keeps_shrv {v1 v2 : Nat} {v3 v4 : Nat} : Keeps (execShrv v1 v2 v3 v4) := canon_runAlu
theorem keeps_addw {v1 v2 : Nat} {v3 v4 : Nat} : Keeps (execAddw v1 v2 v3 v4) := canon_runAlu
theorem keeps_subw {v1 v2 : Nat} {v3 v4 : Nat} : Keeps (execSubw v1 v2 v3 v4) := canon_runAlu
theorem keeps_and {v1 v2 : Nat} {v3 v4 : Nat} : Keeps (execAnd v1 v2 v3 v4) := canon_runAlu
theorem keeps_or {v1 v2 : Nat} {v3 v4 : Nat} : Keeps (execOr v1 v2 v3 v4) := canon_runAlu
theorem keeps_xor {v1 v2 : Nat} {v3 v4 : Nat} : Keeps (execXor v1 v2 v3 v4) := canon_runAlu
theorem keeps_mov {v1 v2 v3 : Nat} : Keeps (execMov v1 v2 v3) := canon_runAlu
theorem keeps_norm {v1 v2 v3 : Nat} : Keeps (execNorm v1 v2 v3) := canon_runAlu
theorem keeps_exp {v1 v2 : Nat} : Keeps (execExp v1 v2) := canon_runAlu
theorem keeps_expc {v1 : Nat} : Keeps (execExpc v1) := canon_runAlu
theorem keeps_cmplt {v1 v2 v3 : Nat} : Keeps (execCmplt v1 v2 v3) := canon_runAlu
theorem keeps_cmpeq {v1 v2 v3 : Nat} : Keeps (execCmpeq v1 v2 v3) := canon_runAlu
theorem keeps_lil {v1 v2 : Nat} {v3 : Int} : Keeps (execLil v1 v2 v3) := canon_runAlu
theorem keeps_lis {v1 v2 : Nat} {v3 : Int} : Keeps (execLis v1 v2 v3) := canon_runAlu
theorem keeps_addi {v1 v2 : Nat} {v3 : Int} : Keeps (execAddi v1 v2 v3) := canon_runAlu
theorem keeps_mvts {v1 v2 v3 : Nat} : Keeps (execMvts v1 v2 v3) := canon_runAlu
theorem keeps_mvfs {v1 v2 v3 : Nat} : Keeps (execMvfs v1 v2 v3) := canon_runAlu
theorem keeps_jmp {v1 v2 : Nat} : Keeps (execJmp v1 v2) := canon_runAlu
theorem keeps_jf {v1 v2 : Nat} : Keeps (execJf v1 v2) := canon_runAlu
theorem keeps_jnf {v1 v2 : Nat} : Keeps (execJnf v1 v2) := canon_runAlu
theorem keeps_call {v1 v2 : Nat} : Keeps (execCall v1 v2) := canon_runAlu
theorem keeps_ret {v1 : Nat} : Keeps (execRet v1) := canon_runAlu
theorem keeps_reti {v1 : Nat} : Keeps (execReti v1) := canon_runAlu
theorem keeps_loop {v1 v2 v3 : Nat} : Keeps (execLoop v1 v2 v3) := canon_runAlu
theorem keeps_loopx {v1 v2 : Nat} : Keeps (execLoopx v1 v2) := canon_runAlu
theorem keeps_ei {v1 : Nat} : Keeps (execEi v1) := canon_runAlu
theorem keeps_di {v1 : Nat} : Keeps (execDi v1) := canon_runAlu
theorem keeps_wait {v1 : Nat} : Keeps (execWait v1) := canon_runAlu
theorem keeps_waitx {v1 : Nat} : Keeps (execWaitx v1) := canon_runAlu
theorem keeps_halt {v1 : Nat} : Keeps (execHalt v1) := canon_runAlu
theorem keeps_trap {v1 : Nat} {v2 : Int} : Keeps (execTrap v1 v2) := canon_onDev (fun _ k2 => canon_ite k2 (canon_coreFault k2))
theorem keeps_lsNop {v1 : Nat} : Keeps (execLsNop v1) := canon_runLs (fun _ _ k3 => canon_LsOut_done k3)
theorem keeps_ldz {v1 v2 v3 : Nat} {v4 : Bool} {v5 : Int} : Keeps (execLdz v1 v2 v3 v4 v5) := canon_runLoad
theorem keeps_ldd {v1 v2 v3 : Nat} {v4 : Bool} {v5 : Int} : Keeps (execLdd v1 v2 v3 v4 v5) := canon_runLoad
theorem keeps_stz {v1 v2 v3 : Nat} {v4 : Bool} {v5 : Int} : Keeps (execStz v1 v2 v3 v4 v5) := canon_runStore
theorem keeps_std {v1 v2 v3 : Nat} {v4 : Bool} {v5 : Int} : Keeps (execStd v1 v2 v3 v4 v5) := canon_runStore
theorem keeps_ldh {v1 v2 v3 : Nat} {v4 : Bool} {v5 : Int} : Keeps (execLdh v1 v2 v3 v4 v5) := canon_runLoad
theorem keeps_sth {v1 v2 v3 : Nat} {v4 : Bool} {v5 : Int} : Keeps (execSth v1 v2 v3 v4 v5) := canon_runStore
theorem keeps_ld4 {v1 v2 v3 : Nat} {v4 : Bool} {v5 : Int} : Keeps (execLd4 v1 v2 v3 v4 v5) := canon_runLoad
theorem keeps_ld8 {v1 v2 v3 : Nat} {v4 : Bool} {v5 : Int} : Keeps (execLd8 v1 v2 v3 v4 v5) := canon_runLoad
theorem keeps_ld12 {v1 v2 v3 : Nat} {v4 : Bool} {v5 : Int} : Keeps (execLd12 v1 v2 v3 v4 v5) := canon_runLoad
theorem keeps_st12 {v1 v2 v3 : Nat} {v4 : Bool} {v5 : Int} : Keeps (execSt12 v1 v2 v3 v4 v5) := canon_runStore
theorem keeps_xrd {v1 v2 v3 : Nat} {v4 : Bool} {v5 : Int} : Keeps (execXrd v1 v2 v3 v4 v5) := canon_runXfer
theorem keeps_xwr {v1 v2 v3 : Nat} {v4 : Bool} {v5 : Int} : Keeps (execXwr v1 v2 v3 v4 v5) := canon_runXfer
theorem keeps_iord {v1 v2 : Nat} {v3 : Int} : Keeps (execIord v1 v2 v3) := canon_runIoRead
theorem keeps_iowr {v1 v2 : Nat} {v3 : Int} : Keeps (execIowr v1 v2 v3) := canon_runIoWrite
theorem keeps_axisLo {v1 v2 : Nat} : Keeps (execAxisLo v1 v2) := canon_runIoRead
theorem keeps_cycLo {v1 v2 : Nat} : Keeps (execCycLo v1 v2) := canon_runIoRead
theorem keeps_sportDataPop {v1 v2 : Nat} : Keeps (execSportDataPop v1 v2) := canon_runIoRead
theorem keeps_wdt {v1 v2 : Nat} : Keeps (execWdt v1 v2) := canon_runIoWrite
theorem keeps_msgSend {v1 v2 : Nat} : Keeps (execMsgSend v1 v2) := canon_runIoWrite
theorem keeps_sportDataPush {v1 v2 : Nat} : Keeps (execSportDataPush v1 v2) := canon_runIoWrite
theorem keeps_interruptEntry {v1 : Nat} : Keeps (execInterruptEntry v1) := canon_onDev (fun _ k2 => canon_ite (canon_Dev_onCore k2) k2)
theorem keeps_freLevelGet {v1 : Hdr} {v2 v3 : Nat} {v4 v5 v6 : Nat} : Keeps (execFreLevelGet v1 v2 v3 v4 v5 v6) := by
  unfold execFreLevelGet
  apply canon_hostCmd
  intro k1 k2
  split
  · split
    exact canon_freshMany k2 (by assumption)
  · exact k2
theorem keeps_quicksetEnter {v1 : Hdr} : Keeps (execQuicksetEnter v1) :=
  canon_hostCmd (fun _ k2 => canon_just (fun _ k5 => canon_ite (canon_mk k5) (canon_ite (canon_startQuickset k5) (canon_beginTransition
  (canon_mk k5)))) k2)
theorem keeps_quicksetStatus {v1 : Hdr} : Keeps (execQuicksetStatus v1) := canon_query
theorem keeps_unitNumberSet {v1 : Hdr} {v2 : Nat} : Keeps (execUnitNumberSet v1 v2) :=
  canon_hostCmd (fun _ k2 => canon_just (fun _ k5 => canon_ite (canon_Dev_onWeave (canon_journal (canon_Dev_onNvm k5))) (canon_journal
  (canon_Dev_onNvm k5))) k2)
theorem keeps_sysReset {v1 : Hdr} {v2 : Nat} : Keeps (execSysReset v1 v2) :=
  canon_hostCmd (fun _ k2 => canon_just (fun _ k5 => canon_Dev_onCtl k5) k2)
theorem keeps_sysResetAfterResponse  : Keeps (execSysResetAfterResponse) := by
  unfold execSysResetAfterResponse
  apply canon_onDev
  intro k1 k2
  split
  · exact canon_ite (canon_resetBoot k2) k2
  · exact k2
theorem keeps_sysStatus {v1 : Hdr} : Keeps (execSysStatus v1) := canon_query
theorem keeps_quicksetReport  : Keeps (execQuicksetReport) := by
  unfold execQuicksetReport
  apply canon_onDev
  intro k1 k2
  split
  · exact k2
  · exact canon_mk (canon_sendEverywhere (canon_reportFields_aux k2))

end Sys2Proof.Machine
end

