-- ==== Sys2Proof/Laws/State.lean ====
section
/-! SUPPORT. What each change of one part of the unit does: the part takes the change, every other part stays. One pair of lemmas
per operation that changes a part; each field's equation is a simp rule, so that no proof unfolds a record update. -/

namespace Sys2Proof.Machine

/-- What `onLnk` changes, and what it leaves. -/
@[simp] theorem onLnk_lnk (d : Dev) (f : Lnk → Lnk) : (d.onLnk f).lnk = f d.lnk := rfl
@[simp] theorem onLnk_others (d : Dev) (f : Lnk → Lnk) :
    (d.onLnk f).ident = d.ident ∧ (d.onLnk f).tmb = d.tmb ∧ (d.onLnk f).lanes = d.lanes ∧ (d.onLnk f).quads = d.quads ∧
    (d.onLnk f).rx = d.rx ∧ (d.onLnk f).outs = d.outs ∧ (d.onLnk f).ins = d.ins ∧ (d.onLnk f).tx = d.tx ∧ (d.onLnk f).fe = d.fe ∧
    (d.onLnk f).gov = d.gov ∧ (d.onLnk f).fre = d.fre ∧ (d.onLnk f).sig = d.sig ∧ (d.onLnk f).chains = d.chains ∧
    (d.onLnk f).weave = d.weave ∧ (d.onLnk f).xce = d.xce ∧ (d.onLnk f).mem = d.mem ∧ (d.onLnk f).fab = d.fab ∧ (d.onLnk f).dma = d.dma ∧
    (d.onLnk f).cores = d.cores ∧ (d.onLnk f).dpd = d.dpd ∧ (d.onLnk f).cal = d.cal ∧ (d.onLnk f).syn = d.syn ∧ (d.onLnk f).bcn = d.bcn ∧
    (d.onLnk f).ctl = d.ctl ∧ (d.onLnk f).nvm = d.nvm ∧ (d.onLnk f).pwr = d.pwr ∧ (d.onLnk f).qs = d.qs ∧ (d.onLnk f).free = d.free :=
  ⟨rfl, rfl, rfl, rfl, rfl, rfl, rfl, rfl, rfl, rfl, rfl, rfl, rfl, rfl, rfl, rfl, rfl, rfl, rfl, rfl, rfl, rfl, rfl, rfl, rfl, rfl, rfl, rfl⟩

/-- What `onTmb` changes, and what it leaves. -/
@[simp] theorem onTmb_tmb (d : Dev) (f : Tmb → Tmb) : (d.onTmb f).tmb = f d.tmb := rfl
@[simp] theorem onTmb_others (d : Dev) (f : Tmb → Tmb) :
    (d.onTmb f).ident = d.ident ∧ (d.onTmb f).lnk = d.lnk ∧ (d.onTmb f).lanes = d.lanes ∧ (d.onTmb f).quads = d.quads ∧
    (d.onTmb f).rx = d.rx ∧ (d.onTmb f).outs = d.outs ∧ (d.onTmb f).ins = d.ins ∧ (d.onTmb f).tx = d.tx ∧ (d.onTmb f).fe = d.fe ∧
    (d.onTmb f).gov = d.gov ∧ (d.onTmb f).fre = d.fre ∧ (d.onTmb f).sig = d.sig ∧ (d.onTmb f).chains = d.chains ∧
    (d.onTmb f).weave = d.weave ∧ (d.onTmb f).xce = d.xce ∧ (d.onTmb f).mem = d.mem ∧ (d.onTmb f).fab = d.fab ∧ (d.onTmb f).dma = d.dma ∧
    (d.onTmb f).cores = d.cores ∧ (d.onTmb f).dpd = d.dpd ∧ (d.onTmb f).cal = d.cal ∧ (d.onTmb f).syn = d.syn ∧ (d.onTmb f).bcn = d.bcn ∧
    (d.onTmb f).ctl = d.ctl ∧ (d.onTmb f).nvm = d.nvm ∧ (d.onTmb f).pwr = d.pwr ∧ (d.onTmb f).qs = d.qs ∧ (d.onTmb f).free = d.free :=
  ⟨rfl, rfl, rfl, rfl, rfl, rfl, rfl, rfl, rfl, rfl, rfl, rfl, rfl, rfl, rfl, rfl, rfl, rfl, rfl, rfl, rfl, rfl, rfl, rfl, rfl, rfl, rfl, rfl⟩

/-- What `onMail` changes, and what it leaves. -/
@[simp] theorem onMail_lnk (d : Dev) (c : Nat) (f : MailClass → MailClass) : (d.onMail c f).lnk = { d.lnk with mail := upd d.lnk.mail c f } := rfl
@[simp] theorem onMail_others (d : Dev) (c : Nat) (f : MailClass → MailClass) :
    (d.onMail c f).ident = d.ident ∧ (d.onMail c f).tmb = d.tmb ∧ (d.onMail c f).lanes = d.lanes ∧ (d.onMail c f).quads = d.quads ∧
    (d.onMail c f).rx = d.rx ∧ (d.onMail c f).outs = d.outs ∧ (d.onMail c f).ins = d.ins ∧ (d.onMail c f).tx = d.tx ∧
    (d.onMail c f).fe = d.fe ∧ (d.onMail c f).gov = d.gov ∧ (d.onMail c f).fre = d.fre ∧ (d.onMail c f).sig = d.sig ∧
    (d.onMail c f).chains = d.chains ∧ (d.onMail c f).weave = d.weave ∧ (d.onMail c f).xce = d.xce ∧ (d.onMail c f).mem = d.mem ∧
    (d.onMail c f).fab = d.fab ∧ (d.onMail c f).dma = d.dma ∧ (d.onMail c f).cores = d.cores ∧ (d.onMail c f).dpd = d.dpd ∧
    (d.onMail c f).cal = d.cal ∧ (d.onMail c f).syn = d.syn ∧ (d.onMail c f).bcn = d.bcn ∧ (d.onMail c f).ctl = d.ctl ∧
    (d.onMail c f).nvm = d.nvm ∧ (d.onMail c f).pwr = d.pwr ∧ (d.onMail c f).qs = d.qs ∧ (d.onMail c f).free = d.free :=
  ⟨rfl, rfl, rfl, rfl, rfl, rfl, rfl, rfl, rfl, rfl, rfl, rfl, rfl, rfl, rfl, rfl, rfl, rfl, rfl, rfl, rfl, rfl, rfl, rfl, rfl, rfl, rfl, rfl⟩

/-- What `onLane` changes, and what it leaves. -/
@[simp] theorem onLane_lanes (d : Dev) (n : Nat) (f : Lane → Lane) : (d.onLane n f).lanes = upd d.lanes n f := rfl
@[simp] theorem onLane_others (d : Dev) (n : Nat) (f : Lane → Lane) :
    (d.onLane n f).ident = d.ident ∧ (d.onLane n f).lnk = d.lnk ∧ (d.onLane n f).tmb = d.tmb ∧ (d.onLane n f).quads = d.quads ∧
    (d.onLane n f).rx = d.rx ∧ (d.onLane n f).outs = d.outs ∧ (d.onLane n f).ins = d.ins ∧ (d.onLane n f).tx = d.tx ∧
    (d.onLane n f).fe = d.fe ∧ (d.onLane n f).gov = d.gov ∧ (d.onLane n f).fre = d.fre ∧ (d.onLane n f).sig = d.sig ∧
    (d.onLane n f).chains = d.chains ∧ (d.onLane n f).weave = d.weave ∧ (d.onLane n f).xce = d.xce ∧ (d.onLane n f).mem = d.mem ∧
    (d.onLane n f).fab = d.fab ∧ (d.onLane n f).dma = d.dma ∧ (d.onLane n f).cores = d.cores ∧ (d.onLane n f).dpd = d.dpd ∧
    (d.onLane n f).cal = d.cal ∧ (d.onLane n f).syn = d.syn ∧ (d.onLane n f).bcn = d.bcn ∧ (d.onLane n f).ctl = d.ctl ∧
    (d.onLane n f).nvm = d.nvm ∧ (d.onLane n f).pwr = d.pwr ∧ (d.onLane n f).qs = d.qs ∧ (d.onLane n f).free = d.free :=
  ⟨rfl, rfl, rfl, rfl, rfl, rfl, rfl, rfl, rfl, rfl, rfl, rfl, rfl, rfl, rfl, rfl, rfl, rfl, rfl, rfl, rfl, rfl, rfl, rfl, rfl, rfl, rfl, rfl⟩

/-- What `onRx` changes, and what it leaves. -/
@[simp] theorem onRx_rx (d : Dev) (p : Nat) (f : RxPath → RxPath) : (d.onRx p f).rx = upd d.rx p f := rfl
@[simp] theorem onRx_others (d : Dev) (p : Nat) (f : RxPath → RxPath) :
    (d.onRx p f).ident = d.ident ∧ (d.onRx p f).lnk = d.lnk ∧ (d.onRx p f).tmb = d.tmb ∧ (d.onRx p f).lanes = d.lanes ∧
    (d.onRx p f).quads = d.quads ∧ (d.onRx p f).outs = d.outs ∧ (d.onRx p f).ins = d.ins ∧ (d.onRx p f).tx = d.tx ∧ (d.onRx p f).fe = d.fe ∧
    (d.onRx p f).gov = d.gov ∧ (d.onRx p f).fre = d.fre ∧ (d.onRx p f).sig = d.sig ∧ (d.onRx p f).chains = d.chains ∧
    (d.onRx p f).weave = d.weave ∧ (d.onRx p f).xce = d.xce ∧ (d.onRx p f).mem = d.mem ∧ (d.onRx p f).fab = d.fab ∧
    (d.onRx p f).dma = d.dma ∧ (d.onRx p f).cores = d.cores ∧ (d.onRx p f).dpd = d.dpd ∧ (d.onRx p f).cal = d.cal ∧
    (d.onRx p f).syn = d.syn ∧ (d.onRx p f).bcn = d.bcn ∧ (d.onRx p f).ctl = d.ctl ∧ (d.onRx p f).nvm = d.nvm ∧ (d.onRx p f).pwr = d.pwr ∧
    (d.onRx p f).qs = d.qs ∧ (d.onRx p f).free = d.free :=
  ⟨rfl, rfl, rfl, rfl, rfl, rfl, rfl, rfl, rfl, rfl, rfl, rfl, rfl, rfl, rfl, rfl, rfl, rfl, rfl, rfl, rfl, rfl, rfl, rfl, rfl, rfl, rfl, rfl⟩

/-- What `onTx` changes, and what it leaves. -/
@[simp] theorem onTx_tx (d : Dev) (p : Nat) (f : TxPath → TxPath) : (d.onTx p f).tx = upd d.tx p f := rfl
@[simp] theorem onTx_others (d : Dev) (p : Nat) (f : TxPath → TxPath) :
    (d.onTx p f).ident = d.ident ∧ (d.onTx p f).lnk = d.lnk ∧ (d.onTx p f).tmb = d.tmb ∧ (d.onTx p f).lanes = d.lanes ∧
    (d.onTx p f).quads = d.quads ∧ (d.onTx p f).rx = d.rx ∧ (d.onTx p f).outs = d.outs ∧ (d.onTx p f).ins = d.ins ∧ (d.onTx p f).fe = d.fe ∧
    (d.onTx p f).gov = d.gov ∧ (d.onTx p f).fre = d.fre ∧ (d.onTx p f).sig = d.sig ∧ (d.onTx p f).chains = d.chains ∧
    (d.onTx p f).weave = d.weave ∧ (d.onTx p f).xce = d.xce ∧ (d.onTx p f).mem = d.mem ∧ (d.onTx p f).fab = d.fab ∧
    (d.onTx p f).dma = d.dma ∧ (d.onTx p f).cores = d.cores ∧ (d.onTx p f).dpd = d.dpd ∧ (d.onTx p f).cal = d.cal ∧
    (d.onTx p f).syn = d.syn ∧ (d.onTx p f).bcn = d.bcn ∧ (d.onTx p f).ctl = d.ctl ∧ (d.onTx p f).nvm = d.nvm ∧ (d.onTx p f).pwr = d.pwr ∧
    (d.onTx p f).qs = d.qs ∧ (d.onTx p f).free = d.free :=
  ⟨rfl, rfl, rfl, rfl, rfl, rfl, rfl, rfl, rfl, rfl, rfl, rfl, rfl, rfl, rfl, rfl, rfl, rfl, rfl, rfl, rfl, rfl, rfl, rfl, rfl, rfl, rfl, rfl⟩

/-- What `onFe` changes, and what it leaves. -/
@[simp] theorem onFe_fe (d : Dev) (p : Nat) (f : Fe → Fe) : (d.onFe p f).fe = upd d.fe p f := rfl
@[simp] theorem onFe_others (d : Dev) (p : Nat) (f : Fe → Fe) :
    (d.onFe p f).ident = d.ident ∧ (d.onFe p f).lnk = d.lnk ∧ (d.onFe p f).tmb = d.tmb ∧ (d.onFe p f).lanes = d.lanes ∧
    (d.onFe p f).quads = d.quads ∧ (d.onFe p f).rx = d.rx ∧ (d.onFe p f).outs = d.outs ∧ (d.onFe p f).ins = d.ins ∧ (d.onFe p f).tx = d.tx ∧
    (d.onFe p f).gov = d.gov ∧ (d.onFe p f).fre = d.fre ∧ (d.onFe p f).sig = d.sig ∧ (d.onFe p f).chains = d.chains ∧
    (d.onFe p f).weave = d.weave ∧ (d.onFe p f).xce = d.xce ∧ (d.onFe p f).mem = d.mem ∧ (d.onFe p f).fab = d.fab ∧
    (d.onFe p f).dma = d.dma ∧ (d.onFe p f).cores = d.cores ∧ (d.onFe p f).dpd = d.dpd ∧ (d.onFe p f).cal = d.cal ∧
    (d.onFe p f).syn = d.syn ∧ (d.onFe p f).bcn = d.bcn ∧ (d.onFe p f).ctl = d.ctl ∧ (d.onFe p f).nvm = d.nvm ∧ (d.onFe p f).pwr = d.pwr ∧
    (d.onFe p f).qs = d.qs ∧ (d.onFe p f).free = d.free :=
  ⟨rfl, rfl, rfl, rfl, rfl, rfl, rfl, rfl, rfl, rfl, rfl, rfl, rfl, rfl, rfl, rfl, rfl, rfl, rfl, rfl, rfl, rfl, rfl, rfl, rfl, rfl, rfl, rfl⟩

/-- What `onRxSb` changes, and what it leaves. -/
@[simp] theorem onRxSb_rx (d : Dev) (p : Nat) (s : Nat) (f : RxSb → RxSb) : (d.onRxSb p s f).rx = upd d.rx p fun x => { x with sbs := upd x.sbs s f } := rfl
@[simp] theorem onRxSb_others (d : Dev) (p : Nat) (s : Nat) (f : RxSb → RxSb) :
    (d.onRxSb p s f).ident = d.ident ∧ (d.onRxSb p s f).lnk = d.lnk ∧ (d.onRxSb p s f).tmb = d.tmb ∧ (d.onRxSb p s f).lanes = d.lanes ∧
    (d.onRxSb p s f).quads = d.quads ∧ (d.onRxSb p s f).outs = d.outs ∧ (d.onRxSb p s f).ins = d.ins ∧ (d.onRxSb p s f).tx = d.tx ∧
    (d.onRxSb p s f).fe = d.fe ∧ (d.onRxSb p s f).gov = d.gov ∧ (d.onRxSb p s f).fre = d.fre ∧ (d.onRxSb p s f).sig = d.sig ∧
    (d.onRxSb p s f).chains = d.chains ∧ (d.onRxSb p s f).weave = d.weave ∧ (d.onRxSb p s f).xce = d.xce ∧ (d.onRxSb p s f).mem = d.mem ∧
    (d.onRxSb p s f).fab = d.fab ∧ (d.onRxSb p s f).dma = d.dma ∧ (d.onRxSb p s f).cores = d.cores ∧ (d.onRxSb p s f).dpd = d.dpd ∧
    (d.onRxSb p s f).cal = d.cal ∧ (d.onRxSb p s f).syn = d.syn ∧ (d.onRxSb p s f).bcn = d.bcn ∧ (d.onRxSb p s f).ctl = d.ctl ∧
    (d.onRxSb p s f).nvm = d.nvm ∧ (d.onRxSb p s f).pwr = d.pwr ∧ (d.onRxSb p s f).qs = d.qs ∧ (d.onRxSb p s f).free = d.free :=
  ⟨rfl, rfl, rfl, rfl, rfl, rfl, rfl, rfl, rfl, rfl, rfl, rfl, rfl, rfl, rfl, rfl, rfl, rfl, rfl, rfl, rfl, rfl, rfl, rfl, rfl, rfl, rfl, rfl⟩

/-- What `onTxSb` changes, and what it leaves. -/
@[simp] theorem onTxSb_tx (d : Dev) (p : Nat) (s : Nat) (f : TxSb → TxSb) : (d.onTxSb p s f).tx = upd d.tx p fun x => { x with sbs := upd x.sbs s f } := rfl
@[simp] theorem onTxSb_others (d : Dev) (p : Nat) (s : Nat) (f : TxSb → TxSb) :
    (d.onTxSb p s f).ident = d.ident ∧ (d.onTxSb p s f).lnk = d.lnk ∧ (d.onTxSb p s f).tmb = d.tmb ∧ (d.onTxSb p s f).lanes = d.lanes ∧
    (d.onTxSb p s f).quads = d.quads ∧ (d.onTxSb p s f).rx = d.rx ∧ (d.onTxSb p s f).outs = d.outs ∧ (d.onTxSb p s f).ins = d.ins ∧
    (d.onTxSb p s f).fe = d.fe ∧ (d.onTxSb p s f).gov = d.gov ∧ (d.onTxSb p s f).fre = d.fre ∧ (d.onTxSb p s f).sig = d.sig ∧
    (d.onTxSb p s f).chains = d.chains ∧ (d.onTxSb p s f).weave = d.weave ∧ (d.onTxSb p s f).xce = d.xce ∧ (d.onTxSb p s f).mem = d.mem ∧
    (d.onTxSb p s f).fab = d.fab ∧ (d.onTxSb p s f).dma = d.dma ∧ (d.onTxSb p s f).cores = d.cores ∧ (d.onTxSb p s f).dpd = d.dpd ∧
    (d.onTxSb p s f).cal = d.cal ∧ (d.onTxSb p s f).syn = d.syn ∧ (d.onTxSb p s f).bcn = d.bcn ∧ (d.onTxSb p s f).ctl = d.ctl ∧
    (d.onTxSb p s f).nvm = d.nvm ∧ (d.onTxSb p s f).pwr = d.pwr ∧ (d.onTxSb p s f).qs = d.qs ∧ (d.onTxSb p s f).free = d.free :=
  ⟨rfl, rfl, rfl, rfl, rfl, rfl, rfl, rfl, rfl, rfl, rfl, rfl, rfl, rfl, rfl, rfl, rfl, rfl, rfl, rfl, rfl, rfl, rfl, rfl, rfl, rfl, rfl, rfl⟩

/-- What `onFre` changes, and what it leaves. -/
@[simp] theorem onFre_fre (d : Dev) (n : Nat) (f : FreSlot → FreSlot) : (d.onFre n f).fre = upd d.fre n f := rfl
@[simp] theorem onFre_others (d : Dev) (n : Nat) (f : FreSlot → FreSlot) :
    (d.onFre n f).ident = d.ident ∧ (d.onFre n f).lnk = d.lnk ∧ (d.onFre n f).tmb = d.tmb ∧ (d.onFre n f).lanes = d.lanes ∧
    (d.onFre n f).quads = d.quads ∧ (d.onFre n f).rx = d.rx ∧ (d.onFre n f).outs = d.outs ∧ (d.onFre n f).ins = d.ins ∧
    (d.onFre n f).tx = d.tx ∧ (d.onFre n f).fe = d.fe ∧ (d.onFre n f).gov = d.gov ∧ (d.onFre n f).sig = d.sig ∧
    (d.onFre n f).chains = d.chains ∧ (d.onFre n f).weave = d.weave ∧ (d.onFre n f).xce = d.xce ∧ (d.onFre n f).mem = d.mem ∧
    (d.onFre n f).fab = d.fab ∧ (d.onFre n f).dma = d.dma ∧ (d.onFre n f).cores = d.cores ∧ (d.onFre n f).dpd = d.dpd ∧
    (d.onFre n f).cal = d.cal ∧ (d.onFre n f).syn = d.syn ∧ (d.onFre n f).bcn = d.bcn ∧ (d.onFre n f).ctl = d.ctl ∧
    (d.onFre n f).nvm = d.nvm ∧ (d.onFre n f).pwr = d.pwr ∧ (d.onFre n f).qs = d.qs ∧ (d.onFre n f).free = d.free :=
  ⟨rfl, rfl, rfl, rfl, rfl, rfl, rfl, rfl, rfl, rfl, rfl, rfl, rfl, rfl, rfl, rfl, rfl, rfl, rfl, rfl, rfl, rfl, rfl, rfl, rfl, rfl, rfl, rfl⟩

/-- What `onDac` changes, and what it leaves. -/
@[simp] theorem onDac_pwr (d : Dev) (n : Nat) (f : Dac → Dac) : (d.onDac n f).pwr = { d.pwr with dacs := upd d.pwr.dacs n f } := rfl
@[simp] theorem onDac_others (d : Dev) (n : Nat) (f : Dac → Dac) :
    (d.onDac n f).ident = d.ident ∧ (d.onDac n f).lnk = d.lnk ∧ (d.onDac n f).tmb = d.tmb ∧ (d.onDac n f).lanes = d.lanes ∧
    (d.onDac n f).quads = d.quads ∧ (d.onDac n f).rx = d.rx ∧ (d.onDac n f).outs = d.outs ∧ (d.onDac n f).ins = d.ins ∧
    (d.onDac n f).tx = d.tx ∧ (d.onDac n f).fe = d.fe ∧ (d.onDac n f).gov = d.gov ∧ (d.onDac n f).fre = d.fre ∧ (d.onDac n f).sig = d.sig ∧
    (d.onDac n f).chains = d.chains ∧ (d.onDac n f).weave = d.weave ∧ (d.onDac n f).xce = d.xce ∧ (d.onDac n f).mem = d.mem ∧
    (d.onDac n f).fab = d.fab ∧ (d.onDac n f).dma = d.dma ∧ (d.onDac n f).cores = d.cores ∧ (d.onDac n f).dpd = d.dpd ∧
    (d.onDac n f).cal = d.cal ∧ (d.onDac n f).syn = d.syn ∧ (d.onDac n f).bcn = d.bcn ∧ (d.onDac n f).ctl = d.ctl ∧
    (d.onDac n f).nvm = d.nvm ∧ (d.onDac n f).qs = d.qs ∧ (d.onDac n f).free = d.free :=
  ⟨rfl, rfl, rfl, rfl, rfl, rfl, rfl, rfl, rfl, rfl, rfl, rfl, rfl, rfl, rfl, rfl, rfl, rfl, rfl, rfl, rfl, rfl, rfl, rfl, rfl, rfl, rfl, rfl⟩

/-- What `onPwr` changes, and what it leaves. -/
@[simp] theorem onPwr_pwr (d : Dev) (f : Pwr → Pwr) : (d.onPwr f).pwr = f d.pwr := rfl
@[simp] theorem onPwr_others (d : Dev) (f : Pwr → Pwr) :
    (d.onPwr f).ident = d.ident ∧ (d.onPwr f).lnk = d.lnk ∧ (d.onPwr f).tmb = d.tmb ∧ (d.onPwr f).lanes = d.lanes ∧
    (d.onPwr f).quads = d.quads ∧ (d.onPwr f).rx = d.rx ∧ (d.onPwr f).outs = d.outs ∧ (d.onPwr f).ins = d.ins ∧ (d.onPwr f).tx = d.tx ∧
    (d.onPwr f).fe = d.fe ∧ (d.onPwr f).gov = d.gov ∧ (d.onPwr f).fre = d.fre ∧ (d.onPwr f).sig = d.sig ∧ (d.onPwr f).chains = d.chains ∧
    (d.onPwr f).weave = d.weave ∧ (d.onPwr f).xce = d.xce ∧ (d.onPwr f).mem = d.mem ∧ (d.onPwr f).fab = d.fab ∧ (d.onPwr f).dma = d.dma ∧
    (d.onPwr f).cores = d.cores ∧ (d.onPwr f).dpd = d.dpd ∧ (d.onPwr f).cal = d.cal ∧ (d.onPwr f).syn = d.syn ∧ (d.onPwr f).bcn = d.bcn ∧
    (d.onPwr f).ctl = d.ctl ∧ (d.onPwr f).nvm = d.nvm ∧ (d.onPwr f).qs = d.qs ∧ (d.onPwr f).free = d.free :=
  ⟨rfl, rfl, rfl, rfl, rfl, rfl, rfl, rfl, rfl, rfl, rfl, rfl, rfl, rfl, rfl, rfl, rfl, rfl, rfl, rfl, rfl, rfl, rfl, rfl, rfl, rfl, rfl, rfl⟩

/-- What `onHk` changes, and what it leaves. -/
@[simp] theorem onHk_pwr (d : Dev) (n : Nat) (f : Chan → Chan) : (d.onHk n f).pwr = { d.pwr with chans := upd d.pwr.chans n f } := rfl
@[simp] theorem onHk_others (d : Dev) (n : Nat) (f : Chan → Chan) :
    (d.onHk n f).ident = d.ident ∧ (d.onHk n f).lnk = d.lnk ∧ (d.onHk n f).tmb = d.tmb ∧ (d.onHk n f).lanes = d.lanes ∧
    (d.onHk n f).quads = d.quads ∧ (d.onHk n f).rx = d.rx ∧ (d.onHk n f).outs = d.outs ∧ (d.onHk n f).ins = d.ins ∧ (d.onHk n f).tx = d.tx ∧
    (d.onHk n f).fe = d.fe ∧ (d.onHk n f).gov = d.gov ∧ (d.onHk n f).fre = d.fre ∧ (d.onHk n f).sig = d.sig ∧
    (d.onHk n f).chains = d.chains ∧ (d.onHk n f).weave = d.weave ∧ (d.onHk n f).xce = d.xce ∧ (d.onHk n f).mem = d.mem ∧
    (d.onHk n f).fab = d.fab ∧ (d.onHk n f).dma = d.dma ∧ (d.onHk n f).cores = d.cores ∧ (d.onHk n f).dpd = d.dpd ∧
    (d.onHk n f).cal = d.cal ∧ (d.onHk n f).syn = d.syn ∧ (d.onHk n f).bcn = d.bcn ∧ (d.onHk n f).ctl = d.ctl ∧ (d.onHk n f).nvm = d.nvm ∧
    (d.onHk n f).qs = d.qs ∧ (d.onHk n f).free = d.free :=
  ⟨rfl, rfl, rfl, rfl, rfl, rfl, rfl, rfl, rfl, rfl, rfl, rfl, rfl, rfl, rfl, rfl, rfl, rfl, rfl, rfl, rfl, rfl, rfl, rfl, rfl, rfl, rfl, rfl⟩

/-- What `onMem` changes, and what it leaves. -/
@[simp] theorem onMem_mem (d : Dev) (f : Memory → Memory) : (d.onMem f).mem = f d.mem := rfl
@[simp] theorem onMem_others (d : Dev) (f : Memory → Memory) :
    (d.onMem f).ident = d.ident ∧ (d.onMem f).lnk = d.lnk ∧ (d.onMem f).tmb = d.tmb ∧ (d.onMem f).lanes = d.lanes ∧
    (d.onMem f).quads = d.quads ∧ (d.onMem f).rx = d.rx ∧ (d.onMem f).outs = d.outs ∧ (d.onMem f).ins = d.ins ∧ (d.onMem f).tx = d.tx ∧
    (d.onMem f).fe = d.fe ∧ (d.onMem f).gov = d.gov ∧ (d.onMem f).fre = d.fre ∧ (d.onMem f).sig = d.sig ∧ (d.onMem f).chains = d.chains ∧
    (d.onMem f).weave = d.weave ∧ (d.onMem f).xce = d.xce ∧ (d.onMem f).fab = d.fab ∧ (d.onMem f).dma = d.dma ∧
    (d.onMem f).cores = d.cores ∧ (d.onMem f).dpd = d.dpd ∧ (d.onMem f).cal = d.cal ∧ (d.onMem f).syn = d.syn ∧ (d.onMem f).bcn = d.bcn ∧
    (d.onMem f).ctl = d.ctl ∧ (d.onMem f).nvm = d.nvm ∧ (d.onMem f).pwr = d.pwr ∧ (d.onMem f).qs = d.qs ∧ (d.onMem f).free = d.free :=
  ⟨rfl, rfl, rfl, rfl, rfl, rfl, rfl, rfl, rfl, rfl, rfl, rfl, rfl, rfl, rfl, rfl, rfl, rfl, rfl, rfl, rfl, rfl, rfl, rfl, rfl, rfl, rfl, rfl⟩

/-- What `onGov` changes, and what it leaves. -/
@[simp] theorem onGov_gov (d : Dev) (f : Gov → Gov) : (d.onGov f).gov = f d.gov := rfl
@[simp] theorem onGov_others (d : Dev) (f : Gov → Gov) :
    (d.onGov f).ident = d.ident ∧ (d.onGov f).lnk = d.lnk ∧ (d.onGov f).tmb = d.tmb ∧ (d.onGov f).lanes = d.lanes ∧
    (d.onGov f).quads = d.quads ∧ (d.onGov f).rx = d.rx ∧ (d.onGov f).outs = d.outs ∧ (d.onGov f).ins = d.ins ∧ (d.onGov f).tx = d.tx ∧
    (d.onGov f).fe = d.fe ∧ (d.onGov f).fre = d.fre ∧ (d.onGov f).sig = d.sig ∧ (d.onGov f).chains = d.chains ∧
    (d.onGov f).weave = d.weave ∧ (d.onGov f).xce = d.xce ∧ (d.onGov f).mem = d.mem ∧ (d.onGov f).fab = d.fab ∧ (d.onGov f).dma = d.dma ∧
    (d.onGov f).cores = d.cores ∧ (d.onGov f).dpd = d.dpd ∧ (d.onGov f).cal = d.cal ∧ (d.onGov f).syn = d.syn ∧ (d.onGov f).bcn = d.bcn ∧
    (d.onGov f).ctl = d.ctl ∧ (d.onGov f).nvm = d.nvm ∧ (d.onGov f).pwr = d.pwr ∧ (d.onGov f).qs = d.qs ∧ (d.onGov f).free = d.free :=
  ⟨rfl, rfl, rfl, rfl, rfl, rfl, rfl, rfl, rfl, rfl, rfl, rfl, rfl, rfl, rfl, rfl, rfl, rfl, rfl, rfl, rfl, rfl, rfl, rfl, rfl, rfl, rfl, rfl⟩

/-- What `onMaster` changes, and what it leaves. -/
@[simp] theorem onMaster_fab (d : Dev) (m : Nat) (f : Master → Master) : (d.onMaster m f).fab = { d.fab with masters := upd d.fab.masters m f } := rfl
@[simp] theorem onMaster_others (d : Dev) (m : Nat) (f : Master → Master) :
    (d.onMaster m f).ident = d.ident ∧ (d.onMaster m f).lnk = d.lnk ∧ (d.onMaster m f).tmb = d.tmb ∧ (d.onMaster m f).lanes = d.lanes ∧
    (d.onMaster m f).quads = d.quads ∧ (d.onMaster m f).rx = d.rx ∧ (d.onMaster m f).outs = d.outs ∧ (d.onMaster m f).ins = d.ins ∧
    (d.onMaster m f).tx = d.tx ∧ (d.onMaster m f).fe = d.fe ∧ (d.onMaster m f).gov = d.gov ∧ (d.onMaster m f).fre = d.fre ∧
    (d.onMaster m f).sig = d.sig ∧ (d.onMaster m f).chains = d.chains ∧ (d.onMaster m f).weave = d.weave ∧ (d.onMaster m f).xce = d.xce ∧
    (d.onMaster m f).mem = d.mem ∧ (d.onMaster m f).dma = d.dma ∧ (d.onMaster m f).cores = d.cores ∧ (d.onMaster m f).dpd = d.dpd ∧
    (d.onMaster m f).cal = d.cal ∧ (d.onMaster m f).syn = d.syn ∧ (d.onMaster m f).bcn = d.bcn ∧ (d.onMaster m f).ctl = d.ctl ∧
    (d.onMaster m f).nvm = d.nvm ∧ (d.onMaster m f).pwr = d.pwr ∧ (d.onMaster m f).qs = d.qs ∧ (d.onMaster m f).free = d.free :=
  ⟨rfl, rfl, rfl, rfl, rfl, rfl, rfl, rfl, rfl, rfl, rfl, rfl, rfl, rfl, rfl, rfl, rfl, rfl, rfl, rfl, rfl, rfl, rfl, rfl, rfl, rfl, rfl, rfl⟩

/-- What `onTarget` changes, and what it leaves. -/
@[simp] theorem onTarget_fab (d : Dev) (t : Nat) (f : Target → Target) : (d.onTarget t f).fab = { d.fab with targets := upd d.fab.targets t f } := rfl
@[simp] theorem onTarget_others (d : Dev) (t : Nat) (f : Target → Target) :
    (d.onTarget t f).ident = d.ident ∧ (d.onTarget t f).lnk = d.lnk ∧ (d.onTarget t f).tmb = d.tmb ∧ (d.onTarget t f).lanes = d.lanes ∧
    (d.onTarget t f).quads = d.quads ∧ (d.onTarget t f).rx = d.rx ∧ (d.onTarget t f).outs = d.outs ∧ (d.onTarget t f).ins = d.ins ∧
    (d.onTarget t f).tx = d.tx ∧ (d.onTarget t f).fe = d.fe ∧ (d.onTarget t f).gov = d.gov ∧ (d.onTarget t f).fre = d.fre ∧
    (d.onTarget t f).sig = d.sig ∧ (d.onTarget t f).chains = d.chains ∧ (d.onTarget t f).weave = d.weave ∧ (d.onTarget t f).xce = d.xce ∧
    (d.onTarget t f).mem = d.mem ∧ (d.onTarget t f).dma = d.dma ∧ (d.onTarget t f).cores = d.cores ∧ (d.onTarget t f).dpd = d.dpd ∧
    (d.onTarget t f).cal = d.cal ∧ (d.onTarget t f).syn = d.syn ∧ (d.onTarget t f).bcn = d.bcn ∧ (d.onTarget t f).ctl = d.ctl ∧
    (d.onTarget t f).nvm = d.nvm ∧ (d.onTarget t f).pwr = d.pwr ∧ (d.onTarget t f).qs = d.qs ∧ (d.onTarget t f).free = d.free :=
  ⟨rfl, rfl, rfl, rfl, rfl, rfl, rfl, rfl, rfl, rfl, rfl, rfl, rfl, rfl, rfl, rfl, rfl, rfl, rfl, rfl, rfl, rfl, rfl, rfl, rfl, rfl, rfl, rfl⟩

/-- What `onChan` changes, and what it leaves. -/
@[simp] theorem onChan_dma (d : Dev) (n : Nat) (f : DmaCh → DmaCh) : (d.onChan n f).dma = upd d.dma n f := rfl
@[simp] theorem onChan_others (d : Dev) (n : Nat) (f : DmaCh → DmaCh) :
    (d.onChan n f).ident = d.ident ∧ (d.onChan n f).lnk = d.lnk ∧ (d.onChan n f).tmb = d.tmb ∧ (d.onChan n f).lanes = d.lanes ∧
    (d.onChan n f).quads = d.quads ∧ (d.onChan n f).rx = d.rx ∧ (d.onChan n f).outs = d.outs ∧ (d.onChan n f).ins = d.ins ∧
    (d.onChan n f).tx = d.tx ∧ (d.onChan n f).fe = d.fe ∧ (d.onChan n f).gov = d.gov ∧ (d.onChan n f).fre = d.fre ∧
    (d.onChan n f).sig = d.sig ∧ (d.onChan n f).chains = d.chains ∧ (d.onChan n f).weave = d.weave ∧ (d.onChan n f).xce = d.xce ∧
    (d.onChan n f).mem = d.mem ∧ (d.onChan n f).fab = d.fab ∧ (d.onChan n f).cores = d.cores ∧ (d.onChan n f).dpd = d.dpd ∧
    (d.onChan n f).cal = d.cal ∧ (d.onChan n f).syn = d.syn ∧ (d.onChan n f).bcn = d.bcn ∧ (d.onChan n f).ctl = d.ctl ∧
    (d.onChan n f).nvm = d.nvm ∧ (d.onChan n f).pwr = d.pwr ∧ (d.onChan n f).qs = d.qs ∧ (d.onChan n f).free = d.free :=
  ⟨rfl, rfl, rfl, rfl, rfl, rfl, rfl, rfl, rfl, rfl, rfl, rfl, rfl, rfl, rfl, rfl, rfl, rfl, rfl, rfl, rfl, rfl, rfl, rfl, rfl, rfl, rfl, rfl⟩

/-- What `onChain` changes, and what it leaves. -/
@[simp] theorem onChain_chains (d : Dev) (s : Nat) (f : ChainNode → ChainNode) : (d.onChain s f).chains = upd d.chains s f := rfl
@[simp] theorem onChain_others (d : Dev) (s : Nat) (f : ChainNode → ChainNode) :
    (d.onChain s f).ident = d.ident ∧ (d.onChain s f).lnk = d.lnk ∧ (d.onChain s f).tmb = d.tmb ∧ (d.onChain s f).lanes = d.lanes ∧
    (d.onChain s f).quads = d.quads ∧ (d.onChain s f).rx = d.rx ∧ (d.onChain s f).outs = d.outs ∧ (d.onChain s f).ins = d.ins ∧
    (d.onChain s f).tx = d.tx ∧ (d.onChain s f).fe = d.fe ∧ (d.onChain s f).gov = d.gov ∧ (d.onChain s f).fre = d.fre ∧
    (d.onChain s f).sig = d.sig ∧ (d.onChain s f).weave = d.weave ∧ (d.onChain s f).xce = d.xce ∧ (d.onChain s f).mem = d.mem ∧
    (d.onChain s f).fab = d.fab ∧ (d.onChain s f).dma = d.dma ∧ (d.onChain s f).cores = d.cores ∧ (d.onChain s f).dpd = d.dpd ∧
    (d.onChain s f).cal = d.cal ∧ (d.onChain s f).syn = d.syn ∧ (d.onChain s f).bcn = d.bcn ∧ (d.onChain s f).ctl = d.ctl ∧
    (d.onChain s f).nvm = d.nvm ∧ (d.onChain s f).pwr = d.pwr ∧ (d.onChain s f).qs = d.qs ∧ (d.onChain s f).free = d.free :=
  ⟨rfl, rfl, rfl, rfl, rfl, rfl, rfl, rfl, rfl, rfl, rfl, rfl, rfl, rfl, rfl, rfl, rfl, rfl, rfl, rfl, rfl, rfl, rfl, rfl, rfl, rfl, rfl, rfl⟩

/-- What `onWeave` changes, and what it leaves. -/
@[simp] theorem onWeave_weave (d : Dev) (f : Weave → Weave) : (d.onWeave f).weave = f d.weave := rfl
@[simp] theorem onWeave_others (d : Dev) (f : Weave → Weave) :
    (d.onWeave f).ident = d.ident ∧ (d.onWeave f).lnk = d.lnk ∧ (d.onWeave f).tmb = d.tmb ∧ (d.onWeave f).lanes = d.lanes ∧
    (d.onWeave f).quads = d.quads ∧ (d.onWeave f).rx = d.rx ∧ (d.onWeave f).outs = d.outs ∧ (d.onWeave f).ins = d.ins ∧
    (d.onWeave f).tx = d.tx ∧ (d.onWeave f).fe = d.fe ∧ (d.onWeave f).gov = d.gov ∧ (d.onWeave f).fre = d.fre ∧ (d.onWeave f).sig = d.sig ∧
    (d.onWeave f).chains = d.chains ∧ (d.onWeave f).xce = d.xce ∧ (d.onWeave f).mem = d.mem ∧ (d.onWeave f).fab = d.fab ∧
    (d.onWeave f).dma = d.dma ∧ (d.onWeave f).cores = d.cores ∧ (d.onWeave f).dpd = d.dpd ∧ (d.onWeave f).cal = d.cal ∧
    (d.onWeave f).syn = d.syn ∧ (d.onWeave f).bcn = d.bcn ∧ (d.onWeave f).ctl = d.ctl ∧ (d.onWeave f).nvm = d.nvm ∧
    (d.onWeave f).pwr = d.pwr ∧ (d.onWeave f).qs = d.qs ∧ (d.onWeave f).free = d.free :=
  ⟨rfl, rfl, rfl, rfl, rfl, rfl, rfl, rfl, rfl, rfl, rfl, rfl, rfl, rfl, rfl, rfl, rfl, rfl, rfl, rfl, rfl, rfl, rfl, rfl, rfl, rfl, rfl, rfl⟩

/-- What `onXce` changes, and what it leaves. -/
@[simp] theorem onXce_xce (d : Dev) (f : Xce → Xce) : (d.onXce f).xce = f d.xce := rfl
@[simp] theorem onXce_others (d : Dev) (f : Xce → Xce) :
    (d.onXce f).ident = d.ident ∧ (d.onXce f).lnk = d.lnk ∧ (d.onXce f).tmb = d.tmb ∧ (d.onXce f).lanes = d.lanes ∧
    (d.onXce f).quads = d.quads ∧ (d.onXce f).rx = d.rx ∧ (d.onXce f).outs = d.outs ∧ (d.onXce f).ins = d.ins ∧ (d.onXce f).tx = d.tx ∧
    (d.onXce f).fe = d.fe ∧ (d.onXce f).gov = d.gov ∧ (d.onXce f).fre = d.fre ∧ (d.onXce f).sig = d.sig ∧ (d.onXce f).chains = d.chains ∧
    (d.onXce f).weave = d.weave ∧ (d.onXce f).mem = d.mem ∧ (d.onXce f).fab = d.fab ∧ (d.onXce f).dma = d.dma ∧
    (d.onXce f).cores = d.cores ∧ (d.onXce f).dpd = d.dpd ∧ (d.onXce f).cal = d.cal ∧ (d.onXce f).syn = d.syn ∧ (d.onXce f).bcn = d.bcn ∧
    (d.onXce f).ctl = d.ctl ∧ (d.onXce f).nvm = d.nvm ∧ (d.onXce f).pwr = d.pwr ∧ (d.onXce f).qs = d.qs ∧ (d.onXce f).free = d.free :=
  ⟨rfl, rfl, rfl, rfl, rfl, rfl, rfl, rfl, rfl, rfl, rfl, rfl, rfl, rfl, rfl, rfl, rfl, rfl, rfl, rfl, rfl, rfl, rfl, rfl, rfl, rfl, rfl, rfl⟩

/-- What `onDpd` changes, and what it leaves. -/
@[simp] theorem onDpd_dpd (d : Dev) (f : Dpd → Dpd) : (d.onDpd f).dpd = f d.dpd := rfl
@[simp] theorem onDpd_others (d : Dev) (f : Dpd → Dpd) :
    (d.onDpd f).ident = d.ident ∧ (d.onDpd f).lnk = d.lnk ∧ (d.onDpd f).tmb = d.tmb ∧ (d.onDpd f).lanes = d.lanes ∧
    (d.onDpd f).quads = d.quads ∧ (d.onDpd f).rx = d.rx ∧ (d.onDpd f).outs = d.outs ∧ (d.onDpd f).ins = d.ins ∧ (d.onDpd f).tx = d.tx ∧
    (d.onDpd f).fe = d.fe ∧ (d.onDpd f).gov = d.gov ∧ (d.onDpd f).fre = d.fre ∧ (d.onDpd f).sig = d.sig ∧ (d.onDpd f).chains = d.chains ∧
    (d.onDpd f).weave = d.weave ∧ (d.onDpd f).xce = d.xce ∧ (d.onDpd f).mem = d.mem ∧ (d.onDpd f).fab = d.fab ∧ (d.onDpd f).dma = d.dma ∧
    (d.onDpd f).cores = d.cores ∧ (d.onDpd f).cal = d.cal ∧ (d.onDpd f).syn = d.syn ∧ (d.onDpd f).bcn = d.bcn ∧ (d.onDpd f).ctl = d.ctl ∧
    (d.onDpd f).nvm = d.nvm ∧ (d.onDpd f).pwr = d.pwr ∧ (d.onDpd f).qs = d.qs ∧ (d.onDpd f).free = d.free :=
  ⟨rfl, rfl, rfl, rfl, rfl, rfl, rfl, rfl, rfl, rfl, rfl, rfl, rfl, rfl, rfl, rfl, rfl, rfl, rfl, rfl, rfl, rfl, rfl, rfl, rfl, rfl, rfl, rfl⟩

/-- What `onDpdPath` changes, and what it leaves. -/
@[simp] theorem onDpdPath_dpd (d : Dev) (p : Nat) (f : DpdPath → DpdPath) : (d.onDpdPath p f).dpd = { d.dpd with paths := upd d.dpd.paths p f } := rfl
@[simp] theorem onDpdPath_others (d : Dev) (p : Nat) (f : DpdPath → DpdPath) :
    (d.onDpdPath p f).ident = d.ident ∧ (d.onDpdPath p f).lnk = d.lnk ∧ (d.onDpdPath p f).tmb = d.tmb ∧ (d.onDpdPath p f).lanes = d.lanes ∧
    (d.onDpdPath p f).quads = d.quads ∧ (d.onDpdPath p f).rx = d.rx ∧ (d.onDpdPath p f).outs = d.outs ∧ (d.onDpdPath p f).ins = d.ins ∧
    (d.onDpdPath p f).tx = d.tx ∧ (d.onDpdPath p f).fe = d.fe ∧ (d.onDpdPath p f).gov = d.gov ∧ (d.onDpdPath p f).fre = d.fre ∧
    (d.onDpdPath p f).sig = d.sig ∧ (d.onDpdPath p f).chains = d.chains ∧ (d.onDpdPath p f).weave = d.weave ∧
    (d.onDpdPath p f).xce = d.xce ∧ (d.onDpdPath p f).mem = d.mem ∧ (d.onDpdPath p f).fab = d.fab ∧ (d.onDpdPath p f).dma = d.dma ∧
    (d.onDpdPath p f).cores = d.cores ∧ (d.onDpdPath p f).cal = d.cal ∧ (d.onDpdPath p f).syn = d.syn ∧ (d.onDpdPath p f).bcn = d.bcn ∧
    (d.onDpdPath p f).ctl = d.ctl ∧ (d.onDpdPath p f).nvm = d.nvm ∧ (d.onDpdPath p f).pwr = d.pwr ∧ (d.onDpdPath p f).qs = d.qs ∧
    (d.onDpdPath p f).free = d.free :=
  ⟨rfl, rfl, rfl, rfl, rfl, rfl, rfl, rfl, rfl, rfl, rfl, rfl, rfl, rfl, rfl, rfl, rfl, rfl, rfl, rfl, rfl, rfl, rfl, rfl, rfl, rfl, rfl, rfl⟩

/-- What `onCal` changes, and what it leaves. -/
@[simp] theorem onCal_cal (d : Dev) (f : Cal → Cal) : (d.onCal f).cal = f d.cal := rfl
@[simp] theorem onCal_others (d : Dev) (f : Cal → Cal) :
    (d.onCal f).ident = d.ident ∧ (d.onCal f).lnk = d.lnk ∧ (d.onCal f).tmb = d.tmb ∧ (d.onCal f).lanes = d.lanes ∧
    (d.onCal f).quads = d.quads ∧ (d.onCal f).rx = d.rx ∧ (d.onCal f).outs = d.outs ∧ (d.onCal f).ins = d.ins ∧ (d.onCal f).tx = d.tx ∧
    (d.onCal f).fe = d.fe ∧ (d.onCal f).gov = d.gov ∧ (d.onCal f).fre = d.fre ∧ (d.onCal f).sig = d.sig ∧ (d.onCal f).chains = d.chains ∧
    (d.onCal f).weave = d.weave ∧ (d.onCal f).xce = d.xce ∧ (d.onCal f).mem = d.mem ∧ (d.onCal f).fab = d.fab ∧ (d.onCal f).dma = d.dma ∧
    (d.onCal f).cores = d.cores ∧ (d.onCal f).dpd = d.dpd ∧ (d.onCal f).syn = d.syn ∧ (d.onCal f).bcn = d.bcn ∧ (d.onCal f).ctl = d.ctl ∧
    (d.onCal f).nvm = d.nvm ∧ (d.onCal f).pwr = d.pwr ∧ (d.onCal f).qs = d.qs ∧ (d.onCal f).free = d.free :=
  ⟨rfl, rfl, rfl, rfl, rfl, rfl, rfl, rfl, rfl, rfl, rfl, rfl, rfl, rfl, rfl, rfl, rfl, rfl, rfl, rfl, rfl, rfl, rfl, rfl, rfl, rfl, rfl, rfl⟩

/-- What `onSyn` changes, and what it leaves. -/
@[simp] theorem onSyn_syn (d : Dev) (f : Syn → Syn) : (d.onSyn f).syn = f d.syn := rfl
@[simp] theorem onSyn_others (d : Dev) (f : Syn → Syn) :
    (d.onSyn f).ident = d.ident ∧ (d.onSyn f).lnk = d.lnk ∧ (d.onSyn f).tmb = d.tmb ∧ (d.onSyn f).lanes = d.lanes ∧
    (d.onSyn f).quads = d.quads ∧ (d.onSyn f).rx = d.rx ∧ (d.onSyn f).outs = d.outs ∧ (d.onSyn f).ins = d.ins ∧ (d.onSyn f).tx = d.tx ∧
    (d.onSyn f).fe = d.fe ∧ (d.onSyn f).gov = d.gov ∧ (d.onSyn f).fre = d.fre ∧ (d.onSyn f).sig = d.sig ∧ (d.onSyn f).chains = d.chains ∧
    (d.onSyn f).weave = d.weave ∧ (d.onSyn f).xce = d.xce ∧ (d.onSyn f).mem = d.mem ∧ (d.onSyn f).fab = d.fab ∧ (d.onSyn f).dma = d.dma ∧
    (d.onSyn f).cores = d.cores ∧ (d.onSyn f).dpd = d.dpd ∧ (d.onSyn f).cal = d.cal ∧ (d.onSyn f).bcn = d.bcn ∧ (d.onSyn f).ctl = d.ctl ∧
    (d.onSyn f).nvm = d.nvm ∧ (d.onSyn f).pwr = d.pwr ∧ (d.onSyn f).qs = d.qs ∧ (d.onSyn f).free = d.free :=
  ⟨rfl, rfl, rfl, rfl, rfl, rfl, rfl, rfl, rfl, rfl, rfl, rfl, rfl, rfl, rfl, rfl, rfl, rfl, rfl, rfl, rfl, rfl, rfl, rfl, rfl, rfl, rfl, rfl⟩

/-- What `onBcn` changes, and what it leaves. -/
@[simp] theorem onBcn_bcn (d : Dev) (f : Bcn → Bcn) : (d.onBcn f).bcn = f d.bcn := rfl
@[simp] theorem onBcn_others (d : Dev) (f : Bcn → Bcn) :
    (d.onBcn f).ident = d.ident ∧ (d.onBcn f).lnk = d.lnk ∧ (d.onBcn f).tmb = d.tmb ∧ (d.onBcn f).lanes = d.lanes ∧
    (d.onBcn f).quads = d.quads ∧ (d.onBcn f).rx = d.rx ∧ (d.onBcn f).outs = d.outs ∧ (d.onBcn f).ins = d.ins ∧ (d.onBcn f).tx = d.tx ∧
    (d.onBcn f).fe = d.fe ∧ (d.onBcn f).gov = d.gov ∧ (d.onBcn f).fre = d.fre ∧ (d.onBcn f).sig = d.sig ∧ (d.onBcn f).chains = d.chains ∧
    (d.onBcn f).weave = d.weave ∧ (d.onBcn f).xce = d.xce ∧ (d.onBcn f).mem = d.mem ∧ (d.onBcn f).fab = d.fab ∧ (d.onBcn f).dma = d.dma ∧
    (d.onBcn f).cores = d.cores ∧ (d.onBcn f).dpd = d.dpd ∧ (d.onBcn f).cal = d.cal ∧ (d.onBcn f).syn = d.syn ∧ (d.onBcn f).ctl = d.ctl ∧
    (d.onBcn f).nvm = d.nvm ∧ (d.onBcn f).pwr = d.pwr ∧ (d.onBcn f).qs = d.qs ∧ (d.onBcn f).free = d.free :=
  ⟨rfl, rfl, rfl, rfl, rfl, rfl, rfl, rfl, rfl, rfl, rfl, rfl, rfl, rfl, rfl, rfl, rfl, rfl, rfl, rfl, rfl, rfl, rfl, rfl, rfl, rfl, rfl, rfl⟩

/-- What `onCore` changes, and what it leaves. -/
@[simp] theorem onCore_cores (d : Dev) (n : Nat) (f : Core → Core) : (d.onCore n f).cores = upd d.cores n f := rfl
@[simp] theorem onCore_others (d : Dev) (n : Nat) (f : Core → Core) :
    (d.onCore n f).ident = d.ident ∧ (d.onCore n f).lnk = d.lnk ∧ (d.onCore n f).tmb = d.tmb ∧ (d.onCore n f).lanes = d.lanes ∧
    (d.onCore n f).quads = d.quads ∧ (d.onCore n f).rx = d.rx ∧ (d.onCore n f).outs = d.outs ∧ (d.onCore n f).ins = d.ins ∧
    (d.onCore n f).tx = d.tx ∧ (d.onCore n f).fe = d.fe ∧ (d.onCore n f).gov = d.gov ∧ (d.onCore n f).fre = d.fre ∧
    (d.onCore n f).sig = d.sig ∧ (d.onCore n f).chains = d.chains ∧ (d.onCore n f).weave = d.weave ∧ (d.onCore n f).xce = d.xce ∧
    (d.onCore n f).mem = d.mem ∧ (d.onCore n f).fab = d.fab ∧ (d.onCore n f).dma = d.dma ∧ (d.onCore n f).dpd = d.dpd ∧
    (d.onCore n f).cal = d.cal ∧ (d.onCore n f).syn = d.syn ∧ (d.onCore n f).bcn = d.bcn ∧ (d.onCore n f).ctl = d.ctl ∧
    (d.onCore n f).nvm = d.nvm ∧ (d.onCore n f).pwr = d.pwr ∧ (d.onCore n f).qs = d.qs ∧ (d.onCore n f).free = d.free :=
  ⟨rfl, rfl, rfl, rfl, rfl, rfl, rfl, rfl, rfl, rfl, rfl, rfl, rfl, rfl, rfl, rfl, rfl, rfl, rfl, rfl, rfl, rfl, rfl, rfl, rfl, rfl, rfl, rfl⟩

/-- What `onCtl` changes, and what it leaves. -/
@[simp] theorem onCtl_ctl (d : Dev) (f : Ctl → Ctl) : (d.onCtl f).ctl = f d.ctl := rfl
@[simp] theorem onCtl_others (d : Dev) (f : Ctl → Ctl) :
    (d.onCtl f).ident = d.ident ∧ (d.onCtl f).lnk = d.lnk ∧ (d.onCtl f).tmb = d.tmb ∧ (d.onCtl f).lanes = d.lanes ∧
    (d.onCtl f).quads = d.quads ∧ (d.onCtl f).rx = d.rx ∧ (d.onCtl f).outs = d.outs ∧ (d.onCtl f).ins = d.ins ∧ (d.onCtl f).tx = d.tx ∧
    (d.onCtl f).fe = d.fe ∧ (d.onCtl f).gov = d.gov ∧ (d.onCtl f).fre = d.fre ∧ (d.onCtl f).sig = d.sig ∧ (d.onCtl f).chains = d.chains ∧
    (d.onCtl f).weave = d.weave ∧ (d.onCtl f).xce = d.xce ∧ (d.onCtl f).mem = d.mem ∧ (d.onCtl f).fab = d.fab ∧ (d.onCtl f).dma = d.dma ∧
    (d.onCtl f).cores = d.cores ∧ (d.onCtl f).dpd = d.dpd ∧ (d.onCtl f).cal = d.cal ∧ (d.onCtl f).syn = d.syn ∧ (d.onCtl f).bcn = d.bcn ∧
    (d.onCtl f).nvm = d.nvm ∧ (d.onCtl f).pwr = d.pwr ∧ (d.onCtl f).qs = d.qs ∧ (d.onCtl f).free = d.free :=
  ⟨rfl, rfl, rfl, rfl, rfl, rfl, rfl, rfl, rfl, rfl, rfl, rfl, rfl, rfl, rfl, rfl, rfl, rfl, rfl, rfl, rfl, rfl, rfl, rfl, rfl, rfl, rfl, rfl⟩

/-- What `onNvm` changes, and what it leaves. -/
@[simp] theorem onNvm_nvm (d : Dev) (f : Nvm → Nvm) : (d.onNvm f).nvm = f d.nvm := rfl
@[simp] theorem onNvm_others (d : Dev) (f : Nvm → Nvm) :
    (d.onNvm f).ident = d.ident ∧ (d.onNvm f).lnk = d.lnk ∧ (d.onNvm f).tmb = d.tmb ∧ (d.onNvm f).lanes = d.lanes ∧
    (d.onNvm f).quads = d.quads ∧ (d.onNvm f).rx = d.rx ∧ (d.onNvm f).outs = d.outs ∧ (d.onNvm f).ins = d.ins ∧ (d.onNvm f).tx = d.tx ∧
    (d.onNvm f).fe = d.fe ∧ (d.onNvm f).gov = d.gov ∧ (d.onNvm f).fre = d.fre ∧ (d.onNvm f).sig = d.sig ∧ (d.onNvm f).chains = d.chains ∧
    (d.onNvm f).weave = d.weave ∧ (d.onNvm f).xce = d.xce ∧ (d.onNvm f).mem = d.mem ∧ (d.onNvm f).fab = d.fab ∧ (d.onNvm f).dma = d.dma ∧
    (d.onNvm f).cores = d.cores ∧ (d.onNvm f).dpd = d.dpd ∧ (d.onNvm f).cal = d.cal ∧ (d.onNvm f).syn = d.syn ∧ (d.onNvm f).bcn = d.bcn ∧
    (d.onNvm f).ctl = d.ctl ∧ (d.onNvm f).pwr = d.pwr ∧ (d.onNvm f).qs = d.qs ∧ (d.onNvm f).free = d.free :=
  ⟨rfl, rfl, rfl, rfl, rfl, rfl, rfl, rfl, rfl, rfl, rfl, rfl, rfl, rfl, rfl, rfl, rfl, rfl, rfl, rfl, rfl, rfl, rfl, rfl, rfl, rfl, rfl, rfl⟩

/-- What `onJob` changes, and what it leaves. -/
@[simp] theorem onJob_nvm (d : Dev) (k : Nat) (f : NvmJob → NvmJob) : (d.onJob k f).nvm = { d.nvm with jobs := upd d.nvm.jobs k f } := rfl
@[simp] theorem onJob_others (d : Dev) (k : Nat) (f : NvmJob → NvmJob) :
    (d.onJob k f).ident = d.ident ∧ (d.onJob k f).lnk = d.lnk ∧ (d.onJob k f).tmb = d.tmb ∧ (d.onJob k f).lanes = d.lanes ∧
    (d.onJob k f).quads = d.quads ∧ (d.onJob k f).rx = d.rx ∧ (d.onJob k f).outs = d.outs ∧ (d.onJob k f).ins = d.ins ∧
    (d.onJob k f).tx = d.tx ∧ (d.onJob k f).fe = d.fe ∧ (d.onJob k f).gov = d.gov ∧ (d.onJob k f).fre = d.fre ∧ (d.onJob k f).sig = d.sig ∧
    (d.onJob k f).chains = d.chains ∧ (d.onJob k f).weave = d.weave ∧ (d.onJob k f).xce = d.xce ∧ (d.onJob k f).mem = d.mem ∧
    (d.onJob k f).fab = d.fab ∧ (d.onJob k f).dma = d.dma ∧ (d.onJob k f).cores = d.cores ∧ (d.onJob k f).dpd = d.dpd ∧
    (d.onJob k f).cal = d.cal ∧ (d.onJob k f).syn = d.syn ∧ (d.onJob k f).bcn = d.bcn ∧ (d.onJob k f).ctl = d.ctl ∧
    (d.onJob k f).pwr = d.pwr ∧ (d.onJob k f).qs = d.qs ∧ (d.onJob k f).free = d.free :=
  ⟨rfl, rfl, rfl, rfl, rfl, rfl, rfl, rfl, rfl, rfl, rfl, rfl, rfl, rfl, rfl, rfl, rfl, rfl, rfl, rfl, rfl, rfl, rfl, rfl, rfl, rfl, rfl, rfl⟩

/-- A counter of the unit's power records raised, and what that leaves. -/
@[simp] theorem pwrCount_lnk (d : Dev) (k n : Nat) : (d.pwrCount k n).lnk = d.lnk ∧ (d.pwrCount k n).tmb = d.tmb ∧ (d.pwrCount k n).mem = d.mem :=
  ⟨rfl, rfl, rfl⟩

/-- A frame put behind the others of a port changes the link alone. -/
theorem post_eq (d : Dev) (port : Nat) (w : Waiting) : d.post port w = { d with lnk := (d.post port w).lnk } := by
  unfold Dev.post
  split <;> rfl

/-- A packet handed to an egress queue changes the link alone. -/
theorem sendPkt_eq (d : Dev) (port queue : Nat) (dst : Addr) (type flags session channel : Nat) (payload : List Nat) (a b : Nat) :
    d.sendPkt port queue dst type flags session channel payload a b
      = { d with lnk := (d.sendPkt port queue dst type flags session channel payload a b).lnk } := post_eq _ _ _

/-- The frames of a response change the link alone. -/
theorem sendRsp_eq (d : Dev) (r : Rsp) : d.sendRsp r = { d with lnk := (d.sendRsp r).lnk } := by
  unfold Dev.sendRsp
  generalize r.frames d 2 d.axis = l
  induction l generalizing d with
  | nil => rfl
  | cons f l ih =>
    rw [List.foldl_cons, ih, post_eq]

/-- Raising an event changes the link alone. -/
theorem raiseEv_eq (d : Dev) (e : EvCode) (args : List Field) : raiseEv d e args = { d with lnk := (raiseEv d e args).lnk } := rfl

/-- A response changes the link, and a launch buffer where it is spread (R138). -/
theorem respond_eq (d : Dev) (h : Hdr) (info : CmdInfo) (r : Reply) :
    (respond d h info r).1 = { d with
      lnk := (respond d h info r).1.lnk
      tmb := { d.tmb with launches := (respond d h info r).1.tmb.launches } } := by
  have hs : ∀ (d : Dev) b p, sendSpread d b p = { d with
      lnk := (sendSpread d b p).lnk
      tmb := { d.tmb with launches := (sendSpread d b p).tmb.launches } } := by
    intro d b p
    unfold sendSpread
    simp only
    split
    · split <;> rfl
    · rfl
  have ha : ∀ (d : Dev) p, d.answer h p = { d with
      lnk := (d.answer h p).lnk
      tmb := { d.tmb with launches := (d.answer h p).tmb.launches } } := by
    intro d p
    have hr := sendRsp_eq d p
    unfold Dev.answer
    split
    · split
      · exact hs _ _ _
      · rw [hr]
    · rw [hr]
  unfold respond
  simp only
  repeat' split
  all_goals first | exact ha _ _ | rfl

/-- A command that completes changes the link, and a launch buffer where its response is spread. -/
theorem finish_eq (d : Dev) (h : Hdr) (info : CmdInfo) (r : Reply) (t : Nat) :
    finish d h info r t = { d with
      lnk := (finish d h info r t).lnk
      tmb := { d.tmb with launches := (finish d h info r t).tmb.launches } } := by
  unfold finish
  generalize hp : respond d h info r = p
  have e := respond_eq d h info r
  rw [hp] at e
  obtain ⟨x, q⟩ := p
  simp only at e ⊢
  rw [e]
  rfl

end Sys2Proof.Machine
end

