-- ==== Sys2Proof/WellFormed.lean ====
section
/-! DEFINITION. Which commands are well formed: every operand fits the field the manual gives it (the widths in
bytes are those of the argument tables of each chapter, big-endian under R117). -/

namespace Sys2Proof

/-- A value of `w` bytes. -/
def fits (w n : Nat) : Bool := decide (n < 256 ^ w)

/-- A two's complement value of `w` bytes. -/
def fitsS (w : Nat) (z : Int) : Bool := decide (-(2 : Int) ^ (8 * w - 1) ≤ z) && decide (z < (2 : Int) ^ (8 * w - 1))

/-- A list of values of `w` bytes each. -/
def allFit (w : Nat) (l : List Nat) : Bool := l.all (fits w)

/-- At most `n` bytes. -/
def bytesUpTo (n : Nat) (l : List Nat) : Bool := decide (l.length ≤ n) && allFit 1 l

/-- At most `n` values of `w` bytes each. -/
def listOf (n w : Nat) (l : List Nat) : Bool := decide (l.length ≤ n) && allFit w l

def Addr.wf (a : Addr) : Bool := fits 6 a.eth && fits 16 a.ip && fits 2 a.udp

def SpreadBlock.wf (b : SpreadBlock) : Bool :=
  fits 8 b.base && fits 2 b.spread && fits 1 b.key && fits 1 b.reserved && fits 4 b.slot

def Wire.wf (w : Wire) : Bool := fits 1 w.tags && fits 2 w.key

/-- A packet's port is a lane 0 to 31 or the service port 32, and its fields fit. -/
def PktIn.wf (p : PktIn) : Bool := decide (p.port ≤ 32) && p.src.wf && p.wire.wf

def RawPkt.wf (p : RawPkt) : Bool := p.src.wf && p.wire.wf && bytesUpTo 9216 p.bytes

def DirectFrame.wf (f : DirectFrame) : Bool := fits 1 f.cls && allFit 1 f.bytes && fits 4 f.crc

/-- A header's fields fit, and the port is a lane 0 to 31 or the service port 32. -/
def Hdr.wf (h : Hdr) : Bool :=
  decide (h.port ≤ 32) && h.src.wf && decide (h.unit < 2 ^ 18) && decide (h.session < 16) && fits 1 h.channel
    && fits 4 h.seq && h.spread.all SpreadBlock.wf && h.wire.wf

def Encap.wf (e : Encap) : Bool :=
  fits 2 e.etherType && fits 2 e.udpPort && fits 2 e.vlan && fits 1 e.ipv4Mode && fits 4 e.ipv4
    && fits 1 e.prefixLen && fits 4 e.gateway && fits 16 e.ipv6

def Time12.wf (t : Time12) : Bool := fits 6 t.sec && fits 4 t.ns && fits 2 t.frac

def Stake.wf (k : Stake) : Bool :=
  fits 8 k.position && fits 2 k.action && fits 2 k.target && fits 1 k.flags && fits 1 k.deferLimit
    && fits 2 k.repeatCount && fits 4 k.repeatPeriod && fits 4 k.tag && fits 8 k.argument

/-- The fields of R193 and R225 that both objects share fit; five section lengths. -/
def ChainPar.wf (c : ChainPar) : Bool :=
  fits 5 c.rf && fits 1 c.profile && fits 4 c.phase && fits 1 c.aSections && decide (c.aLength.length = 5) && allFit 1 c.aLength
    && fits 1 c.aFactor && fits 1 c.aShift && fits 1 c.bFactor && fits 1 c.bShift && fits 2 c.bTaps && fits 1 c.bCoef && fits 1 c.reserved23
    && fits 2 c.bDelay && fits 1 c.cShift && fits 1 c.windowMode && fits 4 c.cRatio && fits 8 c.cAnchor

def RxCfg.wf (c : RxCfg) : Bool := c.chain.wf && fits 1 c.consumers && fits 7 c.reserved41

def TxCfg.wf (c : TxCfg) : Bool := c.chain.wf && fits 1 c.source && fits 2 c.gain && fits 5 c.reserved43

def FreCfg.wf (c : FreCfg) : Bool :=
  fits 1 c.mode && fits 1 c.log2 && fits 1 c.taps && fits 1 c.oversample && fits 1 c.window && fits 1 c.mu && fits 1 c.cpType && fits 1 c.pfbShift
    && fits 2 c.fftShift && fits 2 c.wola && fitsS 4 c.symOffset && fits 2 c.backoff && fits 2 c.eqGroup && fits 4 c.firstCh && fits 4 c.nCh
    && fits 1 c.eqShift && fits 1 c.rq4 && fits 1 c.rq8 && fits 1 c.consumers && fits 8 c.anchor && fits 24 c.reserved40

/-- A chain node's object fits its fields (R294). -/
def ChainCfg.wf (c : ChainCfg) : Bool :=
  fits 2 c.chainId && fits 1 c.sb && fits 1 c.flags && fits 1 c.parent && listOf 3 1 c.childs && fits 4 c.offset && fits 2 c.frameCh && fits 1 c.firstBeam
    && fits 1 c.beams && fits 2 c.expected && fits 1 c.depth && fits 1 c.reserved19 && fits 2 c.stall && fits 10 c.reserved22

/-- The coppice header fits its fields (R324). -/
def WeaveHdr.wf (c : WeaveHdr) : Bool :=
  fits 2 c.id && fits 2 c.epoch && fits 1 c.sb && fits 1 c.format && fits 1 c.mode && fits 1 c.maxGroups && fits 1 c.n1 && fits 1 c.n2 && fits 1 c.n3
    && fits 1 c.reserved11 && fits 2 c.members && fits 2 c.own && fits 4 c.deadline && fits 2 c.covGroup && fits 2 c.covSpan && fits 40 c.reserved24

/-- The lane map has 32 entries of four bytes (R324). -/
def LaneMaps.wf (m : LaneMaps) : Bool :=
  decide (m.maps.length = 32) && m.maps.all fun e => fits 1 e.dim && fits 1 e.partner && fits 1 e.pos && fits 1 e.zero

/-- WEAVE-MEMBERS carries 1 to 64 entries of 16 bytes (R318, R346). -/
def Members.wf (m : Members) : Bool :=
  decide (m.list.length < 256) && m.list.all fun e => fits 3 e.unit && fits 1 e.flags && fits 2 e.first && fits 2 e.count && fits 8 e.mask

/-- The correlator's object fits its fields (R377). -/
def XceCfg.wf (c : XceCfg) : Bool :=
  fits 1 c.mode && fits 1 c.tiles && fits 1 c.outMode && fits 1 c.intOut && fits 4 c.dramBlocks && fits 4 c.intPasses && fits 4 c.outRate && fits 1 c.dest
    && fits 1 c.reportLane && fits 2 c.reserved18 && fits 4 c.fwdLanes && fits 8 c.anchor && fits 16 c.reserved32

/-- The predistortion object fits its fields (R386). -/
def DpdCfg.wf (c : DpdCfg) : Bool :=
  fits 1 c.dpdOn && fits 1 c.order && fits 1 c.mem && fits 1 c.nbrMem && fits 1 c.nbrLo && fits 1 c.nbrHi && fits 2 c.capLen && fits 1 c.step
    && fits 1 c.reg && fitsS 2 c.boundNmse && fitsS 2 c.boundOob && fitsS 2 c.hardNmse && fitsS 2 c.hardOob && fits 2 c.maxAge && fits 1 c.tempDrift
    && fits 1 c.stepDrift && fits 1 c.backoffMax && fits 9 c.reserved23

/-- OTA-SET carries at most 255 partners of 8 bytes (R443). -/
def Partners.wf (p : Partners) : Bool :=
  decide (p.list.length < 256) && p.list.all fun e => fits 3 e.unit && fits 1 e.path && fits 1 e.partnerPath && fits 1 e.flags && fits 2 e.zero

/-- The beacon object fits its fields (R478). -/
def BcnCfg.wf (c : BcnCfg) : Bool :=
  fits 1 c.kind && fits 1 c.txPath && fits 5 c.freq && fits 1 c.level && fits 1 c.nr && fits 1 c.tailLen && fits 2 c.tailBw && fits 1 c.rxPath
    && fits 1 c.captureMargin && fits 1 c.detectMargin && fits 1 c.rxFlags && fits 1 c.dest && fits 1 c.reportLane && fits 5 c.rxFreq && fits 9 c.reserved23

/-- A descriptor fits its fields (R539). -/
def Desc.wf (c : Desc) : Bool :=
  fits 8 c.src && fits 8 c.dst && fits 2 c.elemLen && fits 2 c.n0 && fits 2 c.n1 && fits 2 c.n2 && decide (c.srcS.length = 3) && c.srcS.all (fitsS 4)
    && decide (c.dstS.length = 3) && c.dstS.all (fitsS 4) && fits 8 c.link && fits 4 c.ctl && fits 4 c.result

def Descs.wf (l : Descs) : Bool := decide (l.list.length < 256) && l.list.all Desc.wf

/-- The key slots are V0, V1 and O0 to O3 (R620). -/
def SigCheck.wf (c : SigCheck) : Bool := c.keys.all fun k => decide (k < 6)

/-- Four remote inputs (R606). -/
def ExtInputs.wf (l : ExtInputs) : Bool :=
  decide (l.list.length = 4) && l.list.all fun e => fits 1 e.enable && fits 1 e.start && fits 2 e.b && fits 4 e.r25

def StreamPkt.wf (p : StreamPkt) : Bool :=
  fits 1 p.num && fits 8 p.firstAxis && fits 1 p.format && fits 1 p.flags && fits 2 p.groups && fits 2 p.elements && fits 2 p.firstElement
    && fits 4 p.tail && allFit 1 p.data

def EqState.wf (e : EqState) : Bool :=
  decide (e.peak < 16) && fits 1 e.eyeHeight && fits 1 e.eyeWidth && decide (e.dfe.length = 5)
    && e.dfe.all (fun t => decide (-32 ≤ t) && decide (t < 32)) && fitsS 2 e.txPower

/-- A dump has 1,024 visibilities of 24-bit components (R355). -/
def TileDump.wf (t : TileDump) : Bool :=
  t.parity.all (fun e => decide (e.1 < 1024) && decide (e.2.1.natAbs < 2 ^ 23) && decide (e.2.2.natAbs < 2 ^ 23)) && t.thornAcc.all fun k => decide (k < 1024)

/-- A path has at most 72 coefficients (R384). -/
def Coefs.wf (c : Coefs) : Bool := decide (c.list.length ≤ 72) && c.list.all fun x => fitsS 6 x.1 && fitsS 6 x.2

/-- Trims lie in the fields that hold them (R412, R441). -/
def CalResults.wf (r : CalResults) : Bool :=
  (r.paths.all fun p => decide (p.dir < 2) && decide (p.path < 64) && decide (p.coarse < 64) && decide (p.fine < 4096) && decide (-511 ≤ p.gain)
    && decide (p.gain ≤ 511) && fits 2 p.ripple && decide (p.resp.length ≤ 32) && p.resp.all fun x => fitsS 2 x.1 && fitsS 2 x.2)
    && (r.unusable.all fun p => decide (p.1 < 2) && decide (p.2 < 64)) && decide (r.adc.length ≤ 1024)
    && (r.adc.all fun x => fitsS 2 x.1 && fitsS 2 x.2.1 && fitsS 2 x.2.2) && decide (r.dac.length ≤ 2048) && r.dac.all (fitsS 1)
    && decide (r.obs.length ≤ 4) && r.obs.all fun x => fitsS 2 x.1 && fitsS 2 x.2.1 && fitsS 2 x.2.2

/-- A header's fields fit (R464). -/
def BcnHdr.wf (h : BcnHdr) : Bool :=
  [1, 3, 5, 9].contains h.nr && decide (h.version < 16) && decide (h.kind < 16) && decide (h.unit < 2 ^ 18) && fits 1 h.len && fits 1 h.seq

/-- A packet's end fits its fields (R463, R465). -/
def BcnEnd.wf (e : BcnEnd) : Bool :=
  decide (e.payload.length ≤ 124) && allFit 1 e.payload && fitsS 8 e.arrival && fits 2 e.phase && fitsS 2 e.snr

/-- A request of a master 0 to 14, of 1 to 64 beats, at a 40-bit address (R516, R521). -/
def FabReq.wf (r : FabReq) : Bool :=
  decide (r.master < 15) && fits 5 r.addr && decide (1 ≤ r.len) && decide (r.len ≤ 4096) && decide (r.data.length ≤ 4096) && allFit 1 r.data
    && r.off.all (fun k => decide (k < 4096)) && r.thorn.all (fun k => decide (k < 513)) && [0, 1, 2, 3, 4, 8].contains r.hold

/-- One check per image slot; record types and keys fit their fields (R636). -/
def BootCheck.wf (b : BootCheck) : Bool :=
  decide (b.slots.length = 2) && b.slots.all SigCheck.wf && b.discards.all fun e => fits 2 e.1 && fits 4 e.2

def EcdsaSig.wf (g : EcdsaSig) : Bool := fits 48 g.r && fits 48 g.s

def StreamSend.wf (q : StreamSend) : Bool := fits 1 q.num && fits 2 q.groups

def Announce.wf (m : Announce) : Bool := fits 8 m.gm && fits 1 m.clockClass

def PtpCorr.wf (c : PtpCorr) : Bool := fitsS 8 c.sync && fitsS 8 c.delay

def SyncEQl.wf (q : SyncEQl) : Bool := fitsS 4 q.ppb

def LaserReading.wf (m : LaserReading) : Bool := fits 1 m.lane && fitsS 2 m.power

/-- A block has 66 bits, so there are 66 offsets (R95). -/
def LockAt.wf (m : LockAt) : Bool := fits 1 m.lane && decide (m.offset < 66)

/-- A window has 64 blocks (R96). -/
def LockWindow.wf (w : LockWindow) : Bool := decide (w.invalid ≤ 64)

def PrbsRun.wf (p : PrbsRun) : Bool := fits 1 p.lane && fits 2 p.run

def WeaveSend.wf (q : WeaveSend) : Bool := fits 1 q.dest && fits 8 q.axis && fits 2 q.first && fits 1 q.groups

def RowHit.wf (x : RowHit) : Bool := fits 4 x.row && fits 4 x.count

/-- Whether every operand of a command fits its field. -/
def Instr.wf : Instr → Bool
  | .discover h => h.wf
  | .sessionOpen h role takeover keepalive maxPayload => h.wf && fits 1 role && fits 1 takeover && fits 2 keepalive && fits 2 maxPayload
  | .sessionAuth h key sig => h.wf && fits 1 key && sig.wf
  | .sessionClose h => h.wf
  | .sessionKeepalive h => h.wf
  | .sessionStatus h => h.wf
  | .sessionList h => h.wf
  | .sessionEvict h target => h.wf && fits 1 target
  | .eventSubscribe h mask minSev => h.wf && fits 4 mask && fits 1 minSev
  | .eventGet h first count => h.wf && fits 4 first && fits 2 count
  | .bulkOpen h kind len crc => h.wf && fits 1 kind && fits 8 len && fits 4 crc
  | .bulkStatus h handle => h.wf && fits 2 handle
  | .bulkClose h handle => h.wf && fits 2 handle
  | .bulkAbort h handle => h.wf && fits 2 handle
  | .bulkRead h handle offset len pace => h.wf && fits 2 handle && fits 8 offset && fits 8 len && fits 4 pace
  | .bulkResend h handle offset len => h.wf && fits 2 handle && fits 8 offset && fits 8 len
  | .destSet h index eth ipv ip udp maxPayload => h.wf && fits 1 index && fits 6 eth && fits 1 ipv && fits 16 ip && fits 2 udp && fits 2 maxPayload
  | .reportSlotSet h kind dest lane period offset window => h.wf && fits 2 kind && fits 1 dest && fits 1 lane && fits 4 period && fits 4 offset && fits 4 window
  | .reportSlotGet h kind => h.wf && fits 2 kind
  | .linkEncapSet h enc => h.wf && enc.wf
  | .linkEncapGet h => h.wf
  | .linkCounters h port clear => h.wf && fits 1 port && fits 1 clear
  | .quicksetExit h keep => h.wf && fits 1 keep
  | .quicksetEnter h => h.wf
  | .quicksetStatus h => h.wf
  | .unitNumberSet h number => h.wf && fits 3 number
  | .sysReset h position => h.wf && fits 8 position
  | .sysStatus h => h.wf
  | .timeGet h => h.wf
  | .timeSourceSet h pa pb pl pp revertive qual => h.wf && fits 1 pa && fits 1 pb && fits 1 pl && fits 1 pp && fits 1 revertive && fits 2 qual
  | .ptpConfig h dom number lane dest => h.wf && fits 1 dom && fits 1 number && fits 1 lane && fits 1 dest
  | .ptpStatus h dom => h.wf && fits 1 dom
  | .timeSwitch h source => h.wf && fits 1 source
  | .timeSlewSet h limit maxOffset => h.wf && fits 2 limit && fits 4 maxOffset
  | .timeStep h source setAxis epoch frameLen => h.wf && fits 1 source && fits 1 setAxis && epoch.wf && fits 4 frameLen
  | .laneTimeConfig h lane role asym => h.wf && fits 1 lane && fits 1 role && fitsS 4 asym
  | .laneTimeStatus h => h.wf
  | .ppsConfig h enable width comp tod => h.wf && fits 1 enable && fits 2 width && fits 2 comp && fits 6 tod
  | .refConfig h enable => h.wf && fits 1 enable
  | .axisSet h epoch frameLen => h.wf && epoch.wf && fits 4 frameLen
  | .axisGet h => h.wf
  | .axisDelays h action target => h.wf && fits 2 action && fits 2 target
  | .stakeSubmit h entries => h.wf && entries.all Stake.wf
  | .stakeCancel h tag mask => h.wf && fits 4 tag && fits 4 mask
  | .stakeList h first count => h.wf && fits 2 first && fits 2 count
  | .launchQueue h lane position frame => h.wf && fits 1 lane && fits 8 position && bytesUpTo 9216 frame
  | .launchCancel h buffer => h.wf && fits 1 buffer
  | .laneConfig h lane mode fec unit plane tag force => h.wf && fits 1 lane && fits 1 mode && fits 1 fec && fits 3 unit && fits 1 plane && fits 1 tag && fits 1 force
  | .laneStatus h lane => h.wf && fits 1 lane
  | .laneEqGet h lane => h.wf && fits 1 lane
  | .laneEqSet h lane freeze => h.wf && fits 1 lane && fits 1 freeze
  | .lanePrbs h lane pattern gen chk force => h.wf && fits 1 lane && fits 1 pattern && fits 1 gen && fits 1 chk && fits 1 force
  | .lanePrbsRead h lane clear => h.wf && fits 1 lane && fits 1 clear
  | .laneLoopback h lane kind force => h.wf && fits 1 lane && fits 1 kind && fits 1 force
  | .laneReset h lane => h.wf && fits 1 lane
  | .quadPower h quad on force => h.wf && fits 1 quad && fits 1 on && fits 1 force
  | .laneCounters h lane clear => h.wf && fits 1 lane && fits 1 clear
  | .rxPathSet h mask band atten bias overload => h.wf && fits 8 mask && fits 1 band && fits 1 atten && fits 1 bias && fits 1 overload
  | .rxPathGet h path => h.wf && fits 1 path
  | .rxSubbandSet h mask sb cfg => h.wf && fits 8 mask && fits 1 sb && cfg.wf
  | .rxSubbandGet h path sb bank => h.wf && fits 1 path && fits 1 sb && fits 1 bank
  | .rxSubbandDisable h mask sbMask => h.wf && fits 8 mask && fits 1 sbMask
  | .rxCoefLoad h handle mask sb => h.wf && fits 2 handle && fits 8 mask && fits 1 sb
  | .rxStreamSet h stream sb mask format dest lane groups => h.wf && fits 1 stream && fits 1 sb && fits 8 mask && fits 1 format && fits 1 dest && fits 1 lane && fits 2 groups
  | .rxStreamStop h stream => h.wf && fits 1 stream
  | .rxCutSet h path sb lane ctFrame on => h.wf && fits 1 path && fits 1 sb && fits 1 lane && fits 2 ctFrame && fits 1 on
  | .rxMeterGet h path meter clear => h.wf && fits 1 path && fits 1 meter && fits 1 clear
  | .rxCounters h path clear => h.wf && fits 1 path && fits 1 clear
  | .portCheck h mask position => h.wf && fits 8 mask && fits 8 position
  | .txPathSet h mask fsPower dacCentre sumShift ramp gateMode => h.wf && fits 8 mask && fitsS 2 fsPower && fits 5 dacCentre && fits 1 sumShift && fits 2 ramp && fits 1 gateMode
  | .txPathGet h path => h.wf && fits 1 path
  | .txSubbandSet h mask sb cfg => h.wf && fits 8 mask && fits 1 sb && cfg.wf
  | .txSubbandGet h path sb bank => h.wf && fits 1 path && fits 1 sb && fits 1 bank
  | .txSubbandDisable h mask sbMask => h.wf && fits 8 mask && fits 1 sbMask
  | .txCoefLoad h handle mask sb => h.wf && fits 2 handle && fits 8 mask && fits 1 sb
  | .txStreamSet h stream sb mask format => h.wf && fits 1 stream && fits 1 sb && fits 8 mask && fits 1 format
  | .txStreamStop h stream => h.wf && fits 1 stream
  | .txCutSet h lane path sb on => h.wf && fits 1 lane && fits 1 path && fits 1 sb && fits 1 on
  | .txMute h mask mute immediate => h.wf && fits 8 mask && fits 1 mute && fits 1 immediate
  | .txCompLoad h handle => h.wf && fits 2 handle
  | .txProtectClear h mask => h.wf && fits 8 mask
  | .txCounters h path clear => h.wf && fits 1 path && fits 1 clear
  | .govClassSet h group cls p w e margin soft release => h.wf && fits 1 group && fits 1 cls && fits 4 p && fits 2 w && fits 4 e && fits 1 margin && fits 1 soft && fits 1 release
  | .govStatus h => h.wf
  | .govLogRead h first count => h.wf && fits 8 first && fits 4 count
  | .freSet h dir sb cfg => h.wf && fits 1 dir && fits 1 sb && cfg.wf
  | .freGet h dir sb bank => h.wf && fits 1 dir && fits 1 sb && fits 1 bank
  | .freDisable h dir sbMask => h.wf && fits 1 dir && fits 1 sbMask
  | .freEqLoad h handle => h.wf && fits 2 handle
  | .freWindowLoad h handle dir sb => h.wf && fits 2 handle && fits 1 dir && fits 1 sb
  | .freLevelGet h dir sb path first count => h.wf && fits 1 dir && fits 1 sb && fits 1 path && fits 2 first && fits 2 count
  | .freCounters h dir sb path clear => h.wf && fits 1 dir && fits 1 sb && fits 1 path && fits 1 clear
  | .freStreamSet h base sb mask format dest lane => h.wf && fits 1 base && fits 1 sb && fits 8 mask && fits 1 format && fits 1 dest && fits 1 lane
  | .freStreamStop h base => h.wf && fits 1 base
  | .topiaryAlloc h caps => h.wf && listOf 8 4 caps
  | .topiaryLoad h handle => h.wf && fits 2 handle
  | .topiaryGet h dir sb => h.wf && fits 1 dir && fits 1 sb
  | .beamSet h dir sb on beams bmShift beamOut => h.wf && fits 1 dir && fits 1 sb && fits 1 on && fits 1 beams && fits 1 bmShift && fits 1 beamOut
  | .beamStreamSet h base sb firstBeam count format dest lane => h.wf && fits 1 base && fits 1 sb && fits 1 firstBeam && fits 1 count && fits 1 format && fits 1 dest && fits 1 lane
  | .beamStreamStop h base => h.wf && fits 1 base
  | .layerStreamSet h base sb count format => h.wf && fits 1 base && fits 1 sb && fits 1 count && fits 1 format
  | .layerStreamStop h base => h.wf && fits 1 base
  | .chainSet h cfg => h.wf && cfg.wf
  | .chainGet h sb bank => h.wf && fits 1 sb && fits 1 bank
  | .chainLeave h sb => h.wf && fits 1 sb
  | .chainDeliverSet h sb base format rootShift dest lane => h.wf && fits 1 sb && fits 1 base && fits 1 format && fits 1 rootShift && fits 1 dest && fits 1 lane
  | .chainDeliverStop h sb => h.wf && fits 1 sb
  | .chainStatus h sb => h.wf && fits 1 sb
  | .chainCounters h sb clear => h.wf && fits 1 sb && fits 1 clear
  | .weaveSet h hdr laneMap => h.wf && hdr.wf && laneMap.wf
  | .weaveMembers h first entries => h.wf && fits 1 first && entries.wf
  | .weaveGet h bank => h.wf && fits 1 bank
  | .weaveMembersGet h bank first count => h.wf && fits 1 bank && fits 1 first && fits 1 count
  | .weaveLeave h => h.wf
  | .weaveStatus h first count => h.wf && fits 1 first && fits 1 count
  | .weaveCounters h clear => h.wf && fits 1 clear
  | .xceSet h cfg => h.wf && cfg.wf
  | .xceGet h bank => h.wf && fits 1 bank
  | .xceStop h => h.wf
  | .xceIntGet h number => h.wf && fits 4 number
  | .xceInputsGet h first count => h.wf && fits 2 first && fits 2 count
  | .xceCounters h clear => h.wf && fits 1 clear
  | .dpdSet h mask cfg => h.wf && fits 8 mask && cfg.wf
  | .dpdGet h path => h.wf && fits 1 path
  | .dpdCoefLoad h handle apply => h.wf && fits 2 handle && fits 1 apply
  | .dpdCoefRead h mask bank => h.wf && fits 8 mask && fits 1 bank
  | .dpdRequest h mask overBound => h.wf && fits 8 mask && fits 1 overBound
  | .dpdMetricGet h path => h.wf && fits 1 path
  | .dpdObsStatus h => h.wf
  | .dpdCounters h path clear => h.wf && fits 1 path && fits 1 clear
  | .dpdReset h mask => h.wf && fits 8 mask
  | .dpdSave h mask => h.wf && fits 8 mask
  | .calConfig h kinds dT maxInterval runLimit starveLimit => h.wf && fits 1 kinds && fits 1 dT && fits 4 maxInterval && fits 2 runLimit && fits 2 starveLimit
  | .calRun h kinds position => h.wf && fits 1 kinds && fits 8 position
  | .calStatus h => h.wf
  | .calAbort h => h.wf
  | .calTrimGet h dir path => h.wf && fits 1 dir && fits 1 path
  | .calTableRead h profile band => h.wf && fits 1 profile && fits 1 band
  | .calTableLoad h handle => h.wf && fits 2 handle
  | .calSave h => h.wf
  | .otaSet h partners => h.wf && partners.wf
  | .otaGet h index => h.wf && fits 1 index
  | .calCounters h clear => h.wf && fits 1 clear
  | .synStatus h => h.wf
  | .profileDefine h slot k => h.wf && fits 1 slot && fits 1 k
  | .profileSet h profile => h.wf && fits 1 profile
  | .synPrelock h profile => h.wf && fits 1 profile
  | .synCal h mask => h.wf && fits 1 mask
  | .feStateGet h path => h.wf && fits 1 path
  | .bcnSet h cfg => h.wf && cfg.wf
  | .bcnGet h => h.wf
  | .bcnDataSet h data => h.wf && bytesUpTo 255 data
  | .bcnStatus h => h.wf
  | .bcnCounters h clear => h.wf && fits 1 clear
  | .memStatus h => h.wf
  | .memRegionSet h region prot => h.wf && fits 1 region && fits 1 prot
  | .memRegionGet h => h.wf
  | .memScrubSet h store period => h.wf && fits 1 store && fits 2 period
  | .memScrubRange h start len => h.wf && fits 5 start && fits 8 len
  | .memInject h addr kind bit => h.wf && fits 5 addr && fits 1 kind && fits 1 bit
  | .memPortSet h port weight assign chan => h.wf && fits 1 port && fits 1 weight && fits 1 assign && fits 1 chan
  | .memPortStatus h port => h.wf && fits 1 port
  | .memFreqSet h setpoint position => h.wf && fits 1 setpoint && fits 8 position
  | .memSelfrefresh h enter autoExit => h.wf && fits 1 enter && fits 1 autoExit
  | .memRowdisturbSet h limit gap cool => h.wf && fits 2 limit && fits 1 gap && fits 2 cool
  | .memCounters h store clear => h.wf && fits 1 store && fits 1 clear
  | .memSelftestGet h => h.wf
  | .fabStatus h => h.wf
  | .fabHoldGet h => h.wf
  | .fabPrioSet h master prio age => h.wf && fits 1 master && fits 2 prio && fits 2 age
  | .fabTimingSet h target timeout drain => h.wf && fits 1 target && fits 2 timeout && fits 2 drain
  | .fabTargetReset h target => h.wf && fits 1 target
  | .fabRecover h => h.wf
  | .fabCounters h clear => h.wf && fits 1 clear
  | .dmaRun h chan descs => h.wf && fits 1 chan && descs.wf
  | .dmaChStatus h chan => h.wf && fits 1 chan
  | .dmaChStop h chan => h.wf && fits 1 chan
  | .dmaChAssign h chan core => h.wf && fits 1 chan && fits 1 core
  | .appletLoad h handle core bases _ => h.wf && fits 2 handle && fits 1 core && listOf 4 5 bases
  | .appletStart h core => h.wf && fits 1 core
  | .appletStop h core => h.wf && fits 1 core
  | .appletUnload h core => h.wf && fits 1 core
  | .appletStatus h core => h.wf && fits 1 core
  | .appletMsg h core msg => h.wf && fits 1 core && listOf 12 4 msg
  | .appletMemRead h core offset len => h.wf && fits 1 core && fits 4 offset && fits 2 len
  | .appletMemWrite h core offset data => h.wf && fits 1 core && fits 4 offset && bytesUpTo 8192 data
  | .coreStatus h => h.wf
  | .appletCounters h core clear => h.wf && fits 1 core && fits 1 clear
  | .pwrStatus h => h.wf
  | .pwrStateSet h state force => h.wf && fits 1 state && fits 1 force
  | .pwrCapSet h cap => h.wf && fits 2 cap
  | .pwrRecordGet h => h.wf
  | .biasSet h dac code span => h.wf && fits 1 dac && fits 2 code && fits 1 span
  | .biasGet h dac => h.wf && fits 1 dac
  | .biasRampLoad h dac codes => h.wf && fits 1 dac && listOf 255 2 codes
  | .biasSafeSet h dac code => h.wf && fits 1 dac && fits 2 code
  | .hkRead h first count clear => h.wf && fits 1 first && fits 1 count && fits 1 clear
  | .hkStatus h => h.wf
  | .thermConfig h start inputs => h.wf && fits 1 start && inputs.wf
  | .thermStatus h => h.wf
  | .pwrCounters h clear => h.wf && fits 1 clear
  | .secStatus h => h.wf
  | .keyChange h handle _ => h.wf && fits 2 handle
  | .keyList h => h.wf
  | .rollbackSet h counter value => h.wf && fits 1 counter && fits 1 value
  | .certRead h => h.wf
  | .attest h nonce => h.wf && fits 32 nonce
  | .debugAuth h handle _ => h.wf && fits 2 handle
  | .fwLoad h handle _ => h.wf && fits 2 handle
  | .fwActivate h position => h.wf && fits 8 position
  | .fwCommit h raise => h.wf && fits 1 raise
  | .fwStatus h => h.wf
  | .appletStore h handle entry core autostart bases _ => h.wf && fits 2 handle && fits 1 entry && fits 1 core && fits 1 autostart && listOf 4 5 bases
  | .appletStoreErase h entry => h.wf && fits 1 entry
  | .nvmRead h offset len => h.wf && fits 4 offset && fits 2 len
  | .nvmWrite h offset data => h.wf && fits 4 offset && bytesUpTo 8192 data
  | .nvmErase h offset => h.wf && fits 4 offset
  | .undefinedOpcode h op => h.wf && fits 2 op
  | .linkEncapApply  => true
  | .sysResetAfterResponse  => true
  | .portMeasurement path loss phase => fits 1 path && fits 2 loss && fitsS 2 phase
  | .swiosPacketDropped port _ pkt => fits 1 port && pkt.wf
  | .bulkFragment session rx handle offset data thorn => fits 1 session && rx.wf && fits 2 handle && fits 8 offset && bytesUpTo 8960 data && allFit 2 thorn
  | .hostStreamPacket session rx pkt => fits 1 session && rx.wf && pkt.wf
  | .layerStreamPacket session rx pkt => fits 1 session && rx.wf && pkt.wf
  | .priorityFlowControl port prio _ => fits 1 port && fits 1 prio
  | .sessionTimeout session => fits 1 session
  | .evtPacketSend session => fits 1 session
  | .spreadResponse buffer => fits 1 buffer
  | .reportSlot kind => fits 2 kind
  | .streamPacketSend req => req.wf
  | .bulkDone handle => fits 2 handle
  | .ptpAnnounce dom port msg => fits 1 dom && fits 1 port && msg.wf
  | .ptpSync dom master slave corr => fits 1 dom && fitsS 8 master && fitsS 8 slave && corr.wf
  | .delayReq dom => fits 1 dom
  | .announceTimeout dom => fits 1 dom
  | .syncLoss dom => fits 1 dom
  | .servoQualify source => fits 1 source
  | .holdoverExpiry source => fits 1 source
  | .timeBlockSend lane => fits 1 lane
  | .timeBlock lane code flags ps arrival => fits 1 lane && fits 1 code && fits 1 flags && fits 6 ps && fits 6 arrival
  | .timeReply lane _ code _ seq hi lo => fits 1 lane && fits 1 code && fits 1 seq && fits 3 hi && fits 3 lo
  | .timeBlockTimeout  => true
  | .laneResidualFault  => true
  | .ppsInEdge offset => fitsS 8 offset
  | .ppsInTimeout  => true
  | .ppsOutRise  => true
  | .ppsOutFall  => true
  | .refInLoss  => true
  | .esmcQuality lane quality => fits 1 lane && quality.wf
  | .revertiveSwitch source => fits 1 source
  | .slewDone  => true
  | .stakePrefetch  => true
  | .stakeDeferExpiry  => true
  | .mark  => true
  | .bankSwap  => true
  | .launchTrigger buffer => fits 1 buffer
  | .bankFree cls inst => fits 1 cls && fits 2 inst
  | .identSend lane => fits 1 lane
  | .fillSend lane => fits 1 lane
  | .ident lane code unit plane tag crc => fits 1 lane && fits 1 code && fits 3 unit && fits 1 plane && fits 1 tag && fits 1 crc
  | .fill lane => fits 1 lane
  | .fillInsertion lane => fits 1 lane
  | .elasticSlip lane => fits 1 lane
  | .laserStable reading => reading.wf
  | .clockRecoveryLock lane => fits 1 lane
  | .equaliserAdapted lane eq => fits 1 lane && eq.wf
  | .blockLock found => found.wf
  | .noAlignment lane => fits 1 lane
  | .lockLost lane window => fits 1 lane && window.wf
  | .lossOfSignal lane power => fits 1 lane && fitsS 1 power
  | .lossOfSignalClear lane power => fits 1 lane && fitsS 1 power
  | .laneTakeDown lane => fits 1 lane
  | .prbsLock found => found.wf
  | .prbsLockLoss lane window errs syms => fits 1 lane && fits 2 window && fits 8 errs && fits 8 syms
  | .adcOverload path clips => fits 1 path && fits 4 clips
  | .rxProtectEntry path => fits 1 path
  | .rxProtectExit path => fits 1 path
  | .biasFoldback path => fits 1 path
  | .biasRetry path _ => fits 1 path
  | .rxFlushDone path sb outputs => fits 1 path && fits 1 sb && fits 4 outputs
  | .rxOpen  => true
  | .rxClose  => true
  | .rxSwap  => true
  | .ncoReset  => true
  | .attenStep  => true
  | .meterLatch  => true
  | .cutThroughFrame lane frame => fits 1 lane && frame.wf
  | .txOpen  => true
  | .txClose  => true
  | .txSwap  => true
  | .txNcoReset  => true
  | .txTone  => true
  | .inhibitLoopOpen ohms => fits 4 ohms
  | .inhibitLoopClosed ohms => fits 4 ohms
  | .portFault path => fits 1 path
  | .governorStep pos => fits 8 pos
  | .adaptationResume path => fits 1 path
  | .govMismatch path => fits 1 path
  | .govLogRecord  => true
  | .compensationStep path => fits 1 path
  | .txFlushDone path sb => fits 1 path && fits 1 sb
  | .topSwap  => true
  | .freSwap  => true
  | .freFlushDone dir sb groups => fits 1 dir && fits 1 sb && fits 4 groups
  | .chainSwap  => true
  | .chainSumFrame lane frame => fits 1 lane && frame.wf
  | .chainFrameStart sb group index => fits 1 sb && fits 8 group && fits 2 index
  | .chainStall sb child block => fits 1 sb && fits 1 child && fits 2 block
  | .chainBroadcastFrame lane frame => fits 1 lane && frame.wf
  | .chainReport sb => fits 1 sb
  | .weaveSwap  => true
  | .covCut  => true
  | .weaveFrameSend req => req.wf
  | .weaveFrame lane frame => fits 1 lane && frame.wf
  | .weaveDeadline group => fits 8 group
  | .passStart  => true
  | .roundEnd  => true
  | .collectorDrain dump => dump.wf
  | .intCut  => true
  | .xceSwap  => true
  | .integrationClose  => true
  | .integrationReadout  => true
  | .dpdSwap  => true
  | .dpdSlotStart  => true
  | .captureComplete obs nmse oobLo oobHi _ => fits 1 obs && fitsS 2 nmse && fitsS 2 oobLo && fitsS 2 oobHi
  | .noCapture obs => fits 1 obs
  | .solveComplete obs _ predicted coefs => fits 1 obs && fitsS 2 predicted && coefs.wf
  | .captureAgeExpiry path => fits 1 path
  | .dpdThorn path => fits 1 path
  | .dpdAutosave path => fits 1 path
  | .calInterval  => true
  | .calStep  => true
  | .calHold  => true
  | .calSolveComplete results => results.wf
  | .calTrimWrite  => true
  | .calRunTimeout  => true
  | .calStarved  => true
  | .synLock which => fits 1 which
  | .settlingEnd  => true
  | .lossOfLock which => fits 1 which
  | .synHop  => true
  | .synRecalibration tune => fits 2 tune
  | .synSwap  => true
  | .bcnTx  => true
  | .beaconEnd  => true
  | .bcnListenOpen  => true
  | .bcnListenClose  => true
  | .preambleDetect energy axis => fitsS 2 energy && fits 8 axis
  | .syncWordTimeout  => true
  | .beaconHeader hdr => hdr.wf
  | .beaconPacketEnd pkt => pkt.wf
  | .noiseFloorReport mean low => fitsS 2 mean && fitsS 2 low
  | .scrub store addr => fits 1 store && fits 5 addr
  | .scrubRangeDone store => fits 1 store
  | .regionInitDone region => fits 1 region
  | .refresh ctrl bank _ => fits 1 ctrl && fits 1 bank
  | .rowDisturb ctrl bank hit requester => fits 1 ctrl && fits 1 bank && hit.wf && fits 1 requester
  | .coolDownEnd ctrl bank requester => fits 1 ctrl && fits 1 bank && fits 1 requester
  | .streamPortPanic port filled => fits 1 port && fits 2 filled
  | .memFreq  => true
  | .selfRefreshExit  => true
  | .fabricRequest req => req.wf
  | .ageLimit master => fits 1 master
  | .lockTimeout target => fits 1 target
  | .targetTimeout target master => fits 1 target && fits 1 master
  | .matrixHang  => true
  | .recoveryExit _ => true
  | .fabMode  => true
  | .masterReset master _ => fits 1 master
  | .fabricDrainComplete dom => fits 1 dom
  | .drainLimit dom writes first => fits 1 dom && fits 4 writes && fits 5 first
  | .dmaChDoorbell chan => fits 1 chan
  | .channelEnable chan => fits 1 chan
  | .channelDisable chan => fits 1 chan
  | .descriptorFetch chan => fits 1 chan
  | .dmaBurst chan => fits 1 chan
  | .descriptorComplete chan => fits 1 chan
  | .registerWrite addr value => fits 5 addr && fits 4 value
  | .macNop core => decide (core < 8)
  | .mul core a x y cj => decide (core < 8) && fits 1 a && fits 1 x && fits 1 y && fits 1 cj
  | .mac core a x y cj => decide (core < 8) && fits 1 a && fits 1 x && fits 1 y && fits 1 cj
  | .msu core a x y cj => decide (core < 8) && fits 1 a && fits 1 x && fits 1 y && fits 1 cj
  | .aclr core a => decide (core < 8) && fits 1 a
  | .amov core a y => decide (core < 8) && fits 1 a && fits 1 y
  | .aadd core a y => decide (core < 8) && fits 1 a && fits 1 y
  | .ashr core a k => decide (core < 8) && fits 1 a && fits 1 k
  | .ashl core a k => decide (core < 8) && fits 1 a && fits 1 k
  | .ald core a x k => decide (core < 8) && fits 1 a && fits 1 x && fits 1 k
  | .rnd core a x k => decide (core < 8) && fits 1 a && fits 1 x && fits 1 k
  | .anorm core a x => decide (core < 8) && fits 1 a && fits 1 x
  | .aexp core a => decide (core < 8) && fits 1 a
  | .aluNop core => decide (core < 8)
  | .addl core d ra rb => decide (core < 8) && fits 1 d && fits 1 ra && fits 1 rb
  | .subl core d ra rb => decide (core < 8) && fits 1 d && fits 1 ra && fits 1 rb
  | .negl core d ra => decide (core < 8) && fits 1 d && fits 1 ra
  | .conj core d ra => decide (core < 8) && fits 1 d && fits 1 ra
  | .swap core d ra => decide (core < 8) && fits 1 d && fits 1 ra
  | .shrl core d ra k => decide (core < 8) && fits 1 d && fits 1 ra && fits 1 k
  | .shll core d ra k => decide (core < 8) && fits 1 d && fits 1 ra && fits 1 k
  | .shrv core d ra rb => decide (core < 8) && fits 1 d && fits 1 ra && fits 1 rb
  | .addw core d ra rb => decide (core < 8) && fits 1 d && fits 1 ra && fits 1 rb
  | .subw core d ra rb => decide (core < 8) && fits 1 d && fits 1 ra && fits 1 rb
  | .and core d ra rb => decide (core < 8) && fits 1 d && fits 1 ra && fits 1 rb
  | .or core d ra rb => decide (core < 8) && fits 1 d && fits 1 ra && fits 1 rb
  | .xor core d ra rb => decide (core < 8) && fits 1 d && fits 1 ra && fits 1 rb
  | .mov core d ra => decide (core < 8) && fits 1 d && fits 1 ra
  | .norm core d ra => decide (core < 8) && fits 1 d && fits 1 ra
  | .exp core ra => decide (core < 8) && fits 1 ra
  | .expc core => decide (core < 8)
  | .cmplt core ra rb => decide (core < 8) && fits 1 ra && fits 1 rb
  | .cmpeq core ra rb => decide (core < 8) && fits 1 ra && fits 1 rb
  | .lil core d imm => decide (core < 8) && fits 1 d && fitsS 2 imm
  | .lis core d imm => decide (core < 8) && fits 1 d && fitsS 2 imm
  | .addi core d imm => decide (core < 8) && fits 1 d && fitsS 2 imm
  | .mvts core ra sr => decide (core < 8) && fits 1 ra && fits 1 sr
  | .mvfs core d sr => decide (core < 8) && fits 1 d && fits 1 sr
  | .jmp core tgt => decide (core < 8) && fits 2 tgt
  | .jf core tgt => decide (core < 8) && fits 2 tgt
  | .jnf core tgt => decide (core < 8) && fits 2 tgt
  | .call core tgt => decide (core < 8) && fits 2 tgt
  | .ret core => decide (core < 8)
  | .reti core => decide (core < 8)
  | .loop core level tgt => decide (core < 8) && fits 1 level && fits 2 tgt
  | .loopx core level => decide (core < 8) && fits 1 level
  | .ei core => decide (core < 8)
  | .di core => decide (core < 8)
  | .wait core => decide (core < 8)
  | .waitx core => decide (core < 8)
  | .halt core => decide (core < 8)
  | .trap core imm => decide (core < 8) && fitsS 2 imm
  | .lsNop core => decide (core < 8)
  | .ldz core z p _ off => decide (core < 8) && fits 1 z && fits 1 p && fitsS 2 off
  | .ldd core z p _ off => decide (core < 8) && fits 1 z && fits 1 p && fitsS 2 off
  | .stz core z p _ off => decide (core < 8) && fits 1 z && fits 1 p && fitsS 2 off
  | .std core z p _ off => decide (core < 8) && fits 1 z && fits 1 p && fitsS 2 off
  | .ldh core z p _ off => decide (core < 8) && fits 1 z && fits 1 p && fitsS 2 off
  | .sth core z p _ off => decide (core < 8) && fits 1 z && fits 1 p && fitsS 2 off
  | .ld4 core z p _ off => decide (core < 8) && fits 1 z && fits 1 p && fitsS 2 off
  | .ld8 core z p _ off => decide (core < 8) && fits 1 z && fits 1 p && fitsS 2 off
  | .ld12 core z p _ off => decide (core < 8) && fits 1 z && fits 1 p && fitsS 2 off
  | .st12 core z p _ off => decide (core < 8) && fits 1 z && fits 1 p && fitsS 2 off
  | .iord core z off => decide (core < 8) && fits 1 z && fitsS 2 off
  | .iowr core z off => decide (core < 8) && fits 1 z && fitsS 2 off
  | .xrd core z p _ off => decide (core < 8) && fits 1 z && fits 1 p && fitsS 2 off
  | .xwr core z p _ off => decide (core < 8) && fits 1 z && fits 1 p && fitsS 2 off
  | .transferDone core => decide (core < 8)
  | .transferError core addr => decide (core < 8) && fits 5 addr
  | .watchdogExpiry core => decide (core < 8)
  | .interruptEntry core => decide (core < 8)
  | .wdt core value => decide (core < 8) && fits 4 value
  | .msgSend core value => decide (core < 8) && fits 4 value
  | .axisLo core z => decide (core < 8) && fits 1 z
  | .cycLo core z => decide (core < 8) && fits 1 z
  | .sportDataPop core z => decide (core < 8) && fits 1 z
  | .sportDataPush core value => decide (core < 8) && fits 4 value
  | .appletGo  => true
  | .appletTick  => true
  | .powerGood  => true
  | .undervoltage mv => fits 4 mv
  | .overvoltage mv => fits 4 mv
  | .supplyRecovery mv => fits 4 mv
  | .reversePolarity  => true
  | .powerCap mean => fits 2 mean
  | .domainReady dom fails => fits 1 dom && listOf 6 1 fails
  | .biasQueueStep  => true
  | .biasStep  => true
  | .biasRamp  => true
  | .hkLatch  => true
  | .hkConversion chan reading openShort => fits 1 chan && fitsS 4 reading && fits 1 openShort
  | .hkRound  => true
  | .hkSuspectTimeout  => true
  | .sensorTyping input kind => fits 1 input && fits 1 kind
  | .thermalRestart  => true
  | .throttleRelease chan => fits 1 chan
  | .throttleGapStart part => fits 1 part
  | .throttleGapEnd part => fits 1 part
  | .ppsFight  => true
  | .resetPin  => true
  | .resetRelease  => true
  | .boot chk => chk.wf
  | .lockstepMismatch  => true
  | .reloadComplete  => true
  | .lmsTreeReady  => true
  | .nvmPageProgram _ => true
  | .fwStaged  => true
  | .fwActivationRestart  => true
  | .trialLimit  => true
  | .quicksetReport  => true
  | .servicePortLink _ => true
  | .dhcpReply addr => fits 4 addr
  | .refInReturn ppb => fitsS 4 ppb
  | .observerFault obs _ => fits 1 obs
  | .eraseComplete _ => true
  | .domainBorrow _ _ => true
  | .sportMark core port => decide (core < 8) && fits 1 port

end Sys2Proof
end

