-- ==== Sys2Proof/Tests/Slice0.lean ====
section
/-! SUPPORT. Small tests: ill-formed commands, the manual's own figures, single steps, and for every statement that has
hypotheses a state and operands that meet them together. -/

open Sys2Proof Sys2Proof.Machine

namespace Sys2Proof.Tests

set_option Elab.async false

/-! ### Units to test on -/

def sessW : Session := { num := 1, owner := true, addr := default, port := 32, keepalive := 10, maxPayload := 0, lastHeard := 0 }
def devW : Dev := { syn := { settling := false }, ctl := { phase := .running }, lnk := { sessions := [sessW], svcUp := true }, pwr := { powered := true, state := 4, domains := List.replicate 10 true } }
def st (f : Dev → Dev) : State := { pending := [], dev := f devW }
def unitW : State := st id
def hdrW : Hdr := { port := 32, src := default, unit := 262143, session := 1, channel := 0, seq := 1, broadcast := false, thorn := false, spread := none, noRsp := false, dryRun := false, reservedFlags := false, lengthOk := true }
def objW : BulkObj := { handle := 1, kind := 1, len := 9, crc := 0xE3069283, frags := [⟨0, [49, 50, 51, 52, 53, 54, 55, 56, 57], []⟩], closed := true, session := 1 }
def qW (code : Nat) : QStake := { stake := { (default : Stake) with action := code }, order := 0, pos := 0, left := 0 }
def qD (code : Nat) : QStake := { qW code with trig := some 0 }
def rawW : OutStream := { num := 5, base := 5, kind := .raw, sb := 0, paths := [0], format := 1, dest := 0, port := 32, elements := 1, perPacket := 0, lastDue := true }
def compZ : List Nat := List.replicate 8975 0
def compW : BulkObj := { objW with kind := 4, len := 8976, frags := [⟨0, 0x41 :: compZ, []⟩] }
def compS : State := st fun d => { d with lnk := { d.lnk with bulk := [compW] }, pwr := { d.pwr with dacs := List.replicate 136 {} } }
theorem compW_bytes : compW.bytes = 0x41 :: compZ := by
  show gather [⟨0, 0x41 :: compZ, []⟩] 0 2 = _
  simp [gather]
theorem be_zeros (n : Nat) : be (List.replicate n 0) = 0 := by
  unfold be
  induction n with
  | zero => rfl
  | succ n ih => simpa [List.replicate_succ] using ih
theorem compZ_rows (p : Nat) (r : Int × Nat) (h : r ∈ (compOf ((0x41 :: compZ).drop (16 + 140 * p))).rows) : r.2 = 0 := by
  obtain ⟨i, -, e⟩ := List.mem_map.1 h
  rw [← e]
  show be ((((0x41 :: compZ).drop (16 + 140 * p)).drop (4 * i + 2)).take 2) = 0
  rw [show 16 + 140 * p = (15 + 140 * p) + 1 by omega, List.drop_succ_cons]
  unfold compZ
  rw [List.drop_replicate, List.drop_replicate, List.take_replicate]
  exact be_zeros _
def zerosW : List Nat := List.replicate 25149 0
theorem zerosW_length : zerosW.length = 25149 := List.length_replicate ..
theorem zerosW_mid : (zerosW.drop 11).take 18 = List.replicate 18 0 := by
  unfold zerosW; rw [List.drop_replicate, List.take_replicate]; rfl
def tableW : BulkObj := { objW with kind := 4, len := 25152, frags := [⟨0, 0x43 :: 7 :: 3 :: zerosW, []⟩] }
def tableS : State := st fun d => { d with lnk := { d.lnk with bulk := [tableW] } }
theorem tableW_bytes : tableW.bytes = 0x43 :: 7 :: 3 :: zerosW := by
  show gather [⟨0, 0x43 :: 7 :: 3 :: zerosW, []⟩] 0 2 = _
  simp [gather]
theorem tableW_ok : tableOk tableW.bytes = true := by
  rw [tableW_bytes]
  have h1 : beAt (0x43 :: 7 :: 3 :: zerosW) 1 1 = 7 := rfl
  have h2 : beAt (0x43 :: 7 :: 3 :: zerosW) 2 1 = 3 := rfl
  have h3 : ((0x43 :: 7 :: 3 :: zerosW).drop 14).take 18 = List.replicate 18 0 := zerosW_mid
  have h4 : be (List.replicate 18 0) = 0 := by decide
  simp only [tableOk, h1, h2, h3, h4, List.length_cons, zerosW_length, List.headD_cons]
  decide
/-- A unit out of the recovery layer whose channel 31 stands at a descriptor `x` with status `st`. -/
def dmaW (status : Nat) (x : Desc) : State := st fun d =>
  let d := { d with fab := { d.fab with layer := 0 }, dma := List.replicate 32 { enable := true, st := status, desc := 0x100000000, fetched := if status = 2 then some x else none, resid := 8 } }
  writeSpan d 0x100000000 x.bytes [] []
def descW : Desc := { src := 0x100001000, dst := 0x100002000, elemLen := 8, n0 := 1, n1 := 1, n2 := 1, link := 1 }
def busW (s : State) (r : FabReq) : Option Nat × FabResp × Dev := (busDo s.dev r).getD (none, {}, s.dev)
theorem busW_ok {s : State} {r : FabReq} (h : (busDo s.dev r).map (·.1) = some none) : busDo s.dev r = some (none, (busW s r).2.1, (busW s r).2.2) := by
  unfold busW
  cases hb : busDo s.dev r with
  | none => simp [hb] at h
  | some v => obtain ⟨a, b, c⟩ := v; simp [hb] at h; simp [h]
/-- A unit with core 4 running, its slot number `slot` next, in a bundle `w` at its PC, in which core 4 also stands (`g`). -/
def coreG (slot w : Nat) (g : Core → Core) : State := st fun d =>
  writeSpan { d with fab := { d.fab with layer := 0 }, cores := upd d.cores 4 fun c => g { c with st := 2, slot := slot, bundle := w } } (progKey 4) (beBytes 8 w) [] []
def coreW (slot w : Nat) : State := coreG slot w id
/-- The same with the first word of core 4's data memory thorned. -/
def thornW (w : Nat) : State :=
  { pending := [], dev := writeSpan (coreW 2 w).dev (dataKey 4) [0, 0, 0, 0, 0, 0, 0, 0] [dataKey 4] [] }
/-- A unit whose signal cores all stand in a state. -/
def coresW (n : Nat) : State := st fun d => { d with cores := d.cores.map fun c => { c with st := n } }
/-- A body with the signature block that private key 1 makes over it (the nonce 1), as vendor slot or owner slot `slot`, and a unit that
knows the key in vendor slot 0 and in every owner slot. -/
def pubW : List Nat := 4 :: bytesOf [(48, ecBase.1), (48, ecBase.2.1)]
def signW (cls slot : Nat) (b : List Nat) : List Nat :=
  let m := b ++ [0x53, 0x47, 1, cls, slot, 0, 0, 0] ++ bytesOf [(8, b.length)] ++ pubW ++ List.replicate 63 0
  m ++ bytesOf [(48, ecBase.1 % ecOrder), (48, (sha384 m + ecBase.1) % ecOrder)] ++ List.replicate 3604 0
def keyHashes : Nat × Nat := (sha384 pubW, sha384 (List.replicate 60 0))
def keyedW (f : Dev → Dev) : State := st fun d => f { d with
  ident := { d.ident with vendor := [keyHashes, keyHashes] }
  fab := { d.fab with layer := 0 }
  nvm := { d.nvm with owners := List.replicate 4 { enrolled := true, authority := 15, ecdsa := keyHashes.1, hss := keyHashes.2, pub := pubW } } }
/-- An applet image of one bundle, signed by the first vendor key. -/
def imageB : List Nat :=
  signW 0 0 ([0x41, 0x50, 1, 0, 0, 0, 0, 0, 0, 0, 0, 1] ++ List.replicate 48 0 ++ bytesOf [(48, sha384 (List.replicate 8 0))] ++ List.replicate 28 0)
def imageS : State := keyedW fun d => { d with
  lnk := { d.lnk with bulk := [{ objW with kind := 6, len := 4012, frags := [⟨0, imageB, []⟩] }] } }
/-- A core 4 with one write transfer to the general SRAM outstanding. -/
def xferW : Xfer := { write := true, addr := 0x101000000, off := 0, data := List.replicate 64 7, thorn := [] }
def xferS : State := st fun d => { d with fab := { d.fab with layer := 0 }, cores := upd d.cores 4 fun c => { c with st := 3, waitx := true, xfers := [xferW], img := { c.img with windows := [{ size := 1, access := 2, target := 2, base := 0x101000000 }] } } }
def xferReq : FabReq := { master := 6, addr := 0x101000000, len := 64, write := true, data := List.replicate 64 7 }
/-- A round on a unit, up to its levels. -/
def roundOf (d : Dev) : Dev :=
  let e := judgeRefs (d.onPwr fun p => { p with rounds := p.rounds + 1, roundAt := some d.now })
  (sensors ((sensors e).foldl (judgeSensor [median2 e 0, median2 e 1]) e)).foldl senseLevel ((sensors e).foldl (judgeSensor [median2 e 0, median2 e 1]) e)
def roundF : Dev := roundOf (st fun d => { d with pwr := { d.pwr with chans := List.replicate 256 { broken := true } } }).dev
def roundU : Dev := roundOf unitW.dev
/-- Units with a staged object of the control complex: an owner key to enrol, a debug object, a firmware image. -/
def objS (kind : Nat) (b : List Nat) (f : Dev → Dev) : State := keyedW fun d =>
  f { d with lnk := { d.lnk with bulk := [{ objW with kind := kind, len := b.length, frags := [⟨0, b, []⟩] }] } }
def keyS : State := objS 7 (signW 1 0 ([0x4F, 0x4B, 1, 1, 0, 7] ++ List.replicate 17 0 ++ [1] ++ List.replicate 160 0)) id
def debugS : State := objS 0x0F (signW 1 0 [0x44, 0x42, 0, 0, 0, 0, 0, 0, 0, 0, 0, 1, 0, 0, 0, 9]) fun d => { d with ctl := { d.ctl with nonce := some 9 } }
def fwS : State := objS 5 (signW 0 0 ([0x46, 0x57, 1, 0] ++ List.replicate 11 0 ++ [8] ++ List.replicate 16 0
  ++ bytesOf [(48, sha384 (List.replicate 8 0)), (48, sha384 []), (48, sha384 []), (48, sha384 [])] ++ List.replicate 40 0)) id
/-- A unit whose quickset runs without a correlator, a second after its last report. -/
def reportS : State := st fun d => { d with
  qs := { d.qs with state := 2 }, tmb := { d.tmb with clock := 6144000000000 }
  mem := { d.mem with stores := List.replicate 6 { failed := true } } }
/-- The packet of session 1 on the service port, and a packet as received. -/
def rxW : PktIn := { port := 32, src := default, wire := {} }
def rawPktW (b : List Nat) : RawPkt := { src := default, wire := {}, bytes := b }
/-- A root that holds a sum at position 5 for its stream 9, and the same with its port's egress buffer full. -/
def chainOutW : OutStream := { num := 9, base := 9, kind := .chain, sb := 0, paths := [0], format := 1, dest := 0, port := 32, elements := 1, lastDue := true }
def chainS : State := st fun d => { d with outs := [chainOutW], chains := [{ (ChainNode.fresh 0) with sums := [{ axis := 5, flags := 128, beams := 1, channels := 1, blocks := [{ vals := [(7, -7)] }] }] }] }
def chainFullS : State := { chainS with dev := chainS.dev.onLnk fun l => { l with ports := upd l.ports 32 fun c => { c with queue := [{ queue := 3, bits := 2097152, out := .launch 0 0 [] }] } } }
/-- A host stream of one path in F12, its packet of one group, and a unit that holds the stream. -/
def inStreamW : InStream := { num := 5, base := 5, layer := false, sb := 0, paths := [0], format := 1, depth := 9 }
def hostPktW : StreamPkt := { (default : StreamPkt) with num := 5, format := 1, groups := 1, elements := 1, firstAxis := 90000, data := [1, 2, 3] }
def hostStreamS : State := st fun d => { d with ins := [inStreamW] }
/-- A layer stream of slot 4, and the unit that holds it. -/
def layerW : InStream := { num := 5, base := 5, layer := true, sb := 0, paths := [0], format := 1, depth := 9 }
def layerS : State := st fun d => { d with ins := [layerW] }
/-- Slot 0 with its stake due and a thorned word in the shadow topiary. -/
def thornTopS : State := st fun d =>
  writeSpan { d.onFre 0 fun x => { x with on := true, pages := [0, 1], top := { x.top with shd := { loaded := true, weights := [(0, 1)] } } } with tmb := { d.tmb with stakes := [qD 0x0501] } }
    0x200010000 [0, 0, 0, 0, 0, 0, 0, 0] [0x200010000] []
/-- A class 0x02 frame of chain 7 from a child one step out, as delivered, and a unit that has lane 31 as its third child lane. -/
def sumF : ChainFrame := { chainId := 7, sb := 3, depth := 1 }
def sumFrameW : DirectFrame := ⟨2, sumF.sum, [], crc32c sumF.sum, 0⟩
def childS (f : ChainNode → ChainNode) : State := st fun d =>
  { d with lanes := List.replicate 32 { st := 5, mode := 5 } }.onChain 3 fun n =>
    f { n with on := true, banks := .both { chainId := 7, sb := 3, flags := 192, childs := [0xFF, 0xFF, 31] } }
/-- A unit whose slot 0 forms groups of path 0's sub-band 0, a sample per tick, at axis position 10. -/
def formChain : ChainPar := { aFactor := 1, bFactor := 4 }
def formD (d : Dev) : Dev :=
  let d := d.onRxSb 0 0 fun s => { s with on := true, banks := .both { cfg := { chain := formChain, consumers := 1 } } }
  let d := d.onFre 0 fun f => { f with on := true, cfg := { nCh := 1, consumers := 2 } }
  { d with tmb := { d.tmb with clock := 31250 }
           sig := { d.sig with
             rx := upd (List.replicate 256 []) 0 fun _ => [(0, { on := true, win := true, live := true, bank := { cfg := { chain := formChain, consumers := 1 } } })]
             fre := upd (List.replicate 8 []) 0 fun _ => [(0, { on := true, cfg := { nCh := 1 } })] } }
def contribW : WeaveBank := { hdr := { format := 4, maxGroups := 1, members := 2 }, members := [{ flags := 192 }, { flags := 128, count := 1 }] }
def contribS : State := st fun d => (formD d).onWeave fun w => { w with on := true, banks := .both contribW }
/-- A weave frame as received, and a unit in a weave whose lane 31 belongs to dimension 0. -/
def wovenW (f : WeaveFrame) : DirectFrame := ⟨1, weaveOctets f, [], crc32c (weaveOctets f), 0⟩
def bankW : WeaveBank := { maps := List.replicate 32 { dim := 0 } }
def wovenS : State := st fun d => { d.onWeave (fun w => { w with on := true, banks := .both bankW }) with lanes := List.replicate 32 { st := 5, mode := 5 } }
def inShapeW : WeaveFrame := { shapeCrc := weaveCrc devW bankW }
/-- A bank of integration 3, the unit in whose collector it waits, and one whose integration 3 has all its dumps. -/
def jobW : TileJob := { (default : TileJob) with integ := 3, round := 1, samples := 5 }
def drainS : State := st fun d =>
  { d with tmb := { d.tmb with clock := 31250000, cyc := 10000 } }.onXce fun y => { y with integs := [{ num := 3 }], tiles := { fulls := [jobW] } :: List.replicate 127 {} }
def closeS : State := st fun d => d.onXce fun y => { y with integs := [{ num := 3, closing := true }] }
/-- Path 63 in an adaptation slot, its capture over and then its solve; a set of its identity coefficients. -/
def capS : State := st fun d =>
  let d := ({ d with tmb := { d.tmb with clock := 12500000 }, tx := List.replicate 64 { gain := 32768, sbs := List.replicate 4 { on := true, win := true } } }).onDpdPath 63 fun x =>
    { x with svc := some ⟨0, 3, 0, false, false⟩, cfg := { x.cfg with capLen := 0 }, live := { x.live with mem := 1, nbrMem := 0 } }
  { d with sig := { d.sig with paths := List.replicate 64 [(0, txPathNow d 63)] } }
def solveS (discard : Bool) : State := st fun d => { d with tmb := { d.tmb with clock := 250000000 } }.onDpdPath 63 fun x => { x with svc := some ⟨0, 3, 1, false, discard⟩ }
/-- A unit whose run of kind 1 has taken its steps, and the same with a standing gain beyond every result. -/
def solvedS : State := st fun d => d.onCal fun c => { c with runs := [{ kind := 1, done := 8, since := 0 }] }
def jumpS : State := { solvedS with dev := putTable solvedS.dev (calKey solvedS.dev 0) { trims := List.replicate 128 { gain := 2000 } } }
def jumpW : CalResults := { paths := [{ dir := 0, path := 0, coarse := 63, fine := 0, gain := 500, ripple := 0, resp := [] }], unusable := [], adc := [], dac := [], obs := [] }
theorem jumpW_jumps : jumpsOf jumpS.dev { jumpW with paths := jumpW.paths.map (referred jumpS.dev) } ≠ [] := by
  have h : (standing jumpS.dev 0 0).gain = 2000 := by decide +kernel
  have hg (x : CalPath) : (referred jumpS.dev x).gain ≤ 511 := by
    show satSym 511 _ ≤ 511
    unfold satSym; omega
  have hw : within jumpS.dev (referred jumpS.dev (nth jumpW.paths 0)) (standing jumpS.dev 0 0) 50 910 40 = false := by
    have := hg (nth jumpW.paths 0)
    unfold within
    rw [decide_eq_false (by rw [h]; omega)]
    rfl
  intro hn
  have := List.filter_eq_nil_iff.1 hn (referred jumpS.dev (nth jumpW.paths 0)) (List.mem_cons_self ..)
  rw [show (referred jumpS.dev (nth jumpW.paths 0)).dir = 0 from rfl, show (referred jumpS.dev (nth jumpW.paths 0)).path = 0 from rfl, hw] at this
  exact this rfl
/-- The unit whose channel 1 has the engine's grant for its burst. -/
def burstS : State := { dmaW 2 descW with dev := { (dmaW 2 descW).dev with fab := { (dmaW 2 descW).dev.fab with granted := 0 } } }

/-! ### Ill-formed commands are refused -/

/-- A well-formed command, and one command that fails each of the common checks: a port, a unit number, a session, a spread block
and an operand that do not fit their fields. -/
theorem test_wf_header :
    (Instr.sessionClose hdrW).wf = true ∧ (Instr.sessionClose { hdrW with port := 33 }).wf = false ∧
    (Instr.sessionClose { hdrW with unit := 2 ^ 18 }).wf = false ∧ (Instr.sessionClose { hdrW with session := 16 }).wf = false ∧
    (Instr.sessionClose { hdrW with channel := 256 }).wf = false ∧ (Instr.sessionClose { hdrW with seq := 2 ^ 32 }).wf = false ∧
    (Instr.sessionClose { hdrW with spread := some ⟨0, 65536, 0, 0, 512⟩ }).wf = false ∧
    (Instr.sessionClose { hdrW with src := { (default : Addr) with udp := 65536 } }).wf = false := by decide +kernel

/-- One ill-formed object of each kind. -/
theorem test_wf_objects :
    Encap.wf { Encap.factory with vlan := 65536 } = false ∧ Time12.wf ⟨0, 2 ^ 32, 0⟩ = false ∧
    Stake.wf { (default : Stake) with flags := 256 } = false ∧ ChainPar.wf { aLength := [0, 0, 0, 0] } = false ∧
    RxCfg.wf { consumers := 256 } = false ∧ TxCfg.wf { gain := 65536 } = false ∧ FreCfg.wf { symOffset := 2 ^ 31 } = false ∧
    ChainCfg.wf { childs := [0, 0, 0, 0] } = false ∧ WeaveHdr.wf { deadline := 2 ^ 32 } = false ∧ LaneMaps.wf ⟨[{}]⟩ = false ∧
    Members.wf ⟨[{ flags := 256 }]⟩ = false ∧ XceCfg.wf { dest := 256 } = false ∧ DpdCfg.wf { boundNmse := 32768 } = false ∧
    Partners.wf ⟨[{ path := 256 }]⟩ = false ∧ BcnCfg.wf { nr := 256 } = false ∧ Desc.wf { srcS := [0, 0] } = false ∧
    Descs.wf ⟨[{ n0 := 65536 }]⟩ = false ∧ SigCheck.wf ⟨true, [6], true, true⟩ = false ∧ ExtInputs.wf ⟨[{}]⟩ = false ∧
    EqState.wf { EqState.zero with peak := 16 } = false ∧ EqState.wf { EqState.zero with dfe := [32, 0, 0, 0, 0] } = false := by decide +kernel

/-- One ill-formed frame, result or request of each kind. -/
theorem test_wf_frames :
    StreamPkt.wf { (default : StreamPkt) with num := 256 } = false ∧ PktIn.wf { rxW with port := 33 } = false ∧
    RawPkt.wf (rawPktW [256]) = false ∧ DirectFrame.wf ⟨2, [0], [], 2 ^ 32, 0⟩ = false ∧ TileDump.wf { (default : TileDump) with parity := [(0, 2 ^ 23, 0)] } = false ∧
    Coefs.wf ⟨[(2 ^ 47, 0)]⟩ = false ∧ CalResults.wf { (default : CalResults) with dac := [128] } = false ∧
    BcnHdr.wf { (default : BcnHdr) with nr := 2 } = false ∧ BcnEnd.wf { (default : BcnEnd) with payload := [256] } = false ∧
    FabReq.wf { master := 15, addr := 0, len := 1 } = false ∧ FabReq.wf { master := 0, addr := 0, len := 0 } = false ∧
    BootCheck.wf { (default : BootCheck) with slots := [] } = false := by decide +kernel

/-- An operand wider than its field. -/
theorem test_wf_operands :
    (Instr.bulkClose hdrW 65536).wf = false ∧ (Instr.laneStatus hdrW 256).wf = false ∧ (Instr.laserStable ⟨256, 0⟩).wf = false ∧
    (Instr.nvmErase hdrW (2 ^ 32)).wf = false ∧ (Instr.laneStatus hdrW 31).wf = true := by decide +kernel

/-! ### The manual's own figures -/

/-- The check value of CRC-32C over "123456789", as R119's polynomial and XORs give it (a published figure of the code). -/
theorem test_crc32c : crc32c [49, 50, 51, 52, 53, 54, 55, 56, 57] = 0xE3069283 := by decide +kernel

/-- R22, R56: a tick lasts 3,125 units of 1/6,144 ns: one second holds 1,966,080,000 of them. -/
theorem test_axis_second : axisAt ⟨0, 0, 0⟩ (timeClk ⟨1, 0, 0⟩) = 1966080000 := by decide +kernel

/-- R60: with a normal prefix at 30 kHz a long symbol and 13 others last half a millisecond. -/
theorem test_symbol_lengths : FreCfg.longSymbol { mu := 1 } = 71168 ∧ FreCfg.symbol { mu := 1 } = 70144 ∧ 71168 + 13 * 70144 = 983040 := by decide +kernel

/-- R600: the safe code 54,613 of a bank BD output stands for pinch-off, -5.0 V. -/
theorem test_pinch_off : Dac.mv { span := 1, code := 54613 } = -5000 := by decide +kernel

/-- R489, R490: an error in data bit 8i + j shows row bit i and column bit j; fourteen set bits and more are a carried thorn. -/
theorem test_row_column_code :
    decodeSynd (2 ^ 3 + 2 ^ (8 + 5)) = .dataBit 29 ∧ decodeSynd 0 = .clean ∧ decodeSynd 0x3FFF = .carried ∧ decodeSynd 0x0003 = .uncorrectable ∧
    decodeSynd 0x0010 = .checkBit := by decide +kernel

/-- R487, R493: a byte written to a protected word leaves the word's other bytes and reads back with them. -/
theorem test_byte_write :
    (readWord (writeWord (writeWord devW 0x100000000 0x1122334455667788 255 false) 0x100000000 0xAA 1 false) 0x100000000).1 = 0x11223344556677AA := by
  decide +kernel

/-- R522: with every byte enable clear nothing is written. -/
theorem test_no_enables : (writeWord devW 0x100000000 7 0 true).mem = devW.mem := by decide +kernel

/-- R138: the spread position is the smallest of its row that is late enough. -/
theorem test_spread_position : spreadPos 5 ⟨1000000, 4, 0, 0, 512⟩ 0 = 1000512 ∧ spreadPos 5 ⟨0, 4, 0, 0, 512⟩ 0 = 8704 := by decide +kernel

/-! ### One step -/

/-- The status (R134) in the last response that a state's unit has handed to its service port: bytes 2 and 3 after the 16-byte header. -/
def lastStatus (s : State) : Option Nat :=
  match (nth s.dev.lnk.ports 32).queue.getLast? with
  | some { out := .frame _ f, .. } => some (beAt f.data 18 2)
  | _ => none

/-- The state a step answers. -/
def after (s : State) : State :=
  match step s with
  | .next t => t
  | _ => s

def queued1 (c : Instr) : State := { unitW with pending := [c] }

/-- R134: a keepalive is answered with status 0 and leaves the queue; its outcome is a next state. -/
theorem test_step_keepalive : lastStatus (after (queued1 (.sessionKeepalive hdrW))) = some 0 ∧ (after (queued1 (.sessionKeepalive hdrW))).pending = [] := by
  decide +kernel

/-- R123: a command of a session that does not exist draws ST_NO_SESSION. -/
theorem test_no_session :
    lastStatus (after { pending := [.sessionClose { hdrW with session := 2 }], dev := devW }) = some ST.noSession := by decide +kernel

/-- R133: a set reserved flag draws ST_BAD_ARG, a wrong length ST_BAD_LENGTH. -/
theorem test_flags_and_length :
    lastStatus (after (queued1 (.fabHoldGet { hdrW with reservedFlags := true }))) = some ST.badArg ∧
    lastStatus (after (queued1 (.fabHoldGet { hdrW with lengthOk := false }))) = some ST.badLength := by decide +kernel

/-- R170: an opcode without a row draws ST_BAD_OPCODE. -/
theorem test_undefined_opcode : lastStatus (after (queued1 (.undefinedOpcode hdrW 0xFFFF))) = some ST.badOpcode := by decide +kernel

/-- R133: a dry run of FAB-PRIO-SET answers 0 and changes nothing of the fabric. -/
theorem test_dry_run :
    lastStatus (after (queued1 (.fabPrioSet { hdrW with dryRun := true } 3 0 64))) = some 0 ∧
    (after (queued1 (.fabPrioSet { hdrW with dryRun := true } 3 0 64))).dev.fab = devW.fab := by decide +kernel

/-- R526: FAB-TIMING-SET refuses target 8. -/
theorem test_fab_arg : lastStatus (after (queued1 (.fabTimingSet hdrW 8 1 1))) = some ST.fabArg := by decide +kernel

/-- R22: with nothing to do, a step is one tick of the axis clock. -/
theorem test_idle_tick : (after State.reset).dev.tmb.clock = 3125 ∧ (after State.reset).dev.tmb.cyc = 1 := by decide +kernel

/-- The table spells no command in bits. -/
theorem test_no_bits : decodeTableWord 32 0 = none ∧ State.reset.withFetchWord 32 0 = State.reset := ⟨rfl, rfl⟩

/-! ### The hypotheses of the statements can be met -/

theorem witness_SessionCommands_3_sessionAuth :
    starts (st fun d => { d with lnk := { d.lnk with sessions := [{ sessW with owner := false, nonce := some 5 }] }, nvm := { d.nvm with owners := List.replicate 4 { enrolled := true, pub := pubW } } } : State).dev hdrW (ask 0x0002) = true ∧
    3 ≤ 3 ∧ (nth (st fun d => { d with lnk := { d.lnk with sessions := [{ sessW with owner := false, nonce := some 5 }] }, nvm := { d.nvm with owners := List.replicate 4 { enrolled := true, pub := pubW } } } : State).dev.nvm.owners 3).enrolled = true ∧
    ecdsaVerify (nth (st fun d => { d with lnk := { d.lnk with sessions := [{ sessW with owner := false, nonce := some 5 }] }, nvm := { d.nvm with owners := List.replicate 4 { enrolled := true, pub := pubW } } } : State).dev.nvm.owners 3).pub (sha384 (bytesOf [fld 32 5, fld 3 ({ sessW with owner := false, nonce := some 5, lastHeard := 0 , seqs := upd (List.replicate 4 {}) 0 fun q => { q with high := some 1 } } : Session).header])) (⟨26247035095799689268623156744566981891852923491109213387815615900925518854738050089022388053975719786650872476732087, 3351721219642869346029545259597439154772677368159740980623615601274321943515693198540655788171301730757027826815356⟩ : EcdsaSig).r (⟨26247035095799689268623156744566981891852923491109213387815615900925518854738050089022388053975719786650872476732087, 3351721219642869346029545259597439154772677368159740980623615601274321943515693198540655788171301730757027826815356⟩ : EcdsaSig).s = true ∧
    (found (st fun d => { d with lnk := { d.lnk with sessions := [{ sessW with owner := false, nonce := some 5 }] }, nvm := { d.nvm with owners := List.replicate 4 { enrolled := true, pub := pubW } } } : State).dev hdrW).session? hdrW.session = some ({ sessW with owner := false, nonce := some 5, lastHeard := 0 , seqs := upd (List.replicate 4 {}) 0 fun q => { q with high := some 1 } } : Session) ∧ ({ sessW with owner := false, nonce := some 5, lastHeard := 0 , seqs := upd (List.replicate 4 {}) 0 fun q => { q with high := some 1 } } : Session).nonce = some 5 ∧ (found (st fun d => { d with lnk := { d.lnk with sessions := [{ sessW with owner := false, nonce := some 5 }] }, nvm := { d.nvm with owners := List.replicate 4 { enrolled := true, pub := pubW } } } : State).dev hdrW).owner? = none := by decide +kernel

theorem witness_SessionCommands :
    starts unitW.dev hdrW ({ opcode := 0x0000, observer := true, opens := true, loader := true, widths := [3, 1, 8, 4, 1, 1, 1, 6, 4] }) = true ∧
    starts unitW.dev hdrW ({ opcode := 0x0001, opens := true, loader := true, widths := [1, 1, 32] }) = true ∧
    0 ≤ 1 ∧ 1 ≤ 1 ∧ 600 ≤ 600 ∧
    (8960 = 0 ∨ (512 ≤ 8960 ∧ 8960 ≤ 8960 ∧ 8960 % 64 = 0)) ∧
    unitW.dev.lnk.sessions.length < 8 ∧
    (0 = 1 → unitW.dev.nvm.owners.any (·.enrolled) = false ∧ (found unitW.dev hdrW).owner? = none) ∧
    starts unitW.dev hdrW (ask 0x0003) = true ∧
    starts unitW.dev hdrW (ask 0x0004 [8]) = true ∧
    starts unitW.dev hdrW (ask 0x0005 [1, 1, 1, 1, 1, 4, 4, 4, 4, 4, 4, 4, 4]) = true ∧
    (found unitW.dev hdrW).session? hdrW.session = some ({ sessW with seqs := upd (List.replicate 4 {}) 0 fun q => { q with high := some 1 } } : Session) ∧
    starts unitW.dev hdrW (ask 0x0006 [1]) = true ∧
    starts (st fun d => { d with lnk := { d.lnk with sessions := [sessW, { sessW with num := 8, owner := false }] } } : State).dev hdrW (cmd 0x0007) = true ∧
    (found (st fun d => { d with lnk := { d.lnk with sessions := [sessW, { sessW with num := 8, owner := false }] } } : State).dev hdrW).session? 8 = some ({ sessW with num := 8, owner := false } : Session) ∧ ({ sessW with num := 8, owner := false } : Session).owner = false ∧
    starts unitW.dev hdrW (ask 0x0010) = true ∧
    0x1FFFF < 2 ^ 17 ∧ 3 ≤ 3 := by
  and_intros <;> decide +kernel

theorem witness_BulkCommands :
    starts unitW.dev hdrW ({ opcode := 0x0020, loader := true, widths := [2, 2] }) = true ∧
    kindIn 0x0F = true ∧ 0 < 268435456 ∧
    stageFits (found unitW.dev hdrW) 268435456 = true ∧
    starts (st fun d => { d with lnk := { d.lnk with bulk := [objW] } } : State).dev hdrW ({ opcode := 0x0021, observer := true, loader := true, widths := [8, 8, 8] }) = true ∧
    ((st fun d => { d with lnk := { d.lnk with bulk := [objW] } } : State).dev.obj? 1 = some objW ∧ (objW.session = hdrW.session ∨ objW.session = 0)) ∧
    starts (st fun d => { d with lnk := { d.lnk with bulk := [objW] } } : State).dev hdrW ({ opcode := 0x0022, loader := true }) = true ∧
    ((st fun d => { d with lnk := { d.lnk with bulk := [objW] } } : State).dev.obj? 1 = some objW ∧ (objW.session = hdrW.session ∨ objW.session = 0)) ∧
    (objW.closed = true ∨ (objW.len ≤ objW.received ∧ crc32c objW.bytes = objW.crc)) ∧
    starts (st fun d => { d with lnk := { d.lnk with bulk := [objW] } } : State).dev hdrW ({ opcode := 0x0023, loader := true }) = true ∧
    ((st fun d => { d with lnk := { d.lnk with bulk := [objW] } } : State).dev.obj? 1 = some objW ∧ (objW.session = hdrW.session ∨ objW.session = 0)) ∧
    starts (st fun d => { d with lnk := { d.lnk with bulk := [objW] } } : State).dev hdrW (ask 0x0024) = true ∧
    ((st fun d => { d with lnk := { d.lnk with bulk := [objW] } } : State).dev.obj? 1 = some objW ∧ (objW.session = hdrW.session ∨ objW.session = 0)) ∧
    0 < 3 ∧ 6 + 3 ≤ objW.len ∧ objW.closed = true ∧
    starts (st fun d => { d with lnk := { d.lnk with bulk := [objW] } } : State).dev hdrW (ask 0x0025) = true ∧
    ((st fun d => { d with lnk := { d.lnk with bulk := [objW] } } : State).dev.obj? 1 = some objW ∧ (objW.session = hdrW.session ∨ objW.session = 0)) ∧
    0 < 1 ∧ 8 + 1 ≤ objW.len ∧ objW.closed = true ∧
    (((st fun d => { d with lnk := { d.lnk with transfers := [(1, 3)] } } : State).dev.lnk.ports.any fun c => c.queue.any fun w => w.handle == 3) = false) ∧
    (st fun d => { d with lnk := { d.lnk with transfers := [(1, 3)] } } : State).dev.lnk.transfers.find? (·.2 == 3) = some ((1, 3) : Nat × Nat) ∧
    (dataIn (st fun d => { d with lnk := { d.lnk with bulk := [{ objW with closed := false, frags := [], frag := 256 }] } } : State).dev 1 rxW (12 + ([1,2,3,4,5,6,7,8,9] : List Nat).length)).2 = true ∧
    (st fun d => { d with lnk := { d.lnk with bulk := [{ objW with closed := false, frags := [], frag := 256 }] } } : State).dev.obj? 1 = some ({ objW with closed := false, frags := [], frag := 256 } : BulkObj) ∧ ({ objW with closed := false, frags := [], frag := 256 } : BulkObj).session = 1 ∧ ({ objW with closed := false, frags := [], frag := 256 } : BulkObj).outbound = false ∧ ({ objW with closed := false, frags := [], frag := 256 } : BulkObj).closed = false ∧
    fragOk ({ objW with closed := false, frags := [], frag := 256 } : BulkObj) 0 ([1,2,3,4,5,6,7,8,9] : List Nat).length = true ∧ ({ objW with closed := false, frags := [], frag := 256 } : BulkObj).frags.any (·.off == 0) = false := by
  and_intros <;> decide +kernel

theorem witness_LinkEvents_5_swiosPacketDropped :
    portUp unitW.dev 32 = true ∧ true = true ∧ carried unitW.dev (rawPktW (List.replicate 20 0) : RawPkt).src (rawPktW (List.replicate 20 0) : RawPkt).wire = true ∧ dropStep unitW.dev (rawPktW (List.replicate 20 0) : RawPkt) = some 2 := by decide +kernel

theorem witness_LinkEvents :
    starts unitW.dev hdrW (ask 0x0011 [2]) = true ∧
    1 ≤ 64 ∧ 64 ≤ 64 ∧
    (st fun d => { d with lnk := { d.lnk with sessions := [{ sessW with queue := [⟨1, 0x0601, 1, 5, []⟩] }] } } : State).dev.session? 1 = some ({ sessW with queue := [⟨1, 0x0601, 1, 5, []⟩] } : Session) ∧ ({ sessW with queue := [⟨1, 0x0601, 1, 5, []⟩] } : Session).lost = 0 ∧ portUp (st fun d => { d with lnk := { d.lnk with sessions := [{ sessW with queue := [⟨1, 0x0601, 1, 5, []⟩] }] } } : State).dev ({ sessW with queue := [⟨1, 0x0601, 1, 5, []⟩] } : Session).port = true ∧
    ([⟨1, 0x0601, 1, 5, []⟩] : List EvRec) = packetRecs (payloadFor (st fun d => { d with lnk := { d.lnk with sessions := [{ sessW with queue := [⟨1, 0x0601, 1, 5, []⟩] }] } } : State).dev ({ sessW with queue := [⟨1, 0x0601, 1, 5, []⟩] } : Session).num ({ sessW with queue := [⟨1, 0x0601, 1, 5, []⟩] } : Session).port) ({ sessW with queue := [⟨1, 0x0601, 1, 5, []⟩] } : Session).queue ∧ ([⟨1, 0x0601, 1, 5, []⟩] : List EvRec) ≠ [] ∧
    (st fun d => { d with tmb := { d.tmb with cyc := 10 * tickHz } } : State).dev.session? 1 = some sessW ∧ sessW.lastHeard + sessW.keepalive * tickHz ≤ (st fun d => { d with tmb := { d.tmb with cyc := 10 * tickHz } } : State).dev.now ∧
    portUp unitW.dev 32 = true ∧ false = false ∧
    (portUp unitW.dev 32 = true ∧ true = true ∧ (carried unitW.dev ({ rawPktW [] with wire := { key := 0 } } : RawPkt).src ({ rawPktW [] with wire := { key := 0 } } : RawPkt).wire = false ∨ dropStep unitW.dev ({ rawPktW [] with wire := { key := 0 } } : RawPkt) = none)) ∧
    (st fun d => { d with lnk := { d.lnk with slots := [⟨0x80, 0, 1, 10000, 7865, 9, none⟩], reports := [⟨0x80, 3, [], [], 0⟩] }, lanes := List.replicate 32 { st := 5, mode := 1 } } : State).dev.lnk.slots.find? (·.kind == 0x80) = some (⟨0x80, 0, 1, 10000, 7865, 9, none⟩ : RepSlot) ∧ nextSlot (st fun d => { d with lnk := { d.lnk with slots := [⟨0x80, 0, 1, 10000, 7865, 9, none⟩], reports := [⟨0x80, 3, [], [], 0⟩] }, lanes := List.replicate 32 { st := 5, mode := 1 } } : State).dev (⟨0x80, 0, 1, 10000, 7865, 9, none⟩ : RepSlot) ≤ (st fun d => { d with lnk := { d.lnk with slots := [⟨0x80, 0, 1, 10000, 7865, 9, none⟩], reports := [⟨0x80, 3, [], [], 0⟩] }, lanes := List.replicate 32 { st := 5, mode := 1 } } : State).dev.axis + minLead ∧ (⟨0x80, 0, 1, 10000, 7865, 9, none⟩ : RepSlot).done ≠ some (nextSlot (st fun d => { d with lnk := { d.lnk with slots := [⟨0x80, 0, 1, 10000, 7865, 9, none⟩], reports := [⟨0x80, 3, [], [], 0⟩] }, lanes := List.replicate 32 { st := 5, mode := 1 } } : State).dev (⟨0x80, 0, 1, 10000, 7865, 9, none⟩ : RepSlot)) ∧
    ((st fun d => { d with lnk := { d.lnk with slots := [⟨0x80, 0, 1, 10000, 7865, 9, none⟩], reports := [⟨0x80, 3, [], [], 0⟩] }, lanes := List.replicate 32 { st := 5, mode := 1 } } : State).dev.lnk.reports.find? (fun y => y.kind == 0x80 && decide (y.ready + minLead ≤ nextSlot (st fun d => { d with lnk := { d.lnk with slots := [⟨0x80, 0, 1, 10000, 7865, 9, none⟩], reports := [⟨0x80, 3, [], [], 0⟩] }, lanes := List.replicate 32 { st := 5, mode := 1 } } : State).dev (⟨0x80, 0, 1, 10000, 7865, 9, none⟩ : RepSlot))) = some (⟨0x80, 3, [], [], 0⟩ : PendReport)) ∧
    reportLaunches (st fun d => { d with lnk := { d.lnk with slots := [⟨0x80, 0, 1, 10000, 7865, 9, none⟩], reports := [⟨0x80, 3, [], [], 0⟩] }, lanes := List.replicate 32 { st := 5, mode := 1 } } : State).dev < 64 ∧ freeBuffer (st fun d => { d with lnk := { d.lnk with slots := [⟨0x80, 0, 1, 10000, 7865, 9, none⟩], reports := [⟨0x80, 3, [], [], 0⟩] }, lanes := List.replicate 32 { st := 5, mode := 1 } } : State).dev.tmb.launches = some 0 ∧
    (st fun d => { d with lnk := { d.lnk with slots := [⟨0x80, 0, 1, 10000, 7865, 9, none⟩] } } : State).dev.lnk.slots.find? (·.kind == 0x80) = some (⟨0x80, 0, 1, 10000, 7865, 9, none⟩ : RepSlot) ∧ nextSlot (st fun d => { d with lnk := { d.lnk with slots := [⟨0x80, 0, 1, 10000, 7865, 9, none⟩] } } : State).dev (⟨0x80, 0, 1, 10000, 7865, 9, none⟩ : RepSlot) ≤ (st fun d => { d with lnk := { d.lnk with slots := [⟨0x80, 0, 1, 10000, 7865, 9, none⟩] } } : State).dev.axis + minLead ∧ (⟨0x80, 0, 1, 10000, 7865, 9, none⟩ : RepSlot).done ≠ some (nextSlot (st fun d => { d with lnk := { d.lnk with slots := [⟨0x80, 0, 1, 10000, 7865, 9, none⟩] } } : State).dev (⟨0x80, 0, 1, 10000, 7865, 9, none⟩ : RepSlot)) ∧
    ((st fun d => { d with lnk := { d.lnk with slots := [⟨0x80, 0, 1, 10000, 7865, 9, none⟩] } } : State).dev.lnk.reports.find? (fun y => y.kind == 0x80 && decide (y.ready + minLead ≤ nextSlot (st fun d => { d with lnk := { d.lnk with slots := [⟨0x80, 0, 1, 10000, 7865, 9, none⟩] } } : State).dev (⟨0x80, 0, 1, 10000, 7865, 9, none⟩ : RepSlot))) = none) ∧
    (st fun d => { d with tmb := { d.tmb with launches := [⟨63, 2, 76, .response default⟩] }, lanes := List.replicate 32 { st := 5, mode := 1 } } : State).dev.tmb.launches.find? (·.buffer == 63) = some (⟨63, 2, 76, .response default⟩ : Launch) ∧ (⟨63, 2, 76, .response default⟩ : Launch).what = .response default ∧
    (st fun d => { d with tmb := { d.tmb with launches := [⟨63, 2, 76, .response default⟩] }, lanes := List.replicate 32 { st := 5, mode := 1 } } : State).dev.axis = (⟨63, 2, 76, .response default⟩ : Launch).pos - launchDelay (st fun d => { d with tmb := { d.tmb with launches := [⟨63, 2, 76, .response default⟩] }, lanes := List.replicate 32 { st := 5, mode := 1 } } : State).dev (⟨63, 2, 76, .response default⟩ : Launch).lane ∧ portUp (st fun d => { d with tmb := { d.tmb with launches := [⟨63, 2, 76, .response default⟩] }, lanes := List.replicate 32 { st := 5, mode := 1 } } : State).dev (⟨63, 2, 76, .response default⟩ : Launch).lane = true ∧
    (st fun d => { d with tmb := { d.tmb with launches := [⟨63, 2, 0, .response default⟩] } } : State).dev.tmb.launches.find? (·.buffer == 63) = some (⟨63, 2, 0, .response default⟩ : Launch) ∧ (⟨63, 2, 0, .response default⟩ : Launch).what = .response default ∧
    ((⟨63, 2, 0, .response default⟩ : Launch).pos - launchDelay (st fun d => { d with tmb := { d.tmb with launches := [⟨63, 2, 0, .response default⟩] } } : State).dev (⟨63, 2, 0, .response default⟩ : Launch).lane ≤ (st fun d => { d with tmb := { d.tmb with launches := [⟨63, 2, 0, .response default⟩] } } : State).dev.axis ∧ ((st fun d => { d with tmb := { d.tmb with launches := [⟨63, 2, 0, .response default⟩] } } : State).dev.axis ≠ (⟨63, 2, 0, .response default⟩ : Launch).pos - launchDelay (st fun d => { d with tmb := { d.tmb with launches := [⟨63, 2, 0, .response default⟩] } } : State).dev (⟨63, 2, 0, .response default⟩ : Launch).lane ∨ portUp (st fun d => { d with tmb := { d.tmb with launches := [⟨63, 2, 0, .response default⟩] } } : State).dev (⟨63, 2, 0, .response default⟩ : Launch).lane = false)) ∧
    3 = 3 ∧
    (st fun d => { d with lnk := { d.lnk with newEncap := some (Encap.factory, 1, 0, 1) } } : State).dev.lnk.newEncap = some ((Encap.factory : Encap), 1, 0, 1) ∧ answered (st fun d => { d with lnk := { d.lnk with newEncap := some (Encap.factory, 1, 0, 1) } } : State).dev 1 0 1 = true ∧
    (st fun d => { d with lnk := { d.lnk with encap := { Encap.factory with ipv4Mode := 2 } } } : State).dev.lnk.encap.ipv4Mode = 2 ∧
    (unitW.dev.ctl.phase = .running ∧ (unitW.dev.lnk.admitted = true ∨ arrives unitW.dev hdrW { opcode := 0, unknown := true } = true)) := by
  and_intros <;> decide +kernel

theorem witness_ReportsAndCounters :
    starts unitW.dev hdrW (cmd 0x0030) = true ∧
    (15 ≤ 15 ∧ (6 = 0 ∨ 6 = 4 ∨ 6 = 6)) ∧
    (512 = 0 ∨ (512 ≤ 512 ∧ 512 ≤ 8960 ∧ 512 % 64 = 0)) ∧
    starts unitW.dev hdrW (cmd 0x0031) = true ∧
    reportBody 0x0B01 = some 4 ∧ 15 ≤ 15 ∧ 31 ≤ 31 ∧ 1 < 2 ∧
    reportTicks (found unitW.dev hdrW) 15 31 4 ≤ 1223602790400 ∧
    starts (st fun d => { d with lnk := { d.lnk with slots := [⟨0x80, 0, 1, 1, 0, 9, none⟩] } } : State).dev hdrW (ask 0x0032 [2, 1, 1, 4, 4, 4]) = true ∧
    (reportBody 0x80).isSome = true ∧ (st fun d => { d with lnk := { d.lnk with slots := [⟨0x80, 0, 1, 1, 0, 9, none⟩] } } : State).dev.lnk.slots.find? (·.kind == 0x80) = some (⟨0x80, 0, 1, 1, 0, 9, none⟩ : RepSlot) ∧
    starts unitW.dev hdrW (cmd 0x0040) = true ∧
    ({ Encap.factory with vlan := 4094, ipv4Mode := 2, prefixLen := 32 } : Encap).vlan ≤ 4094 ∧ ({ Encap.factory with vlan := 4094, ipv4Mode := 2, prefixLen := 32 } : Encap).ipv4Mode ≤ 2 ∧ ({ Encap.factory with vlan := 4094, ipv4Mode := 2, prefixLen := 32 } : Encap).prefixLen ≤ 32 ∧
    starts unitW.dev hdrW (ask 0x0041 [2, 2, 2, 1, 4, 1, 4, 16, 16]) = true ∧
    starts unitW.dev hdrW (askClear 0x0042 1 [8, 8, 8, 8, 8, 8, 8]) = true ∧
    ((0xFF ≤ 31 ∨ 0xFF = 0xFF) ∧ 1 ≤ 1) := by
  and_intros <;> decide +kernel

theorem witness_TimeCommands :
    starts unitW.dev hdrW (ask 0x0100 [6, 4, 2, 8, 4, 8, 8, 8, 8]) = true ∧
    starts unitW.dev hdrW (cmd 0x0101) = true ∧
    1 ≤ 1 ∧ 1 ≤ 3600 ∧ 3600 ≤ 3600 ∧ unitW.dev.qs.state = 0 ∧
    starts unitW.dev hdrW (cmd 0x0102) = true ∧
    (1 ≤ 1 ∧ 24 ≤ 43 ∧ 43 ≤ 43 ∧ (0xFF ≤ 31 ∨ 0xFF = 0xFF) ∧ 1 ≤ 1 ∧ unitW.dev.qs.state = 0) ∧
    (unitW.dev.tmb.srv (1 + 1)).st = 0 ∧
    starts unitW.dev hdrW (ask 0x0103 [1, 8, 1, 8, 8, 8]) = true ∧
    1 ≤ 1 ∧
    starts (st fun d => { d with tmb := { d.tmb with srvPps := { st := 3 } } } : State).dev hdrW (cmd 0x0104) = true ∧
    1 ≤ 4 ∧ 4 ≤ 4 ∧ ((st fun d => { d with tmb := { d.tmb with srvPps := { st := 3 } } } : State).dev.tmb.srv 4).st = 3 ∧ switchTooFar (st fun d => { d with tmb := { d.tmb with srvPps := { st := 3 } } } : State).dev.tmb 4 = false ∧
    starts unitW.dev hdrW (cmd 0x0105) = true ∧
    1 ≤ 500 ∧ 500 ≤ 500 ∧ 100 ≤ 1000000 ∧ 1000000 ≤ 1000000 ∧
    starts (st fun d => { d with tmb := { d.tmb with srvPps := { st := 3 } } } : State).dev hdrW (cmd 0x0106 [8, 2]) = true ∧
    1 ≤ 4 ∧ 4 ≤ 4 ∧ ((st fun d => { d with tmb := { d.tmb with srvPps := { st := 3 } } } : State).dev.tmb.srv 4).st = 3 ∧ 1 ≤ 1 ∧ timeOk (⟨0, 0, 0⟩ : Time12) = true ∧
    (1 = 1 → frameLenOk 1966080000 = true) ∧
    (epochOk (if 1 = 1 then (⟨0, 0, 0⟩ : Time12) else (st fun d => { d with tmb := { d.tmb with srvPps := { st := 3 } } } : State).dev.tmb.epoch) (shiftClock (st fun d => { d with tmb := { d.tmb with srvPps := { st := 3 } } } : State).dev.tmb.clock ((st fun d => { d with tmb := { d.tmb with srvPps := { st := 3 } } } : State).dev.tmb.srv 4).offset) = true) ∧
    starts unitW.dev hdrW (cmd 0x0107) = true ∧
    31 ≤ 31 ∧ 2 ≤ 2 ∧
    unitW.dev.tmb.srvLane.st = 0 ∧
    starts unitW.dev hdrW (ask 0x0108 [1, 3, 4, 4]) = true ∧
    starts unitW.dev hdrW (cmd 0x0109) = true ∧
    1 ≤ 1 ∧ 1 ≤ 500 ∧ 500 ≤ 500 ∧
    starts unitW.dev hdrW (cmd 0x010A [4]) = true ∧
    1 ≤ 1 ∧
    starts unitW.dev hdrW (cmd 0x0110) = true ∧
    timeOk (⟨0, 0, 0⟩ : Time12) = true ∧ frameLenOk 983040 = true ∧ epochOk (⟨0, 0, 0⟩ : Time12) unitW.dev.tmb.clock = true ∧ unitW.dev.tmb.traced = false ∧
    starts unitW.dev hdrW (ask 0x0111 [8, 8, 6, 4, 2, 4]) = true := by
  and_intros <;> decide +kernel

theorem witness_ServoHappenings_8_servoQualify :
    1 ≤ 4 ∧ 4 ≤ 4 ∧ qualifies (st fun d => { d with tmb := { d.tmb with traced := true, cyc := 16 * tickHz, srvPps := { st := 4, goodSince := some 0 } } } : State).dev 4 = true ∧
    ((servoTo (st fun d => { d with tmb := { d.tmb with traced := true, cyc := 16 * tickHz, srvPps := { st := 4, goodSince := some 0 } } }).dev 4 3 : Dev) = [1, 2, 3, 4].foldl (fun x k => if qualifies (st fun d => { d with tmb := { d.tmb with traced := true, cyc := 16 * tickHz, srvPps := { st := 4, goodSince := some 0 } } } : State).dev k then servoTo x k 3 else x) (st fun d => { d with tmb := { d.tmb with traced := true, cyc := 16 * tickHz, srvPps := { st := 4, goodSince := some 0 } } } : State).dev ∧ (servoTo (st fun d => { d with tmb := { d.tmb with traced := true, cyc := 16 * tickHz, srvPps := { st := 4, goodSince := some 0 } } }).dev 4 3 : Dev).tmb.traced = true) := by
  and_intros <;> first | rfl | decide +kernel

theorem witness_ServoHappenings_9_servoQualify :
    1 ≤ 3 ∧ 3 ≤ 4 ∧ qualifies (st fun d => { d with lanes := List.replicate 32 { st := 5, mode := 5 }, tmb := { d.tmb with laneTraced := true, cyc := tickHz, prio := [0, 0, 1, 0], srvLane := { st := 2, goodSince := some 0 } } } : State).dev 3 = true ∧
    ((servoTo (st fun d => { d with lanes := List.replicate 32 { st := 5, mode := 5 }, tmb := { d.tmb with laneTraced := true, cyc := tickHz, prio := [0, 0, 1, 0], srvLane := { st := 2, goodSince := some 0 } } }).dev 3 3 : Dev) = [1, 2, 3, 4].foldl (fun x k => if qualifies (st fun d => { d with lanes := List.replicate 32 { st := 5, mode := 5 }, tmb := { d.tmb with laneTraced := true, cyc := tickHz, prio := [0, 0, 1, 0], srvLane := { st := 2, goodSince := some 0 } } } : State).dev k then servoTo x k 3 else x) (st fun d => { d with lanes := List.replicate 32 { st := 5, mode := 5 }, tmb := { d.tmb with laneTraced := true, cyc := tickHz, prio := [0, 0, 1, 0], srvLane := { st := 2, goodSince := some 0 } } } : State).dev ∧ (servoTo (st fun d => { d with lanes := List.replicate 32 { st := 5, mode := 5 }, tmb := { d.tmb with laneTraced := true, cyc := tickHz, prio := [0, 0, 1, 0], srvLane := { st := 2, goodSince := some 0 } } }).dev 3 3 : Dev).tmb.traced = false ∧ bestLocked (servoTo (st fun d => { d with lanes := List.replicate 32 { st := 5, mode := 5 }, tmb := { d.tmb with laneTraced := true, cyc := tickHz, prio := [0, 0, 1, 0], srvLane := { st := 2, goodSince := some 0 } } }).dev 3 3 : Dev).tmb = some 3) := by
  and_intros <;> first | rfl | decide +kernel

theorem witness_ServoHappenings :
    1 ≤ 1 ∧ ((st fun d => { d with tmb := { d.tmb with srvB := { st := 1, port := 9 } } } : State).dev.tmb.srv (1 + 1)).st = 1 ∧ ((st fun d => { d with tmb := { d.tmb with srvB := { st := 1, port := 9 } } } : State).dev.tmb.srv (1 + 1)).port = 9 ∧
    1 ≤ 1 ∧ 2 ≤ ((st fun d => { d with tmb := { d.tmb with srvB := { st := 3, port := 9 } } } : State).dev.tmb.srv (1 + 1)).st ∧ ((st fun d => { d with tmb := { d.tmb with srvB := { st := 3, port := 9 } } } : State).dev.tmb.srv (1 + 1)).port = 9 ∧
    (({ gm := 7, clockClass := 7, better := true } : Announce).gm = ((st fun d => { d with tmb := { d.tmb with srvB := { st := 3, port := 9 } } } : State).dev.tmb.srv (1 + 1)).gm ∨ ({ gm := 7, clockClass := 7, better := true } : Announce).better = true) ∧
    (((st fun d => { d with tmb := { d.tmb with srvB := { st := 3, port := 9 } } } : State).dev.tmb.srv (1 + 1)).st = 3 → ({ gm := 7, clockClass := 7, better := true } : Announce).clockClass ≤ 7) ∧
    1 ≤ 1 ∧ 2 ≤ ((st fun d => { d with tmb := { d.tmb with srvB := { st := 2, port := 32 } } } : State).dev.tmb.srv (1 + 1)).st ∧
    (-20447232 : Int) = 0 - tenthN16 (stampCorr (st fun d => { d with tmb := { d.tmb with srvB := { st := 2, port := 32 } } } : State).dev ((st fun d => { d with tmb := { d.tmb with srvB := { st := 2, port := 32 } } } : State).dev.tmb.srv (1 + 1)).port).2 - (⟨0, 0⟩ : PtpCorr).sync ∧
    (-11534336 : Int) = 0 - tenthN16 (stampCorr (st fun d => { d with tmb := { d.tmb with srvB := { st := 2, port := 32 } } } : State).dev ((st fun d => { d with tmb := { d.tmb with srvB := { st := 2, port := 32 } } } : State).dev.tmb.srv (1 + 1)).port).1 - (⟨0, 0⟩ : PtpCorr).delay ∧
    1 ≤ 1 ∧ 2 ≤ ((st fun d => { d with tmb := { d.tmb with srvB := { st := 2 } } } : State).dev.tmb.srv (1 + 1)).st ∧ ((st fun d => { d with tmb := { d.tmb with srvB := { st := 2 } } } : State).dev.tmb.srv (1 + 1)).reqAt ≤ (st fun d => { d with tmb := { d.tmb with srvB := { st := 2 } } } : State).dev.now ∧
    0 = 0 ∧ (st fun d => { d with tmb := { d.tmb with srvA := { st := 2 } } } : State).dev.tmb.srvA.st = 2 ∧
    1 = 1 ∧ (st fun d => { d with tmb := { d.tmb with srvB := { st := 3 } } } : State).dev.tmb.srvB.st = 3 ∧
    (1 ≤ 1 ∧ (((st fun d => { d with tmb := { d.tmb with cyc := 2 * tickHz, srvB := { st := 3, measured := some 0 } } } : State).dev.tmb.srv (1 + 1)).st = 2 ∨ ((st fun d => { d with tmb := { d.tmb with cyc := 2 * tickHz, srvB := { st := 3, measured := some 0 } } } : State).dev.tmb.srv (1 + 1)).st = 3)) ∧
    (max (((st fun d => { d with tmb := { d.tmb with cyc := 2 * tickHz, srvB := { st := 3, measured := some 0 } } } : State).dev.tmb.srv (1 + 1)).measured.getD 0) (if ((st fun d => { d with tmb := { d.tmb with cyc := 2 * tickHz, srvB := { st := 3, measured := some 0 } } } : State).dev.tmb.srv (1 + 1)).st = 2 then ((st fun d => { d with tmb := { d.tmb with cyc := 2 * tickHz, srvB := { st := 3, measured := some 0 } } } : State).dev.tmb.srv (1 + 1)).since else 0) + 2 * tickHz ≤ (st fun d => { d with tmb := { d.tmb with cyc := 2 * tickHz, srvB := { st := 3, measured := some 0 } } } : State).dev.now) ∧
    1 ≤ 3 ∧ 3 ≤ 4 ∧ ((st fun d => { d with tmb := { d.tmb with cyc := 3600 * tickHz, srvLane := { st := 4 } } } : State).dev.tmb.srv 3).st = 4 ∧ ((st fun d => { d with tmb := { d.tmb with cyc := 3600 * tickHz, srvLane := { st := 4 } } } : State).dev.tmb.srv 3).heldSince + 3600 * tickHz ≤ (st fun d => { d with tmb := { d.tmb with cyc := 3600 * tickHz, srvLane := { st := 4 } } } : State).dev.now ∧
    1 ≤ 4 ∧ 4 ≤ 4 ∧ (st fun d => { d with tmb := { d.tmb with cyc := 60 * tickHz, revertive := true, traced := true, active := 1, prio := [2, 0, 0, 1], srvPps := { st := 3 } } } : State).dev.tmb.revertive = true ∧ (st fun d => { d with tmb := { d.tmb with cyc := 60 * tickHz, revertive := true, traced := true, active := 1, prio := [2, 0, 0, 1], srvPps := { st := 3 } } } : State).dev.tmb.traced = true ∧ (st fun d => { d with tmb := { d.tmb with cyc := 60 * tickHz, revertive := true, traced := true, active := 1, prio := [2, 0, 0, 1], srvPps := { st := 3 } } } : State).dev.tmb.active ≠ 0 ∧ (st fun d => { d with tmb := { d.tmb with cyc := 60 * tickHz, revertive := true, traced := true, active := 1, prio := [2, 0, 0, 1], srvPps := { st := 3 } } } : State).dev.tmb.active ≠ 4 ∧
    (((st fun d => { d with tmb := { d.tmb with cyc := 60 * tickHz, revertive := true, traced := true, active := 1, prio := [2, 0, 0, 1], srvPps := { st := 3 } } } : State).dev.tmb.srv 4).st = 3 ∧ (st fun d => { d with tmb := { d.tmb with cyc := 60 * tickHz, revertive := true, traced := true, active := 1, prio := [2, 0, 0, 1], srvPps := { st := 3 } } } : State).dev.tmb.prioOf 4 ≠ 0 ∧ ((st fun d => { d with tmb := { d.tmb with cyc := 60 * tickHz, revertive := true, traced := true, active := 1, prio := [2, 0, 0, 1], srvPps := { st := 3 } } } : State).dev.tmb.prioOf 4 < (st fun d => { d with tmb := { d.tmb with cyc := 60 * tickHz, revertive := true, traced := true, active := 1, prio := [2, 0, 0, 1], srvPps := { st := 3 } } } : State).dev.tmb.prioOf (st fun d => { d with tmb := { d.tmb with cyc := 60 * tickHz, revertive := true, traced := true, active := 1, prio := [2, 0, 0, 1], srvPps := { st := 3 } } } : State).dev.tmb.active ∨
        ((st fun d => { d with tmb := { d.tmb with cyc := 60 * tickHz, revertive := true, traced := true, active := 1, prio := [2, 0, 0, 1], srvPps := { st := 3 } } } : State).dev.tmb.prioOf 4 = (st fun d => { d with tmb := { d.tmb with cyc := 60 * tickHz, revertive := true, traced := true, active := 1, prio := [2, 0, 0, 1], srvPps := { st := 3 } } } : State).dev.tmb.prioOf (st fun d => { d with tmb := { d.tmb with cyc := 60 * tickHz, revertive := true, traced := true, active := 1, prio := [2, 0, 0, 1], srvPps := { st := 3 } } } : State).dev.tmb.active ∧ 4 < (st fun d => { d with tmb := { d.tmb with cyc := 60 * tickHz, revertive := true, traced := true, active := 1, prio := [2, 0, 0, 1], srvPps := { st := 3 } } } : State).dev.tmb.active))) ∧
    ((st fun d => { d with tmb := { d.tmb with cyc := 60 * tickHz, revertive := true, traced := true, active := 1, prio := [2, 0, 0, 1], srvPps := { st := 3 } } } : State).dev.tmb.srv 4).lockedSince + (st fun d => { d with tmb := { d.tmb with cyc := 60 * tickHz, revertive := true, traced := true, active := 1, prio := [2, 0, 0, 1], srvPps := { st := 3 } } } : State).dev.tmb.qualTime * tickHz ≤ (st fun d => { d with tmb := { d.tmb with cyc := 60 * tickHz, revertive := true, traced := true, active := 1, prio := [2, 0, 0, 1], srvPps := { st := 3 } } } : State).dev.now ∧ switchTooFar (st fun d => { d with tmb := { d.tmb with cyc := 60 * tickHz, revertive := true, traced := true, active := 1, prio := [2, 0, 0, 1], srvPps := { st := 3 } } } : State).dev.tmb 4 = false ∧
    (st fun d => { d with tmb := { d.tmb with slewing := true } } : State).dev.tmb.slewing = true ∧ (st fun d => { d with tmb := { d.tmb with slewing := true } } : State).dev.tmb.slewLeft.natAbs ≤ slewed (st fun d => { d with tmb := { d.tmb with slewing := true } } : State).dev.tmb (st fun d => { d with tmb := { d.tmb with slewing := true } } : State).dev.now := by
  and_intros <;> decide +kernel

theorem witness_TimeInputs :
    timeLane (st fun d => { d with tmb := { d.tmb with laneRole := 1, laneNum := 31 }, lanes := List.replicate 32 { st := 5, mode := 5 } } : State).dev 31 = true ∧ (st fun d => { d with tmb := { d.tmb with laneRole := 1, laneNum := 31 }, lanes := List.replicate 32 { st := 5, mode := 5 } } : State).dev.tmb.laneNext ≤ (st fun d => { d with tmb := { d.tmb with laneRole := 1, laneNum := 31 }, lanes := List.replicate 32 { st := 5, mode := 5 } } : State).dev.now ∧
    timeLane (st fun d => { d with tmb := { d.tmb with laneRole := 1, laneNum := 31 }, lanes := List.replicate 32 { st := 5, mode := 5 } } : State).dev 31 = true ∧ 0xB4 = 0xB4 ∧
    timeLane (st fun d => { d with tmb := { d.tmb with laneRole := 2, laneNum := 31, laneSent := [(5, 4)], laneTimes := some (20, 27), srvLane := { st := 3 } }, lanes := List.replicate 32 { st := 5, mode := 5 } } : State).dev 31 = true ∧ (st fun d => { d with tmb := { d.tmb with laneRole := 2, laneNum := 31, laneSent := [(5, 4)], laneTimes := some (20, 27), srvLane := { st := 3 } }, lanes := List.replicate 32 { st := 5, mode := 5 } } : State).dev.tmb.laneRole = 2 ∧ (st fun d => { d with tmb := { d.tmb with laneRole := 2, laneNum := 31, laneSent := [(5, 4)], laneTimes := some (20, 27), srvLane := { st := 3 } }, lanes := List.replicate 32 { st := 5, mode := 5 } } : State).dev.tmb.srvLane.st = 3 ∧ true = true ∧ 0xB5 = 0xB5 ∧ true = true ∧
    (st fun d => { d with tmb := { d.tmb with laneRole := 2, laneNum := 31, laneSent := [(5, 4)], laneTimes := some (20, 27), srvLane := { st := 3 } }, lanes := List.replicate 32 { st := 5, mode := 5 } } : State).dev.tmb.laneSent.lookup (5 % 128) = some 4 ∧ (st fun d => { d with tmb := { d.tmb with laneRole := 2, laneNum := 31, laneSent := [(5, 4)], laneTimes := some (20, 27), srvLane := { st := 3 } }, lanes := List.replicate 32 { st := 5, mode := 5 } } : State).dev.tmb.laneTimes = some (20, 27) ∧
    (-1 : Int) = childOffset 4 (0 * 2 ^ 24 + 9) 20 27 (st fun d => { d with tmb := { d.tmb with laneRole := 2, laneNum := 31, laneSent := [(5, 4)], laneTimes := some (20, 27), srvLane := { st := 3 } }, lanes := List.replicate 32 { st := 5, mode := 5 } } : State).dev.tmb.laneAsym ∧
    (st fun d => { d with tmb := { d.tmb with cyc := tickHz / 100, srvLane := { st := 3 } } } : State).dev.tmb.laneArrival + tickHz / 100 ≤ (st fun d => { d with tmb := { d.tmb with cyc := tickHz / 100, srvLane := { st := 3 } } } : State).dev.now ∧ (st fun d => { d with tmb := { d.tmb with cyc := tickHz / 100, srvLane := { st := 3 } } } : State).dev.tmb.srvLane.st = 3 ∧
    (st fun d => { d with tmb := { d.tmb with cyc := tickHz / 10, srvLane := { st := 3, badSince := some 0 } } } : State).dev.tmb.srvLane.badSince = some 0 ∧ (st fun d => { d with tmb := { d.tmb with cyc := tickHz / 10, srvLane := { st := 3, badSince := some 0 } } } : State).dev.tmb.srvLane.st = 3 ∧ 0 + tickHz / 10 ≤ (st fun d => { d with tmb := { d.tmb with cyc := tickHz / 10, srvLane := { st := 3, badSince := some 0 } } } : State).dev.now ∧
    (st fun d => { d with tmb := { d.tmb with cyc := tickHz + 1966, srvPps := { st := 1 }, ppsEdge := some 0 } } : State).dev.tmb.srvPps.st = 1 ∧ (st fun d => { d with tmb := { d.tmb with cyc := tickHz + 1966, srvPps := { st := 1 }, ppsEdge := some 0 } } : State).dev.tmb.srvPps.measured = none ∧
    (st fun d => { d with tmb := { d.tmb with cyc := tickHz + 1966, srvPps := { st := 1 }, ppsEdge := some 0 } } : State).dev.tmb.ppsEdge.isSome = true ∧ tickHz ≤ (st fun d => { d with tmb := { d.tmb with cyc := tickHz + 1966, srvPps := { st := 1 }, ppsEdge := some 0 } } : State).dev.now - (st fun d => { d with tmb := { d.tmb with cyc := tickHz + 1966, srvPps := { st := 1 }, ppsEdge := some 0 } } : State).dev.tmb.ppsEdge.getD 0 + 1966 ∧ (st fun d => { d with tmb := { d.tmb with cyc := tickHz + 1966, srvPps := { st := 1 }, ppsEdge := some 0 } } : State).dev.now - (st fun d => { d with tmb := { d.tmb with cyc := tickHz + 1966, srvPps := { st := 1 }, ppsEdge := some 0 } } : State).dev.tmb.ppsEdge.getD 0 ≤ tickHz + 1966 ∧
    unitW.dev.tmb.srvPps.st = 0 ∧
    (st fun d => { d with tmb := { d.tmb with cyc := 2 * tickHz, srvPps := { st := 3 }, ppsEdge := some 0 } } : State).dev.tmb.ppsEdge = some 0 ∧ 0 + 2 * tickHz ≤ (st fun d => { d with tmb := { d.tmb with cyc := 2 * tickHz, srvPps := { st := 3 }, ppsEdge := some 0 } } : State).dev.now ∧ (st fun d => { d with tmb := { d.tmb with cyc := 2 * tickHz, srvPps := { st := 3 }, ppsEdge := some 0 } } : State).dev.tmb.srvPps.st = 3 ∧
    (st fun d => { d with tmb := { d.tmb with ppsEnable := true } } : State).dev.tmb.ppsEnable = true ∧ ppsDue (st fun d => { d with tmb := { d.tmb with ppsEnable := true } } : State).dev.tmb = true ∧
    (st fun d => { d with tmb := { d.tmb with ppsLevel := true, ppsWidth := 1, cyc := tickHz } } : State).dev.tmb.ppsLevel = true ∧ (st fun d => { d with tmb := { d.tmb with ppsLevel := true, ppsWidth := 1, cyc := tickHz } } : State).dev.tmb.ppsRose + (st fun d => { d with tmb := { d.tmb with ppsLevel := true, ppsWidth := 1, cyc := tickHz } } : State).dev.tmb.ppsWidth * (tickHz / 1000) ≤ (st fun d => { d with tmb := { d.tmb with ppsLevel := true, ppsWidth := 1, cyc := tickHz } } : State).dev.now := by
  and_intros <;> decide +kernel

theorem witness_StakeQueue :
    starts unitW.dev hdrW (cmd 0x0120 [2, 2]) = true ∧
    1 ≤ ([{ (default : Stake) with position := 7865, action := 0x0100 }] : List Stake).length ∧ ([{ (default : Stake) with position := 7865, action := 0x0100 }] : List Stake).length ≤ 64 ∧ submitCheck (found unitW.dev hdrW) false ([{ (default : Stake) with position := 7865, action := 0x0100 }] : List Stake) = none ∧
    starts unitW.dev hdrW (cmd 0x0121 [2, 2]) = true ∧
    unitW.dev.qs.state = 0 ∧
    starts unitW.dev hdrW (ask 0x0122) = true ∧
    1 ≤ 64 ∧ 64 ≤ 64 ∧
    starts unitW.dev hdrW (ask 0x0112 [4]) = true ∧
    ({ (default : Stake) with action := 0x0B20 } : Stake) = { (default : Stake) with action := 0x0B20, target := 0 } ∧ ({ (default : Stake) with action := 0x0B20 } : Stake).known = true ∧ targetOk ({ (default : Stake) with action := 0x0B20 } : Stake) = true ∧ byStamp ({ (default : Stake) with action := 0x0B20 } : Stake).equiv = false ∧
    starts unitW.dev hdrW (ask 0x0112 [4]) = true ∧
    ({ (default : Stake) with action := 0x0301 } : Stake) = { (default : Stake) with action := 0x0301, target := 0 } ∧ ({ (default : Stake) with action := 0x0301 } : Stake).known = true ∧ targetOk ({ (default : Stake) with action := 0x0301 } : Stake) = true ∧ byStamp ({ (default : Stake) with action := 0x0301 } : Stake).equiv = true ∧
    (stakesInOrder (st fun d => { d with tmb := { d.tmb with stakes := [qW 0x0100] } } : State).dev ((st fun d => { d with tmb := { d.tmb with stakes := [qW 0x0100] } } : State).dev.tmb.stakes.filter fun x => x.trig.isNone && decide (x.trigger (st fun d => { d with tmb := { d.tmb with stakes := [qW 0x0100] } } : State).dev < (st fun d => { d with tmb := { d.tmb with stakes := [qW 0x0100] } } : State).dev.axis + prefetchLead)) = (qW 0x0100 : QStake) :: ([] : List QStake)) ∧
    ((st fun d => { d with tmb := { d.tmb with clock := 31250, heldStakes := [qW 0x0405] } } : State).dev.tmb.heldStakes.find? (fun x => decide (x.limit < (st fun d => { d with tmb := { d.tmb with clock := 31250, heldStakes := [qW 0x0405] } } : State).dev.axis)) = some (qW 0x0405 : QStake) ∧ (qW 0x0405 : QStake).stake.action ≠ 0x0B20) ∧
    (due 0x0100 (fun _ _ => true) (st fun d => { d with tmb := { d.tmb with stakes := [qD 0x0100] } } : State).dev (qD 0x0100 : QStake) = true) ∧
    (due 0x0110 (fun e x => bankAble e x.equiv) (st fun d => { d with tmb := { d.tmb with stakes := [{ qD 0x0110 with stake := { (default : Stake) with action := 0x0110, target := 0x5000 } }] } } : State).dev ({ qD 0x0110 with stake := { (default : Stake) with action := 0x0110, target := 0x5000 } } : QStake) = true) ∧
    1 = 1 ∧ 255 < 256 ∧ (((st fun d => d.onRxSb 63 3 fun x => { x with banks := { x.banks with freeAt := some 0 } } : State).dev.rxPath (255 / 4)).sb (255 % 4)).banks.freeAt = some 0 ∧ 0 ≤ (st fun d => d.onRxSb 63 3 fun x => { x with banks := { x.banks with freeAt := some 0 } } : State).dev.axis ∧
    8 = 8 ∧ 0 = 0 ∧ (st fun d => d.onXce fun x => { x with banks := { x.banks with freeAt := some 0 } } : State).dev.xce.banks.freeAt = some 0 ∧ 0 ≤ (st fun d => d.onXce fun x => { x with banks := { x.banks with freeAt := some 0 } } : State).dev.axis := by
  and_intros <;> decide +kernel

theorem witness_LaunchesAndFrequencySet_6_launchTrigger :
    (st fun d => { d with tmb := { d.tmb with launches := [⟨63, 2, 0, .report 0x80 1 0 1 0 [7] []⟩] }, lanes := List.replicate 32 { st := 5, mode := 1 } } : State).dev.tmb.launches.find? (·.buffer == 63) = some (⟨63, 2, 0, .report 0x80 1 0 1 0 [7] []⟩ : Launch) ∧ (⟨63, 2, 0, .report 0x80 1 0 1 0 [7] []⟩ : Launch).what = .report 0x80 1 0 1 0 ([7] : List Nat) ([] : List Nat) ∧
    (st fun d => { d with tmb := { d.tmb with launches := [⟨63, 2, 0, .report 0x80 1 0 1 0 [7] []⟩] }, lanes := List.replicate 32 { st := 5, mode := 1 } } : State).dev.axis = (⟨63, 2, 0, .report 0x80 1 0 1 0 [7] []⟩ : Launch).pos - launchDelay (st fun d => { d with tmb := { d.tmb with launches := [⟨63, 2, 0, .report 0x80 1 0 1 0 [7] []⟩] }, lanes := List.replicate 32 { st := 5, mode := 1 } } : State).dev (⟨63, 2, 0, .report 0x80 1 0 1 0 [7] []⟩ : Launch).lane ∧ portUp (st fun d => { d with tmb := { d.tmb with launches := [⟨63, 2, 0, .report 0x80 1 0 1 0 [7] []⟩] }, lanes := List.replicate 32 { st := 5, mode := 1 } } : State).dev (⟨63, 2, 0, .report 0x80 1 0 1 0 [7] []⟩ : Launch).lane = true ∧
    ((((st fun d => { d with lanes := List.replicate 32 { st := 5, mode := 1 } }).dev.nextSeq 5 128).1 : Nat), (((st fun d => { d with lanes := List.replicate 32 { st := 5, mode := 1 } }).dev.nextSeq 5 128).2 : Dev)) = ((st fun d => { d with tmb := { d.tmb with launches := [⟨63, 2, 0, .report 0x80 1 0 1 0 [7] []⟩] }, lanes := List.replicate 32 { st := 5, mode := 1 } } : State).dev.onTmb fun t => { t with launches := t.launches.erase (⟨63, 2, 0, .report 0x80 1 0 1 0 [7] []⟩ : Launch) }).nextSeq 5 (0x80 % 256) ∧
    (frameTo ((st fun d => { d with lanes := List.replicate 32 { st := 5, mode := 1 } }).dev.nextSeq 5 128).2 (nth ((st fun d => { d with lanes := List.replicate 32 { st := 5, mode := 1 } }).dev.nextSeq 5 128).2.lnk.dests 1).addr 0 (swios ((st fun d => { d with lanes := List.replicate 32 { st := 5, mode := 1 } }).dev.nextSeq 5 128).2 5 (reportPart 0x80 0 1 0 [7] []).2 0 128 ((st fun d => { d with lanes := List.replicate 32 { st := 5, mode := 1 } }).dev.nextSeq 5 128).1 0 (reportPart 0x80 0 1 0 [7] []).1) : Frame) = frameTo (((st fun d => { d with lanes := List.replicate 32 { st := 5, mode := 1 } }).dev.nextSeq 5 128).2 : Dev) (nth (((st fun d => { d with lanes := List.replicate 32 { st := 5, mode := 1 } }).dev.nextSeq 5 128).2 : Dev).lnk.dests 1).addr 0 (swios (((st fun d => { d with lanes := List.replicate 32 { st := 5, mode := 1 } }).dev.nextSeq 5 128).2 : Dev) 5 (reportPart 0x80 0 1 0 ([7] : List Nat) ([] : List Nat)).2 0 (0x80 % 256) (((st fun d => { d with lanes := List.replicate 32 { st := 5, mode := 1 } }).dev.nextSeq 5 128).1 : Nat) (⟨63, 2, 0, .report 0x80 1 0 1 0 [7] []⟩ : Launch).pos (reportPart 0x80 0 1 0 ([7] : List Nat) ([] : List Nat)).1) := by
  and_intros <;> first | rfl | decide +kernel

theorem witness_LaunchesAndFrequencySet :
    starts unitW.dev hdrW (cmd 0x0130 [1]) = true ∧
    31 ≤ 31 ∧ 1 ≤ ([0] : List Nat).length ∧ ([0] : List Nat).length ≤ 9216 ∧ unitW.dev.axis + launchDelay unitW.dev 31 + minLead ≤ 7865 ∧
    freeBuffer unitW.dev.tmb.launches = some 0 ∧
    starts (st fun d => { d with tmb := { d.tmb with launches := [⟨63, 2, 0, .frame [1]⟩] } } : State).dev hdrW (cmd 0x0131 [1]) = true ∧
    (st fun d => { d with tmb := { d.tmb with launches := [⟨63, 2, 0, .frame [1]⟩] } } : State).dev.tmb.launches.any (·.buffer == 63) = true ∧
    starts unitW.dev hdrW (cmd 0x0131 [1]) = true ∧
    unitW.dev.tmb.launches.any (·.buffer == 0) = false ∧
    (st fun d => { d with tmb := { d.tmb with launches := [⟨63, 2, 0, .frame [1]⟩] }, lanes := List.replicate 32 { st := 5, mode := 1 } } : State).dev.tmb.launches.find? (·.buffer == 63) = some (⟨63, 2, 0, .frame [1]⟩ : Launch) ∧ (⟨63, 2, 0, .frame [1]⟩ : Launch).what = .frame ([1] : List Nat) ∧
    (st fun d => { d with tmb := { d.tmb with launches := [⟨63, 2, 0, .frame [1]⟩] }, lanes := List.replicate 32 { st := 5, mode := 1 } } : State).dev.axis = (⟨63, 2, 0, .frame [1]⟩ : Launch).pos - launchDelay (st fun d => { d with tmb := { d.tmb with launches := [⟨63, 2, 0, .frame [1]⟩] }, lanes := List.replicate 32 { st := 5, mode := 1 } } : State).dev (⟨63, 2, 0, .frame [1]⟩ : Launch).lane ∧ portUp (st fun d => { d with tmb := { d.tmb with launches := [⟨63, 2, 0, .frame [1]⟩] }, lanes := List.replicate 32 { st := 5, mode := 1 } } : State).dev (⟨63, 2, 0, .frame [1]⟩ : Launch).lane = true ∧
    (st fun d => { d with tmb := { d.tmb with launches := [⟨63, 2, 0, .frame [1]⟩] } } : State).dev.tmb.launches.find? (·.buffer == 63) = some (⟨63, 2, 0, .frame [1]⟩ : Launch) ∧ (⟨63, 2, 0, .frame [1]⟩ : Launch).what = .frame ([1] : List Nat) ∧
    ((⟨63, 2, 0, .frame [1]⟩ : Launch).pos - launchDelay (st fun d => { d with tmb := { d.tmb with launches := [⟨63, 2, 0, .frame [1]⟩] } } : State).dev (⟨63, 2, 0, .frame [1]⟩ : Launch).lane ≤ (st fun d => { d with tmb := { d.tmb with launches := [⟨63, 2, 0, .frame [1]⟩] } } : State).dev.axis ∧ ((st fun d => { d with tmb := { d.tmb with launches := [⟨63, 2, 0, .frame [1]⟩] } } : State).dev.axis ≠ (⟨63, 2, 0, .frame [1]⟩ : Launch).pos - launchDelay (st fun d => { d with tmb := { d.tmb with launches := [⟨63, 2, 0, .frame [1]⟩] } } : State).dev (⟨63, 2, 0, .frame [1]⟩ : Launch).lane ∨ portUp (st fun d => { d with tmb := { d.tmb with launches := [⟨63, 2, 0, .frame [1]⟩] } } : State).dev (⟨63, 2, 0, .frame [1]⟩ : Launch).lane = false)) ∧
    starts unitW.dev hdrW (cmd 0x0C08) = true ∧
    1 ≤ 1 ∧ domOn unitW.dev 9 = true ∧ anyPortOn unitW.dev = false ∧
    ({ (default : Stake) with position := 7865, action := 0x0C01, argument := 1 } : Stake) = { (default : Stake) with position := 7865, action := 0x0C01, argument := 1 } ∧
    submitArgs (found unitW.dev hdrW) [({ (default : Stake) with position := 7865, action := 0x0C01, argument := 1 } : Stake)] = none ∧ submitState (found unitW.dev hdrW) false [({ (default : Stake) with position := 7865, action := 0x0C01, argument := 1 } : Stake)] = none := by
  and_intros <;> decide +kernel

theorem witness_LaneCommands_7_lanePrbsRead :
    starts unitW.dev hdrW (askClear 0x0205 1 [1, 8, 8, 8]) = true ∧
    31 ≤ 31 ∧ 1 ≤ 1 ∧ ((found unitW.dev hdrW) : Dev) = prbsCatch (found unitW.dev hdrW) 31 := by
  and_intros <;> first | rfl | decide +kernel

theorem witness_LaneCommands :
    starts (st fun d => { d with quads := List.replicate 8 true } : State).dev hdrW (cmd 0x0200) = true ∧
    (31 ≤ 31 ∧ 31 ≤ 31 ∧ 5 ≤ 5 ∧ 1 ≤ 1 ∧ 5 ≠ 2 ∧ (5 = 1 → 1 = 1)) ∧
    ((0xFFFFF ≤ 262143 ∨ 0xFFFFF = 0xFFFFF) ∧ nth (st fun d => { d with quads := List.replicate 8 true } : State).dev.quads (31 / 4) = true ∧ 1 = 1) ∧
    (nth (st fun d => { d with quads := List.replicate 8 true } : State).dev.lanes (quadFirst 31)).mode ≠ 2 ∧ (nth (st fun d => { d with quads := List.replicate 8 true } : State).dev.lanes 31).st = 0 ∧
    starts (st fun d => { d with quads := List.replicate 8 true, lanes := List.replicate 32 { st := 5, mode := 1 } } : State).dev hdrW (cmd 0x0200) = true ∧
    (0 ≤ 31 ∧ 0 ≤ 31 ∧ 1 ≤ 5 ∧ 1 ≤ 1 ∧ 1 ≠ 2 ∧ (1 = 1 → 1 = 1)) ∧
    ((262143 ≤ 262143 ∨ 262143 = 0xFFFFF) ∧ nth (st fun d => { d with quads := List.replicate 8 true, lanes := List.replicate 32 { st := 5, mode := 1 } } : State).dev.quads (0 / 4) = true ∧ 1 = 1) ∧
    (nth (st fun d => { d with quads := List.replicate 8 true, lanes := List.replicate 32 { st := 5, mode := 1 } } : State).dev.lanes (quadFirst 0)).mode ≠ 2 ∧ (nth (st fun d => { d with quads := List.replicate 8 true, lanes := List.replicate 32 { st := 5, mode := 1 } } : State).dev.lanes 0).st ≠ 0 ∧
    starts unitW.dev hdrW (ask 0x0201 [4, 3, 1, 2]) = true ∧
    31 ≤ 31 ∧
    starts unitW.dev hdrW (ask 0x0202 [4, 4]) = true ∧
    31 ≤ 31 ∧
    starts (st fun d => { d with quads := List.replicate 8 true, lanes := List.replicate 32 { st := 2 } } : State).dev hdrW (cmd 0x0203) = true ∧
    31 ≤ 31 ∧ 1 ≤ 1 ∧ nth (st fun d => { d with quads := List.replicate 8 true, lanes := List.replicate 32 { st := 2 } } : State).dev.quads (31 / 4) = true ∧ 2 ≤ (nth (st fun d => { d with quads := List.replicate 8 true, lanes := List.replicate 32 { st := 2 } } : State).dev.lanes 31).st ∧
    starts (st fun d => { d with quads := List.replicate 8 true, lanes := List.replicate 32 { st := 5, mode := 1 } } : State).dev hdrW (cmd 0x0204) = true ∧
    31 ≤ 31 ∧ 6 ≤ 6 ∧ 1 ≤ 1 ∧ 1 ≤ 1 ∧ 1 ≤ 1 ∧ 1 ≤ 1 + 1 ∧
    (((nth (st fun d => { d with quads := List.replicate 8 true, lanes := List.replicate 32 { st := 5, mode := 1 } } : State).dev.lanes 31).mode = 0 ∨ patternOk (nth (st fun d => { d with quads := List.replicate 8 true, lanes := List.replicate 32 { st := 5, mode := 1 } } : State).dev.lanes 31).mode 6 = true) ∧
        (nth (st fun d => { d with quads := List.replicate 8 true, lanes := List.replicate 32 { st := 5, mode := 1 } } : State).dev.lanes 31).st ≠ 0 ∧ nth (st fun d => { d with quads := List.replicate 8 true, lanes := List.replicate 32 { st := 5, mode := 1 } } : State).dev.quads (31 / 4) = true) ∧
    (1 = 1 ∨ ((nth (st fun d => { d with quads := List.replicate 8 true, lanes := List.replicate 32 { st := 5, mode := 1 } } : State).dev.lanes 31).st ≠ 5 ∧ laneConfigured (found (st fun d => { d with quads := List.replicate 8 true, lanes := List.replicate 32 { st := 5, mode := 1 } } : State).dev hdrW) 31 = false)) ∧
    starts (st fun d => { d with quads := List.replicate 8 true, lanes := List.replicate 32 { st := 5, mode := 1 } } : State).dev hdrW (cmd 0x0206) = true ∧
    31 ≤ 31 ∧ 1 ≤ 3 ∧ 3 ≤ 3 ∧ 1 ≤ 1 ∧ (nth (st fun d => { d with quads := List.replicate 8 true, lanes := List.replicate 32 { st := 5, mode := 1 } } : State).dev.lanes 31).st ≠ 0 ∧ nth (st fun d => { d with quads := List.replicate 8 true, lanes := List.replicate 32 { st := 5, mode := 1 } } : State).dev.quads (31 / 4) = true ∧
    (1 = 1 ∨ ((nth (st fun d => { d with quads := List.replicate 8 true, lanes := List.replicate 32 { st := 5, mode := 1 } } : State).dev.lanes 31).st ≠ 5 ∧ laneConfigured (found (st fun d => { d with quads := List.replicate 8 true, lanes := List.replicate 32 { st := 5, mode := 1 } } : State).dev hdrW) 31 = false)) ∧
    starts (st fun d => { d with quads := List.replicate 8 true } : State).dev hdrW (cmd 0x0207) = true ∧
    31 ≤ 31 ∧ nth (st fun d => { d with quads := List.replicate 8 true } : State).dev.quads (31 / 4) = true ∧
    starts unitW.dev hdrW (cmd 0x0208) = true ∧
    7 ≤ 7 ∧ 1 = 1 ∧ 1 ≤ 1 ∧ nth unitW.dev.quads 7 = false ∧
    starts unitW.dev hdrW (cmd 0x0208) = true ∧
    (7 ≤ 7 ∧ 0 = 0 ∧ 1 = 1 ∧ ([4 * 7, 4 * 7 + 1, 4 * 7 + 2, 4 * 7 + 3].all fun n => (nth unitW.dev.lanes n).st == 0) = true) ∧
    starts unitW.dev hdrW (askClear 0x0209 1 [8, 8, 8, 8, 4, 4]) = true ∧
    31 ≤ 31 ∧ 1 ≤ 1 := by
  and_intros <;> decide +kernel

theorem witness_LaneBringUp :
    (nth (st fun d => { d with lanes := List.replicate 32 { st := 1, lit := true, los := false } } : State).dev.lanes (⟨31, -20⟩ : LaserReading).lane).lit = true ∧ (nth (st fun d => { d with lanes := List.replicate 32 { st := 1, lit := true, los := false } } : State).dev.lanes (⟨31, -20⟩ : LaserReading).lane).stable = false ∧ (nth (st fun d => { d with lanes := List.replicate 32 { st := 1, lit := true, los := false } } : State).dev.lanes (⟨31, -20⟩ : LaserReading).lane).st = 1 ∧ (nth (st fun d => { d with lanes := List.replicate 32 { st := 1, lit := true, los := false } } : State).dev.lanes (⟨31, -20⟩ : LaserReading).lane).los = false ∧
    (nth (st fun d => { d with lanes := List.replicate 32 { st := 1, stable := true } } : State).dev.lanes 31).st = 1 ∧ (nth (st fun d => { d with lanes := List.replicate 32 { st := 1, stable := true } } : State).dev.lanes 31).los = true ∧ (nth (st fun d => { d with lanes := List.replicate 32 { st := 1, stable := true } } : State).dev.lanes 31).stable = true ∧ -60 < (-59 : Int) ∧
    (nth (st fun d => { d with lanes := List.replicate 32 { st := 7, los := false } } : State).dev.lanes 31).st ≠ 0 ∧ (nth (st fun d => { d with lanes := List.replicate 32 { st := 7, los := false } } : State).dev.lanes 31).st ≠ 5 ∧
    (nth (st fun d => { d with lanes := List.replicate 32 { st := 7, los := false } } : State).dev.lanes 31).los = false ∧ (-71 : Int) < -70 ∧
    (nth (st fun d => { d with lanes := List.replicate 32 { st := 5, los := false } } : State).dev.lanes 31).st = 5 ∧ (nth (st fun d => { d with lanes := List.replicate 32 { st := 5, los := false } } : State).dev.lanes 31).los = false ∧ (-71 : Int) < -70 ∧
    (nth (st fun d => { d with lanes := List.replicate 32 { st := 2 } } : State).dev.lanes 31).st = 2 ∧ (nth (st fun d => { d with lanes := List.replicate 32 { st := 2 } } : State).dev.lanes 31).cdr = false ∧
    (nth (st fun d => { d with lanes := List.replicate 32 { st := 2, cdr := true } } : State).dev.lanes 31).st = 2 ∧ (nth (st fun d => { d with lanes := List.replicate 32 { st := 2, cdr := true } } : State).dev.lanes 31).cdr = true ∧ (nth (st fun d => { d with lanes := List.replicate 32 { st := 2, cdr := true } } : State).dev.lanes 31).freeze = false ∧
    3 ≤ (nth (st fun d => { d with lanes := List.replicate 32 { st := 5, cdr := true } } : State).dev.lanes 31).st ∧ (nth (st fun d => { d with lanes := List.replicate 32 { st := 5, cdr := true } } : State).dev.lanes 31).cdr = true ∧
    (nth (st fun d => { d with lanes := List.replicate 32 { st := 3, mode := 4 } } : State).dev.lanes (⟨31, 65⟩ : LockAt).lane).st = 3 ∧ laneDirect (st fun d => { d with lanes := List.replicate 32 { st := 3, mode := 4 } } : State).dev (⟨31, 65⟩ : LockAt).lane = true ∧
    (nth (st fun d => { d with lanes := List.replicate 32 { st := 3, mode := 1 } } : State).dev.lanes (⟨31, 65⟩ : LockAt).lane).st = 3 ∧ laneDirect (st fun d => { d with lanes := List.replicate 32 { st := 3, mode := 1 } } : State).dev (⟨31, 65⟩ : LockAt).lane = false ∧
    ((nth (st fun d => { d with tmb := { d.tmb with cyc := tickHz }, lanes := List.replicate 32 { st := 3, mode := 3 } } : State).dev.lanes 31).st = 3 ∧ (laneDirect (st fun d => { d with tmb := { d.tmb with cyc := tickHz }, lanes := List.replicate 32 { st := 3, mode := 3 } } : State).dev 31 = true ∨ ((nth (st fun d => { d with tmb := { d.tmb with cyc := tickHz }, lanes := List.replicate 32 { st := 3, mode := 3 } } : State).dev.lanes 31).mode = 3 ∧ (nth (st fun d => { d with tmb := { d.tmb with cyc := tickHz }, lanes := List.replicate 32 { st := 3, mode := 3 } } : State).dev.lanes 31).fec = 0))) ∧
    (nth (st fun d => { d with tmb := { d.tmb with cyc := tickHz }, lanes := List.replicate 32 { st := 3, mode := 3 } } : State).dev.lanes 31).noAlign = false ∧ (nth (st fun d => { d with tmb := { d.tmb with cyc := tickHz }, lanes := List.replicate 32 { st := 3, mode := 3 } } : State).dev.lanes 31).searchAt + tickHz / 10 < (st fun d => { d with tmb := { d.tmb with cyc := tickHz }, lanes := List.replicate 32 { st := 3, mode := 3 } } : State).dev.now ∧
    (nth (st fun d => { d with lanes := List.replicate 32 { st := 5, blk := true } } : State).dev.lanes 31).blk = true ∧ (nth (st fun d => { d with lanes := List.replicate 32 { st := 5, blk := true } } : State).dev.lanes 31).st = 5 ∧
    (if (nth (st fun d => { d with lanes := List.replicate 32 { st := 5, blk := true } } : State).dev.lanes 31).fec = 0 then 16 ≤ (⟨16, false⟩ : LockWindow).invalid else (⟨16, false⟩ : LockWindow).codewords = true) ∧
    ((nth (st fun d => { d with lanes := List.replicate 32 { st := 6, blk := true } } : State).dev.lanes 31).blk = true ∧ ((nth (st fun d => { d with lanes := List.replicate 32 { st := 6, blk := true } } : State).dev.lanes 31).st = 4 ∨ (nth (st fun d => { d with lanes := List.replicate 32 { st := 6, blk := true } } : State).dev.lanes 31).st = 6)) ∧
    (if (nth (st fun d => { d with lanes := List.replicate 32 { st := 6, blk := true } } : State).dev.lanes 31).fec = 0 then 16 ≤ (⟨16, false⟩ : LockWindow).invalid else (⟨16, false⟩ : LockWindow).codewords = true) ∧
    (nth (st fun d => { d with lanes := List.replicate 32 { down := some (.restart, 1, 0, 1) } } : State).dev.lanes 31).down = some ((.restart, 1, 0, 1) : After × Nat × Nat × Nat) ∧ mayStop (st fun d => { d with lanes := List.replicate 32 { down := some (.restart, 1, 0, 1) } } : State).dev 31 ((.restart, 1, 0, 1) : After × Nat × Nat × Nat) = true := by
  and_intros <;> decide +kernel

theorem witness_LaneBlocks_3_ident :
    laneDirect (st fun d => { d with lanes := List.replicate 32 { st := 4, mode := 5, blk := true, ident := [0, 0, 1, 63, 7], identRun := 3 } } : State).dev 31 = true ∧ (nth (st fun d => { d with lanes := List.replicate 32 { st := 4, mode := 5, blk := true, ident := [0, 0, 1, 63, 7], identRun := 3 } } : State).dev.lanes 31).blk = true ∧
    ((nth (st fun d => { d with lanes := List.replicate 32 { st := 4, mode := 5, blk := true, ident := [0, 0, 1, 63, 7], identRun := 3 } } : State).dev.lanes 31).st = 4 ∨ (nth (st fun d => { d with lanes := List.replicate 32 { st := 4, mode := 5, blk := true, ident := [0, 0, 1, 63, 7], identRun := 3 } } : State).dev.lanes 31).st = 5 ∨ (nth (st fun d => { d with lanes := List.replicate 32 { st := 4, mode := 5, blk := true, ident := [0, 0, 1, 63, 7], identRun := 3 } } : State).dev.lanes 31).st = 6) ∧
    0xD2 = 0xD2 ∧ crc8 (0xD2 :: bytesOf [fld 3 1, fld 1 63, fld 1 7]) = 18 ∧ bytesOf [fld 3 1, fld 1 63, fld 1 7] = (nth (st fun d => { d with lanes := List.replicate 32 { st := 4, mode := 5, blk := true, ident := [0, 0, 1, 63, 7], identRun := 3 } } : State).dev.lanes 31).ident ∧ 3 ≤ (nth (st fun d => { d with lanes := List.replicate 32 { st := 4, mode := 5, blk := true, ident := [0, 0, 1, 63, 7], identRun := 3 } } : State).dev.lanes 31).identRun := by decide +kernel

theorem witness_LaneBlocks_4_ident :
    laneDirect (st fun d => { d with lanes := List.replicate 32 { st := 4, mode := 5, blk := true } } : State).dev 31 = true ∧ (nth (st fun d => { d with lanes := List.replicate 32 { st := 4, mode := 5, blk := true } } : State).dev.lanes 31).blk = true ∧
    ((nth (st fun d => { d with lanes := List.replicate 32 { st := 4, mode := 5, blk := true } } : State).dev.lanes 31).st = 4 ∨ (nth (st fun d => { d with lanes := List.replicate 32 { st := 4, mode := 5, blk := true } } : State).dev.lanes 31).st = 5 ∨ (nth (st fun d => { d with lanes := List.replicate 32 { st := 4, mode := 5, blk := true } } : State).dev.lanes 31).st = 6) ∧
    0xD2 = 0xD2 ∧ crc8 (0xD2 :: bytesOf [fld 3 1, fld 1 63, fld 1 7]) ≠ 17 := by decide +kernel

theorem witness_LaneBlocks :
    sendsBlocks (st fun d => { d with lanes := List.replicate 32 { st := 1, mode := 5, lit := true } } : State).dev 31 = true ∧
    sendsBlocks (st fun d => { d with lanes := List.replicate 32 { st := 1, mode := 4, lit := true } } : State).dev 31 = true ∧
    laneDirect (st fun d => { d with lanes := List.replicate 32 { st := 4, mode := 5, blk := true } } : State).dev 31 = true ∧ (nth (st fun d => { d with lanes := List.replicate 32 { st := 4, mode := 5, blk := true } } : State).dev.lanes 31).blk = true ∧
    laneDirect (st fun d => { d with lanes := List.replicate 32 { st := 4, mode := 5, blk := true } } : State).dev 31 = true ∧ (nth (st fun d => { d with lanes := List.replicate 32 { st := 4, mode := 5, blk := true } } : State).dev.lanes 31).blk = true ∧
    laneDirect (st fun d => { d with lanes := List.replicate 32 { st := 4, mode := 5, blk := true } } : State).dev 31 = true ∧ (nth (st fun d => { d with lanes := List.replicate 32 { st := 4, mode := 5, blk := true } } : State).dev.lanes 31).blk = true ∧
    (nth (st fun d => { d with lanes := List.replicate 32 { st := 7, prbsChk := true } } : State).dev.lanes (⟨31, 1024⟩ : PrbsRun).lane).st = 7 ∧ (nth (st fun d => { d with lanes := List.replicate 32 { st := 7, prbsChk := true } } : State).dev.lanes (⟨31, 1024⟩ : PrbsRun).lane).prbsChk = true ∧ (nth (st fun d => { d with lanes := List.replicate 32 { st := 7, prbsChk := true } } : State).dev.lanes (⟨31, 1024⟩ : PrbsRun).lane).prbsLock = false ∧ 1024 ≤ (⟨31, 1024⟩ : PrbsRun).run ∧
    (nth (st fun d => { d with lanes := List.replicate 32 { st := 7, prbsLock := true } } : State).dev.lanes 31).prbsLock = true ∧ 256 < 257 ∧
    0 = ((st fun d => { d with lanes := List.replicate 32 { st := 7, prbsLock := true } } : State).dev.now - (nth (st fun d => { d with lanes := List.replicate 32 { st := 7, prbsLock := true } } : State).dev.lanes 31).prbsFrom) * lineRate (st fun d => { d with lanes := List.replicate 32 { st := 7, prbsLock := true } } : State).dev 31 / tickHz := by
  and_intros <;> decide +kernel

theorem witness_ReceiveCommands :
    starts unitW.dev hdrW (cmd 0x0300) = true ∧
    (0xFF = 0xFF ∧ (31 = 0xFF ∨ 31 ≤ 31) ∧ (2 = 0xFF ∨ 2 ≤ 2) ∧ (1 = 0xFF ∨ 1 ≤ 1) ∧ domOn unitW.dev 3 = true) ∧
    starts unitW.dev hdrW (ask 0x0301 [4, 2, 2, 8, 4]) = true ∧
    63 ≤ 63 ∧
    starts (st fun d => { d with ident := { d.ident with variant := .m } } : State).dev hdrW (cmd 0x0302) = true ∧
    rxSubbandSetCheck 9223372036854775808 3 ({ chain := { rf := 2000000000, profile := 1, aSections := 1, aLength := [1, 0, 0, 0, 0], aFactor := 32, bFactor := 1 } } : RxCfg) (found (st fun d => { d with ident := { d.ident with variant := .m } } : State).dev hdrW) = none ∧
    starts unitW.dev hdrW (ask 0x0303 [48, 6, 8, 8, 4]) = true ∧
    63 ≤ 63 ∧ 3 ≤ 3 ∧ 1 ≤ 1 ∧
    starts unitW.dev hdrW (cmd 0x0304 [4]) = true ∧
    15 ≤ 15 ∧ unitW.dev.qs.state = 0 ∧
    (((pathSbs 3 15).filter fun x => ((unitW.dev.rxPath x.1).sb x.2).on && !((unitW.dev.rxPath x.1).sb x.2).flushing) = []) ∧
    starts (st fun d => d.onRxSb 63 3 fun x => { x with on := true } : State).dev hdrW (cmd 0x0304 [4]) = true ∧
    8 ≤ 15 ∧ (st fun d => d.onRxSb 63 3 fun x => { x with on := true } : State).dev.qs.state = 0 ∧
    (([(63, 3)] : List (Nat × Nat)) = ((pathSbs 9223372036854775808 8).filter fun x => (((st fun d => d.onRxSb 63 3 fun x => { x with on := true } : State).dev.rxPath x.1).sb x.2).on && !(((st fun d => d.onRxSb 63 3 fun x => { x with on := true } : State).dev.rxPath x.1).sb x.2).flushing) ∧ ([(63, 3)] : List (Nat × Nat)) ≠ []) ∧
    starts (st fun d => { d with lnk := { d.lnk with bulk := [{ objW with kind := 3, len := 20, frags := [⟨0, [2, 0, 0, 0, 0, 0, 0, 1, 0, 0, 0, 0, 0, 0, 0, 0, 0, 0, 0, 1], []⟩] }] }, rx := List.replicate 64 { sbs := List.replicate 4 { banks := .both { cfg := { chain := { bFactor := 1 } } } } } } : State).dev hdrW (cmd 0x0305) = true ∧
    rxCoefLoadCheck 1 9223372036854775808 3 (found (st fun d => { d with lnk := { d.lnk with bulk := [{ objW with kind := 3, len := 20, frags := [⟨0, [2, 0, 0, 0, 0, 0, 0, 1, 0, 0, 0, 0, 0, 0, 0, 0, 0, 0, 0, 1], []⟩] }] }, rx := List.replicate 64 { sbs := List.replicate 4 { banks := .both { cfg := { chain := { bFactor := 1 } } } } } } : State).dev hdrW) = none ∧
    (st fun d => { d with lnk := { d.lnk with bulk := [{ objW with kind := 3, len := 20, frags := [⟨0, [2, 0, 0, 0, 0, 0, 0, 1, 0, 0, 0, 0, 0, 0, 0, 0, 0, 0, 0, 1], []⟩] }] }, rx := List.replicate 64 { sbs := List.replicate 4 { banks := .both { cfg := { chain := { bFactor := 1 } } } } } } : State).dev.obj? 1 = some ({ objW with kind := 3, len := 20, frags := [⟨0, [2, 0, 0, 0, 0, 0, 0, 1, 0, 0, 0, 0, 0, 0, 0, 0, 0, 0, 0, 1], []⟩] } : BulkObj) ∧ coefObject ({ objW with kind := 3, len := 20, frags := [⟨0, [2, 0, 0, 0, 0, 0, 0, 1, 0, 0, 0, 0, 0, 0, 0, 0, 0, 0, 0, 1], []⟩] } : BulkObj).bytes = some (2, 1, ([1] : List Int)) ∧
    starts unitW.dev hdrW (cmd 0x030B (spanWidths 64 (pathsOf 0).length [1, 2, 2])) = true ∧
    portCheckCheck 0 7865 (found unitW.dev hdrW) = none ∧
    0 = 0 ∧
    starts unitW.dev hdrW (cmd 0x030B (spanWidths 64 (pathsOf 1).length [1, 2, 2])) = true ∧
    portCheckCheck 1 7865 (found unitW.dev hdrW) = none ∧
    1 ≠ 0 := by
  and_intros <;> decide +kernel

theorem witness_ReceiveStreams_4_rxMeterGet :
    starts (st fun d => { d with rx := List.replicate 64 { meters := List.replicate 5 ⟨{}, some { start := 5 }⟩ } } : State).dev hdrW (askClear 0x0309 1 [2, 2, 2, 8, 8]) = true ∧
    63 ≤ 63 ∧ 4 ≤ 4 ∧ 1 ≤ 1 ∧
    ({ start := 5 } : MeterWin) = (nth ((st fun d => { d with rx := List.replicate 64 { meters := List.replicate 5 ⟨{}, some { start := 5 }⟩ } } : State).dev.rxPath 63).meters 4).latched.getD (nth ((st fun d => { d with rx := List.replicate 64 { meters := List.replicate 5 ⟨{}, some { start := 5 }⟩ } } : State).dev.rxPath 63).meters 4).win ∧
    (meterLevel true 0 0 : Int) = meterLevel (4 == 4) ({ start := 5 } : MeterWin).sum ({ start := 5 } : MeterWin).count := by
  and_intros <;> first | rfl | decide +kernel

theorem witness_ReceiveStreams_6_streamPacketSend :
    chainS.dev.outs.find? (fun y => y.num == (⟨9, 7⟩ : StreamSend).num) = some chainOutW ∧ portUp chainS.dev chainOutW.port = true ∧ nextGroup chainS.dev chainOutW = some (5, false) ∧
    gatherFeeds chainS.dev chainOutW (min (⟨9, 7⟩ : StreamSend).groups (chainOutW.perFull chainS.dev)) 5 = (((gatherFeeds chainS.dev chainOutW 7 5).1 : List Feed), 6) ∧ ((gatherFeeds chainS.dev chainOutW 7 5).1 : List Feed) ≠ [] ∧
    (slices chainS.dev chainOutW (b2n (false || true || missed chainS.dev chainOutW 6) * 128 + b2n (false || false) * 64 + b2n ((gatherFeeds chainS.dev chainOutW 7 5).1.any (·.flushed)) * 32 + b2n ((gatherFeeds chainS.dev chainOutW 7 5).1.any (·.sat)) * 16 + ((gatherFeeds chainS.dev chainOutW 7 5).1.headD ⟨0, 0, false, false, false, []⟩).bank * 8) (gatherFeeds chainS.dev chainOutW 7 5).1 : List (List Nat)) = slices chainS.dev chainOutW (b2n (chainOutW.closing || chainOutW.lastDue || missed chainS.dev chainOutW 6) * 128 + b2n (chainOutW.disc || false) * 64 + b2n (((gatherFeeds chainS.dev chainOutW 7 5).1 : List Feed).any (·.flushed)) * 32 +
        b2n (((gatherFeeds chainS.dev chainOutW 7 5).1 : List Feed).any (·.sat)) * 16 + (((gatherFeeds chainS.dev chainOutW 7 5).1 : List Feed).headD ⟨0, 0, false, false, false, []⟩).bank * 8) ((gatherFeeds chainS.dev chainOutW 7 5).1 : List Feed) ∧
    (egressBytes chainS.dev chainOutW.port + ((slices chainS.dev chainOutW (b2n (false || true || missed chainS.dev chainOutW 6) * 128 + b2n (false || false) * 64 + b2n ((gatherFeeds chainS.dev chainOutW 7 5).1.any (·.flushed)) * 32 + b2n ((gatherFeeds chainS.dev chainOutW 7 5).1.any (·.sat)) * 16 + ((gatherFeeds chainS.dev chainOutW 7 5).1.headD ⟨0, 0, false, false, false, []⟩).bank * 8) (gatherFeeds chainS.dev chainOutW 7 5).1 : List (List Nat)).map fun p => p.length + 58).sum ≤ 262144) := by
  and_intros
  · decide +kernel
  · decide +kernel
  · decide +kernel
  · rfl
  · intro x; have := congrArg List.length x; revert this; decide +kernel
  · rfl
  · decide +kernel

theorem witness_ReceiveStreams_7_streamPacketSend :
    chainFullS.dev.outs.find? (fun y => y.num == (⟨9, 7⟩ : StreamSend).num) = some chainOutW ∧ portUp chainFullS.dev chainOutW.port = true ∧ nextGroup chainFullS.dev chainOutW = some (5, false) ∧
    gatherFeeds chainFullS.dev chainOutW (min (⟨9, 7⟩ : StreamSend).groups (chainOutW.perFull chainFullS.dev)) 5 = (((gatherFeeds chainFullS.dev chainOutW 7 5).1 : List Feed), 6) ∧ ((gatherFeeds chainFullS.dev chainOutW 7 5).1 : List Feed) ≠ [] ∧
    (slices chainFullS.dev chainOutW (b2n (false || true || missed chainFullS.dev chainOutW 6) * 128 + b2n (false || false) * 64 + b2n ((gatherFeeds chainFullS.dev chainOutW 7 5).1.any (·.flushed)) * 32 + b2n ((gatherFeeds chainFullS.dev chainOutW 7 5).1.any (·.sat)) * 16 + ((gatherFeeds chainFullS.dev chainOutW 7 5).1.headD ⟨0, 0, false, false, false, []⟩).bank * 8) (gatherFeeds chainFullS.dev chainOutW 7 5).1 : List (List Nat)) = slices chainFullS.dev chainOutW (b2n (chainOutW.closing || chainOutW.lastDue || missed chainFullS.dev chainOutW 6) * 128 + b2n (chainOutW.disc || false) * 64 + b2n (((gatherFeeds chainFullS.dev chainOutW 7 5).1 : List Feed).any (·.flushed)) * 32 +
        b2n (((gatherFeeds chainFullS.dev chainOutW 7 5).1 : List Feed).any (·.sat)) * 16 + (((gatherFeeds chainFullS.dev chainOutW 7 5).1 : List Feed).headD ⟨0, 0, false, false, false, []⟩).bank * 8) ((gatherFeeds chainFullS.dev chainOutW 7 5).1 : List Feed) ∧
    (262144 < egressBytes chainFullS.dev chainOutW.port + ((slices chainFullS.dev chainOutW (b2n (false || true || missed chainFullS.dev chainOutW 6) * 128 + b2n (false || false) * 64 + b2n ((gatherFeeds chainFullS.dev chainOutW 7 5).1.any (·.flushed)) * 32 + b2n ((gatherFeeds chainFullS.dev chainOutW 7 5).1.any (·.sat)) * 16 + ((gatherFeeds chainFullS.dev chainOutW 7 5).1.headD ⟨0, 0, false, false, false, []⟩).bank * 8) (gatherFeeds chainFullS.dev chainOutW 7 5).1 : List (List Nat)).map fun p => p.length + 58).sum) := by
  and_intros
  · decide +kernel
  · decide +kernel
  · decide +kernel
  · rfl
  · intro x; have := congrArg List.length x; revert this; decide +kernel
  · rfl
  · decide +kernel

theorem witness_ReceiveStreams :
    starts (st fun d => { d with lnk := { d.lnk with dests := List.replicate 16 { set := true } }, rx := List.replicate 64 { sbs := List.replicate 4 { on := true, banks := .both { cfg := { consumers := 2 } } } } } : State).dev hdrW (cmd 0x0306) = true ∧
    rxStreamSetCheck 5 3 9223372036854775808 3 15 0xFF (found (st fun d => { d with lnk := { d.lnk with dests := List.replicate 16 { set := true } }, rx := List.replicate 64 { sbs := List.replicate 4 { on := true, banks := .both { cfg := { consumers := 2 } } } } } : State).dev hdrW) = none ∧
    starts (st fun d => { d with outs := [rawW] } : State).dev hdrW (cmd 0x0307 [8]) = true ∧
    ((st fun d => { d with outs := [rawW] } : State).dev.outs.any (fun o => o.kind == .raw && o.num == 5 && !o.closing) = true) ∧
    starts (st fun d => { d with lanes := List.replicate 32 { st := 5, mode := 5 }, rx := List.replicate 64 { sbs := List.replicate 4 { on := true, banks := .both { cfg := { consumers := 4, chain := { aFactor := 8, bFactor := 1 } } } } } } : State).dev hdrW (cmd 0x0308) = true ∧
    rxCutSetCheck 63 3 31 2048 1 (found (st fun d => { d with lanes := List.replicate 32 { st := 5, mode := 5 }, rx := List.replicate 64 { sbs := List.replicate 4 { on := true, banks := .both { cfg := { consumers := 4, chain := { aFactor := 8, bFactor := 1 } } } } } } : State).dev hdrW) = none ∧
    starts unitW.dev hdrW (askClear 0x030A 1 (List.replicate 16 4 ++ [8, 8])) = true ∧
    63 ≤ 63 ∧ 1 ≤ 1 := by
  and_intros <;> decide +kernel

theorem witness_ReceiveHappenings_7_portMeasurement :
    portMayMeasure (st fun d => { d with lnk := { d.lnk with mail := [{ running := some ⟨default, 0x030B, [], .portCheck [63] [63] 0, 0, true⟩ }, {}, {}, {}] } } : State).dev 63 = true ∧ (st fun d => { d with lnk := { d.lnk with mail := [{ running := some ⟨default, 0x030B, [], .portCheck [63] [63] 0, 0, true⟩ }, {}, {}, {}] } } : State).dev.gov.loopOpen = false ∧ ((reserveSlots (st fun d => { d with lnk := { d.lnk with mail := [{ running := some ⟨default, 0x030B, [], .portCheck [63] [63] 0, 0, true⟩ }, {}, {}, {}] } }).dev 0 39322).onRx 63 fun x => { x with biasCurrent := biasNow ((st fun d => { d with lnk := { d.lnk with mail := [{ running := some ⟨default, 0x030B, [], .portCheck [63] [63] 0, 0, true⟩ }, {}, {}, {}] } }).dev) 63 } : Dev).gov.loopOpen = false ∧
    ((reserveSlots (st fun d => { d with lnk := { d.lnk with mail := [{ running := some ⟨default, 0x030B, [], .portCheck [63] [63] 0, 0, true⟩ }, {}, {}, {}] } }).dev 0 39322).onRx 63 fun x => { x with biasCurrent := biasNow ((st fun d => { d with lnk := { d.lnk with mail := [{ running := some ⟨default, 0x030B, [], .portCheck [63] [63] 0, 0, true⟩ }, {}, {}, {}] } }).dev) 63 } : Dev) = (reserveSlots (st fun d => { d with lnk := { d.lnk with mail := [{ running := some ⟨default, 0x030B, [], .portCheck [63] [63] 0, 0, true⟩ }, {}, {}, {}] } } : State).dev (st fun d => { d with lnk := { d.lnk with mail := [{ running := some ⟨default, 0x030B, [], .portCheck [63] [63] 0, 0, true⟩ }, {}, {}, {}] } } : State).dev.axis 39322).onRx 63 (fun x => { x with biasCurrent := biasNow (st fun d => { d with lnk := { d.lnk with mail := [{ running := some ⟨default, 0x030B, [], .portCheck [63] [63] 0, 0, true⟩ }, {}, {}, {}] } } : State).dev 63 }) ∧
    4 = portClassOf (((reserveSlots (st fun d => { d with lnk := { d.lnk with mail := [{ running := some ⟨default, 0x030B, [], .portCheck [63] [63] 0, 0, true⟩ }, {}, {}, {}] } }).dev 0 39322).onRx 63 fun x => { x with biasCurrent := biasNow ((st fun d => { d with lnk := { d.lnk with mail := [{ running := some ⟨default, 0x030B, [], .portCheck [63] [63] 0, 0, true⟩ }, {}, {}, {}] } }).dev) 63 } : Dev).rxPath 63) false 29 180 ∧ 4 ≠ (((reserveSlots (st fun d => { d with lnk := { d.lnk with mail := [{ running := some ⟨default, 0x030B, [], .portCheck [63] [63] 0, 0, true⟩ }, {}, {}, {}] } }).dev 0 39322).onRx 63 fun x => { x with biasCurrent := biasNow ((st fun d => { d with lnk := { d.lnk with mail := [{ running := some ⟨default, 0x030B, [], .portCheck [63] [63] 0, 0, true⟩ }, {}, {}, {}] } }).dev) 63 } : Dev).rxPath 63).portClass ∧ 4 ≠ 1 ∧ 4 ≠ 2 := by
  and_intros <;> first | rfl | decide +kernel

theorem witness_ReceiveHappenings :
    17 ≠ 0 ∧ domOn (st fun d => { d with rx := List.replicate 64 { overMode := 1, atten := 30 } } : State).dev 3 = true ∧ ((st fun d => { d with rx := List.replicate 64 { overMode := 1, atten := 30 } } : State).dev.rxPath 63).overMode = 1 ∧ 16 < 17 ∧ ((st fun d => { d with rx := List.replicate 64 { overMode := 1, atten := 30 } } : State).dev.rxPath 63).atten < 31 ∧
    17 ≠ 0 ∧ domOn unitW.dev 3 = true ∧ (unitW.dev.rxPath 63).overMode = 0 ∧
    domOn unitW.dev 3 = true ∧ (nth unitW.dev.fe 63).protRx = false ∧
    (nth (st fun d => { d with fe := List.replicate 64 { st := 2, protRx := true } } : State).dev.fe 63).protRx = true ∧ (nth (st fun d => { d with fe := List.replicate 64 { st := 2, protRx := true } } : State).dev.fe 63).st ≠ 4 ∧ (nth (st fun d => { d with fe := List.replicate 64 { st := 2, protRx := true } } : State).dev.fe 63).st ≠ 1 ∧
    ((st fun d => { d with rx := List.replicate 64 { bias := 2 } } : State).dev.rxPath 63).bias ≠ 0 ∧ domOn (st fun d => { d with rx := List.replicate 64 { bias := 2 } } : State).dev 3 = true ∧
    ((st fun d => { d with tmb := { d.tmb with cyc := 196608000 }, rx := List.replicate 64 { foldback := true } } : State).dev.rxPath 63).foldback = true ∧ ((st fun d => { d with tmb := { d.tmb with cyc := 196608000 }, rx := List.replicate 64 { foldback := true } } : State).dev.rxPath 63).foldAt + 196608000 ≤ (st fun d => { d with tmb := { d.tmb with cyc := 196608000 }, rx := List.replicate 64 { foldback := true } } : State).dev.now ∧
    (((st fun d => d.onRxSb 63 3 fun x => { x with on := true, flushing := true } : State).dev.rxPath 63).sb 3).flushing = true ∧ domOn (st fun d => d.onRxSb 63 3 fun x => { x with on := true, flushing := true } : State).dev 6 = true ∧
    due 0x0301 rxAble (st fun d => { d.onRxSb 0 0 (fun x => { x with on := true }) with tmb := { d.tmb with stakes := [qD 0x0301] } } : State).dev (qD 0x0301 : QStake) = true ∧
    due 0x0302 rxAble (st fun d => { d.onRxSb 0 0 (fun x => { x with on := true }) with tmb := { d.tmb with stakes := [qD 0x0302] } } : State).dev (qD 0x0302 : QStake) = true ∧
    due 0x0303 rxAble (st fun d => { d.onRxSb 0 0 (fun x => { x with on := true }) with tmb := { d.tmb with stakes := [qD 0x0303] } } : State).dev (qD 0x0303 : QStake) = true ∧
    due 0x0304 rxAble (st fun d => { d.onRxSb 0 0 (fun x => { x with on := true }) with tmb := { d.tmb with stakes := [qD 0x0304] } } : State).dev (qD 0x0304 : QStake) = true ∧
    (due 0x0305 (fun e _ => domOn e 3) (st fun d => { d with tmb := { d.tmb with stakes := [qD 0x0305] } } : State).dev (qD 0x0305 : QStake) = true) ∧
    (due 0x0306 (fun e _ => domOn e 6) (st fun d => { d with tmb := { d.tmb with stakes := [qD 0x0306] } } : State).dev (qD 0x0306 : QStake) = true) := by
  and_intros <;> decide +kernel

theorem witness_TransmitCommands_12_txCompLoad :
    starts compS.dev hdrW (cmd 0x040A) = true ∧
    txCompLoadCheck 1 (found compS.dev hdrW) = none := by
  have ho : (found compS.dev hdrW).obj? 1 = some compW := by rw [found_obj]; rfl
  have h1 : compW.thorns = [] := rfl
  have hb : objBytes (found compS.dev hdrW) 1 = 0x41 :: compZ := by unfold objBytes; rw [ho]; exact compW_bytes
  have hl : compZ.length = 8975 := List.length_replicate ..
  have ht : ((0x41 :: compZ).drop 1).take 15 = List.replicate 15 0 := by
    unfold compZ; rw [List.drop_succ_cons, List.drop_zero, List.take_replicate]; rfl
  have hr : ((List.range 64).any fun p => (compOf ((0x41 :: compZ).drop (16 + 140 * p))).rows.any fun r =>
      decide (r.2 < (nth (found compS.dev hdrW).pwr.dacs p).floor) || decide ((nth (found compS.dev hdrW).pwr.dacs p).safe < r.2)) = false := by
    rw [List.any_eq_false]
    intro p hp
    have hf : (nth (found compS.dev hdrW).pwr.dacs p).floor = 0 := by
      have : ∀ q ∈ List.range 64, (nth compS.dev.pwr.dacs q).floor = 0 := by decide +kernel
      rw [found_pwr]; exact this p hp
    rw [Bool.not_eq_true, List.any_eq_false]
    intro r hm
    rw [compZ_rows p r hm, hf]
    simp
  refine ⟨by decide +kernel, ?_⟩
  unfold txCompLoadCheck
  simp only [hb, ho, hr, ht, List.length_cons, hl, objCheck]
  rfl

theorem witness_TransmitCommands :
    starts unitW.dev hdrW (cmd 0x0400) = true ∧
    txPathSetCheck 9223372036854775808 32767 3250000000 2 1024 1 (found unitW.dev hdrW) = none ∧
    starts unitW.dev hdrW (ask 0x0401 [4, 11, 2, 2]) = true ∧
    63 ≤ 63 ∧
    starts (st fun d => { d with ident := { d.ident with variant := .m }, rx := List.replicate 64 { band := 2 } } : State).dev hdrW (cmd 0x0402) = true ∧
    txSubbandSetCheck 9223372036854775808 3 ({ chain := { rf := 3250000000, profile := 0, aSections := 1, aLength := [1, 0, 0, 0, 0], aFactor := 32, bFactor := 1 } } : TxCfg) (found (st fun d => { d with ident := { d.ident with variant := .m }, rx := List.replicate 64 { band := 2 } } : State).dev hdrW) = none ∧
    starts (st fun d => { d with tx := List.replicate 64 { sbs := List.replicate 4 { banks := .both { cfg := { chain := { aFactor := 1, bFactor := 1 } } } } } } : State).dev hdrW (ask 0x0403 [48, 6, 8, 4]) = true ∧
    (63 ≤ 63 ∧ 3 ≤ 3 ∧ 1 ≤ 1 ∧ ({ chain := { aFactor := 1, bFactor := 1 } } : TxCfg) = (if 1 = 0 then (((st fun d => { d with tx := List.replicate 64 { sbs := List.replicate 4 { banks := .both { cfg := { chain := { aFactor := 1, bFactor := 1 } } } } } } : State).dev.txPath 63).sb 3).banks.cur else (((st fun d => { d with tx := List.replicate 64 { sbs := List.replicate 4 { banks := .both { cfg := { chain := { aFactor := 1, bFactor := 1 } } } } } } : State).dev.txPath 63).sb 3).banks.shd).cfg) ∧
    ({ chain := { aFactor := 1, bFactor := 1 } } : TxCfg).chain.aFactor ≠ 0 ∧ ({ chain := { aFactor := 1, bFactor := 1 } } : TxCfg).chain.bFactor ≠ 0 ∧ adcRate (found (st fun d => { d with tx := List.replicate 64 { sbs := List.replicate 4 { banks := .both { cfg := { chain := { aFactor := 1, bFactor := 1 } } } } } } : State).dev hdrW) ({ chain := { aFactor := 1, bFactor := 1 } } : TxCfg).chain.profile ≠ 0 ∧
    starts unitW.dev hdrW (cmd 0x0404) = true ∧
    15 ≤ 15 ∧
    starts (st fun d => { d with lnk := { d.lnk with bulk := [{ objW with kind := 3, len := 20, frags := [⟨0, [2, 0, 0, 0, 0, 0, 0, 1, 0, 0, 0, 0, 0, 0, 0, 0, 0, 0, 0, 1], []⟩] }] }, tx := List.replicate 64 { sbs := List.replicate 4 { banks := .both { cfg := { chain := { bFactor := 1 } } } } } } : State).dev hdrW (cmd 0x0405) = true ∧
    txCoefLoadCheck 1 9223372036854775808 3 (found (st fun d => { d with lnk := { d.lnk with bulk := [{ objW with kind := 3, len := 20, frags := [⟨0, [2, 0, 0, 0, 0, 0, 0, 1, 0, 0, 0, 0, 0, 0, 0, 0, 0, 0, 0, 1], []⟩] }] }, tx := List.replicate 64 { sbs := List.replicate 4 { banks := .both { cfg := { chain := { bFactor := 1 } } } } } } : State).dev hdrW) = none ∧
    (st fun d => { d with lnk := { d.lnk with bulk := [{ objW with kind := 3, len := 20, frags := [⟨0, [2, 0, 0, 0, 0, 0, 0, 1, 0, 0, 0, 0, 0, 0, 0, 0, 0, 0, 0, 1], []⟩] }] }, tx := List.replicate 64 { sbs := List.replicate 4 { banks := .both { cfg := { chain := { bFactor := 1 } } } } } } : State).dev.obj? 1 = some ({ objW with kind := 3, len := 20, frags := [⟨0, [2, 0, 0, 0, 0, 0, 0, 1, 0, 0, 0, 0, 0, 0, 0, 0, 0, 0, 0, 1], []⟩] } : BulkObj) ∧ coefObject ({ objW with kind := 3, len := 20, frags := [⟨0, [2, 0, 0, 0, 0, 0, 0, 1, 0, 0, 0, 0, 0, 0, 0, 0, 0, 0, 0, 1], []⟩] } : BulkObj).bytes = some (2, 1, ([1] : List Int)) ∧
    starts (st fun d => { d with tx := List.replicate 64 { sbs := List.replicate 4 { on := true, banks := .both { cfg := { source := 2 } } } } } : State).dev hdrW (cmd 0x0406 [4]) = true ∧
    txStreamSetCheck 5 3 9223372036854775808 3 (found (st fun d => { d with tx := List.replicate 64 { sbs := List.replicate 4 { on := true, banks := .both { cfg := { source := 2 } } } } } : State).dev hdrW) = none ∧
    starts (st fun d => { d with ins := [{ num := 5, base := 5, layer := false, sb := 0, paths := [0], format := 1, depth := 9 }] } : State).dev hdrW (cmd 0x0407 [8, 8, 8]) = true ∧
    ((st fun d => { d with ins := [{ num := 5, base := 5, layer := false, sb := 0, paths := [0], format := 1, depth := 9 }] } : State).dev.ins.any (fun o => !o.layer && o.num == 5) = true) ∧
    starts (st fun d => { d with lanes := List.replicate 32 { st := 5, mode := 5 }, tx := List.replicate 64 { sbs := List.replicate 4 { on := true, banks := .both { cfg := { source := 3 } } } } } : State).dev hdrW (cmd 0x0408) = true ∧
    txCutSetCheck 31 63 3 1 (found (st fun d => { d with lanes := List.replicate 32 { st := 5, mode := 5 }, tx := List.replicate 64 { sbs := List.replicate 4 { on := true, banks := .both { cfg := { source := 3 } } } } } : State).dev hdrW) = none ∧
    starts unitW.dev hdrW (cmd 0x0409) = true ∧
    1 ≤ 1 ∧ 1 ≤ 1 ∧
    starts unitW.dev hdrW (cmd 0x040B) = true ∧
    ((pathsOf 9223372036854775808).any (fun p => (unitW.dev.rxPath p).portClass == 3 || (unitW.dev.rxPath p).portClass == 4) = false) ∧
    starts unitW.dev hdrW (askClear 0x040C 1 (List.replicate 20 4)) = true ∧
    63 ≤ 63 ∧ 1 ≤ 1 := by
  and_intros <;> decide +kernel

theorem witness_TransmitHappenings_3_hostStreamPacket :
    (dataIn hostStreamS.dev 1 rxW (20 + hostPktW.data.length)).2 = true ∧
    (hostStreamS.dev.ins.find? (fun y => y.num == hostPktW.num && y.layer == false) = some inStreamW) ∧
    hostPktW.format = inStreamW.format ∧ hostPktW.groups ≠ 0 ∧ hostPktW.data.length = hostPktW.groups * hostPktW.elements * elementBytes hostPktW.format ∧
    inStreamW = inStreamW.play hostStreamS.dev.axis (streamTiming hostStreamS.dev inStreamW) ∧ (inStreamW.take 0 (streamTiming hostStreamS.dev inStreamW) hostPktW : InStream) = inStreamW.take hostStreamS.dev.axis (streamTiming hostStreamS.dev inStreamW) hostPktW ∧ (inStreamW.take 0 (streamTiming hostStreamS.dev inStreamW) hostPktW : InStream).late = inStreamW.late ∧ (inStreamW.take 0 (streamTiming hostStreamS.dev inStreamW) hostPktW : InStream).zeroFilled = inStreamW.zeroFilled := by decide +kernel

theorem witness_TransmitHappenings_4_cutThroughFrame :
    laneUp (st fun d => { d with lanes := List.replicate 32 { st := 5, mode := 5 } } : State).dev 31 = true ∧ laneDirect (st fun d => { d with lanes := List.replicate 32 { st := 5, mode := 5 } } : State).dev 31 = true ∧ (⟨4, [], [], 0, 0⟩ : DirectFrame).cls = 4 ∧ crc32c (⟨4, [], [], 0, 0⟩ : DirectFrame).bytes = (⟨4, [], [], 0, 0⟩ : DirectFrame).crc ∧
    ([] : List (Cx × Bool)) = cutSamples ⟨(⟨4, [], [], 0, 0⟩ : DirectFrame).bytes, false, (⟨4, [], [], 0, 0⟩ : DirectFrame).bad⟩ := by decide +kernel

theorem witness_TransmitHappenings_5_cutThroughFrame :
    laneUp (st fun d => { d with lanes := List.replicate 32 { st := 5, mode := 5 } } : State).dev 31 = true ∧ laneDirect (st fun d => { d with lanes := List.replicate 32 { st := 5, mode := 5 } } : State).dev 31 = true ∧ (⟨4, [], [], 1, 0⟩ : DirectFrame).cls = 4 ∧ crc32c (⟨4, [], [], 1, 0⟩ : DirectFrame).bytes ≠ (⟨4, [], [], 1, 0⟩ : DirectFrame).crc ∧
    ([] : List (Cx × Bool)) = cutSamples ⟨(⟨4, [], [], 1, 0⟩ : DirectFrame).bytes, false, (⟨4, [], [], 1, 0⟩ : DirectFrame).bad⟩ := by decide +kernel

theorem witness_TransmitHappenings :
    ((((st fun d => d.onTxSb 63 3 fun x => { x with on := true, flushing := true, stopAt := some 0 } : State).dev.txPath 63).sb 3).flushing = true ∧ domOn (st fun d => d.onTxSb 63 3 fun x => { x with on := true, flushing := true, stopAt := some 0 } : State).dev 6 = true ∧ ((((st fun d => d.onTxSb 63 3 fun x => { x with on := true, flushing := true, stopAt := some 0 } : State).dev.txPath 63).sb 3).stopAt.all fun t => decide (t ≤ (st fun d => d.onTxSb 63 3 fun x => { x with on := true, flushing := true, stopAt := some 0 } : State).dev.axis)) = true) ∧
    txOpenNow unitW.dev 63 = false ∧
    2000 < 2001 ∧ unitW.dev.gov.loopOpen = false ∧
    2000 ≤ 2000 ∧
    499 < 500 ∧ (st fun d => { d with gov := { d.gov with loopOpen := true } } : State).dev.gov.loopOpen = true ∧
    radiates (st fun d => { d with tx := List.replicate 64 { gain := 32768, sbs := List.replicate 4 { on := true, win := true } }, pwr := { d.pwr with pathLevels := List.replicate 64 0 } } : State).dev 63 = true ∧
    due 0x0401 txAble (st fun d => { d.onTxSb 0 0 (fun x => { x with on := true }) with tmb := { d.tmb with stakes := [qD 0x0401] } } : State).dev (qD 0x0401 : QStake) = true ∧
    due 0x0402 txAble (st fun d => { d.onTxSb 0 0 (fun x => { x with on := true }) with tmb := { d.tmb with stakes := [qD 0x0402] } } : State).dev (qD 0x0402 : QStake) = true ∧
    due 0x0403 txAble (st fun d => { d.onTxSb 0 0 (fun x => { x with on := true }) with tmb := { d.tmb with stakes := [qD 0x0403] } } : State).dev (qD 0x0403 : QStake) = true ∧
    due 0x0404 txAble (st fun d => { d.onTxSb 0 0 (fun x => { x with on := true }) with tmb := { d.tmb with stakes := [qD 0x0404] } } : State).dev (qD 0x0404 : QStake) = true ∧
    due 0x0405 txAble (st fun d => { d.onTxSb 0 0 (fun x => { x with on := true }) with tmb := { d.tmb with stakes := [{ qD 0x0405 with stake := { (default : Stake) with action := 0x0405, argument := 256 } }] } } : State).dev ({ qD 0x0405 with stake := { (default : Stake) with action := 0x0405, argument := 256 } } : QStake) = true ∧ bitsOf ({ qD 0x0405 with stake := { (default : Stake) with action := 0x0405, argument := 256 } } : QStake).stake.argument 23 8 ≠ 0 ∧ (st fun d => { d.onTxSb 0 0 (fun x => { x with on := true }) with tmb := { d.tmb with stakes := [{ qD 0x0405 with stake := { (default : Stake) with action := 0x0405, argument := 256 } }] } } : State).dev.axis ≤ ({ qD 0x0405 with stake := { (default : Stake) with action := 0x0405, argument := 256 } } : QStake).trig.getD 0 := by
  and_intros <;> decide +kernel

theorem witness_Governor_4_governorStep :
    unitW.dev.axis = 0 ∧ unitW.dev.axis % 16 = 0 ∧ unitW.dev.gov.stepped ≠ some unitW.dev.axis ∧
    (((List.range 64).map fun p => pathEnergy unitW.dev p 16 : List Nat) = (List.range 64).map fun p => pathEnergy unitW.dev p 16) := by
  and_intros <;> first | rfl | decide

theorem witness_Governor :
    starts unitW.dev hdrW (cmd 0x0410 [4, 4]) = true ∧
    govClassSetCheck 1 1 0 0 0 30 243 204 (found unitW.dev hdrW) = none ∧
    ((⟨1, 0, 0, 0, 30, 243, 204⟩ : GovSet) = ⟨1, if 1 = 4 then 0 else 0, if 1 = 4 then 0 else 0, if 1 = 4 then 0 else 0, 30, 243, 204⟩) ∧
    starts unitW.dev hdrW (ask 0x0411 (List.replicate 12 4 ++ [2])) = true ∧
    starts unitW.dev hdrW (ask 0x0412 [2, 4]) = true ∧
    ((st fun d => { d with tx := List.replicate 64 { adaptHeld := some 0 } } : State).dev.txPath 63).adaptHeld = some 0 ∧ 0 ≤ (st fun d => { d with tx := List.replicate 64 { adaptHeld := some 0 } } : State).dev.now ∧ ((st fun d => { d with tx := List.replicate 64 { adaptHeld := some 0 } } : State).dev.txPath 63).gain = 32768 ∧
    radiates (st fun d => { d with tx := List.replicate 64 { sbs := List.replicate 4 { on := true, win := true } } } : State).dev 63 = true ∧
    (st fun d => { d with tmb := { d.tmb with cyc := tickHz } } : State).dev.gov.logged + tickHz ≤ (st fun d => { d with tmb := { d.tmb with cyc := tickHz } } : State).dev.now := by
  and_intros <;> decide +kernel

theorem witness_FrequencySlots_5_freEqLoad :
    starts (st fun d => { d.onFre 5 fun f => { f with cfg := { mode := 0, log2 := 0, nCh := 1, eqGroup := 1 } } with lnk := { d.lnk with bulk := [{ objW with kind := 4, len := 274, frags := [⟨0, [0x45, 1, 1, 0, 0, 1, 0, 0, 0, 0, 0, 1, 0, 0, 0, 0] ++ List.replicate 258 0, []⟩] }] } } : State).dev hdrW (cmd 0x0503) = true ∧
    freEqLoadCheck 1 (found (st fun d => { d.onFre 5 fun f => { f with cfg := { mode := 0, log2 := 0, nCh := 1, eqGroup := 1 } } with lnk := { d.lnk with bulk := [{ objW with kind := 4, len := 274, frags := [⟨0, [0x45, 1, 1, 0, 0, 1, 0, 0, 0, 0, 0, 1, 0, 0, 0, 0] ++ List.replicate 258 0, []⟩] }] } } : State).dev hdrW) = none := by decide +kernel

theorem witness_FrequencySlots :
    starts unitW.dev hdrW (cmd 0x0500 [8]) = true ∧
    freSetCheck 1 3 ({ mode := 1, log2 := 6, taps := 4, nCh := 1 } : FreCfg) (found unitW.dev hdrW) = none ∧
    starts unitW.dev hdrW (ask 0x0501 [64, 4, 8]) = true ∧
    1 ≤ 1 ∧ 3 ≤ 3 ∧ 1 ≤ 1 ∧
    starts unitW.dev hdrW (cmd 0x0502 [4]) = true ∧
    1 ≤ 1 ∧ 15 ≤ 15 ∧ unitW.dev.qs.state = 0 ∧
    ((((maskList 4 15).map (slotNo 1)).filter fun n => (nth unitW.dev.fre n).on && !(nth unitW.dev.fre n).flushing) = []) ∧
    starts (st fun d => d.onFre 7 fun x => { x with on := true } : State).dev hdrW (cmd 0x0502 [4]) = true ∧
    1 ≤ 1 ∧ 8 ≤ 15 ∧ (st fun d => d.onFre 7 fun x => { x with on := true } : State).dev.qs.state = 0 ∧
    (([7] : List Nat) = (((maskList 4 8).map (slotNo 1)).filter fun n => (nth (st fun d => d.onFre 7 fun x => { x with on := true } : State).dev.fre n).on && !(nth (st fun d => d.onFre 7 fun x => { x with on := true } : State).dev.fre n).flushing) ∧ ([7] : List Nat) ≠ []) ∧
    starts (st fun d => { d.onFre 7 fun f => { f with cfg := { f.cfg with taps := 1 } } with lnk := { d.lnk with bulk := [{ objW with kind := 3, len := 20, frags := [⟨0, [4, 0, 0, 0, 0, 0, 0, 1, 0, 0, 0, 0, 0, 0, 0, 0, 0, 0, 0, 1], []⟩] }] } } : State).dev hdrW (cmd 0x0504) = true ∧
    freWindowLoadCheck 1 1 3 (found (st fun d => { d.onFre 7 fun f => { f with cfg := { f.cfg with taps := 1 } } with lnk := { d.lnk with bulk := [{ objW with kind := 3, len := 20, frags := [⟨0, [4, 0, 0, 0, 0, 0, 0, 1, 0, 0, 0, 0, 0, 0, 0, 0, 0, 0, 0, 1], []⟩] }] } } : State).dev hdrW) = none ∧
    (st fun d => { d.onFre 7 fun f => { f with cfg := { f.cfg with taps := 1 } } with lnk := { d.lnk with bulk := [{ objW with kind := 3, len := 20, frags := [⟨0, [4, 0, 0, 0, 0, 0, 0, 1, 0, 0, 0, 0, 0, 0, 0, 0, 0, 0, 0, 1], []⟩] }] } } : State).dev.obj? 1 = some ({ objW with kind := 3, len := 20, frags := [⟨0, [4, 0, 0, 0, 0, 0, 0, 1, 0, 0, 0, 0, 0, 0, 0, 0, 0, 0, 0, 1], []⟩] } : BulkObj) ∧ coefObject ({ objW with kind := 3, len := 20, frags := [⟨0, [4, 0, 0, 0, 0, 0, 0, 1, 0, 0, 0, 0, 0, 0, 0, 0, 0, 0, 0, 1], []⟩] } : BulkObj).bytes = some (4, 1, ([1] : List Int)) ∧
    starts (st fun d => d.onFre 7 fun x => { x with on := true, cfg := { x.cfg with nCh := 1 } } : State).dev hdrW (ask 0x0505 (spanWidths 512 1 [2, 2])) = true ∧
    3 ≤ 3 ∧ 63 ≤ 63 ∧ 1 ≤ 1 ∧ 1 ≤ 512 ∧ 0 + 1 ≤ (nth (st fun d => d.onFre 7 fun x => { x with on := true, cfg := { x.cfg with nCh := 1 } } : State).dev.fre (slotNo 1 3)).cfg.eqGroups ∧ (nth (st fun d => d.onFre 7 fun x => { x with on := true, cfg := { x.cfg with nCh := 1 } } : State).dev.fre (slotNo 1 3)).on = true ∧
    starts (st fun d => d.onFre 3 fun x => { x with on := true, cfg := { x.cfg with nCh := 1 } } : State).dev hdrW (ask 0x0505 (spanWidths 512 1 [2, 2])) = true ∧
    3 ≤ 3 ∧ 63 ≤ 63 ∧ 1 ≤ 1 ∧ 1 ≤ 512 ∧ 0 + 1 ≤ (nth (st fun d => d.onFre 3 fun x => { x with on := true, cfg := { x.cfg with nCh := 1 } } : State).dev.fre (slotNo 0 3)).cfg.eqGroups ∧ (nth (st fun d => d.onFre 3 fun x => { x with on := true, cfg := { x.cfg with nCh := 1 } } : State).dev.fre (slotNo 0 3)).on = true ∧
    starts unitW.dev hdrW (askClear 0x0506 1 (List.replicate 6 4)) = true ∧
    1 ≤ 1 ∧ 3 ≤ 3 ∧ 63 ≤ 63 ∧ 1 ≤ 1 ∧
    (nth unitW.dev.fre (slotNo 1 3)).flushing = false ∧
    (nth (st fun d => d.onFre 7 fun x => { x with on := true, flushing := true } : State).dev.fre (slotNo 1 3)).flushing = true ∧
    due 0x0502 freAble (st fun d => { d.onFre 0 (fun x => { x with on := true }) with tmb := { d.tmb with stakes := [qD 0x0502] } } : State).dev (qD 0x0502 : QStake) = true := by
  and_intros <;> decide +kernel

theorem witness_BeamsAndStreams_14_layerStreamPacket :
    (dataIn layerS.dev 1 rxW (20 + hostPktW.data.length)).2 = true ∧
    (layerS.dev.ins.find? (fun y => y.num == hostPktW.num && y.layer) = some layerW) ∧
    hostPktW.format = layerW.format ∧ hostPktW.groups ≠ 0 ∧ hostPktW.data.length = hostPktW.groups * hostPktW.elements * elementBytes hostPktW.format ∧ (nth layerS.dev.chains layerW.sb).on = false ∧
    layerW = layerW.play layerS.dev.axis (layerTiming layerS.dev layerW) ∧ (layerW.take 0 (layerTiming layerS.dev layerW) hostPktW : InStream) = layerW.take layerS.dev.axis (layerTiming layerS.dev layerW) hostPktW ∧ (layerW.take 0 (layerTiming layerS.dev layerW) hostPktW : InStream).late = layerW.late ∧ (layerW.take 0 (layerTiming layerS.dev layerW) hostPktW : InStream).zeroFilled = layerW.zeroFilled := by decide +kernel

theorem witness_BeamsAndStreams :
    starts unitW.dev hdrW (cmd 0x0510 [4]) = true ∧
    topiaryAllocCheck ([65536, 0, 0, 0, 0, 0, 0, 35] : List Nat) (found unitW.dev hdrW) = none ∧
    starts (st fun d => { d.onFre 7 fun f => { f with capacity := 35 } with lnk := { d.lnk with bulk := [{ objW with kind := 1, len := 35, frags := [⟨0, [0x54, 1, 3, 1, 0, 0, 0, 0, 0, 0, 0, 1, 0, 1, 0, 0, 0, 0, 0, 1, 0, 0, 0, 0, 0, 0, 0, 0, 0, 0, 0, 0, 0, 0, 1], []⟩] }] } } : State).dev hdrW (cmd 0x0511 [1]) = true ∧
    topiaryLoadCheck 1 (found (st fun d => { d.onFre 7 fun f => { f with capacity := 35 } with lnk := { d.lnk with bulk := [{ objW with kind := 1, len := 35, frags := [⟨0, [0x54, 1, 3, 1, 0, 0, 0, 0, 0, 0, 0, 1, 0, 1, 0, 0, 0, 0, 0, 1, 0, 0, 0, 0, 0, 0, 0, 0, 0, 0, 0, 0, 0, 0, 1], []⟩] }] } } : State).dev hdrW) = none ∧
    objSlot (objBytes (st fun d => { d.onFre 7 fun f => { f with capacity := 35 } with lnk := { d.lnk with bulk := [{ objW with kind := 1, len := 35, frags := [⟨0, [0x54, 1, 3, 1, 0, 0, 0, 0, 0, 0, 0, 1, 0, 1, 0, 0, 0, 0, 0, 1, 0, 0, 0, 0, 0, 0, 0, 0, 0, 0, 0, 0, 0, 0, 1], []⟩] }] } } : State).dev 1) = some 7 ∧ topiaryOf (objBytes (st fun d => { d.onFre 7 fun f => { f with capacity := 35 } with lnk := { d.lnk with bulk := [{ objW with kind := 1, len := 35, frags := [⟨0, [0x54, 1, 3, 1, 0, 0, 0, 0, 0, 0, 0, 1, 0, 1, 0, 0, 0, 0, 0, 1, 0, 0, 0, 0, 0, 0, 0, 0, 0, 0, 0, 0, 0, 0, 1], []⟩] }] } } : State).dev 1) = some ({ loaded := true, beams := 1, mask := 1, groups := 1, groupSize := 1, weights := [(0, 1)] } : Topiary) ∧ (nth (st fun d => { d.onFre 7 fun f => { f with capacity := 35 } with lnk := { d.lnk with bulk := [{ objW with kind := 1, len := 35, frags := [⟨0, [0x54, 1, 3, 1, 0, 0, 0, 0, 0, 0, 0, 1, 0, 1, 0, 0, 0, 0, 0, 1, 0, 0, 0, 0, 0, 0, 0, 0, 0, 0, 0, 0, 0, 0, 1], []⟩] }] } } : State).dev.fre 7).on = false ∧
    starts (st fun d => { d.onFre 7 fun f => { f with on := true, capacity := 35, cfg := { mode := 1, log2 := 6, nCh := 1 } } with lnk := { d.lnk with bulk := [{ objW with kind := 1, len := 35, frags := [⟨0, [0x54, 1, 3, 1, 0, 0, 0, 0, 0, 0, 0, 1, 0, 1, 0, 0, 0, 0, 0, 1, 0, 0, 0, 0, 0, 0, 0, 0, 0, 0, 0, 0, 0, 0, 1], []⟩] }] } } : State).dev hdrW (cmd 0x0511 [1]) = true ∧
    topiaryLoadCheck 1 (found (st fun d => { d.onFre 7 fun f => { f with on := true, capacity := 35, cfg := { mode := 1, log2 := 6, nCh := 1 } } with lnk := { d.lnk with bulk := [{ objW with kind := 1, len := 35, frags := [⟨0, [0x54, 1, 3, 1, 0, 0, 0, 0, 0, 0, 0, 1, 0, 1, 0, 0, 0, 0, 0, 1, 0, 0, 0, 0, 0, 0, 0, 0, 0, 0, 0, 0, 0, 0, 1], []⟩] }] } } : State).dev hdrW) = none ∧
    objSlot (objBytes (st fun d => { d.onFre 7 fun f => { f with on := true, capacity := 35, cfg := { mode := 1, log2 := 6, nCh := 1 } } with lnk := { d.lnk with bulk := [{ objW with kind := 1, len := 35, frags := [⟨0, [0x54, 1, 3, 1, 0, 0, 0, 0, 0, 0, 0, 1, 0, 1, 0, 0, 0, 0, 0, 1, 0, 0, 0, 0, 0, 0, 0, 0, 0, 0, 0, 0, 0, 0, 1], []⟩] }] } } : State).dev 1) = some 7 ∧ topiaryOf (objBytes (st fun d => { d.onFre 7 fun f => { f with on := true, capacity := 35, cfg := { mode := 1, log2 := 6, nCh := 1 } } with lnk := { d.lnk with bulk := [{ objW with kind := 1, len := 35, frags := [⟨0, [0x54, 1, 3, 1, 0, 0, 0, 0, 0, 0, 0, 1, 0, 1, 0, 0, 0, 0, 0, 1, 0, 0, 0, 0, 0, 0, 0, 0, 0, 0, 0, 0, 0, 0, 1], []⟩] }] } } : State).dev 1) = some ({ loaded := true, beams := 1, mask := 1, groups := 1, groupSize := 1, weights := [(0, 1)] } : Topiary) ∧ (nth (st fun d => { d.onFre 7 fun f => { f with on := true, capacity := 35, cfg := { mode := 1, log2 := 6, nCh := 1 } } with lnk := { d.lnk with bulk := [{ objW with kind := 1, len := 35, frags := [⟨0, [0x54, 1, 3, 1, 0, 0, 0, 0, 0, 0, 0, 1, 0, 1, 0, 0, 0, 0, 0, 1, 0, 0, 0, 0, 0, 0, 0, 0, 0, 0, 0, 0, 0, 0, 1], []⟩] }] } } : State).dev.fre 7).on = true ∧
    starts unitW.dev hdrW (ask 0x0512 [4, 32, 32, 4, 4]) = true ∧
    1 ≤ 1 ∧ 3 ≤ 3 ∧ (nth unitW.dev.fre (slotNo 1 3)).top.index = 0 ∧
    starts (st fun d => d.onFre 7 fun x => { x with top := { x.top with index := 1 } } : State).dev hdrW (ask 0x0512 [4, 32, 32, 4, 4]) = true ∧
    1 ≤ 1 ∧ 3 ≤ 3 ∧ (nth (st fun d => d.onFre 7 fun x => { x with top := { x.top with index := 1 } } : State).dev.fre (slotNo 1 3)).top.index = 1 ∧
    starts (st fun d => d.onFre 7 fun x => { x with on := true, top := .both { loaded := true, beams := 32 } } : State).dev hdrW (cmd 0x0513 [2, 2]) = true ∧
    beamSetCheck 1 3 1 32 20 3 (found (st fun d => d.onFre 7 fun x => { x with on := true, top := .both { loaded := true, beams := 32 } } : State).dev hdrW) = none ∧
    1 = 1 ∧
    starts unitW.dev hdrW (cmd 0x0513 [2, 2]) = true ∧
    beamSetCheck 1 3 0 0 0 0 (found unitW.dev hdrW) = none ∧
    0 = 0 ∧
    starts (st fun d => { d with lnk := { d.lnk with dests := List.replicate 16 { set := true } } }.onFre 3 fun x => { x with on := true, cfg := { x.cfg with consumers := 4 } } : State).dev hdrW (cmd 0x0507) = true ∧
    freStreamSetCheck 5 3 9223372036854775808 5 15 31 (found (st fun d => { d with lnk := { d.lnk with dests := List.replicate 16 { set := true } } }.onFre 3 fun x => { x with on := true, cfg := { x.cfg with consumers := 4 } } : State).dev hdrW) = none ∧
    starts (st fun d => { d with outs := [{ rawW with kind := .channel }] } : State).dev hdrW (cmd 0x0508 [8]) = true ∧
    noBase (st fun d => { d with outs := [{ rawW with kind := .channel }] } : State).dev .channel 5 = false ∧
    starts (st fun d => { d with lnk := { d.lnk with dests := List.replicate 16 { set := true } } }.onFre 3 fun x => { x with on := true, beamsOn := true, beams := 32, beamOut := 1 } : State).dev hdrW (cmd 0x0514) = true ∧
    beamStreamSetCheck 5 3 1 31 3 15 31 (found (st fun d => { d with lnk := { d.lnk with dests := List.replicate 16 { set := true } } }.onFre 3 fun x => { x with on := true, beamsOn := true, beams := 32, beamOut := 1 } : State).dev hdrW) = none ∧
    starts (st fun d => { d with outs := [{ rawW with kind := .beam }] } : State).dev hdrW (cmd 0x0515 [8]) = true ∧
    noBase (st fun d => { d with outs := [{ rawW with kind := .beam }] } : State).dev .beam 5 = false ∧
    starts (st fun d => d.onFre 7 fun x => { x with on := true, beamsOn := true, beams := 32 } : State).dev hdrW (cmd 0x0516 [4]) = true ∧
    layerStreamSetCheck 5 3 32 3 (found (st fun d => d.onFre 7 fun x => { x with on := true, beamsOn := true, beams := 32 } : State).dev hdrW) = none ∧
    starts (st fun d => { d with ins := [{ num := 5, base := 5, layer := true, sb := 0, paths := [0], format := 1, depth := 9 }] } : State).dev hdrW (cmd 0x0517 [8, 8, 8]) = true ∧
    ((st fun d => { d with ins := [{ num := 5, base := 5, layer := true, sb := 0, paths := [0], format := 1, depth := 9 }] } : State).dev.ins.any (fun o => o.layer && o.base == 5) = true) ∧
    due 0x0501 freAble (st fun d => { d.onFre 0 (fun x => { x with on := true }) with tmb := { d.tmb with stakes := [qD 0x0501] } } : State).dev (qD 0x0501 : QStake) = true ∧ topThorns (st fun d => { d.onFre 0 (fun x => { x with on := true }) with tmb := { d.tmb with stakes := [qD 0x0501] } } : State).dev (nth (st fun d => { d.onFre 0 (fun x => { x with on := true }) with tmb := { d.tmb with stakes := [qD 0x0501] } } : State).dev.fre (stakeSlot (qD 0x0501 : QStake))) (1 - (nth (st fun d => { d.onFre 0 (fun x => { x with on := true }) with tmb := { d.tmb with stakes := [qD 0x0501] } } : State).dev.fre (stakeSlot (qD 0x0501 : QStake))).top.index) (nth (st fun d => { d.onFre 0 (fun x => { x with on := true }) with tmb := { d.tmb with stakes := [qD 0x0501] } } : State).dev.fre (stakeSlot (qD 0x0501 : QStake))).top.shd = 0 ∧
    due 0x0501 freAble thornTopS.dev (qD 0x0501 : QStake) = true ∧ topThorns thornTopS.dev (nth thornTopS.dev.fre (stakeSlot (qD 0x0501 : QStake))) (1 - (nth thornTopS.dev.fre (stakeSlot (qD 0x0501 : QStake))).top.index) (nth thornTopS.dev.fre (stakeSlot (qD 0x0501 : QStake))).top.shd ≠ 0 := by
  and_intros <;> decide +kernel

theorem witness_BeamChains_9_chainSumFrame :
    deliver (childS id : State).dev 31 sumFrameW = some (⟨sumF.sum, false, []⟩ : Delivered) ∧ sumF = readSum (⟨sumF.sum, false, []⟩ : Delivered) ∧
    (childOf (childS id : State).dev 31).find? (fun y => y.1 == sumF.sb && (nth (childS id : State).dev.chains y.1).banks.cur.chainId == sumF.chainId) = some (sumF.sb, 2) ∧
    ({ chainId := 7, sb := 3, flags := 192, childs := [0xFF, 0xFF, 31] } : ChainCfg) = (nth (childS id : State).dev.chains sumF.sb).cfgFor (childS id : State).dev.axis sumF.axis ∧ sumF.chainId = ({ chainId := 7, sb := 3, flags := 192, childs := [0xFF, 0xFF, 31] } : ChainCfg).chainId ∧ formsGroup (childS id : State).dev sumF.sb sumF.axis = true ∧ ¬((nth (childS id : State).dev.fre sumF.sb).on = true ∧ sumF.shapeCrc ≠ shapeCrc (childS id : State).dev sumF.sb) ∧ sumF.firstBeam = ({ chainId := 7, sb := 3, flags := 192, childs := [0xFF, 0xFF, 31] } : ChainCfg).firstBeam ∧ sumF.beams = ({ chainId := 7, sb := 3, flags := 192, childs := [0xFF, 0xFF, 31] } : ChainCfg).beams ∧ sumF.depth = ({ chainId := 7, sb := 3, flags := 192, childs := [0xFF, 0xFF, 31] } : ChainCfg).depth + 1 ∧
    (nth (childS id : State).dev.chains sumF.sb).startAt ≤ sumF.axis ∧ (nth (childS id : State).dev.chains sumF.sb).begun sumF.axis sumF.index = false ∧
    ((nth (nth (childS id : State).dev.chains sumF.sb).kids 2).frames.map ChainFrame.bytes).sum + sumF.bytes ≤ 262144 := by decide +kernel

theorem witness_BeamChains_10_chainSumFrame :
    deliver (childS fun n => { n with cur := some { (default : ChainSend) with frame := {} } } : State).dev 31 sumFrameW = some (⟨sumF.sum, false, []⟩ : Delivered) ∧ sumF = readSum (⟨sumF.sum, false, []⟩ : Delivered) ∧
    (childOf (childS fun n => { n with cur := some { (default : ChainSend) with frame := {} } } : State).dev 31).find? (fun y => y.1 == sumF.sb && (nth (childS fun n => { n with cur := some { (default : ChainSend) with frame := {} } } : State).dev.chains y.1).banks.cur.chainId == sumF.chainId) = some (sumF.sb, 2) ∧
    ({ chainId := 7, sb := 3, flags := 192, childs := [0xFF, 0xFF, 31] } : ChainCfg) = (nth (childS fun n => { n with cur := some { (default : ChainSend) with frame := {} } } : State).dev.chains sumF.sb).cfgFor (childS fun n => { n with cur := some { (default : ChainSend) with frame := {} } } : State).dev.axis sumF.axis ∧ sumF.chainId = ({ chainId := 7, sb := 3, flags := 192, childs := [0xFF, 0xFF, 31] } : ChainCfg).chainId ∧ formsGroup (childS fun n => { n with cur := some { (default : ChainSend) with frame := {} } } : State).dev sumF.sb sumF.axis = true ∧ ¬((nth (childS fun n => { n with cur := some { (default : ChainSend) with frame := {} } } : State).dev.fre sumF.sb).on = true ∧ sumF.shapeCrc ≠ shapeCrc (childS fun n => { n with cur := some { (default : ChainSend) with frame := {} } } : State).dev sumF.sb) ∧ sumF.firstBeam = ({ chainId := 7, sb := 3, flags := 192, childs := [0xFF, 0xFF, 31] } : ChainCfg).firstBeam ∧ sumF.beams = ({ chainId := 7, sb := 3, flags := 192, childs := [0xFF, 0xFF, 31] } : ChainCfg).beams ∧ sumF.depth = ({ chainId := 7, sb := 3, flags := 192, childs := [0xFF, 0xFF, 31] } : ChainCfg).depth + 1 ∧
    (nth (childS fun n => { n with cur := some { (default : ChainSend) with frame := {} } } : State).dev.chains sumF.sb).startAt ≤ sumF.axis ∧ (nth (childS fun n => { n with cur := some { (default : ChainSend) with frame := {} } } : State).dev.chains sumF.sb).begun sumF.axis sumF.index = true := by decide +kernel

theorem witness_BeamChains_11_chainFrameStart :
    ({ chainId := 7, sb := 3, flags := 192, childs := [0xFF, 0xFF, 31] } : ChainCfg) = (nth (childS fun n => { n with kids := [{}, {}, { frames := [sumF] }] } : State).dev.chains 3).cfgFor (childS fun n => { n with kids := [{}, {}, { frames := [sumF] }] } : State).dev.axis 0 ∧ (nth (childS fun n => { n with kids := [{}, {}, { frames := [sumF] }] } : State).dev.chains 3).nextFrame (!(nth (childS fun n => { n with kids := [{}, {}, { frames := [sumF] }] } : State).dev.fre 3).on) 0 = some 0 ∧
    ([(2, sumF)] : List (Nat × ChainFrame)) = (nth (childS fun n => { n with kids := [{}, {}, { frames := [sumF] }] } : State).dev.chains 3).arrivedKids ({ chainId := 7, sb := 3, flags := 192, childs := [0xFF, 0xFF, 31] } : ChainCfg) 0 0 ∧ frameMay (childS fun n => { n with kids := [{}, {}, { frames := [sumF] }] } : State).dev 3 0 0 ({ chainId := 7, sb := 3, flags := 192, childs := [0xFF, 0xFF, 31] } : ChainCfg) (ownPart (childS fun n => { n with kids := [{}, {}, { frames := [sumF] }] } : State).dev 3 ({ chainId := 7, sb := 3, flags := 192, childs := [0xFF, 0xFF, 31] } : ChainCfg) 0 0) ([(2, sumF)] : List (Nat × ChainFrame)) = true := by decide +kernel

theorem witness_BeamChains_13_chainBroadcastFrame :
    deliver (st fun d => { d with lanes := List.replicate 32 { st := 5, mode := 5 } }.onChain 3 fun n => { n with on := true, banks := .both { chainId := 7, sb := 3, flags := 32, parent := 31 } } : State).dev 31 (⟨3, sumF.down, [], crc32c sumF.down, 0⟩ : DirectFrame) = some (⟨sumF.down, false, []⟩ : Delivered) ∧ sumF = readDown (⟨sumF.down, false, []⟩ : Delivered) ∧
    ({ chainId := 7, sb := 3, flags := 32, parent := 31 } : ChainCfg) = (nth (st fun d => { d with lanes := List.replicate 32 { st := 5, mode := 5 } }.onChain 3 fun n => { n with on := true, banks := .both { chainId := 7, sb := 3, flags := 32, parent := 31 } } : State).dev.chains sumF.sb).cfgFor (st fun d => { d with lanes := List.replicate 32 { st := 5, mode := 5 } }.onChain 3 fun n => { n with on := true, banks := .both { chainId := 7, sb := 3, flags := 32, parent := 31 } } : State).dev.axis sumF.axis ∧ (nth (st fun d => { d with lanes := List.replicate 32 { st := 5, mode := 5 } }.onChain 3 fun n => { n with on := true, banks := .both { chainId := 7, sb := 3, flags := 32, parent := 31 } } : State).dev.chains sumF.sb).on = true ∧ ({ chainId := 7, sb := 3, flags := 32, parent := 31 } : ChainCfg).txOn = true ∧ ({ chainId := 7, sb := 3, flags := 32, parent := 31 } : ChainCfg).root = false ∧ ({ chainId := 7, sb := 3, flags := 32, parent := 31 } : ChainCfg).parent = 31 ∧ ({ chainId := 7, sb := 3, flags := 32, parent := 31 } : ChainCfg).chainId = sumF.chainId ∧ laneUp (st fun d => { d with lanes := List.replicate 32 { st := 5, mode := 5 } }.onChain 3 fun n => { n with on := true, banks := .both { chainId := 7, sb := 3, flags := 32, parent := 31 } } : State).dev 31 = true := by decide +kernel

theorem witness_BeamChains_14_chainReport :
    (nth (st fun d => d.onChain 3 fun n => { n with deliver := some default, reportCounts := List.replicate 1024 (7, 1) } : State).dev.chains 3).deliver = some default ∧ 1024 ≤ (nth (st fun d => d.onChain 3 fun n => { n with deliver := some default, reportCounts := List.replicate 1024 (7, 1) } : State).dev.chains 3).reportCounts.length := by decide +kernel

theorem witness_BeamChains :
    starts unitW.dev hdrW (cmd 0x0600 [2, 2, 2, 2]) = true ∧
    chainSetCheck ({ chainId := 1, sb := 3, flags := 192, parent := 0xFF, childs := [0xFF, 0xFF, 0xFF], offset := 1, frameCh := 1, beams := 64, expected := 1, stall := 16 } : ChainCfg) (found unitW.dev hdrW) = none ∧
    starts unitW.dev hdrW (ask 0x0601 [32, 4, 4]) = true ∧
    3 ≤ 3 ∧ 1 ≤ 1 ∧
    starts (st fun d => d.onChain 3 fun n => { n with on := true } : State).dev hdrW (cmd 0x0602 [8]) = true ∧
    3 ≤ 3 ∧ (nth (st fun d => d.onChain 3 fun n => { n with on := true } : State).dev.chains 3).on = true ∧
    starts (st fun d => { d with lnk := { d.lnk with dests := List.replicate 16 { set := true } } }.onChain 3 fun n => { n with on := true, banks := .both { flags := 128, beams := 64 } } : State).dev hdrW (cmd 0x0603) = true ∧
    chainDeliverSetCheck 3 5 3 47 15 31 (found (st fun d => { d with lnk := { d.lnk with dests := List.replicate 16 { set := true } } }.onChain 3 fun n => { n with on := true, banks := .both { flags := 128, beams := 64 } } : State).dev hdrW) = none ∧
    starts (st fun d => d.onChain 3 fun n => { n with on := true, banks := .both { flags := 128 } } : State).dev hdrW (cmd 0x0604 [8]) = true ∧
    3 ≤ 3 ∧ (nth (st fun d => d.onChain 3 fun n => { n with on := true, banks := .both { flags := 128 } } : State).dev.chains 3).on = true ∧ (nth (st fun d => d.onChain 3 fun n => { n with on := true, banks := .both { flags := 128 } } : State).dev.chains 3).banks.cur.root = true ∧
    starts unitW.dev hdrW (ask 0x0605 (List.replicate 12 4)) = true ∧
    3 ≤ 3 ∧
    starts unitW.dev hdrW (askClear 0x0606 1 (List.replicate 7 4)) = true ∧
    3 ≤ 3 ∧ 1 ≤ 1 ∧
    due 0x0601 chainAble (st fun d => { d.onChain 0 (fun x => { x with on := true }) with tmb := { d.tmb with stakes := [qD 0x0601] } } : State).dev (qD 0x0601 : QStake) = true ∧ (nth (st fun d => { d.onChain 0 (fun x => { x with on := true }) with tmb := { d.tmb with stakes := [qD 0x0601] } } : State).dev.chains ((qD 0x0601 : QStake).stake.target / 64 % 4)).banks.thornShd = 0 ∧
    ((nth (st fun d => d.onChain 3 fun n => { n with on := true, cur := some { (default : ChainSend) with kids := [(2, {})], frame := { blocks := [{}] } } } : State).dev.chains 3).cur = some ({ (default : ChainSend) with kids := [(2, {})], frame := { blocks := [{}] } } : ChainSend) ∧ (nth (st fun d => d.onChain 3 fun n => { n with on := true, cur := some { (default : ChainSend) with kids := [(2, {})], frame := { blocks := [{}] } } } : State).dev.chains 3).on = true ∧ ({ (default : ChainSend) with kids := [(2, {})], frame := { blocks := [{}] } } : ChainSend).kids.any (fun y => y.1 == 2) = true ∧ 0 < ({ (default : ChainSend) with kids := [(2, {})], frame := { blocks := [{}] } } : ChainSend).frame.blocks.length) := by
  and_intros <;> decide +kernel

theorem witness_WeaveCommands_2_weaveSet :
    starts (st fun d => (d.onFre 0 fun f => { f with on := true, cfg := { nCh := 1, consumers := 2 } }).onWeave fun w => { w with banks := .both { members := { unit := 262143, flags := 192 } :: List.replicate 255 {} } } : State).dev hdrW (cmd 0x0700 (List.replicate 32 2 ++ [8, 4])) = true ∧
    weaveSetCheck ({ id := 1, format := 4, maxGroups := 1, n1 := 1, n2 := 1, n3 := 1, members := 1, deadline := 1 } : WeaveHdr) (⟨List.replicate 32 {}⟩ : LaneMaps) (found (st fun d => (d.onFre 0 fun f => { f with on := true, cfg := { nCh := 1, consumers := 2 } }).onWeave fun w => { w with banks := .both { members := { unit := 262143, flags := 192 } :: List.replicate 255 {} } } : State).dev hdrW) = none := by decide +kernel

theorem witness_WeaveCommands :
    starts unitW.dev hdrW (cmd 0x0701) = true ∧
    weaveMembersCheck 255 (⟨[{ unit := 262143, flags := 192 }]⟩ : Members) (found unitW.dev hdrW) = none ∧
    starts unitW.dev hdrW (ask 0x0702 [64, 128, 4, 4]) = true ∧
    1 ≤ 1 ∧
    starts unitW.dev hdrW (ask 0x0703 (spanWidths 64 1 [3, 1, 2, 2, 8])) = true ∧
    1 ≤ 1 ∧ rangeBad 255 1 = false ∧
    starts unitW.dev hdrW (ask 0x0705 (spanWidths 64 1 [4, 4, 4])) = true ∧
    rangeBad 255 1 = false ∧
    starts unitW.dev hdrW (askClear 0x0706 1 (List.replicate 8 8)) = true ∧
    1 ≤ 1 ∧
    starts (st fun d => d.onWeave fun w => { w with on := true } : State).dev hdrW (cmd 0x0704 [8]) = true ∧
    (st fun d => d.onWeave fun w => { w with on := true } : State).dev.qs.state = 0 ∧ (st fun d => d.onWeave fun w => { w with on := true } : State).dev.weave.on = true ∧
    (due 0x0701 (fun e _ => weaveSwapOk e && domOn e 8) (st fun d => { d.onWeave (fun w => { w with banks := .both { complete := true, hdr := { members := 1 } } }) with tmb := { d.tmb with stakes := [qD 0x0701] } } : State).dev (qD 0x0701 : QStake) = true ∧ (st fun d => { d.onWeave (fun w => { w with banks := .both { complete := true, hdr := { members := 1 } } }) with tmb := { d.tmb with stakes := [qD 0x0701] } } : State).dev.weave.banks.thornShd = 0 ∧ (st fun d => { d.onWeave (fun w => { w with banks := .both { complete := true, hdr := { members := 1 } } }) with tmb := { d.tmb with stakes := [qD 0x0701] } } : State).dev.weave.banks.shd.hdr.members ≠ 0 ∧ ((st fun d => { d.onWeave (fun w => { w with banks := .both { complete := true, hdr := { members := 1 } } }) with tmb := { d.tmb with stakes := [qD 0x0701] } } : State).dev.xce.on && (st fun d => { d.onWeave (fun w => { w with banks := .both { complete := true, hdr := { members := 1 } } }) with tmb := { d.tmb with stakes := [qD 0x0701] } } : State).dev.weave.banks.shd.ownEntry.count == 0) = false) ∧
    (due 0x0701 (fun e _ => weaveSwapOk e && domOn e 8) (st fun d => { d.onWeave (fun w => { w with on := true, banks := { Banks.both { complete := true, hdr := { members := 0 } } with shd := { complete := true, hdr := { members := 0, epoch := 1 } } } }) with tmb := { d.tmb with stakes := [qD 0x0701] } } : State).dev (qD 0x0701 : QStake) = true ∧ (st fun d => { d.onWeave (fun w => { w with on := true, banks := { Banks.both { complete := true, hdr := { members := 0 } } with shd := { complete := true, hdr := { members := 0, epoch := 1 } } } }) with tmb := { d.tmb with stakes := [qD 0x0701] } } : State).dev.weave.banks.thornShd = 0 ∧ (st fun d => { d.onWeave (fun w => { w with on := true, banks := { Banks.both { complete := true, hdr := { members := 0 } } with shd := { complete := true, hdr := { members := 0, epoch := 1 } } } }) with tmb := { d.tmb with stakes := [qD 0x0701] } } : State).dev.weave.banks.shd.hdr.members = 0) ∧
    (due 0x0702 (fun e _ => e.weave.on && e.weave.banks.cur.hdr.mode == 1) (st fun d => { d.onWeave (fun w => { w with on := true, banks := .both { hdr := { mode := 1 } } }) with tmb := { d.tmb with stakes := [qD 0x0702] } } : State).dev (qD 0x0702 : QStake) = true) := by
  and_intros <;> decide +kernel

theorem witness_WeaveFrames_1_weaveFrameSend :
    contribW = contribS.dev.weave.bankFor contribS.dev.axis (⟨1, 0, 0, 1⟩ : WeaveSend).axis ∧ weaveSends contribS.dev contribW (⟨1, 0, 0, 1⟩ : WeaveSend).dest (⟨1, 0, 0, 1⟩ : WeaveSend).axis (⟨1, 0, 0, 1⟩ : WeaveSend).first (⟨1, 0, 0, 1⟩ : WeaveSend).groups = true := by decide +kernel

theorem witness_WeaveFrames_2_weaveFrame :
    deliver wovenS.dev 31 (wovenW { dest := 1 } : DirectFrame) = some (⟨weaveOctets { dest := 1 }, false, []⟩ : Delivered) ∧ ({ dest := 1 } : WeaveFrame) = readWeave (⟨weaveOctets { dest := 1 }, false, []⟩ : Delivered) ∧
    bankW = wovenS.dev.weave.bankFor wovenS.dev.axis ({ dest := 1 } : WeaveFrame).axis ∧ wovenS.dev.weave.on = true ∧ (wovenW { dest := 1 } : DirectFrame).cls = 1 ∧ (nth bankW.maps 31).dim ≠ 0xFF ∧ ({ dest := 1 } : WeaveFrame).dest ≠ bankW.hdr.own := by decide +kernel

theorem witness_WeaveFrames_3_weaveFrame :
    deliver wovenS.dev 31 (wovenW inShapeW : DirectFrame) = some (⟨weaveOctets inShapeW, false, []⟩ : Delivered) ∧ inShapeW = readWeave (⟨weaveOctets inShapeW, false, []⟩ : Delivered) ∧
    bankW = wovenS.dev.weave.bankFor wovenS.dev.axis inShapeW.axis ∧ wovenS.dev.weave.on = true ∧ (wovenW inShapeW : DirectFrame).cls = 1 ∧ (nth bankW.maps 31).dim ≠ 0xFF ∧ inShapeW.dest = bankW.hdr.own ∧
    inShapeW.id = bankW.hdr.id ∧ inShapeW.epoch = bankW.hdr.epoch ∧ inShapeW.shapeCrc = weaveCrc wovenS.dev bankW ∧ ownerForms wovenS.dev bankW.hdr.sb inShapeW.axis = true ∧
    (wovenS.dev.axis ≤ inShapeW.axis + bankW.hdr.deadline ∧ wovenS.dev.weave.judged.any (fun j => decide (inShapeW.axis ≤ j)) = false) := by decide +kernel

theorem witness_WeaveFrames_4_weaveFrame :
    deliver wovenS.dev 31 (wovenW { epoch := 1 } : DirectFrame) = some (⟨weaveOctets { epoch := 1 }, false, []⟩ : Delivered) ∧ ({ epoch := 1 } : WeaveFrame) = readWeave (⟨weaveOctets { epoch := 1 }, false, []⟩ : Delivered) ∧
    bankW = wovenS.dev.weave.bankFor wovenS.dev.axis ({ epoch := 1 } : WeaveFrame).axis ∧ wovenS.dev.weave.on = true ∧ (wovenW { epoch := 1 } : DirectFrame).cls = 1 ∧ (nth bankW.maps 31).dim ≠ 0xFF ∧ ({ epoch := 1 } : WeaveFrame).dest = bankW.hdr.own ∧
    (({ epoch := 1 } : WeaveFrame).id ≠ bankW.hdr.id ∨ ({ epoch := 1 } : WeaveFrame).epoch ≠ bankW.hdr.epoch ∨ ({ epoch := 1 } : WeaveFrame).shapeCrc ≠ weaveCrc wovenS.dev bankW) := by decide +kernel

theorem witness_WeaveFrames :
    ({ members := [{ flags := 192, count := 1 }], region := 1 } : WeaveBank) = (st fun d => d.onWeave (fun w => { w with on := true, banks := .both { members := [{ flags := 192, count := 1 }], region := 1 } }) : State).dev.weave.bankFor (st fun d => d.onWeave (fun w => { w with on := true, banks := .both { members := [{ flags := 192, count := 1 }], region := 1 } }) : State).dev.axis 0 ∧ deadlineDue (st fun d => d.onWeave (fun w => { w with on := true, banks := .both { members := [{ flags := 192, count := 1 }], region := 1 } }) : State).dev ({ members := [{ flags := 192, count := 1 }], region := 1 } : WeaveBank) 0 = true ∧
    ([] : List WeaveFrame) = (st fun d => d.onWeave (fun w => { w with on := true, banks := .both { members := [{ flags := 192, count := 1 }], region := 1 } }) : State).dev.weave.arrived.filter (fun f => (List.range f.groups).any fun j => groupPos (st fun d => d.onWeave (fun w => { w with on := true, banks := .both { members := [{ flags := 192, count := 1 }], region := 1 } }) : State).dev ({ members := [{ flags := 192, count := 1 }], region := 1 } : WeaveBank).hdr.sb f.axis j == 0) := by
  and_intros <;> decide +kernel

theorem witness_CorrelatorCommands_3_xceStop :
    starts (st fun d => d.onXce fun x => { x with on := true } : State).dev hdrW (cmd 0x0802 [4]) = true ∧
    (st fun d => d.onXce fun x => { x with on := true } : State).dev.qs.state = 0 ∧ (st fun d => d.onXce fun x => { x with on := true } : State).dev.xce.on = true ∧ drained (xceHalt (st fun d => d.onXce fun x => { x with on := true } : State).dev false).xce = true := by decide +kernel

theorem witness_CorrelatorCommands_4_xceStop :
    starts (st fun d => d.onXce fun x => { x with on := true, tiles := { fulls := [default] } :: List.replicate 127 {} } : State).dev hdrW (cmd 0x0802 [4]) = true ∧
    (st fun d => d.onXce fun x => { x with on := true, tiles := { fulls := [default] } :: List.replicate 127 {} } : State).dev.qs.state = 0 ∧ (st fun d => d.onXce fun x => { x with on := true, tiles := { fulls := [default] } :: List.replicate 127 {} } : State).dev.xce.on = true ∧ drained (xceHalt (st fun d => d.onXce fun x => { x with on := true, tiles := { fulls := [default] } :: List.replicate 127 {} } : State).dev false).xce = false := by decide +kernel

theorem witness_CorrelatorCommands_5_xceIntGet :
    starts (st fun d => d.onXce fun x => { x with integs := [{ num := 3 }] } : State).dev hdrW (ask 0x0803 [1, 2, 8, 4, 2, 1, 4]) = true ∧
    (st fun d => d.onXce fun x => { x with integs := [{ num := 3 }] } : State).dev.xce.integs.find? (·.num == 3) = some ({ num := 3 } : Integ) := by decide +kernel

theorem witness_CorrelatorCommands :
    starts unitW.dev hdrW (cmd 0x0800 [4, 4, 4, 8, 2]) = true ∧
    xceSetCheck ({ reportLane := 0xFF } : XceCfg) (found unitW.dev hdrW) = none ∧
    starts unitW.dev hdrW (ask 0x0801 [48, 4, 4, 4]) = true ∧
    1 ≤ 1 ∧
    starts unitW.dev hdrW (ask 0x0804 (spanWidths 512 512 [4, 4, 4])) = true ∧
    1 ≤ 512 ∧ 512 ≤ 512 ∧ 15872 + 512 ≤ 16384 ∧
    starts unitW.dev hdrW (askClear 0x0805 1 [8, 4, 8, 8, 4, 4, 8, 8]) = true ∧
    1 ≤ 1 ∧
    (due 0x0801 (fun e _ => e.xce.on) (st fun d => { d.onXce (fun x => { x with on := true }) with tmb := { d.tmb with stakes := [qD 0x0801] } } : State).dev (qD 0x0801 : QStake) = true) ∧
    (due 0x0802 (fun e _ => e.xce.on) (st fun d => { d.onXce (fun x => { x with on := true }) with tmb := { d.tmb with stakes := [qD 0x0802] } } : State).dev (qD 0x0802 : QStake) = true ∧ (st fun d => { d.onXce (fun x => { x with on := true }) with tmb := { d.tmb with stakes := [qD 0x0802] } } : State).dev.xce.banks.thornShd = 0) := by
  and_intros <;> decide +kernel

theorem witness_CorrelatorWork_1_passStart :
    (st fun d => d.onXce fun y => { y with on := true, ready := [{ integ := 0, cfg := {}, bank := {}, first := 0, groups := 1 }] } : State).dev.xce.pass = none ∧ domOn (st fun d => d.onXce fun y => { y with on := true, ready := [{ integ := 0, cfg := {}, bank := {}, first := 0, groups := 1 }] } : State).dev 7 = true ∧ (st fun d => d.onXce fun y => { y with on := true, ready := [{ integ := 0, cfg := {}, bank := {}, first := 0, groups := 1 }] } : State).dev.xce.nextPass = some (({ integ := 0, cfg := {}, bank := {}, first := 0, groups := 1 } : PassSet), 0) ∧ ({ integ := 0, cfg := {}, bank := {}, first := 0, groups := 1 } : PassSet).bank.hdr.mode = 0 ∧ (st fun d => d.onXce fun y => { y with on := true, ready := [{ integ := 0, cfg := {}, bank := {}, first := 0, groups := 1 }] } : State).dev.xce.on = true ∧ unitGap (st fun d => d.onXce fun y => { y with on := true, ready := [{ integ := 0, cfg := {}, bank := {}, first := 0, groups := 1 }] } : State).dev (st fun d => d.onXce fun y => { y with on := true, ready := [{ integ := 0, cfg := {}, bank := {}, first := 0, groups := 1 }] } : State).dev.axis = false := by decide +kernel

theorem witness_CorrelatorWork_2_passStart :
    (st fun d => { d.onXce fun y => { y with on := true, ready := [{ integ := 0, cfg := {}, bank := {}, first := 0, groups := 1 }] } with pwr := { d.pwr with plan := { unit := 1 } } } : State).dev.xce.pass = none ∧ domOn (st fun d => { d.onXce fun y => { y with on := true, ready := [{ integ := 0, cfg := {}, bank := {}, first := 0, groups := 1 }] } with pwr := { d.pwr with plan := { unit := 1 } } } : State).dev 7 = true ∧ (st fun d => { d.onXce fun y => { y with on := true, ready := [{ integ := 0, cfg := {}, bank := {}, first := 0, groups := 1 }] } with pwr := { d.pwr with plan := { unit := 1 } } } : State).dev.xce.nextPass = some (({ integ := 0, cfg := {}, bank := {}, first := 0, groups := 1 } : PassSet), 0) ∧ unitGap (st fun d => { d.onXce fun y => { y with on := true, ready := [{ integ := 0, cfg := {}, bank := {}, first := 0, groups := 1 }] } with pwr := { d.pwr with plan := { unit := 1 } } } : State).dev (st fun d => { d.onXce fun y => { y with on := true, ready := [{ integ := 0, cfg := {}, bank := {}, first := 0, groups := 1 }] } with pwr := { d.pwr with plan := { unit := 1 } } } : State).dev.axis = true := by decide +kernel

theorem witness_CorrelatorWork_3_roundEnd :
    (st fun d => d.onXce fun y => { y with pass := some { set := { integ := 0, cfg := { tiles := 1 }, bank := { hdr := { members := 2 }, members := [{ flags := 192 }, { flags := 192 }] }, first := 0 }, num := 0, channel := 0, samples := 1, seg := 0, round := 0, began := 0, ends := 0 } } : State).dev.xce.pass = some ({ set := { integ := 0, cfg := { tiles := 1 }, bank := { hdr := { members := 2 }, members := [{ flags := 192 }, { flags := 192 }] }, first := 0 }, num := 0, channel := 0, samples := 1, seg := 0, round := 0, began := 0, ends := 0 } : XcePass) ∧ ({ set := { integ := 0, cfg := { tiles := 1 }, bank := { hdr := { members := 2 }, members := [{ flags := 192 }, { flags := 192 }] }, first := 0 }, num := 0, channel := 0, samples := 1, seg := 0, round := 0, began := 0, ends := 0 } : XcePass).ends ≤ (st fun d => d.onXce fun y => { y with pass := some { set := { integ := 0, cfg := { tiles := 1 }, bank := { hdr := { members := 2 }, members := [{ flags := 192 }, { flags := 192 }] }, first := 0 }, num := 0, channel := 0, samples := 1, seg := 0, round := 0, began := 0, ends := 0 } } : State).dev.now ∧ ({ set := { integ := 0, cfg := { tiles := 1 }, bank := { hdr := { members := 2 }, members := [{ flags := 192 }, { flags := 192 }] }, first := 0 }, num := 0, channel := 0, samples := 1, seg := 0, round := 0, began := 0, ends := 0 } : XcePass).round + 1 < roundCount (blocksOf ({ set := { integ := 0, cfg := { tiles := 1 }, bank := { hdr := { members := 2 }, members := [{ flags := 192 }, { flags := 192 }] }, first := 0 }, num := 0, channel := 0, samples := 1, seg := 0, round := 0, began := 0, ends := 0 } : XcePass).set.bank.inputs) (tilesOf ({ set := { integ := 0, cfg := { tiles := 1 }, bank := { hdr := { members := 2 }, members := [{ flags := 192 }, { flags := 192 }] }, first := 0 }, num := 0, channel := 0, samples := 1, seg := 0, round := 0, began := 0, ends := 0 } : XcePass).set.cfg) := by decide +kernel

theorem witness_CorrelatorWork_4_roundEnd :
    (st fun d => d.onXce fun y => { y with pass := some { set := { integ := 0, cfg := {}, bank := {}, first := 0 }, num := 0, channel := 0, samples := 1, seg := 0, round := 0, began := 0, ends := 1 } } : State).dev.xce.pass = some ({ set := { integ := 0, cfg := {}, bank := {}, first := 0 }, num := 0, channel := 0, samples := 1, seg := 0, round := 0, began := 0, ends := 1 } : XcePass) ∧ (st fun d => d.onXce fun y => { y with pass := some { set := { integ := 0, cfg := {}, bank := {}, first := 0 }, num := 0, channel := 0, samples := 1, seg := 0, round := 0, began := 0, ends := 1 } } : State).dev.now < ({ set := { integ := 0, cfg := {}, bank := {}, first := 0 }, num := 0, channel := 0, samples := 1, seg := 0, round := 0, began := 0, ends := 1 } : XcePass).ends := by decide +kernel

theorem witness_CorrelatorWork_5_collectorDrain :
    ((flushOut drainS.dev : Dev) = flushOut drainS.dev ∧ drainNext (flushOut drainS.dev : Dev).xce = jobW :: ([] : List TileJob) ∧ (flushOut drainS.dev : Dev).xce.integs.find? (fun y => y.num == jobW.integ) = some ({ num := 3 } : Integ) ∧ ({ num := 3 } : Integ).cfg.outMode = 0 ∧ drainOver (flushOut drainS.dev : Dev).xce (flushOut drainS.dev : Dev).now (([] : List TileJob).length + 1) = true) ∧
    (⟨[], []⟩ : TileDump).parity = [] ∧ (⟨[], []⟩ : TileDump).thornAcc = [] ∧ ((jobW :: ([] : List TileJob)).flatMap (·.marks)).eraseDups = [] ∧
    (((freeBanks ((flushOut drainS.dev).onXce fun y => { y with freeAt := (flushOut drainS.dev).now }) [jobW]).onXce fun y => { y with stopping := y.stopping.map (· + 1) } : Dev) = (freeBanks ((flushOut drainS.dev : Dev).onXce fun y => { y with freeAt := (flushOut drainS.dev : Dev).now }) (jobW :: ([] : List TileJob))).onXce (fun y => { y with stopping := y.stopping.map (· + 1) }) ∧ domOn ((freeBanks ((flushOut drainS.dev).onXce fun y => { y with freeAt := (flushOut drainS.dev).now }) [jobW]).onXce fun y => { y with stopping := y.stopping.map (· + 1) } : Dev) 9 = true) := by
  refine ⟨⟨rfl, ?_, ?_, ?_, ?_⟩, ?_, ?_, ?_, rfl, ?_⟩ <;> decide +kernel

theorem witness_CorrelatorWork_6_integrationClose :
    closeS.dev.xce.integs.find? (intComplete closeS.dev.xce) = some ({ num := 3, closing := true } : Integ) ∧ ({ num := 3, closing := true } : Integ).cfg.outMode = 0 ∧ ({ num := 3, closing := true } : Integ).cfg.intOut = 0 ∧
    (((loseInt closeS.dev 3).onXce (fun y => { y with buffer := 1 - y.buffer, inputCounts := [] }) : Dev) = (loseInt closeS.dev ({ num := 3, closing := true } : Integ).num).onXce (fun y => { y with buffer := 1 - y.buffer, inputCounts := ({ num := 3, closing := true } : Integ).inputs }) ∧ ((loseInt closeS.dev 3).onXce (fun y => { y with buffer := 1 - y.buffer, inputCounts := [] }) : Dev).qs.state = 0) ∧
    addOut ((loseInt closeS.dev 3).onXce (fun y => { y with buffer := 1 - y.buffer, inputCounts := [] }) : Dev) ((((loseInt closeS.dev 3).onXce (fun y => { y with buffer := 1 - y.buffer, inputCounts := [] }) : Dev).owner?.map (·.num)).getD 0) 9 (bytesOf ((intRecords ((loseInt closeS.dev 3).onXce (fun y => { y with buffer := 1 - y.buffer, inputCounts := [] }) : Dev).xce ({ num := 3, closing := true } : Integ)).flatMap (accRecord ({ num := 3, closing := true } : Integ)))) [] true = (1, ((addOut ((loseInt closeS.dev 3).onXce (fun y => { y with buffer := 1 - y.buffer, inputCounts := [] })) 1 9 [] [] true).2 : Dev)) := by
  and_intros <;> first | rfl | decide +kernel

theorem witness_CorrelatorWork_7_integrationReadout :
    ((st fun d => d.onXce fun y => { y with integs := [{ num := 3, st := 1, cfg := { intOut := 1 } }], acc := [{ integ := 3, channel := 0, block := 1, vals := [] }, { integ := 3, channel := 0, block := 0, vals := [] }] } : State).dev.xce.integs.find? (fun i => i.st == 1 && i.cfg.intOut == 1) = some ({ num := 3, st := 1, cfg := { intOut := 1 } } : Integ) ∧ intRecords (st fun d => d.onXce fun y => { y with integs := [{ num := 3, st := 1, cfg := { intOut := 1 } }], acc := [{ integ := 3, channel := 0, block := 1, vals := [] }, { integ := 3, channel := 0, block := 0, vals := [] }] } : State).dev.xce ({ num := 3, st := 1, cfg := { intOut := 1 } } : Integ) = ({ integ := 3, channel := 0, block := 0, vals := [] } : AccBlock) :: ([{ integ := 3, channel := 0, block := 1, vals := [] }] : List AccBlock) ∧ ([{ integ := 3, channel := 0, block := 1, vals := [] }] : List AccBlock) ≠ [] ∧ (st fun d => d.onXce fun y => { y with integs := [{ num := 3, st := 1, cfg := { intOut := 1 } }], acc := [{ integ := 3, channel := 0, block := 1, vals := [] }, { integ := 3, channel := 0, block := 0, vals := [] }] } : State).dev.xce.readAt ≤ (st fun d => d.onXce fun y => { y with integs := [{ num := 3, st := 1, cfg := { intOut := 1 } }], acc := [{ integ := 3, channel := 0, block := 1, vals := [] }, { integ := 3, channel := 0, block := 0, vals := [] }] } : State).dev.now) := by decide +kernel

theorem witness_PredistortionCommands_3_dpdCoefLoad :
    starts (st fun d => { { d with lnk := { d.lnk with bulk := [{ objW with kind := 2, len := 24, frags := [⟨0, [0x44, 1, 1, 0, 128, 0, 0, 0, 0, 0, 0, 0, 0, 0, 0, 0, 0, 0, 0, 1, 0, 0, 0, 2], []⟩] }] } } with ident := { d.ident with variant := .m } }.onDpdPath 63 fun x => { x with cfg := { x.cfg with order := 1, mem := 1, nbrMem := 0 } } : State).dev hdrW (cmd 0x0902) = true ∧
    dpdCoefLoadCheck 1 1 (found (st fun d => { { d with lnk := { d.lnk with bulk := [{ objW with kind := 2, len := 24, frags := [⟨0, [0x44, 1, 1, 0, 128, 0, 0, 0, 0, 0, 0, 0, 0, 0, 0, 0, 0, 0, 0, 1, 0, 0, 0, 2], []⟩] }] } } with ident := { d.ident with variant := .m } }.onDpdPath 63 fun x => { x with cfg := { x.cfg with order := 1, mem := 1, nbrMem := 0 } } : State).dev hdrW) = none ∧
    dpdHeader (objBytes (st fun d => { { d with lnk := { d.lnk with bulk := [{ objW with kind := 2, len := 24, frags := [⟨0, [0x44, 1, 1, 0, 128, 0, 0, 0, 0, 0, 0, 0, 0, 0, 0, 0, 0, 0, 0, 1, 0, 0, 0, 2], []⟩] }] } } with ident := { d.ident with variant := .m } }.onDpdPath 63 fun x => { x with cfg := { x.cfg with order := 1, mem := 1, nbrMem := 0 } } : State).dev 1) = some (1, 1, 0, 9223372036854775808) := by decide +kernel

theorem witness_PredistortionCommands :
    starts unitW.dev hdrW (cmd 0x0900 [1]) = true ∧
    ((pathsOf 9223372036854775809).any (fun p => !dpdCfgOk unitW.dev default p) = false ∧ domOn unitW.dev 6 = true) ∧
    starts unitW.dev hdrW (ask 0x0901 [32, 4]) = true ∧
    63 ≤ 63 ∧
    starts unitW.dev hdrW (ask 0x0903 [2]) = true ∧
    dpdCoefReadCheck 9223372036854775808 1 (found unitW.dev hdrW) = none ∧
    starts (st fun d => d.onDpdPath 63 fun x => { x with cfg := { x.cfg with dpdOn := 0xC0 }, live := { x.live with on := true } } : State).dev hdrW (cmd 0x0904 [1]) = true ∧
    (1 ≤ 1 ∧ (pathsOf 9223372036854775808).any (fun p => !((st fun d => d.onDpdPath 63 fun x => { x with cfg := { x.cfg with dpdOn := 0xC0 }, live := { x.live with on := true } } : State).dev.dpdPath p).adapts) = false ∧ domOn (st fun d => d.onDpdPath 63 fun x => { x with cfg := { x.cfg with dpdOn := 0xC0 }, live := { x.live with on := true } } : State).dev 6 = true) ∧
    starts unitW.dev hdrW (ask 0x0905 [2, 2, 2, 2, 2, 2, 8, 1]) = true ∧
    63 ≤ 63 ∧
    starts unitW.dev hdrW (ask 0x0906 [4, 4, 4, 4, 1, 8]) = true ∧
    starts unitW.dev hdrW (askClear 0x0907 1 [4, 4, 4, 4, 4, 4, 4, 4]) = true ∧
    63 ≤ 63 ∧ 1 ≤ 1 ∧
    starts unitW.dev hdrW (cmd 0x0908) = true ∧
    domOn unitW.dev 6 = true ∧
    starts unitW.dev hdrW (cmd 0x0909) = true ∧
    domOn unitW.dev 6 = true := by
  and_intros <;> decide +kernel

theorem witness_PredistortionLoop_1_dpdSlotStart :
    domOn unitW.dev 6 = true ∧ unitW.dev.axis % 983040 = 0 ∧ unitW.dev.dpd.slot ≠ some (slotOf unitW.dev.axis) ∧
    (unitGap (dpdSlotEnd (unitW.dev.onDpd fun x => { x with slot := some (slotOf unitW.dev.axis), reserved := x.reserved.filter fun n => decide (slotOf unitW.dev.axis ≤ n) }) (slotOf unitW.dev.axis * 983040)) (slotOf unitW.dev.axis * 983040) = false) := by decide +kernel

theorem witness_PredistortionLoop_3_captureComplete :
    (obsPath capS.dev 3 = some 63 ∧ (capS.dev.dpdPath 63).svc = some (⟨0, 3, 0, false, false⟩ : DpdSvc) ∧ (⟨0, 3, 0, false, false⟩ : DpdSvc).stage = 0 ∧ true = true ∧ (⟨0, 3, 0, false, false⟩ : DpdSvc).discard = false ∧ (capS.dev.dpdPath 63).banks.cur.pre.any (fun b => decide (b + 300 < 0)) = false) ∧
    capS.dev.axis ≤ (⟨0, 3, 0, false, false⟩ : DpdSvc).start + 737280 ∧ dpdCapturable capS.dev 63 (⟨0, 3, 0, false, false⟩ : DpdSvc).start = true ∧ domOn capS.dev 3 = true ∧ domOn capS.dev 6 = true := by decide +kernel

theorem witness_PredistortionLoop_4_noCapture :
    obsPath (st fun d => ({ d with tmb := { d.tmb with clock := 2400000000 }, tx := List.replicate 64 { gain := 32768 } }).onDpdPath 63 fun x => { x with live := { x.live with nbrMem := 0 }, svc := some ⟨0, 3, 0, false, false⟩ } : State).dev 3 = some 63 ∧ ((st fun d => ({ d with tmb := { d.tmb with clock := 2400000000 }, tx := List.replicate 64 { gain := 32768 } }).onDpdPath 63 fun x => { x with live := { x.live with nbrMem := 0 }, svc := some ⟨0, 3, 0, false, false⟩ } : State).dev.dpdPath 63).svc = some (⟨0, 3, 0, false, false⟩ : DpdSvc) ∧ (⟨0, 3, 0, false, false⟩ : DpdSvc).stage = 0 ∧ (⟨0, 3, 0, false, false⟩ : DpdSvc).start + 737280 ≤ (st fun d => ({ d with tmb := { d.tmb with clock := 2400000000 }, tx := List.replicate 64 { gain := 32768 } }).onDpdPath 63 fun x => { x with live := { x.live with nbrMem := 0 }, svc := some ⟨0, 3, 0, false, false⟩ } : State).dev.axis ∧ ((st fun d => ({ d with tmb := { d.tmb with clock := 2400000000 }, tx := List.replicate 64 { gain := 32768 } }).onDpdPath 63 fun x => { x with live := { x.live with nbrMem := 0 }, svc := some ⟨0, 3, 0, false, false⟩ } : State).dev.dpdPath 63).live.nbrMem = 0 ∧ ((st fun d => ({ d with tmb := { d.tmb with clock := 2400000000 }, tx := List.replicate 64 { gain := 32768 } }).onDpdPath 63 fun x => { x with live := { x.live with nbrMem := 0 }, svc := some ⟨0, 3, 0, false, false⟩ } : State).dev.txPath 63).gain = 32768 ∧ ((st fun d => ({ d with tmb := { d.tmb with clock := 2400000000 }, tx := List.replicate 64 { gain := 32768 } }).onDpdPath 63 fun x => { x with live := { x.live with nbrMem := 0 }, svc := some ⟨0, 3, 0, false, false⟩ } : State).dev.txPath 63).adaptHeld = none := by decide +kernel

theorem witness_PredistortionLoop_5_solveComplete :
    obsPath (solveS false : State).dev 3 = some 63 ∧ ((solveS false : State).dev.dpdPath 63).svc = some (⟨0, 3, 1, false, false⟩ : DpdSvc) ∧ (⟨0, 3, 1, false, false⟩ : DpdSvc).stage = 1 ∧ domOn (solveS false : State).dev 6 = true ∧ ((solveS false : State).dev.dpdPath 63).capAxis + 39322 ≤ (solveS false : State).dev.axis ∧ (solveS false : State).dev.axis ≤ ((solveS false : State).dev.dpdPath 63).capAxis + 235930 ∧ (⟨0, 3, 1, false, false⟩ : DpdSvc).discard = false ∧ false = false := by decide +kernel

theorem witness_PredistortionLoop_6_solveComplete :
    obsPath (solveS true : State).dev 3 = some 63 ∧ ((solveS true : State).dev.dpdPath 63).svc = some (⟨0, 3, 1, false, true⟩ : DpdSvc) ∧ (⟨0, 3, 1, false, true⟩ : DpdSvc).stage = 1 ∧ domOn (solveS true : State).dev 6 = true ∧ ((solveS true : State).dev.dpdPath 63).capAxis + 39322 ≤ (solveS true : State).dev.axis ∧ (solveS true : State).dev.axis ≤ ((solveS true : State).dev.dpdPath 63).capAxis + 235930 ∧ (⟨0, 3, 1, false, true⟩ : DpdSvc).discard = true := by decide +kernel

theorem witness_PredistortionLoop_7_solveComplete :
    obsPath (solveS false : State).dev 3 = some 63 ∧ ((solveS false : State).dev.dpdPath 63).svc = some (⟨0, 3, 1, false, false⟩ : DpdSvc) ∧ (⟨0, 3, 1, false, false⟩ : DpdSvc).stage = 1 ∧ domOn (solveS false : State).dev 6 = true ∧ ((solveS false : State).dev.dpdPath 63).capAxis + 39322 ≤ (solveS false : State).dev.axis ∧ (solveS false : State).dev.axis ≤ ((solveS false : State).dev.dpdPath 63).capAxis + 235930 ∧ (⟨0, 3, 1, false, false⟩ : DpdSvc).discard = false ∧
    (fullSet ((solveS false).dev.dpdPath 63).live ((solveS false).dev.dpdPath 63).banks.cur : List (Int × Int)) = fullSet ((solveS false : State).dev.dpdPath 63).live ((solveS false : State).dev.dpdPath 63).banks.cur ∧ ((List.range (fullSet ((solveS false).dev.dpdPath 63).live ((solveS false).dev.dpdPath 63).banks.cur).length).map fun k => newCoef ((solveS false).dev.dpdPath 63).cfg.step (nth (fullSet ((solveS false).dev.dpdPath 63).live ((solveS false).dev.dpdPath 63).banks.cur) k) (nth [] k) : List (Int × Int)) = (List.range (fullSet ((solveS false).dev.dpdPath 63).live ((solveS false).dev.dpdPath 63).banks.cur : List (Int × Int)).length).map (fun k => newCoef ((solveS false : State).dev.dpdPath 63).cfg.step (nth (fullSet ((solveS false).dev.dpdPath 63).live ((solveS false).dev.dpdPath 63).banks.cur : List (Int × Int)) k) (nth (⟨[]⟩ : Coefs).list k)) ∧
    (true = true ∧ ((List.range (fullSet ((solveS false).dev.dpdPath 63).live ((solveS false).dev.dpdPath 63).banks.cur).length).map fun k => newCoef ((solveS false).dev.dpdPath 63).cfg.step (nth (fullSet ((solveS false).dev.dpdPath 63).live ((solveS false).dev.dpdPath 63).banks.cur) k) (nth [] k) : List (Int × Int)).any (fun c => decide (131071 < c.1.natAbs) || decide (131071 < c.2.natAbs)) = false ∧ (-1 : Int) < nth ((solveS false : State).dev.dpdPath 63).metrics 0) := by decide +kernel

theorem witness_PredistortionLoop_9_dpdThorn :
    63 ≤ 63 ∧ domOn unitW.dev 6 = true ∧ (unitW.dev.dpdPath 63).adapts = false := by decide +kernel

theorem witness_PredistortionLoop :
    (st fun d => d.onDpd fun x => { x with slot := some 0 } : State).dev.dpd.slot = some (slotOf (st fun d => d.onDpd fun x => { x with slot := some 0 } : State).dev.axis) ∧
    63 < 64 ∧ ((st fun d => d.onDpdPath 63 fun x => { x with cfg := { x.cfg with dpdOn := 0xC0 }, live := { x.live with on := true } } : State).dev.dpdPath 63).adapts = true ∧ domOn (st fun d => d.onDpdPath 63 fun x => { x with cfg := { x.cfg with dpdOn := 0xC0 }, live := { x.live with on := true } } : State).dev 6 = true ∧ ((st fun d => d.onDpdPath 63 fun x => { x with cfg := { x.cfg with dpdOn := 0xC0 }, live := { x.live with on := true } } : State).dev.dpdPath 63).req = none ∧ ((st fun d => d.onDpdPath 63 fun x => { x with cfg := { x.cfg with dpdOn := 0xC0 }, live := { x.live with on := true } } : State).dev.dpdPath 63).svc = none ∧ ((st fun d => d.onDpdPath 63 fun x => { x with cfg := { x.cfg with dpdOn := 0xC0 }, live := { x.live with on := true } } : State).dev.dpdPath 63).lastCap = none ∧
    (63 ≤ 63 ∧ domOn unitW.dev 6 = true ∧ (unitW.dev.dpdPath 63).savedAt.any (fun t => decide (unitW.dev.now < t + 3600 * tickHz)) = false) ∧
    (due 0x0901 (fun e _ => domOn e 6) (st fun d => { d with tmb := { d.tmb with stakes := [qD 0x0901] } } : State).dev (qD 0x0901 : QStake) = true) ∧
    3 ≤ 3 ∧ (nth unitW.dev.dpd.obs 3).fault ≠ true := by
  and_intros <;> decide +kernel

theorem witness_CalibrationCommands_10_calTableLoad :
    starts tableS.dev hdrW (cmd 0x0A06) = true ∧
    calTableLoadCheck 1 (found tableS.dev hdrW) = none ∧
    tableS.dev.obj? 1 = some tableW ∧ ((7, 3) : Nat × Nat) = (beAt tableW.bytes 1 1, beAt tableW.bytes 2 1) := by
  have ho : (found tableS.dev hdrW).obj? 1 = some tableW := by rw [found_obj]; rfl
  have h1 : tableW.thorns = [] := rfl
  have h2 : runNow (found tableS.dev hdrW) = none := by decide +kernel
  refine ⟨by decide +kernel, ?_, rfl, by rw [tableW_bytes]; rfl⟩
  simp only [calTableLoadCheck, objCheck, ho, h2, tableW_ok, h1, Option.any_some]
  decide

theorem witness_CalibrationCommands :
    starts unitW.dev hdrW (cmd 0x0A00) = true ∧
    62 % 2 = 0 ∧ 62 ≤ 0x3E ∧ 1 ≤ 15 ∧ 15 ≤ 15 ∧ 10 ≤ 86400 ∧ 86400 ≤ 86400 ∧ 1 ≤ 600 ∧ 600 ≤ 600 ∧ 1 ≤ 1 ∧ 1 ≤ 600 ∧
    starts unitW.dev hdrW (cmd 0x0A01 [1]) = true ∧
    62 ≠ 0 ∧ 62 % 2 = 0 ∧ 62 ≤ 0x3E ∧ domOn unitW.dev 3 = true ∧ domOn unitW.dev 6 = true ∧ unitW.dev.cal.runs.length + (newKinds unitW.dev 62).length ≤ 8 ∧
    starts unitW.dev hdrW (ask 0x0A02 [4, 8, 2, 1, 8, 2, 1, 8, 2, 1, 8, 2, 1, 8, 2, 1]) = true ∧
    starts unitW.dev hdrW (cmd 0x0A03 [2]) = true ∧
    runNow unitW.dev = none ∧
    starts (st fun d => d.onCal fun c => { c with runs := [{ kind := 1, first := some 0, since := 0 }], step := some (0, false) } : State).dev hdrW (cmd 0x0A03 [2]) = true ∧
    runNow (st fun d => d.onCal fun c => { c with runs := [{ kind := 1, first := some 0, since := 0 }], step := some (0, false) } : State).dev = some ({ kind := 1, first := some 0, since := 0 } : CalRun) ∧ (st fun d => d.onCal fun c => { c with runs := [{ kind := 1, first := some 0, since := 0 }], step := some (0, false) } : State).dev.cal.step = some (0, false) ∧
    starts (st fun d => d.onCal fun c => { c with runs := [{ kind := 1, first := some 0, since := 0 }], step := some (0, true) } : State).dev hdrW (cmd 0x0A03 [2]) = true ∧
    runNow (st fun d => d.onCal fun c => { c with runs := [{ kind := 1, first := some 0, since := 0 }], step := some (0, true) } : State).dev = some ({ kind := 1, first := some 0, since := 0 } : CalRun) ∧ (st fun d => d.onCal fun c => { c with runs := [{ kind := 1, first := some 0, since := 0 }], step := some (0, true) } : State).dev.cal.step = some (0, true) ∧
    starts unitW.dev hdrW (ask 0x0A04 [4, 2, 2, 2, 2, 2]) = true ∧
    1 ≤ 1 ∧ 63 ≤ 63 ∧
    starts unitW.dev hdrW (askClear 0x0A12 1 [4, 4, 4, 4, 4, 4, 4]) = true ∧
    1 ≤ 1 ∧
    starts unitW.dev hdrW (ask 0x0A05 [2]) = true ∧
    7 ≤ 7 ∧ 3 ≤ 3 ∧
    starts unitW.dev hdrW (cmd 0x0A07) = true ∧
    starts unitW.dev hdrW (cmd 0x0A10) = true ∧
    otaSetCheck (⟨[{ unit := 262142, path := 63, partnerPath := 63, flags := 192, zero := 0 }]⟩ : Partners) (found unitW.dev hdrW) = none ∧
    starts (st fun d => d.onCal fun c => { c with partners := [{ cfg := { unit := 1, path := 0, partnerPath := 0, flags := 0, zero := 0 } }] } : State).dev hdrW (ask 0x0A11 [4, 4, 2, 2, 4, 4, 4]) = true ∧
    0 < (st fun d => d.onCal fun c => { c with partners := [{ cfg := { unit := 1, path := 0, partnerPath := 0, flags := 0, zero := 0 } }] } : State).dev.cal.partners.length ∧ ({ cfg := { unit := 1, path := 0, partnerPath := 0, flags := 0, zero := 0 } } : OtaPartner) = nth (st fun d => d.onCal fun c => { c with partners := [{ cfg := { unit := 1, path := 0, partnerPath := 0, flags := 0, zero := 0 } }] } : State).dev.cal.partners 0 := by
  and_intros <;> decide +kernel

theorem witness_CalibrationRuns_2_calStep :
    ((st fun d => d.onCal fun c => { c with step := some (0, false) } : State).dev.cal.step = some (0, false) ∧ 0 ≤ (st fun d => d.onCal fun c => { c with step := some (0, false) } : State).dev.axis ∧ (st fun d => d.onCal fun c => { c with step := some (0, false) } : State).dev.axis < 0 + 40960 ∧ (st fun d => d.onCal fun c => { c with step := some (0, false) } : State).dev.syn.settling = false ∧ unitGap (st fun d => d.onCal fun c => { c with step := some (0, false) } : State).dev 0 = false ∧ (List.range 64).any (fun p => gapAt (st fun d => d.onCal fun c => { c with step := some (0, false) } : State).dev p 0) = false) ∧
    stepFree (st fun d => d.onCal fun c => { c with step := some (0, false) } : State).dev 0 = true ∧ domOn (st fun d => d.onCal fun c => { c with step := some (0, false) } : State).dev 3 = true ∧ domOn (st fun d => d.onCal fun c => { c with step := some (0, false) } : State).dev 6 = true ∧ domOn (st fun d => d.onCal fun c => { c with step := some (0, false) } : State).dev 4 = true := by decide +kernel

theorem witness_CalibrationRuns_3_calStep :
    (st fun d => { d with tmb := { d.tmb with heldStakes := [] } }.onCal fun c => { c with step := some (0, false), holds := [(0, 1)] } : State).dev.cal.step = some (0, false) ∧ 0 ≤ (st fun d => { d with tmb := { d.tmb with heldStakes := [] } }.onCal fun c => { c with step := some (0, false), holds := [(0, 1)] } : State).dev.axis ∧ stepFree (st fun d => { d with tmb := { d.tmb with heldStakes := [] } }.onCal fun c => { c with step := some (0, false), holds := [(0, 1)] } : State).dev 0 = false := by decide +kernel

theorem witness_CalibrationRuns_4_calStep :
    (st fun d => { d with tmb := { d.tmb with clock := 128000000 } }.onCal fun c => { c with step := some (0, true) } : State).dev.cal.step = some (0, true) ∧ 0 + 40960 ≤ (st fun d => { d with tmb := { d.tmb with clock := 128000000 } }.onCal fun c => { c with step := some (0, true) } : State).dev.axis := by decide +kernel

theorem witness_CalibrationRuns_6_calSolveComplete :
    jumpS.dev.cal.runs = ({ kind := 1, done := 8, since := 0 } : CalRun) :: ([] : List CalRun) ∧ stepsOf ({ kind := 1, done := 8, since := 0 } : CalRun).kind ≤ ({ kind := 1, done := 8, since := 0 } : CalRun).done ∧ ({ kind := 1, done := 8, since := 0 } : CalRun).write = none ∧ ({ kind := 1, done := 8, since := 0 } : CalRun).former = none ∧ domOn jumpS.dev 6 = true ∧
    ({ jumpW with paths := jumpW.paths.map (referred jumpS.dev) } : CalResults) = { jumpW with paths := jumpW.paths.map (referred jumpS.dev) } ∧
    jumpsOf jumpS.dev ({ jumpW with paths := jumpW.paths.map (referred jumpS.dev) } : CalResults) ≠ [] := by
  exact ⟨by decide +kernel, by decide +kernel, by decide +kernel, by decide +kernel, by decide +kernel, rfl, jumpW_jumps⟩

theorem witness_CalibrationRuns_7_calSolveComplete :
    solvedS.dev.cal.runs = ({ kind := 1, done := 8, since := 0 } : CalRun) :: ([] : List CalRun) ∧ stepsOf ({ kind := 1, done := 8, since := 0 } : CalRun).kind ≤ ({ kind := 1, done := 8, since := 0 } : CalRun).done ∧ ({ kind := 1, done := 8, since := 0 } : CalRun).write = none ∧ ({ kind := 1, done := 8, since := 0 } : CalRun).former = none ∧ domOn solvedS.dev 6 = true ∧
    ({ paths := [], unusable := [], adc := [], dac := [], obs := [] } : CalResults) = { ({ paths := [], unusable := [], adc := [], dac := [], obs := [] } : CalResults) with paths := ({ paths := [], unusable := [], adc := [], dac := [], obs := [] } : CalResults).paths.map (referred solvedS.dev) } ∧
    jumpsOf solvedS.dev ({ paths := [], unusable := [], adc := [], dac := [], obs := [] } : CalResults) = [] ∧ ({ paths := [], unusable := [], adc := [], dac := [], obs := [] } : CalResults).unusable = [] := by decide +kernel

theorem witness_CalibrationRuns_8_calTrimWrite :
    axisIdle (st fun d => d.onCal fun c => { c with runs := [{ kind := 1, done := 8, since := 0, write := some ({ paths := [], unusable := [], adc := [], dac := [], obs := [] }, 1, []) }] } : State).dev = true ∧ spanFree (st fun d => d.onCal fun c => { c with runs := [{ kind := 1, done := 8, since := 0, write := some ({ paths := [], unusable := [], adc := [], dac := [], obs := [] }, 1, []) }] } : State).dev (st fun d => d.onCal fun c => { c with runs := [{ kind := 1, done := 8, since := 0, write := some ({ paths := [], unusable := [], adc := [], dac := [], obs := [] }, 1, []) }] } : State).dev.axis ((st fun d => d.onCal fun c => { c with runs := [{ kind := 1, done := 8, since := 0, write := some ({ paths := [], unusable := [], adc := [], dac := [], obs := [] }, 1, []) }] } : State).dev.axis + 40960) = true ∧ (st fun d => d.onCal fun c => { c with runs := [{ kind := 1, done := 8, since := 0, write := some ({ paths := [], unusable := [], adc := [], dac := [], obs := [] }, 1, []) }] } : State).dev.cal.step = none ∧ (st fun d => d.onCal fun c => { c with runs := [{ kind := 1, done := 8, since := 0, write := some ({ paths := [], unusable := [], adc := [], dac := [], obs := [] }, 1, []) }] } : State).dev.cal.load = none ∧ (st fun d => d.onCal fun c => { c with runs := [{ kind := 1, done := 8, since := 0, write := some ({ paths := [], unusable := [], adc := [], dac := [], obs := [] }, 1, []) }] } : State).dev.cal.runs = ({ kind := 1, done := 8, since := 0, write := some ({ paths := [], unusable := [], adc := [], dac := [], obs := [] }, 1, []) } : CalRun) :: ([] : List CalRun) ∧ ({ kind := 1, done := 8, since := 0, write := some ({ paths := [], unusable := [], adc := [], dac := [], obs := [] }, 1, []) } : CalRun).write = some (({ paths := [], unusable := [], adc := [], dac := [], obs := [] } : CalResults), 1, ([] : List (Nat × Nat))) := by decide +kernel

theorem witness_CalibrationRuns_9_calTrimWrite :
    axisIdle (st fun d => d.onCal fun c => { c with load := some ((7, 3), default) } : State).dev = true ∧ spanFree (st fun d => d.onCal fun c => { c with load := some ((7, 3), default) } : State).dev (st fun d => d.onCal fun c => { c with load := some ((7, 3), default) } : State).dev.axis ((st fun d => d.onCal fun c => { c with load := some ((7, 3), default) } : State).dev.axis + 40960) = true ∧ (st fun d => d.onCal fun c => { c with load := some ((7, 3), default) } : State).dev.cal.step = none ∧ (st fun d => d.onCal fun c => { c with load := some ((7, 3), default) } : State).dev.cal.load = some (((7, 3) : Nat × Nat), default) ∧ (st fun d => d.onCal fun c => { c with load := some ((7, 3), default) } : State).dev.cal.runs = [] := by decide +kernel

theorem witness_CalibrationRuns_10_calRunTimeout :
    runNow (st fun d => { d with tmb := { d.tmb with cyc := 99999999999999 } }.onCal fun c => { c with runs := [{ kind := 1, first := some 0, since := 0 }] } : State).dev = some ({ kind := 1, first := some 0, since := 0 } : CalRun) ∧ ({ kind := 1, first := some 0, since := 0 } : CalRun).first.getD (st fun d => { d with tmb := { d.tmb with cyc := 99999999999999 } }.onCal fun c => { c with runs := [{ kind := 1, first := some 0, since := 0 }] } : State).dev.now + (st fun d => { d with tmb := { d.tmb with cyc := 99999999999999 } }.onCal fun c => { c with runs := [{ kind := 1, first := some 0, since := 0 }] } : State).dev.cal.runLimit * 196608000 < (st fun d => { d with tmb := { d.tmb with cyc := 99999999999999 } }.onCal fun c => { c with runs := [{ kind := 1, first := some 0, since := 0 }] } : State).dev.now ∧ (st fun d => { d with tmb := { d.tmb with cyc := 99999999999999 } }.onCal fun c => { c with runs := [{ kind := 1, first := some 0, since := 0 }] } : State).dev.cal.step = none := by decide +kernel

theorem witness_CalibrationRuns_11_calStarved :
    (st fun d => { d with tmb := { d.tmb with cyc := 99999999999999 } }.onCal fun c => { c with runs := [{ kind := 1, since := 0 }] } : State).dev.cal.runs = ({ kind := 1, since := 0 } : CalRun) :: ([] : List CalRun) ∧ ({ kind := 1, since := 0 } : CalRun).starved = false ∧ (st fun d => { d with tmb := { d.tmb with cyc := 99999999999999 } }.onCal fun c => { c with runs := [{ kind := 1, since := 0 }] } : State).dev.cal.step = none ∧ ({ kind := 1, since := 0 } : CalRun).write = none ∧ ({ kind := 1, since := 0 } : CalRun).done < stepsOf ({ kind := 1, since := 0 } : CalRun).kind ∧ ({ kind := 1, since := 0 } : CalRun).since + (st fun d => { d with tmb := { d.tmb with cyc := 99999999999999 } }.onCal fun c => { c with runs := [{ kind := 1, since := 0 }] } : State).dev.cal.starveLimit * tickHz ≤ (st fun d => { d with tmb := { d.tmb with cyc := 99999999999999 } }.onCal fun c => { c with runs := [{ kind := 1, since := 0 }] } : State).dev.now := by decide +kernel

theorem witness_CalibrationRuns :
    unitW.dev.cal.step = none ∧
    (due 0x0A01 (fun _ _ => true) (st fun d => { d with tmb := { d.tmb with stakes := [qD 0x0A01] } } : State).dev (qD 0x0A01 : QStake) = true) ∧
    (st fun d => { d with tmb := { d.tmb with cyc := 9999999999999999 } }.onCal fun c => { c with lastTemp := some 0 } : State).dev.cal.lastTemp = some 0 ∧ (st fun d => { d with tmb := { d.tmb with cyc := 9999999999999999 } }.onCal fun c => { c with lastTemp := some 0 } : State).dev.cal.lastDone + (st fun d => { d with tmb := { d.tmb with cyc := 9999999999999999 } }.onCal fun c => { c with lastTemp := some 0 } : State).dev.cal.maxInterval * tickHz ≤ (st fun d => { d with tmb := { d.tmb with cyc := 9999999999999999 } }.onCal fun c => { c with lastTemp := some 0 } : State).dev.now := by
  and_intros <;> decide +kernel

theorem witness_SynthesisCommands :
    starts unitW.dev hdrW (ask 0x0B00 [4, 2, 2]) = true ∧
    starts unitW.dev hdrW (cmd 0x0B01) = true ∧
    4 ≤ 7 ∧ 7 ≤ 7 ∧ 1 ≤ 8 ∧ 8 ≤ 8 ∧
    (unitW.dev.syn.profile ≠ 7 ∧ (unitW.dev.syn.sbState < 2 ∨ unitW.dev.syn.sbProfile ≠ 7) ∧ hopTo unitW.dev 7 = false ∧ profileNamed unitW.dev 7 = false) ∧
    starts unitW.dev hdrW (cmd 0x0B02 [4]) = true ∧
    profileSetCheck 3 (found unitW.dev hdrW) = none ∧
    starts unitW.dev hdrW (cmd 0x0B03 [4]) = true ∧
    synPrelockCheck 0xFF (found unitW.dev hdrW) = none ∧
    0xFF = 0xFF ∧
    starts (st fun d => { d with nvm := { d.nvm with synRecs := [[], [none, none, none, some ⟨0, 0, 0, 500, 0⟩]] } } : State).dev hdrW (cmd 0x0B03 [4]) = true ∧
    synPrelockCheck 3 (found (st fun d => { d with nvm := { d.nvm with synRecs := [[], [none, none, none, some ⟨0, 0, 0, 500, 0⟩]] } } : State).dev hdrW) = none ∧
    3 ≠ 0xFF ∧
    starts unitW.dev hdrW (cmd 0x0B04 [1]) = true ∧
    synCalCheck 0 (found unitW.dev hdrW) = none ∧
    maskList 8 0 = [] ∧
    starts unitW.dev hdrW (cmd 0x0B04 [1]) = true ∧
    synCalCheck 10 (found unitW.dev hdrW) = none ∧
    maskList 8 10 = 1 :: ([3] : List Nat) ∧
    starts unitW.dev hdrW (ask 0x0B05 [4, 4, 4, 4]) = true ∧
    63 ≤ 63 := by
  and_intros <;> decide +kernel

theorem witness_SynthesiserLocksAndHops_1_synLock :
    0 ≤ 1 ∧ domOn (st fun d => { d with nvm := { d.nvm with synRecs := [[some ⟨0, 0, 0, 500, 0⟩], []] } } : State).dev 2 = true ∧ 0 = (st fun d => { d with nvm := { d.nvm with synRecs := [[some ⟨0, 0, 0, 500, 0⟩], []] } } : State).dev.syn.active ∧ nth (st fun d => { d with nvm := { d.nvm with synRecs := [[some ⟨0, 0, 0, 500, 0⟩], []] } } : State).dev.syn.lock 0 = false ∧ usable (st fun d => { d with nvm := { d.nvm with synRecs := [[some ⟨0, 0, 0, 500, 0⟩], []] } } : State).dev 0 (st fun d => { d with nvm := { d.nvm with synRecs := [[some ⟨0, 0, 0, 500, 0⟩], []] } } : State).dev.syn.profile = true := by decide +kernel

theorem witness_SynthesiserLocksAndHops_5_lossOfLock :
    (0 ≤ 1 ∧ nth (st fun d => { d with syn := { d.syn with lock := [true, true] } } : State).dev.syn.lock 0 = true ∧ 0 = (st fun d => { d with syn := { d.syn with lock := [true, true] } } : State).dev.syn.active ∧ (List.range 64).filter (fun p => txOpenNow (st fun d => { d with syn := { d.syn with lock := [true, true] } } : State).dev p) = []) := by decide +kernel

theorem witness_SynthesiserLocksAndHops_6_synHop :
    (due 0x0B01 (fun e x => e.syn.sbState == 3 && e.syn.sbProfile == x.stake.argument % 256 && domOn e 2) (st fun d => { d with syn := { d.syn with sbState := 3 }, tmb := { d.tmb with stakes := [qD 0x0B01] } } : State).dev (qD 0x0B01 : QStake) = true) := by decide +kernel

theorem witness_SynthesiserLocksAndHops_9_synSwap :
    (st fun d => { d with syn := { d.syn with sbState := 3, recal := true } } : State).dev.syn.recal = true ∧ (st fun d => { d with syn := { d.syn with sbState := 3, recal := true } } : State).dev.syn.sbState = 3 ∧ (st fun d => { d with syn := { d.syn with sbState := 3, recal := true } } : State).dev.syn.sbProfile = (st fun d => { d with syn := { d.syn with sbState := 3, recal := true } } : State).dev.syn.profile ∧ (st fun d => { d with syn := { d.syn with sbState := 3, recal := true } } : State).dev.syn.hostHold = false ∧ hopQueued (st fun d => { d with syn := { d.syn with sbState := 3, recal := true } } : State).dev = false ∧ axisIdle (st fun d => { d with syn := { d.syn with sbState := 3, recal := true } } : State).dev = true ∧
    (spanFree (st fun d => { d with syn := { d.syn with sbState := 3, recal := true } } : State).dev (st fun d => { d with syn := { d.syn with sbState := 3, recal := true } } : State).dev.axis ((st fun d => { d with syn := { d.syn with sbState := 3, recal := true } } : State).dev.axis + 197) = true ∧ (st fun d => { d with syn := { d.syn with sbState := 3, recal := true } } : State).dev.cal.step = none ∧ unitGap (st fun d => { d with syn := { d.syn with sbState := 3, recal := true } } : State).dev (st fun d => { d with syn := { d.syn with sbState := 3, recal := true } } : State).dev.axis = false ∧ (holdSpans (st fun d => { d with syn := { d.syn with sbState := 3, recal := true } } : State).dev ((st fun d => { d with syn := { d.syn with sbState := 3, recal := true } } : State).dev.axis + 197)).all (fun e => decide ((st fun d => { d with syn := { d.syn with sbState := 3, recal := true } } : State).dev.axis + 197 ≤ e.1) || decide (e.2 ≤ (st fun d => { d with syn := { d.syn with sbState := 3, recal := true } } : State).dev.axis)) = true) := by decide +kernel

theorem witness_SynthesiserLocksAndHops :
    1 ≤ 1 ∧ domOn (st fun d => { d with syn := { d.syn with sbState := 2 } } : State).dev 2 = true ∧ 1 ≠ (st fun d => { d with syn := { d.syn with sbState := 2 } } : State).dev.syn.active ∧ (st fun d => { d with syn := { d.syn with sbState := 2 } } : State).dev.syn.sbState = 2 ∧
    (st fun d => { d with syn := { d.syn with settling := true, lock := [true, true] } } : State).dev.syn.settling = true ∧ nth (st fun d => { d with syn := { d.syn with settling := true, lock := [true, true] } } : State).dev.syn.lock (st fun d => { d with syn := { d.syn with settling := true, lock := [true, true] } } : State).dev.syn.active = true ∧
    1 ≤ 1 ∧ nth (st fun d => { d with syn := { d.syn with lock := [true, true] } } : State).dev.syn.lock 1 = true ∧ 1 ≠ (st fun d => { d with syn := { d.syn with lock := [true, true] } } : State).dev.syn.active ∧
    domOn unitW.dev 2 = true ∧ 25 ≤ 99 ∧ 99 < 100 ∧ unitW.dev.syn.hostHold = false ∧ hopQueued unitW.dev = false ∧ unitW.dev.syn.sbState ≠ 1 ∧ unitW.dev.syn.recal = false ∧
    domOn (st fun d => { d with pwr := { d.pwr with domains := [] } } : State).dev 2 = false := by
  and_intros <;> decide +kernel

theorem witness_BeaconCommands_6_bcnTx :
    due 0x0B20 bcnAble (st fun d => { d with tmb := { d.tmb with stakes := [qD 0x0B20] } } : State).dev (qD 0x0B20 : QStake) = true ∧ (markDone (bcnAct ((st fun d => { d with tmb := { d.tmb with stakes := [qD 0x0B20] } } : State).dev.onTmb (·.advance (qD 0x0B20 : QStake))) (qD 0x0B20 : QStake)) (qD 0x0B20 : QStake)).tmb.heldStakes.length ≤ (st fun d => { d with tmb := { d.tmb with stakes := [qD 0x0B20] } } : State).dev.tmb.heldStakes.length := by decide +kernel

theorem witness_BeaconCommands :
    starts (st fun d => { d with ident := { d.ident with variant := .m }, rx := List.replicate 64 { band := 2 } } : State).dev hdrW (cmd 0x0B10 [2]) = true ∧
    bcnSetCheck ({ freq := 3250000000, rxFreq := 3500000000, level := 40, nr := 9 } : BcnCfg) (found (st fun d => { d with ident := { d.ident with variant := .m }, rx := List.replicate 64 { band := 2 } } : State).dev hdrW) = none ∧
    starts unitW.dev hdrW (ask 0x0B11 [32, 4]) = true ∧
    starts unitW.dev hdrW (cmd 0x0B12) = true ∧
    1 ≤ ([0] : List Nat).length ∧ ([0] : List Nat).length ≤ 124 ∧
    starts unitW.dev hdrW (ask 0x0B13 [2, 2, 2, 3, 8]) = true ∧
    starts unitW.dev hdrW (askClear 0x0B14 1 [4, 4, 4, 4, 4, 4, 4, 4, 4, 4, 4, 4, 4]) = true ∧
    1 ≤ 1 ∧
    (st fun d => { d with bcn := { d.bcn with txUntil := some 0 } } : State).dev.bcn.txUntil = some 0 ∧ 0 ≤ (st fun d => { d with bcn := { d.bcn with txUntil := some 0 } } : State).dev.axis ∧
    (due 0x0B21 (fun e _ => domOn e 2 && domOn e 3 && !e.syn.settling) (st fun d => { d with tmb := { d.tmb with stakes := [qD 0x0B21] } } : State).dev (qD 0x0B21 : QStake) = true) ∧
    (due 0x0B22 (fun e _ => domOn e 2 && domOn e 3 && !e.syn.settling) (st fun d => { d with tmb := { d.tmb with stakes := [qD 0x0B22] } } : State).dev (qD 0x0B22 : QStake) = true) := by
  and_intros <;> decide +kernel

theorem witness_BeaconReception :
    (bcnListening (st fun d => { d with bcn := { d.bcn with listenOpen := true }, fe := [{ st := 1 }] } : State).dev = true ∧ (nth (st fun d => { d with bcn := { d.bcn with listenOpen := true }, fe := [{ st := 1 }] } : State).dev.fe (st fun d => { d with bcn := { d.bcn with listenOpen := true }, fe := [{ st := 1 }] } : State).dev.bcn.cfg.rxPath).st = 1 ∧ (st fun d => { d with bcn := { d.bcn with listenOpen := true }, fe := [{ st := 1 }] } : State).dev.bcn.floor.any (fun f => decide ((0 + 0 : Int) < f + 10 * (st fun d => { d with bcn := { d.bcn with listenOpen := true }, fe := [{ st := 1 }] } : State).dev.bcn.cfg.detectMargin)) = false ∧ (st fun d => { d with bcn := { d.bcn with listenOpen := true }, fe := [{ st := 1 }] } : State).dev.bcn.lock = none) ∧
    (bcnListening (st fun d => { d with bcn := { d.bcn with listenOpen := true, lock := some { axis := 0, energy := 0 } }, fe := [{ st := 1 }] } : State).dev = true ∧ (nth (st fun d => { d with bcn := { d.bcn with listenOpen := true, lock := some { axis := 0, energy := 0 } }, fe := [{ st := 1 }] } : State).dev.fe (st fun d => { d with bcn := { d.bcn with listenOpen := true, lock := some { axis := 0, energy := 0 } }, fe := [{ st := 1 }] } : State).dev.bcn.cfg.rxPath).st = 1 ∧ (st fun d => { d with bcn := { d.bcn with listenOpen := true, lock := some { axis := 0, energy := 0 } }, fe := [{ st := 1 }] } : State).dev.bcn.floor.any (fun f => decide ((0 + 0 : Int) < f + 10 * (st fun d => { d with bcn := { d.bcn with listenOpen := true, lock := some { axis := 0, energy := 0 } }, fe := [{ st := 1 }] } : State).dev.bcn.cfg.detectMargin)) = false) ∧
    (st fun d => { d with bcn := { d.bcn with listenOpen := true, lock := some { axis := 0, energy := 0 } }, fe := [{ st := 1 }] } : State).dev.bcn.lock = some ({ axis := 0, energy := 0 } : BcnLock) ∧ ({ axis := 0, energy := 0 } : BcnLock).inTail = false ∧ (0 + 0 : Int) < ({ axis := 0, energy := 0 } : BcnLock).energy + 10 * (st fun d => { d with bcn := { d.bcn with listenOpen := true, lock := some { axis := 0, energy := 0 } }, fe := [{ st := 1 }] } : State).dev.bcn.cfg.captureMargin ∧ (st fun d => { d with bcn := { d.bcn with listenOpen := true, lock := some { axis := 0, energy := 0 } }, fe := [{ st := 1 }] } : State).dev.bcn.held = none ∧
    (st fun d => { d with bcn := { d.bcn with listenOpen := true, floor := some 0 } } : State).dev.bcn.floor = some (0 + 0 : Int) ∧ (99 + 0 : Int) < (0 + 0 : Int) + 10 * (st fun d => { d with bcn := { d.bcn with listenOpen := true, floor := some 0 } } : State).dev.bcn.cfg.detectMargin ∧
    (st fun d => { d with tmb := { d.tmb with clock := 204800000 }, bcn := { d.bcn with lock := some { axis := 0, energy := 0 } } } : State).dev.bcn.lock = some ({ axis := 0, energy := 0 } : BcnLock) ∧ ({ axis := 0, energy := 0 } : BcnLock).hdr = none ∧ syncClose ({ axis := 0, energy := 0 } : BcnLock).axis ≤ (st fun d => { d with tmb := { d.tmb with clock := 204800000 }, bcn := { d.bcn with lock := some { axis := 0, energy := 0 } } } : State).dev.axis ∧
    (st fun d => { d with tmb := { d.tmb with clock := 400000000 }, bcn := { d.bcn with lock := some { axis := 0, energy := 0 } } } : State).dev.bcn.lock = some ({ axis := 0, energy := 0 } : BcnLock) ∧ ({ axis := 0, energy := 0 } : BcnLock).hdr = none ∧ ({ axis := 0, energy := 0 } : BcnLock).axis + (128 + 128 * ({ (default : BcnHdr) with crcOk := true } : BcnHdr).nr) * 512 ≤ (st fun d => { d with tmb := { d.tmb with clock := 400000000 }, bcn := { d.bcn with lock := some { axis := 0, energy := 0 } } } : State).dev.axis ∧ ({ (default : BcnHdr) with crcOk := true } : BcnHdr).crcOk = true ∧
    (st fun d => { d with tmb := { d.tmb with clock := 400000000 }, bcn := { d.bcn with lock := some { axis := 0, energy := 0 } } } : State).dev.bcn.lock = some ({ axis := 0, energy := 0 } : BcnLock) ∧ ({ axis := 0, energy := 0 } : BcnLock).hdr = none ∧ ({ axis := 0, energy := 0 } : BcnLock).axis + (128 + 128 * ({ (default : BcnHdr) with crcOk := false } : BcnHdr).nr) * 512 ≤ (st fun d => { d with tmb := { d.tmb with clock := 400000000 }, bcn := { d.bcn with lock := some { axis := 0, energy := 0 } } } : State).dev.axis ∧ ({ (default : BcnHdr) with crcOk := false } : BcnHdr).crcOk = false ∧
    ((st fun d => { d with tmb := { d.tmb with clock := 400000000 }, bcn := { d.bcn with lock := some { axis := 0, energy := 0, hdr := some (default : BcnHdr) } } } : State).dev.bcn.lock = some ({ axis := 0, energy := 0, hdr := some (default : BcnHdr) } : BcnLock) ∧ ({ axis := 0, energy := 0, hdr := some (default : BcnHdr) } : BcnLock).hdr = some ({ (default : BcnHdr) with kind := 0 } : BcnHdr) ∧ ({ axis := 0, energy := 0, hdr := some (default : BcnHdr) } : BcnLock).inTail = false ∧ ({ axis := 0, energy := 0, hdr := some (default : BcnHdr) } : BcnLock).axis + (128 + 128 * ({ (default : BcnHdr) with kind := 0 } : BcnHdr).nr + (if ({ (default : BcnHdr) with kind := 0 } : BcnHdr).len = 0 then 0 else 16 * ({ (default : BcnHdr) with kind := 0 } : BcnHdr).nr * (({ (default : BcnHdr) with kind := 0 } : BcnHdr).len + 4))) * 512 ≤ (st fun d => { d with tmb := { d.tmb with clock := 400000000 }, bcn := { d.bcn with lock := some { axis := 0, energy := 0, hdr := some (default : BcnHdr) } } } : State).dev.axis ∧ ({ (default : BcnEnd) with crcOk := true } : BcnEnd).crcOk = true ∧ ({ (default : BcnHdr) with kind := 0 } : BcnHdr).tail = false) ∧
    ((st fun d => { d with tmb := { d.tmb with clock := 400000000 }, bcn := { d.bcn with lock := some { axis := 0, energy := 0, hdr := some { (default : BcnHdr) with tail := true } } } } : State).dev.bcn.lock = some ({ axis := 0, energy := 0, hdr := some { (default : BcnHdr) with tail := true } } : BcnLock) ∧ ({ axis := 0, energy := 0, hdr := some { (default : BcnHdr) with tail := true } } : BcnLock).hdr = some ({ (default : BcnHdr) with tail := true } : BcnHdr) ∧ ({ axis := 0, energy := 0, hdr := some { (default : BcnHdr) with tail := true } } : BcnLock).inTail = false ∧ ({ axis := 0, energy := 0, hdr := some { (default : BcnHdr) with tail := true } } : BcnLock).axis + (128 + 128 * ({ (default : BcnHdr) with tail := true } : BcnHdr).nr + (if ({ (default : BcnHdr) with tail := true } : BcnHdr).len = 0 then 0 else 16 * ({ (default : BcnHdr) with tail := true } : BcnHdr).nr * (({ (default : BcnHdr) with tail := true } : BcnHdr).len + 4))) * 512 ≤ (st fun d => { d with tmb := { d.tmb with clock := 400000000 }, bcn := { d.bcn with lock := some { axis := 0, energy := 0, hdr := some { (default : BcnHdr) with tail := true } } } } : State).dev.axis ∧ ({ (default : BcnEnd) with crcOk := true } : BcnEnd).crcOk = true ∧ ({ (default : BcnHdr) with tail := true } : BcnHdr).tail = true) ∧
    bcnListening (st fun d => { d with tmb := { d.tmb with cyc := 1966080000 }, bcn := { d.bcn with listenOpen := true } } : State).dev = true ∧ (st fun d => { d with tmb := { d.tmb with cyc := 1966080000 }, bcn := { d.bcn with listenOpen := true } } : State).dev.bcn.floorAt + tickHz ≤ (st fun d => { d with tmb := { d.tmb with cyc := 1966080000 }, bcn := { d.bcn with listenOpen := true } } : State).dev.now ∧ (st fun d => { d with tmb := { d.tmb with cyc := 1966080000 }, bcn := { d.bcn with listenOpen := true } } : State).dev.bcn.cfg.rxFlags.testBit 5 = false := by
  and_intros <;> decide +kernel

theorem witness_MemoryCommands :
    starts unitW.dev hdrW (ask 0x0C00 [4, 4, 4, 4, 4, 4, 4, 8, 8]) = true ∧
    starts unitW.dev hdrW (cmd 0x0C01) = true ∧
    memRegionSetCheck 63 1 (found unitW.dev hdrW) = none ∧
    b2n (nth unitW.dev.mem.prot 63) = 1 ∧
    starts unitW.dev hdrW (cmd 0x0C01) = true ∧
    memRegionSetCheck 63 0 (found unitW.dev hdrW) = none ∧
    nth unitW.dev.mem.prot 63 = true ∧ 0 = 0 ∧
    starts (st fun d => { d with mem := { d.mem with prot := List.replicate 63 true ++ [false] } } : State).dev hdrW (cmd 0x0C01) = true ∧
    memRegionSetCheck 63 1 (found (st fun d => { d with mem := { d.mem with prot := List.replicate 63 true ++ [false] } } : State).dev hdrW) = none ∧
    nth (st fun d => { d with mem := { d.mem with prot := List.replicate 63 true ++ [false] } } : State).dev.mem.prot 63 = false ∧ 1 = 1 ∧
    starts unitW.dev hdrW (ask 0x0C02 (8 :: List.replicate 64 4)) = true ∧
    starts unitW.dev hdrW (cmd 0x0C03) = true ∧
    5 ≤ 5 ∧
    starts unitW.dev hdrW (cmd 0x0C04 ([8, 8, 8, 8, 8, 8] ++ [5, 5])) = true ∧
    memScrubRangeCheck 0x100000000 8 (found unitW.dev hdrW) = none ∧
    storeOf 0x100000000 = some 0 ∧
    starts unitW.dev hdrW (cmd 0x0C05) = true ∧
    memInjectCheck 0x100000000 1 63 (found unitW.dev hdrW) = none ∧
    starts unitW.dev hdrW (cmd 0x0C06) = true ∧
    memPortSetCheck 7 15 1 31 (found unitW.dev hdrW) = none ∧
    starts unitW.dev hdrW (ask 0x0C07 [4, 8, 4, 4]) = true ∧
    7 ≤ 7 ∧
    starts unitW.dev hdrW (cmd 0x0C09) = true ∧
    (1 ≤ 1 ∧ 1 ≤ 1 ∧ domOn unitW.dev 9 = true ∧ (1 = 0 ∨ anyPortOn unitW.dev = false)) ∧
    starts unitW.dev hdrW (cmd 0x0C0A) = true ∧
    512 ≤ 512 ∧ 512 ≤ 32768 ∧ 1 ≤ 100 ∧ 100 ≤ 100 ∧ 1 ≤ 1 ∧ 1 ≤ 1000 ∧
    starts unitW.dev hdrW (askClear 0x0C0B 1 (List.replicate 8 8)) = true ∧
    5 ≤ 5 ∧ 1 ≤ 1 ∧
    starts unitW.dev hdrW (ask 0x0C0C (List.replicate 12 1)) = true := by
  and_intros <;> decide +kernel

theorem witness_MemoryHappenings :
    storeSpan 3 = (0x1000000000, 0x1000000000) ∧ 3 ≤ 5 ∧ (nth unitW.dev.mem.stores 3).period ≠ 0 ∧ (nth unitW.dev.mem.stores 3).range = none ∧ domOn unitW.dev (storeDomain 3) = true ∧
    (0 / 8 * 8 + 8 < 0x1000000000 ∧ (3 ≠ 3 ∨ unitW.dev.mem.selfRefresh = false) ∧ unitW.dev.now ≤ (nth unitW.dev.mem.stores 3).passStart + (nth unitW.dev.mem.stores 3).period * tickHz) ∧
    ((nth unitW.dev.mem.stores 2).period = 0 ∨ (nth unitW.dev.mem.stores 2).range.isSome = true) ∧
    (nth (st fun d => { d with mem := { d.mem with stores := [{ range := some (0x100000000, 8) }] } } : State).dev.mem.stores 0).range = some (0x100000000, 8) ∧
    (st fun d => { d with mem := { d.mem with initing := [63] } } : State).dev.mem.initing.contains 63 = true ∧
    3 ≤ 3 ∧ domOn (st fun d => { d with mem := { d.mem with ports := [{ panic := true }] } } : State).dev 9 = true ∧ (st fun d => { d with mem := { d.mem with ports := [{ panic := true }] } } : State).dev.mem.selfRefresh = false ∧ true = true ∧ (st fun d => { d with mem := { d.mem with ports := [{ panic := true }] } } : State).dev.mem.ports.any (·.panic) = true ∧ ((st fun d => { d with mem := { d.mem with ports := [{ panic := true }] } } : State).dev.mem.postponed.lookup (3, 0)).getD 0 < 8 ∧
    3 ≤ 3 ∧ domOn (st fun d => { d with mem := { d.mem with postponed := [((3, 0), 2)] } } : State).dev 9 = true ∧ (st fun d => { d with mem := { d.mem with postponed := [((3, 0), 2)] } } : State).dev.mem.selfRefresh = false ∧ false = false ∧ (st fun d => { d with mem := { d.mem with postponed := [((3, 0), 2)] } } : State).dev.mem.ports.any (·.panic) = false ∧ (st fun d => { d with mem := { d.mem with postponed := [((3, 0), 2)] } } : State).dev.mem.postponed.lookup (3, 0) = some (0 + 2) ∧
    3 ≤ 3 ∧ domOn unitW.dev 9 = true ∧ unitW.dev.mem.rdLimit ≤ (⟨7, 4096⟩ : RowHit).count ∧
    7 ≤ 7 ∧ portOn (st fun d => { d with mem := { d.mem with ports := List.replicate 8 { assign := 1 } } } : State).dev 7 = true ∧ writePort 7 = true ∧ 192 ≤ 192 ∧ 192 < 256 ∧ (nth (st fun d => { d with mem := { d.mem with ports := List.replicate 8 { assign := 1 } } } : State).dev.mem.ports 7).panic = false ∧
    portOn unitW.dev 7 = false ∧
    (due 0x0C01 (fun e _ => domOn e 9 && !anyPortOn e) (st fun d => { d with tmb := { d.tmb with stakes := [qD 0x0C01] } } : State).dev (qD 0x0C01 : QStake) = true) ∧
    (st fun d => { d with mem := { d.mem with selfRefresh := true, autoExit := true } } : State).dev.mem.selfRefresh = true ∧ (st fun d => { d with mem := { d.mem with selfRefresh := true, autoExit := true } } : State).dev.mem.autoExit = true ∧ domOn (st fun d => { d with mem := { d.mem with selfRefresh := true, autoExit := true } } : State).dev 9 = true := by
  and_intros <;> decide +kernel

theorem witness_MatrixCommands :
    starts unitW.dev hdrW (ask 0x0D00 [4, 1, 4]) = true ∧
    starts unitW.dev hdrW (ask 0x0D01 (List.replicate 15 4)) = true ∧
    starts unitW.dev hdrW (cmd 0x0D02) = true ∧
    14 ≤ 14 ∧ 16 ≤ 4096 ∧ 4096 ≤ 4096 ∧
    starts unitW.dev hdrW (cmd 0x0D03) = true ∧
    7 ≤ 7 ∧ 1 ≤ 1000 ∧ 1000 ≤ 1000 ∧ 1 ≤ 1 ∧ 1 ≤ 1000 ∧
    starts unitW.dev hdrW (cmd 0x0D04) = true ∧
    7 ≤ 7 ∧
    starts (st fun d => { d with fab := { d.fab with layer := 0 } } : State).dev hdrW (cmd 0x0D05 [4]) = true ∧
    (st fun d => { d with fab := { d.fab with layer := 0 } } : State).dev.fab.layer = 0 ∧
    starts unitW.dev hdrW (askClear 0x0D06 1 (List.replicate 76 4 ++ [8])) = true ∧
    1 ≤ 1 := by
  and_intros <;> decide +kernel

theorem witness_MatrixRequests_6_targetTimeout :
    7 ≤ 7 ∧ (nth (st fun d => { d with tmb := { d.tmb with cyc := 1966080000 }, fab := { d.fab with waiting := [⟨{ (default : FabReq) with master := 14 }, 8, 7, 0, false, false⟩] } } : State).dev.fab.targets 7).faulted = false ∧
    ((st fun d => { d with tmb := { d.tmb with cyc := 1966080000 }, fab := { d.fab with waiting := [⟨{ (default : FabReq) with master := 14 }, 8, 7, 0, false, false⟩] } } : State).dev.fab.waiting.find? (fun x => x.req.master == 14 && x.target == 7 && timedOut (st fun d => { d with tmb := { d.tmb with cyc := 1966080000 }, fab := { d.fab with waiting := [⟨{ (default : FabReq) with master := 14 }, 8, 7, 0, false, false⟩] } } : State).dev x) = some (⟨{ (default : FabReq) with master := 14 }, 8, 7, 0, false, false⟩ : FabWait)) := by decide +kernel

theorem witness_MatrixRequests :
    0 < ({ master := 14, len := 1 } : FabReq).len ∧ ({ master := 14, len := 1 } : FabReq).len ≤ 4096 ∧ ({ master := 14, len := 1 } : FabReq).master ≤ 14 ∧ domOn unitW.dev (masterDomain ({ master := 14, len := 1 } : FabReq).master) = true ∧ closed unitW.dev (masterDomain ({ master := 14, len := 1 } : FabReq).master) = false ∧
    (unitW.dev.fab.waiting.any (fun w => w.imposed && w.req == { ({ master := 14, len := 1 } : FabReq) with hold := w.req.hold }) = false) ∧
    takeReq unitW.dev unitW.dev.fab.waiting ({ master := 14, len := 1 } : FabReq) ({ master := 14, len := 1 } : FabReq).hold = .error 0 ∧
    0 < ({ master := 0, len := 1, addr := 0x100000000 } : FabReq).len ∧ ({ master := 0, len := 1, addr := 0x100000000 } : FabReq).len ≤ 4096 ∧ ({ master := 0, len := 1, addr := 0x100000000 } : FabReq).master ≤ 14 ∧ domOn unitW.dev (masterDomain ({ master := 0, len := 1, addr := 0x100000000 } : FabReq).master) = true ∧ closed unitW.dev (masterDomain ({ master := 0, len := 1, addr := 0x100000000 } : FabReq).master) = false ∧
    (unitW.dev.fab.waiting.any (fun w => w.imposed && w.req == { ({ master := 0, len := 1, addr := 0x100000000 } : FabReq) with hold := w.req.hold }) = false) ∧
    takeReq unitW.dev unitW.dev.fab.waiting ({ master := 0, len := 1, addr := 0x100000000 } : FabReq) ({ master := 0, len := 1, addr := 0x100000000 } : FabReq).hold = .held 7 0 ∧
    0 < ({ master := 0, len := 1, addr := 0x100000000, write := true, data := [255] } : FabReq).len ∧ ({ master := 0, len := 1, addr := 0x100000000, write := true, data := [255] } : FabReq).len ≤ 4096 ∧ ({ master := 0, len := 1, addr := 0x100000000, write := true, data := [255] } : FabReq).master ≤ 14 ∧ domOn (st fun d => { d with fab := { d.fab with layer := 0 } } : State).dev (masterDomain ({ master := 0, len := 1, addr := 0x100000000, write := true, data := [255] } : FabReq).master) = true ∧ closed (st fun d => { d with fab := { d.fab with layer := 0 } } : State).dev (masterDomain ({ master := 0, len := 1, addr := 0x100000000, write := true, data := [255] } : FabReq).master) = false ∧
    ((st fun d => { d with fab := { d.fab with layer := 0 } } : State).dev.fab.waiting.any (fun w => w.imposed && w.req == { ({ master := 0, len := 1, addr := 0x100000000, write := true, data := [255] } : FabReq) with hold := w.req.hold }) = false) ∧
    takeReq (st fun d => { d with fab := { d.fab with layer := 0 } } : State).dev (st fun d => { d with fab := { d.fab with layer := 0 } } : State).dev.fab.waiting ({ master := 0, len := 1, addr := 0x100000000, write := true, data := [255] } : FabReq) ({ master := 0, len := 1, addr := 0x100000000, write := true, data := [255] } : FabReq).hold = .served 0 ∧ lockMissed (st fun d => { d with fab := { d.fab with layer := 0 } } : State).dev 0 ({ master := 0, len := 1, addr := 0x100000000, write := true, data := [255] } : FabReq) = false ∧
    (nth (st fun d => { d with tmb := { d.tmb with cyc := 128 }, fab := { d.fab with targets := List.replicate 8 { lock := some (14, 8, 0) } } } : State).dev.fab.targets 7).lock = some (14, 8, 0) ∧ 0 + 128 ≤ (st fun d => { d with tmb := { d.tmb with cyc := 128 }, fab := { d.fab with targets := List.replicate 8 { lock := some (14, 8, 0) } } } : State).dev.now ∧
    ((st fun d => { d with tmb := { d.tmb with cyc := 1966080 }, fab := { d.fab with layer := 0, waiting := [⟨default, 8, 0, 0, false, false⟩] } } : State).dev.fab.layer = 0 ∧ (st fun d => { d with tmb := { d.tmb with cyc := 1966080 }, fab := { d.fab with layer := 0, waiting := [⟨default, 8, 0, 0, false, false⟩] } } : State).dev.fab.lastGrant + 1966080 ≤ (st fun d => { d with tmb := { d.tmb with cyc := 1966080 }, fab := { d.fab with layer := 0, waiting := [⟨default, 8, 0, 0, false, false⟩] } } : State).dev.now ∧ (st fun d => { d with tmb := { d.tmb with cyc := 1966080 }, fab := { d.fab with layer := 0, waiting := [⟨default, 8, 0, 0, false, false⟩] } } : State).dev.fab.waiting.any (fun w => decide (w.since + 1966080 ≤ (st fun d => { d with tmb := { d.tmb with cyc := 1966080 }, fab := { d.fab with layer := 0, waiting := [⟨default, 8, 0, 0, false, false⟩] } } : State).dev.now)) = true) ∧
    (st fun d => { d with fab := { d.fab with layer := 2 } } : State).dev.fab.layer = 2 ∧ true = true ∧
    14 ≤ 14 ∧
    (st fun d => { d with pwr := { d.pwr with steps := [(5, false)] }, fab := { d.fab with closing := [(5, 0)] } } : State).dev.pwr.steps.head? = some (5, false) ∧ closed (st fun d => { d with pwr := { d.pwr with steps := [(5, false)] }, fab := { d.fab with closing := [(5, 0)] } } : State).dev 5 = true ∧ 5 ≠ 1 ∧
    (st fun d => { d with pwr := { d.pwr with steps := [(1, false)] }, fab := { d.fab with closing := [(1, 0)] } } : State).dev.pwr.steps.head? = some (1, false) ∧ closed (st fun d => { d with pwr := { d.pwr with steps := [(1, false)] }, fab := { d.fab with closing := [(1, 0)] } } : State).dev 1 = true ∧ 1 = 1 ∧
    unitW.dev.pwr.steps.head? ≠ some (1, false) ∧
    ((st fun d => { d with tmb := { d.tmb with cyc := 39322 }, fab := { d.fab with closing := [(9, 0)] } } : State).dev.fab.closing.any (fun c => c.1 == 9 && decide (c.2 + ceilDiv ((st fun d => { d with tmb := { d.tmb with cyc := 39322 }, fab := { d.fab with closing := [(9, 0)] } } : State).dev.fab.drainLimit * tickHz) 1000000 ≤ (st fun d => { d with tmb := { d.tmb with cyc := 39322 }, fab := { d.fab with closing := [(9, 0)] } } : State).dev.now)) = true) := by
  and_intros <;> decide +kernel

theorem witness_DmaChannels_10_descriptorFetch :
    (nth (dmaW 1 { descW with n0 := 0 } : State).dev.dma 31).enable = true ∧ (nth (dmaW 1 { descW with n0 := 0 } : State).dev.dma 31).st = 1 ∧ (nth (dmaW 1 { descW with n0 := 0 } : State).dev.dma 31).reread = false ∧
    chanMay (dmaW 1 { descW with n0 := 0 } : State).dev (nth (dmaW 1 { descW with n0 := 0 } : State).dev.dma 31) (nth (dmaW 1 { descW with n0 := 0 } : State).dev.dma 31).desc 64 false true = true ∧
    busDo (dmaW 1 { descW with n0 := 0 } : State).dev { master := 10, addr := (nth (dmaW 1 { descW with n0 := 0 } : State).dev.dma 31).desc, len := 64 } = some (none, ((busW (dmaW 1 { descW with n0 := 0 }) { master := 10, addr := (nth (dmaW 1 { descW with n0 := 0 }).dev.dma 31).desc, len := 64 }).2.1 : FabResp), ((busW (dmaW 1 { descW with n0 := 0 }) { master := 10, addr := (nth (dmaW 1 { descW with n0 := 0 }).dev.dma 31).desc, len := 64 }).2.2 : Dev)) ∧ (descOf ((busW (dmaW 1 { descW with n0 := 0 }) { master := 10, addr := (nth (dmaW 1 { descW with n0 := 0 }).dev.dma 31).desc, len := 64 }).2.1 : FabResp).data).ok = false ∧ (((busW (dmaW 1 { descW with n0 := 0 }) { master := 10, addr := (nth (dmaW 1 { descW with n0 := 0 }).dev.dma 31).desc, len := 64 }).2.1 : FabResp).thorn.isEmpty = true) := by
  exact ⟨by decide, by decide, by decide, by decide, busW_ok (by decide +kernel), by decide +kernel, by decide +kernel⟩

theorem witness_DmaChannels_11_descriptorFetch :
    (nth (dmaW 1 descW : State).dev.dma 31).enable = true ∧ (nth (dmaW 1 descW : State).dev.dma 31).st = 1 ∧ (nth (dmaW 1 descW : State).dev.dma 31).reread = false ∧
    chanMay (dmaW 1 descW : State).dev (nth (dmaW 1 descW : State).dev.dma 31) (nth (dmaW 1 descW : State).dev.dma 31).desc 64 false true = true ∧
    busDo (dmaW 1 descW : State).dev { master := 10, addr := (nth (dmaW 1 descW : State).dev.dma 31).desc, len := 64 } = some (none, ((busW (dmaW 1 descW) { master := 10, addr := (nth (dmaW 1 descW).dev.dma 31).desc, len := 64 }).2.1 : FabResp), ((busW (dmaW 1 descW) { master := 10, addr := (nth (dmaW 1 descW).dev.dma 31).desc, len := 64 }).2.2 : Dev)) ∧ (descOf ((busW (dmaW 1 descW) { master := 10, addr := (nth (dmaW 1 descW).dev.dma 31).desc, len := 64 }).2.1 : FabResp).data).ok = true ∧ ((busW (dmaW 1 descW) { master := 10, addr := (nth (dmaW 1 descW).dev.dma 31).desc, len := 64 }).2.1 : FabResp).thorn.isEmpty = true := by
  exact ⟨by decide, by decide, by decide, by decide, busW_ok (by decide +kernel), by decide +kernel, by decide +kernel⟩

theorem witness_DmaChannels_12_dmaBurst :
    (nth (dmaW 2 descW : State).dev.dma 0).fetched = some descW ∧ (nth (dmaW 2 descW : State).dev.dma 0).enable = true ∧ (nth (dmaW 2 descW : State).dev.dma 0).st = 2 ∧ (nth (dmaW 2 descW : State).dev.dma 0).i2 < descW.n2 ∧ burstNext (dmaW 2 descW : State).dev 0 = true ∧
    burstOf (nth (dmaW 2 descW : State).dev.dma 0) descW = (0x100001000, 0x100002000, 8) ∧
    chanMay (dmaW 2 descW : State).dev (nth (dmaW 2 descW : State).dev.dma 0) 0x100001000 8 false false = true ∧ chanMay (dmaW 2 descW : State).dev (nth (dmaW 2 descW : State).dev.dma 0) 0x100002000 8 true false = true ∧
    ((burstS).dev : Dev) = { (dmaW 2 descW : State).dev with fab := { (dmaW 2 descW : State).dev.fab with granted := 0 } } ∧ busDo ((burstS).dev : Dev) { master := 10, addr := 0x100001000, len := 8 } = some (none, ((busW burstS { master := 10, addr := 0x100001000, len := 8 }).2.1 : FabResp), ((busW burstS { master := 10, addr := 0x100001000, len := 8 }).2.2 : Dev)) ∧ ((busW burstS { master := 10, addr := 0x100001000, len := 8 }).2.1 : FabResp).thorn = [] ∧
    busDo ((busW burstS { master := 10, addr := 0x100001000, len := 8 }).2.2 : Dev) { master := 10, addr := 0x100002000, len := 8, write := true, data := ((busW burstS { master := 10, addr := 0x100001000, len := 8 }).2.1 : FabResp).data } = some (none, ((busW { pending := [], dev := (busW burstS { master := 10, addr := 0x100001000, len := 8 }).2.2 } { master := 10, addr := 0x100002000, len := 8, write := true, data := [0, 0, 0, 0, 0, 0, 0, 0] }).2.1 : FabResp), ((busW { pending := [], dev := (busW burstS { master := 10, addr := 0x100001000, len := 8 }).2.2 } { master := 10, addr := 0x100002000, len := 8, write := true, data := [0, 0, 0, 0, 0, 0, 0, 0] }).2.2 : Dev)) ∧
    descW.ctl.testBit 22 = false := by
  refine ⟨by decide, by decide, by decide, by decide, by decide +kernel, by decide +kernel, by decide +kernel, by decide +kernel, rfl,
    busW_ok (s := burstS) (by decide +kernel), by decide +kernel, ?_, by decide⟩
  have hd : (busW burstS { master := 10, addr := 0x100001000, len := 8 }).2.1.data = [0, 0, 0, 0, 0, 0, 0, 0] := by decide +kernel
  rw [hd]
  exact busW_ok (s := { pending := [], dev := (busW burstS { master := 10, addr := 0x100001000, len := 8 }).2.2 }) (by decide +kernel)

theorem witness_DmaChannels :
    starts (st fun d => { d with fab := { d.fab with layer := 0 }, dma := List.replicate 32 { owner := 1 } } : State).dev hdrW (cmd 0x0D10) = true ∧
    16 ≤ 23 ∧ 23 ≤ 23 ∧ (⟨[{ src := 0x1040000000, dst := 0x1040010000, elemLen := 8, n0 := 1, n1 := 1, n2 := 1 }]⟩ : Descs).list.isEmpty = false ∧ (⟨[{ src := 0x1040000000, dst := 0x1040010000, elemLen := 8, n0 := 1, n1 := 1, n2 := 1 }]⟩ : Descs).list.length ≤ 16 ∧ (⟨[{ src := 0x1040000000, dst := 0x1040010000, elemLen := 8, n0 := 1, n1 := 1, n2 := 1 }]⟩ : Descs).list.all hostDescOk = true ∧ (st fun d => { d with fab := { d.fab with layer := 0 }, dma := List.replicate 32 { owner := 1 } } : State).dev.fab.layer = 0 ∧
    (nth (st fun d => { d with fab := { d.fab with layer := 0 }, dma := List.replicate 32 { owner := 1 } } : State).dev.dma 23).isFree = true ∧ (st fun d => { d with fab := { d.fab with layer := 0 }, dma := List.replicate 32 { owner := 1 } } : State).dev.dma.any DmaCh.isFree = true ∧
    starts (st fun d => { d with dma := [], fab := { d.fab with layer := 0 } } : State).dev hdrW (cmd 0x0D10) = true ∧
    16 ≤ 23 ∧ 23 ≤ 23 ∧ (⟨[{ src := 0x1040000000, dst := 0x1040010000, elemLen := 8, n0 := 1, n1 := 1, n2 := 1 }]⟩ : Descs).list.isEmpty = false ∧ (⟨[{ src := 0x1040000000, dst := 0x1040010000, elemLen := 8, n0 := 1, n1 := 1, n2 := 1 }]⟩ : Descs).list.length ≤ 16 ∧ (⟨[{ src := 0x1040000000, dst := 0x1040010000, elemLen := 8, n0 := 1, n1 := 1, n2 := 1 }]⟩ : Descs).list.all hostDescOk = true ∧ (st fun d => { d with dma := [], fab := { d.fab with layer := 0 } } : State).dev.fab.layer = 0 ∧
    (st fun d => { d with dma := [], fab := { d.fab with layer := 0 } } : State).dev.dma.any DmaCh.isFree = false ∧
    starts unitW.dev hdrW (ask 0x0D11 [4, 5, 4, 2, 2, 2, 4]) = true ∧
    31 ≤ 31 ∧
    starts (st fun d => { d with dma := List.replicate 32 { owner := 1 } } : State).dev hdrW (cmd 0x0D12 [4]) = true ∧
    23 ≤ 31 ∧ (nth (st fun d => { d with dma := List.replicate 32 { owner := 1 } } : State).dev.dma 23).owner = 1 ∧
    starts unitW.dev hdrW (cmd 0x0D13) = true ∧
    (24 ≤ 31 ∧ 31 ≤ 31 ∧ (0xFF = 0xFF ∨ 4 ≤ 0xFF ∧ 0xFF ≤ 7) ∧ (nth unitW.dev.dma 31).enable = false) ∧
    (nth unitW.dev.dma 31).enable = false ∧
    (nth (st fun d => { d with dma := List.replicate 32 { enable := true, owner := 1, st := 3 } } : State).dev.dma 16).enable = true ∧ (nth (st fun d => { d with dma := List.replicate 32 { enable := true, owner := 1, st := 3 } } : State).dev.dma 16).st ≠ 2 ∧ (nth (st fun d => { d with dma := List.replicate 32 { enable := true, owner := 1, st := 3 } } : State).dev.dma 16).owner = 1 ∧
    (nth (st fun d => { d with dma := List.replicate 32 { enable := true, owner := 7, st := 1 } } : State).dev.dma 31).enable = true ∧ (nth (st fun d => { d with dma := List.replicate 32 { enable := true, owner := 7, st := 1 } } : State).dev.dma 31).st = 1 ∧ (nth (st fun d => { d with dma := List.replicate 32 { enable := true, owner := 7, st := 1 } } : State).dev.dma 31).reread = false ∧
    chanMay (st fun d => { d with dma := List.replicate 32 { enable := true, owner := 7, st := 1 } } : State).dev (nth (st fun d => { d with dma := List.replicate 32 { enable := true, owner := 7, st := 1 } } : State).dev.dma 31) (nth (st fun d => { d with dma := List.replicate 32 { enable := true, owner := 7, st := 1 } } : State).dev.dma 31).desc 64 false true = false ∧
    (nth (dmaW 2 { descW with n2 := 0, link := 64 } : State).dev.dma 31).fetched = some ({ descW with n2 := 0, link := 64 } : Desc) ∧ (nth (dmaW 2 { descW with n2 := 0, link := 64 } : State).dev.dma 31).enable = true ∧ (nth (dmaW 2 { descW with n2 := 0, link := 64 } : State).dev.dma 31).st = 2 ∧ ({ descW with n2 := 0, link := 64 } : Desc).n2 ≤ (nth (dmaW 2 { descW with n2 := 0, link := 64 } : State).dev.dma 31).i2 ∧
    ({ descW with n2 := 0, link := 64 } : Desc).ctl.testBit 18 = false ∧ ({ descW with n2 := 0, link := 64 } : Desc).ctl.testBit 23 = false ∧ ({ descW with n2 := 0, link := 64 } : Desc).link % 2 = 0 ∧
    (nth (dmaW 2 { descW with n2 := 0 } : State).dev.dma 31).fetched = some ({ descW with n2 := 0 } : Desc) ∧ (nth (dmaW 2 { descW with n2 := 0 } : State).dev.dma 31).enable = true ∧ (nth (dmaW 2 { descW with n2 := 0 } : State).dev.dma 31).st = 2 ∧ ({ descW with n2 := 0 } : Desc).n2 ≤ (nth (dmaW 2 { descW with n2 := 0 } : State).dev.dma 31).i2 ∧
    ({ descW with n2 := 0 } : Desc).ctl.testBit 18 = false ∧ ({ descW with n2 := 0 } : Desc).ctl.testBit 23 = false ∧ ({ descW with n2 := 0 } : Desc).link % 2 = 1 ∧
    (nth (dmaW 2 { descW with n2 := 0 } : State).dev.dma 31).owner ≠ 1 ∧ ({ descW with n2 := 0 } : Desc).ctl.testBit 16 = false ∧ (nth (dmaW 2 { descW with n2 := 0 } : State).dev.dma 31).append = (nth (dmaW 2 { descW with n2 := 0 } : State).dev.dma 31).sample ∧
    domOn unitW.dev (windowDomain 0) = true ∧
    domOn (st fun d => { d with pwr := { d.pwr with domains := [] } } : State).dev (windowDomain 0x800000000) = false := by
  and_intros <;> decide +kernel

theorem witness_MacSlotOperations :
    macNext (coreW 0 (0x0 * 2 ^ 60) : State).dev 4 [(16, 4, 0x0)] = true ∧
    macNext (coreW 0 (0x1 * 2 ^ 60) : State).dev 4 [(16, 4, 0x1), (14, 2, 0), (9, 5, 0), (4, 5, 0), (2, 2, 0)] = true ∧
    macNext (coreW 0 (0x2 * 2 ^ 60) : State).dev 4 [(16, 4, 0x2), (14, 2, 0), (9, 5, 0), (4, 5, 0), (2, 2, 0)] = true ∧
    macNext (coreW 0 (0x3 * 2 ^ 60) : State).dev 4 [(16, 4, 0x3), (14, 2, 0), (9, 5, 0), (4, 5, 0), (2, 2, 0)] = true ∧
    macNext (coreW 0 (0x4 * 2 ^ 60) : State).dev 4 [(16, 4, 0x4), (14, 2, 0)] = true ∧
    macNext (coreW 0 (0x5 * 2 ^ 60) : State).dev 4 [(16, 4, 0x5), (14, 2, 0), (4, 5, 0)] = true ∧
    macNext (coreW 0 (0x6 * 2 ^ 60) : State).dev 4 [(16, 4, 0x6), (14, 2, 0), (4, 5, 0)] = true ∧
    macNext (coreW 0 (0x7 * 2 ^ 60) : State).dev 4 [(16, 4, 0x7), (14, 2, 0), (4, 5, 0)] = true ∧
    macNext (coreW 0 (0x8 * 2 ^ 60) : State).dev 4 [(16, 4, 0x8), (14, 2, 0), (4, 5, 0)] = true ∧
    macNext (coreW 0 (0x9 * 2 ^ 60) : State).dev 4 [(16, 4, 0x9), (14, 2, 0), (9, 5, 0), (4, 5, 0)] = true ∧
    macNext (coreW 0 (0xA * 2 ^ 60) : State).dev 4 [(16, 4, 0xA), (14, 2, 0), (9, 5, 0), (4, 5, 0)] = true ∧
    macNext (coreW 0 (0xB * 2 ^ 60) : State).dev 4 [(16, 4, 0xB), (14, 2, 0), (9, 5, 0)] = true ∧
    macNext (coreW 0 (0xC * 2 ^ 60) : State).dev 4 [(16, 4, 0xC), (14, 2, 0)] = true := by
  and_intros <;> decide +kernel

theorem witness_AluArithmetic :
    aluNext (coreW 1 (0x00 * 2 ^ 38) : State).dev 4 [(16, 6, 0x00)] = true ∧
    aluNext (coreW 1 (0x01 * 2 ^ 38) : State).dev 4 [(16, 6, 0x01), (11, 5, 0), (6, 5, 0), (1, 5, 0)] = true ∧
    aluNext (coreW 1 (0x02 * 2 ^ 38) : State).dev 4 [(16, 6, 0x02), (11, 5, 0), (6, 5, 0), (1, 5, 0)] = true ∧
    aluNext (coreW 1 (0x03 * 2 ^ 38) : State).dev 4 [(16, 6, 0x03), (11, 5, 0), (6, 5, 0)] = true ∧
    aluNext (coreW 1 (0x04 * 2 ^ 38) : State).dev 4 [(16, 6, 0x04), (11, 5, 0), (6, 5, 0)] = true ∧
    aluNext (coreW 1 (0x05 * 2 ^ 38) : State).dev 4 [(16, 6, 0x05), (11, 5, 0), (6, 5, 0)] = true ∧
    aluNext (coreW 1 (0x06 * 2 ^ 38) : State).dev 4 [(16, 6, 0x06), (11, 5, 0), (6, 5, 0), (1, 5, 0)] = true ∧
    aluNext (coreW 1 (0x07 * 2 ^ 38) : State).dev 4 [(16, 6, 0x07), (11, 5, 0), (6, 5, 0), (1, 5, 0)] = true ∧
    aluNext (coreW 1 (0x08 * 2 ^ 38) : State).dev 4 [(16, 6, 0x08), (11, 5, 0), (6, 5, 0), (1, 5, 0)] = true ∧
    aluNext (coreW 1 (0x09 * 2 ^ 38) : State).dev 4 [(16, 6, 0x09), (11, 5, 0), (6, 5, 0), (1, 5, 0)] = true ∧
    aluNext (coreW 1 (0x0A * 2 ^ 38) : State).dev 4 [(16, 6, 0x0A), (11, 5, 0), (6, 5, 0), (1, 5, 0)] = true ∧
    aluNext (coreW 1 (0x0B * 2 ^ 38) : State).dev 4 [(16, 6, 0x0B), (11, 5, 0), (6, 5, 0), (1, 5, 0)] = true ∧
    aluNext (coreW 1 (0x0C * 2 ^ 38) : State).dev 4 [(16, 6, 0x0C), (11, 5, 0), (6, 5, 0), (1, 5, 0)] = true ∧
    aluNext (coreW 1 (0x0D * 2 ^ 38) : State).dev 4 [(16, 6, 0x0D), (11, 5, 0), (6, 5, 0), (1, 5, 0)] = true ∧
    aluNext (coreW 1 (0x0E * 2 ^ 38) : State).dev 4 [(16, 6, 0x0E), (11, 5, 0), (6, 5, 0)] = true ∧
    aluNext (coreW 1 (0x0F * 2 ^ 38) : State).dev 4 [(16, 6, 0x0F), (11, 5, 0), (6, 5, 0)] = true ∧
    aluNext (coreW 1 (0x10 * 2 ^ 38) : State).dev 4 [(16, 6, 0x10), (6, 5, 0)] = true ∧
    aluNext (coreW 1 (0x11 * 2 ^ 38) : State).dev 4 [(16, 6, 0x11)] = true ∧
    aluNext (coreW 1 (0x12 * 2 ^ 38) : State).dev 4 [(16, 6, 0x12), (6, 5, 0), (1, 5, 0)] = true ∧
    aluNext (coreW 1 (0x13 * 2 ^ 38) : State).dev 4 [(16, 6, 0x13), (6, 5, 0), (1, 5, 0)] = true ∧
    aluNext (coreW 1 (0x20 * 2 ^ 38) : State).dev 4 [(16, 6, 0x20), (11, 5, 0), (0, 11, ofSigned 11 (0 + 0 : Int))] = true ∧
    aluNext (coreW 1 (0x21 * 2 ^ 38) : State).dev 4 [(16, 6, 0x21), (11, 5, 0), (0, 11, ofSigned 11 (0 + 0 : Int))] = true ∧
    aluNext (coreW 1 (0x22 * 2 ^ 38) : State).dev 4 [(16, 6, 0x22), (11, 5, 0), (0, 11, ofSigned 11 (0 + 0 : Int))] = true ∧
    aluNext (coreW 1 (0x28 * 2 ^ 38) : State).dev 4 [(16, 6, 0x28), (6, 5, 0), (0, 6, 0)] = true ∧
    aluNext (coreW 1 (0x29 * 2 ^ 38) : State).dev 4 [(16, 6, 0x29), (11, 5, 0), (0, 6, 0)] = true := by
  and_intros <;> decide +kernel

theorem witness_AluControl :
    aluNext (coreW 1 (0x30 * 2 ^ 38) : State).dev 4 [(16, 6, 0x30), (0, 14, 0)] = true ∧
    aluNext (coreW 1 (0x31 * 2 ^ 38) : State).dev 4 [(16, 6, 0x31), (0, 14, 0)] = true ∧
    aluNext (coreW 1 (0x32 * 2 ^ 38) : State).dev 4 [(16, 6, 0x32), (0, 14, 0)] = true ∧
    aluNext (coreW 1 (0x33 * 2 ^ 38) : State).dev 4 [(16, 6, 0x33), (0, 14, 0)] = true ∧
    aluNext (coreW 1 (0x34 * 2 ^ 38) : State).dev 4 [(16, 6, 0x34)] = true ∧
    aluNext (coreW 1 (0x35 * 2 ^ 38) : State).dev 4 [(16, 6, 0x35)] = true ∧
    aluNext (coreW 1 (0x36 * 2 ^ 38) : State).dev 4 [(16, 6, 0x36), (15, 1, 0), (0, 14, 0)] = true ∧
    aluNext (coreW 1 (0x37 * 2 ^ 38) : State).dev 4 [(16, 6, 0x37), (15, 1, 0)] = true ∧
    aluNext (coreW 1 (0x38 * 2 ^ 38) : State).dev 4 [(16, 6, 0x38)] = true ∧
    aluNext (coreW 1 (0x39 * 2 ^ 38) : State).dev 4 [(16, 6, 0x39)] = true ∧
    aluNext (coreW 1 (0x3A * 2 ^ 38) : State).dev 4 [(16, 6, 0x3A)] = true ∧
    aluNext (coreW 1 (0x3B * 2 ^ 38) : State).dev 4 [(16, 6, 0x3B)] = true ∧
    aluNext (coreW 1 (0x3C * 2 ^ 38) : State).dev 4 [(16, 6, 0x3C)] = true ∧
    aluNext (coreW 1 (0x3D * 2 ^ 38 + 2047 * 2 ^ 22) : State).dev 4 [(16, 6, 0x3D), (0, 11, ofSigned 11 (0 - 1 : Int))] = true ∧
    Core.takes (coreG 0 0 fun c => { c with flags := 2, istat := 1, imask := 1 } : State).dev 4 0 = true ∧ (nth (coreG 0 0 fun c => { c with flags := 2, istat := 1, imask := 1 } : State).dev.cores 4).irqDue = true := by
  and_intros <;> decide +kernel

theorem witness_LoadsAndStores :
    lsNext (coreW 2 (1 * 2 ^ 18) : State).dev 4 [(18, 4, 1), (13, 5, 0), (10, 3, 0), (9, 1, b2n false), (0, 9, ofSigned 9 (0 + 0 : Int))] = true ∧
    (nth (coreW 2 (1 * 2 ^ 18) : State).dev.cores 4).dataAddr 0 (0 + 0 : Int) 4 4 = some 0 ∧ (readSpan (coreW 2 (1 * 2 ^ 18) : State).dev (dataKey 4 + 0) 4).2.1.isEmpty = true ∧
    lsNext (coreW 2 (1 * 2 ^ 18 + 511) : State).dev 4 [(18, 4, 1), (13, 5, 0), (10, 3, 0), (9, 1, b2n false), (0, 9, ofSigned 9 (0 - 1 : Int))] = true ∧
    (nth (coreW 2 (1 * 2 ^ 18 + 511) : State).dev.cores 4).dataAddr 0 (0 - 1 : Int) 4 4 = none ∧
    lsNext (thornW (1 * 2 ^ 18) : State).dev 4 [(18, 4, 1), (13, 5, 0), (10, 3, 0), (9, 1, b2n false), (0, 9, ofSigned 9 (0 + 0 : Int))] = true ∧
    (nth (thornW (1 * 2 ^ 18) : State).dev.cores 4).dataAddr 0 (0 + 0 : Int) 4 4 = some 0 ∧ (readSpan (thornW (1 * 2 ^ 18) : State).dev (dataKey 4 + 0) 4).2.1.isEmpty = false ∧
    lsNext (coreW 2 (2 * 2 ^ 18) : State).dev 4 [(18, 4, 2), (13, 5, 0), (10, 3, 0), (9, 1, b2n false), (0, 9, ofSigned 9 (0 + 0 : Int))] = true ∧
    (nth (coreW 2 (2 * 2 ^ 18) : State).dev.cores 4).dataAddr 0 (0 + 0 : Int) 8 8 = some 0 ∧ (readSpan (coreW 2 (2 * 2 ^ 18) : State).dev (dataKey 4 + 0) 8).2.1.isEmpty = true ∧
    lsNext (coreW 2 (5 * 2 ^ 18) : State).dev 4 [(18, 4, 5), (13, 5, 0), (10, 3, 0), (9, 1, b2n false), (0, 9, ofSigned 9 (0 + 0 : Int))] = true ∧
    (nth (coreW 2 (5 * 2 ^ 18) : State).dev.cores 4).dataAddr 0 (0 + 0 : Int) 2 2 = some 0 ∧ (readSpan (coreW 2 (5 * 2 ^ 18) : State).dev (dataKey 4 + 0) 2).2.1.isEmpty = true ∧
    lsNext (coreW 2 (7 * 2 ^ 18) : State).dev 4 [(18, 4, 7), (13, 5, 0), (10, 3, 0), (9, 1, b2n false), (0, 9, ofSigned 9 (0 + 0 : Int))] = true ∧
    (nth (coreW 2 (7 * 2 ^ 18) : State).dev.cores 4).dataAddr 0 (0 + 0 : Int) 1 1 = some 0 ∧ (readSpan (coreW 2 (7 * 2 ^ 18) : State).dev (dataKey 4 + 0) 1).2.1.isEmpty = true ∧
    lsNext (coreW 2 (8 * 2 ^ 18) : State).dev 4 [(18, 4, 8), (13, 5, 0), (10, 3, 0), (9, 1, b2n false), (0, 9, ofSigned 9 (0 + 0 : Int))] = true ∧
    (nth (coreW 2 (8 * 2 ^ 18) : State).dev.cores 4).dataAddr 0 (0 + 0 : Int) 2 2 = some 0 ∧ (readSpan (coreW 2 (8 * 2 ^ 18) : State).dev (dataKey 4 + 0) 2).2.1.isEmpty = true ∧
    lsNext (coreW 2 (9 * 2 ^ 18) : State).dev 4 [(18, 4, 9), (13, 5, 0), (10, 3, 0), (9, 1, b2n false), (0, 9, ofSigned 9 (0 + 0 : Int))] = true ∧
    (nth (coreW 2 (9 * 2 ^ 18) : State).dev.cores 4).dataAddr 0 (0 + 0 : Int) 3 1 = some 0 ∧ (readSpan (coreW 2 (9 * 2 ^ 18) : State).dev (dataKey 4 + 0) 3).2.1.isEmpty = true ∧
    lsNext (coreW 2 (3 * 2 ^ 18) : State).dev 4 [(18, 4, 3), (13, 5, 0), (10, 3, 0), (9, 1, b2n false), (0, 9, ofSigned 9 (0 + 0 : Int))] = true ∧
    (nth (coreW 2 (3 * 2 ^ 18) : State).dev.cores 4).dataAddr 0 (0 + 0 : Int) 4 4 = some 0 ∧
    lsNext (coreW 2 (4 * 2 ^ 18) : State).dev 4 [(18, 4, 4), (13, 5, 0), (10, 3, 0), (9, 1, b2n false), (0, 9, ofSigned 9 (0 + 0 : Int))] = true ∧
    (nth (coreW 2 (4 * 2 ^ 18) : State).dev.cores 4).dataAddr 0 (0 + 0 : Int) 8 8 = some 0 ∧
    lsNext (coreW 2 (6 * 2 ^ 18) : State).dev 4 [(18, 4, 6), (13, 5, 0), (10, 3, 0), (9, 1, b2n false), (0, 9, ofSigned 9 (0 + 0 : Int))] = true ∧
    (nth (coreW 2 (6 * 2 ^ 18) : State).dev.cores 4).dataAddr 0 (0 + 0 : Int) 2 2 = some 0 ∧
    lsNext (coreW 2 (0xA * 2 ^ 18) : State).dev 4 [(18, 4, 0xA), (13, 5, 0), (10, 3, 0), (9, 1, b2n false), (0, 9, ofSigned 9 (0 + 0 : Int))] = true ∧
    (nth (coreW 2 (0xA * 2 ^ 18) : State).dev.cores 4).dataAddr 0 (0 + 0 : Int) 3 1 = some 0 ∧
    lsNext (coreW 2 0 : State).dev 4 [(18, 4, 0)] = true ∧
    lsNext (coreG 2 (0xD * 2 ^ 18) fun c => { c with z := upd c.z 0 fun _ => 0x80000000, img := { c.img with windows := [{ size := 1, access := 2, target := 2, base := 0x101000000 }] } } : State).dev 4 [(18, 4, 0xD), (13, 5, 0), (10, 3, 0), (9, 1, b2n false), (0, 9, ofSigned 9 (0 + 0 : Int))] = true ∧
    (nth (coreG 2 (0xD * 2 ^ 18) fun c => { c with z := upd c.z 0 fun _ => 0x80000000, img := { c.img with windows := [{ size := 1, access := 2, target := 2, base := 0x101000000 }] } } : State).dev.cores 4).aperture ((nth (coreG 2 (0xD * 2 ^ 18) fun c => { c with z := upd c.z 0 fun _ => 0x80000000, img := { c.img with windows := [{ size := 1, access := 2, target := 2, base := 0x101000000 }] } } : State).dev.cores 4).zr 0) 64 false = some 0x101000000 ∧ (nth (coreG 2 (0xD * 2 ^ 18) fun c => { c with z := upd c.z 0 fun _ => 0x80000000, img := { c.img with windows := [{ size := 1, access := 2, target := 2, base := 0x101000000 }] } } : State).dev.cores 4).dataAddr 0 (0 + 0 : Int) 64 64 = some 0 ∧
    (nth (coreG 2 (0xD * 2 ^ 18) fun c => { c with z := upd c.z 0 fun _ => 0x80000000, img := { c.img with windows := [{ size := 1, access := 2, target := 2, base := 0x101000000 }] } } : State).dev.cores 4).zr 0 % 64 = 0 ∧ (nth (coreG 2 (0xD * 2 ^ 18) fun c => { c with z := upd c.z 0 fun _ => 0x80000000, img := { c.img with windows := [{ size := 1, access := 2, target := 2, base := 0x101000000 }] } } : State).dev.cores 4).xfers.length < 8 ∧
    lsNext (coreW 2 (0xD * 2 ^ 18) : State).dev 4 [(18, 4, 0xD), (13, 5, 0), (10, 3, 0), (9, 1, b2n false), (0, 9, ofSigned 9 (0 + 0 : Int))] = true ∧
    (nth (coreW 2 (0xD * 2 ^ 18) : State).dev.cores 4).aperture ((nth (coreW 2 (0xD * 2 ^ 18) : State).dev.cores 4).zr 0) 64 false = none ∧
    lsNext (coreG 2 (0xE * 2 ^ 18) fun c => { c with z := upd c.z 0 fun _ => 0x80000000, img := { c.img with windows := [{ size := 1, access := 2, target := 2, base := 0x101000000 }] } } : State).dev 4 [(18, 4, 0xE), (13, 5, 0), (10, 3, 0), (9, 1, b2n false), (0, 9, ofSigned 9 (0 + 0 : Int))] = true ∧
    (nth (coreG 2 (0xE * 2 ^ 18) fun c => { c with z := upd c.z 0 fun _ => 0x80000000, img := { c.img with windows := [{ size := 1, access := 2, target := 2, base := 0x101000000 }] } } : State).dev.cores 4).aperture ((nth (coreG 2 (0xE * 2 ^ 18) fun c => { c with z := upd c.z 0 fun _ => 0x80000000, img := { c.img with windows := [{ size := 1, access := 2, target := 2, base := 0x101000000 }] } } : State).dev.cores 4).zr 0) 64 true = some 0x101000000 ∧ (nth (coreG 2 (0xE * 2 ^ 18) fun c => { c with z := upd c.z 0 fun _ => 0x80000000, img := { c.img with windows := [{ size := 1, access := 2, target := 2, base := 0x101000000 }] } } : State).dev.cores 4).dataAddr 0 (0 + 0 : Int) 64 64 = some 0 ∧
    (nth (coreG 2 (0xE * 2 ^ 18) fun c => { c with z := upd c.z 0 fun _ => 0x80000000, img := { c.img with windows := [{ size := 1, access := 2, target := 2, base := 0x101000000 }] } } : State).dev.cores 4).zr 0 % 64 = 0 ∧ (nth (coreG 2 (0xE * 2 ^ 18) fun c => { c with z := upd c.z 0 fun _ => 0x80000000, img := { c.img with windows := [{ size := 1, access := 2, target := 2, base := 0x101000000 }] } } : State).dev.cores 4).xfers.length < 8 ∧
    lsNext (coreW 2 (0xE * 2 ^ 18) : State).dev 4 [(18, 4, 0xE), (13, 5, 0), (10, 3, 0), (9, 1, b2n false), (0, 9, ofSigned 9 (0 + 0 : Int))] = true ∧
    (nth (coreW 2 (0xE * 2 ^ 18) : State).dev.cores 4).aperture ((nth (coreW 2 (0xE * 2 ^ 18) : State).dev.cores 4).zr 0) 64 true = none := by
  and_intros <;> decide +kernel

theorem witness_CoreIoSpace_1_iord :
    lsNext (coreG 2 (0xB * 2 ^ 18 + 1) fun c => { c with imask := 6 } : State).dev 4 [(18, 4, 0xB), (13, 5, 0), (0, 9, ofSigned 9 (0 + 1 : Int))] = true ∧
    0 ≤ (0 + 1 : Int) ∧ ioRead (coreG 2 (0xB * 2 ^ 18 + 1) fun c => { c with imask := 6 } : State).dev 4 ((0 + 1 : Int).toNat * 4) = some (6, ((coreG 2 (0xB * 2 ^ 18 + 1) fun c => { c with imask := 6 }).dev : Dev)) ∧
    (256 ≤ (0 + 1 : Int).toNat * 4 ∧ (0 + 1 : Int).toNat * 4 < 384 → ((nth (coreG 2 (0xB * 2 ^ 18 + 1) fun c => { c with imask := 6 } : State).dev.cores 4).xfers.any (·.write)) = false) := by
  exact ⟨by decide, by decide, rfl, by decide⟩

theorem witness_CoreIoSpace_3_iowr :
    lsNext (coreW 2 (0xC * 2 ^ 18 + 1) : State).dev 4 [(18, 4, 0xC), (13, 5, 0), (0, 9, ofSigned 9 (0 + 1 : Int))] = true ∧
    0 ≤ (0 + 1 : Int) ∧ ioWrite (coreW 2 (0xC * 2 ^ 18 + 1) : State).dev 4 ((0 + 1 : Int).toNat * 4) ((nth (coreW 2 (0xC * 2 ^ 18 + 1) : State).dev.cores 4).zr 0) = some ((coreW 2 (0xC * 2 ^ 18 + 1)).dev.onCore 4 fun c => { c with imask := (nth (coreW 2 (0xC * 2 ^ 18 + 1)).dev.cores 4).zr 0 % 128 } : Dev) ∧
    (256 ≤ (0 + 1 : Int).toNat * 4 ∧ (0 + 1 : Int).toNat * 4 < 384 → ((nth (coreW 2 (0xC * 2 ^ 18 + 1) : State).dev.cores 4).xfers.any (·.write)) = false) := by
  exact ⟨by decide, by decide, rfl, by decide⟩

theorem witness_CoreIoSpace :
    lsNext (coreW 2 (0xB * 2 ^ 18 + 9) : State).dev 4 [(18, 4, 0xB), (13, 5, 0), (0, 9, ofSigned 9 (0 + 9 : Int))] = true ∧
    0 ≤ (0 + 9 : Int) ∧ ioRead (coreW 2 (0xB * 2 ^ 18 + 9) : State).dev 4 ((0 + 9 : Int).toNat * 4) = none ∧
    (256 ≤ (0 + 9 : Int).toNat * 4 ∧ (0 + 9 : Int).toNat * 4 < 384 → ((nth (coreW 2 (0xB * 2 ^ 18 + 9) : State).dev.cores 4).xfers.any (·.write)) = false) ∧
    lsNext (coreW 2 (0xB * 2 ^ 18 + 2) : State).dev 4 [(18, 4, 0xB), (13, 5, 0), (0, 9, 2)] = true ∧
    lsNext (coreW 2 (0xB * 2 ^ 18 + 4) : State).dev 4 [(18, 4, 0xB), (13, 5, 0), (0, 9, 4)] = true ∧
    lsNext (coreW 2 (0xB * 2 ^ 18 + 128) : State).dev 4 [(18, 4, 0xB), (13, 5, 0), (0, 9, 0x80)] = true ∧
    (nth (coreW 2 (0xB * 2 ^ 18 + 128) : State).dev.cores 4).img.sports.testBit 0 = false ∧
    lsNext (coreG 2 (0xB * 2 ^ 18 + 128) fun c => { c with ring := [0x80000001, 0], img := { c.img with sports := 1, windows := [{ size := 1, access := 1, target := 1, base := 0x1040000000 }] } } : State).dev 4 [(18, 4, 0xB), (13, 5, 0), (0, 9, 0x80)] = true ∧
    (nth (coreG 2 (0xB * 2 ^ 18 + 128) fun c => { c with ring := [0x80000001, 0], img := { c.img with sports := 1, windows := [{ size := 1, access := 1, target := 1, base := 0x1040000000 }] } } : State).dev.cores 4).img.sports.testBit 0 = true ∧ (nth (coreG 2 (0xB * 2 ^ 18 + 128) fun c => { c with ring := [0x80000001, 0], img := { c.img with sports := 1, windows := [{ size := 1, access := 1, target := 1, base := 0x1040000000 }] } } : State).dev.cores 4).ringAt 0 false = some 0x1040000000 ∧ domOn (coreG 2 (0xB * 2 ^ 18 + 128) fun c => { c with ring := [0x80000001, 0], img := { c.img with sports := 1, windows := [{ size := 1, access := 1, target := 1, base := 0x1040000000 }] } } : State).dev 9 = true ∧ storeOf 0x1040000000 = some 3 ∧
    lsNext (coreW 2 (0xC * 2 ^ 18 + 0x84) : State).dev 4 [(18, 4, 0xC), (13, 5, 0), (0, 9, 0x84)] = true ∧
    (nth (coreW 2 (0xC * 2 ^ 18 + 0x84) : State).dev.cores 4).zr 0 = 0 ∧
    lsNext (coreW 2 (0xC * 2 ^ 18 + 7) : State).dev 4 [(18, 4, 0xC), (13, 5, 0), (0, 9, 7)] = true ∧
    (nth (coreW 2 (0xC * 2 ^ 18 + 7) : State).dev.cores 4).zr 0 = 0 ∧
    lsNext (coreW 2 (0xC * 2 ^ 18 + 0x30) : State).dev 4 [(18, 4, 0xC), (13, 5, 0), (0, 9, 0x30)] = true ∧
    (nth (coreW 2 (0xC * 2 ^ 18 + 0x30) : State).dev.cores 4).zr 0 = 0 ∧ (nth (coreW 2 (0xC * 2 ^ 18 + 0x30) : State).dev.cores 4).lastSend = none ∧
    lsNext (coreG 2 (0xC * 2 ^ 18 + 0x30) fun c => { c with lastSend := some 0 } : State).dev 4 [(18, 4, 0xC), (13, 5, 0), (0, 9, 0x30)] = true ∧
    (nth (coreG 2 (0xC * 2 ^ 18 + 0x30) fun c => { c with lastSend := some 0 } : State).dev.cores 4).zr 0 = 0 ∧ (nth (coreG 2 (0xC * 2 ^ 18 + 0x30) fun c => { c with lastSend := some 0 } : State).dev.cores 4).lastSend = some 0 ∧ (coreG 2 (0xC * 2 ^ 18 + 0x30) fun c => { c with lastSend := some 0 } : State).dev.now < 0 + 196608 := by
  and_intros <;> decide +kernel

theorem witness_AppletCommands_1_appletLoad :
    starts imageS.dev hdrW (cmd 0x0E00 [4, 1, 1]) = true ∧
    appletLoadCheck 1 7 ([] : List Nat) true (found imageS.dev hdrW) = none := by decide +kernel

theorem witness_AppletCommands :
    starts (coresW 1 : State).dev hdrW (cmd 0x0E01) = true ∧
    4 ≤ 7 ∧ 7 ≤ 7 ∧ (nth (coresW 1 : State).dev.cores 7).startable = true ∧
    starts (coresW 2 : State).dev hdrW (cmd 0x0E02 [2, 8]) = true ∧
    4 ≤ 7 ∧ 7 ≤ 7 ∧ (nth (coresW 2 : State).dev.cores 7).live = true ∧
    starts (coresW 4 : State).dev hdrW (cmd 0x0E03) = true ∧
    4 ≤ 7 ∧ 7 ≤ 7 ∧ (nth (coresW 4 : State).dev.cores 7).st ≠ 0 ∧
    starts unitW.dev hdrW (ask 0x0E04 ([4, 1, 2, 2, 5, 8, 8] ++ List.replicate 20 1)) = true ∧
    4 ≤ 7 ∧ 7 ≤ 7 ∧
    starts (coresW 2 : State).dev hdrW (cmd 0x0E05) = true ∧
    4 ≤ 7 ∧ 7 ≤ 7 ∧ (nth (coresW 2 : State).dev.cores 7).live = true ∧
    starts unitW.dev hdrW (ask 0x0E06 (spanWidths 8192 8 [1])) = true ∧
    4 ≤ 7 ∧ 7 ≤ 7 ∧ 0x7FFF8 % 8 = 0 ∧ 1 ≤ 8 ∧ 8 ≤ 8192 ∧ 0x7FFF8 + 8 ≤ 0x80000 ∧
    (nth unitW.dev.cores 7).live = false ∧ domOn unitW.dev 6 = true ∧ (readSpan (found unitW.dev hdrW) (dataKey 7 + 0x7FFF8) 8).2.1 = [] ∧
    starts unitW.dev hdrW (cmd 0x0E07) = true ∧
    4 ≤ 7 ∧ 7 ≤ 7 ∧ 0x7FFF8 % 8 = 0 ∧ 1 ≤ ([1, 2, 3] : List Nat).length ∧ ([1, 2, 3] : List Nat).length ≤ 8192 ∧ 0x7FFF8 + ([1, 2, 3] : List Nat).length ≤ 0x80000 ∧
    (nth unitW.dev.cores 7).live = false ∧ domOn unitW.dev 6 = true ∧
    starts unitW.dev hdrW (ask 0x0E08 (List.replicate 8 4 ++ List.replicate 8 2)) = true ∧
    starts unitW.dev hdrW (askClear 0x0E09 1 [8, 4, 4, 4, 4, 4, 4]) = true ∧
    4 ≤ 7 ∧ 7 ≤ 7 ∧ 1 ≤ 1 := by
  and_intros <;> decide +kernel

theorem witness_AppletHappenings_2_transferDone :
    (nth xferS.dev.cores 4).xfers = [xferW] ∧ xferW.write = true ∧
    busDo xferS.dev { master := 2 + 4, addr := xferW.addr, len := 64, write := xferW.write, data := xferW.data, thorn := xferW.thorn } = some (none, ((busW xferS xferReq).2.1 : FabResp), ((busW xferS xferReq).2.2 : Dev)) := by
  exact ⟨by decide, by decide, busW_ok (s := xferS) (r := xferReq) (by decide +kernel)⟩

theorem witness_AppletHappenings :
    (nth unitW.dev.cores 7).xfers = [] ∧
    (nth xferS.dev.cores 4).live = true ∧ (nth xferS.dev.cores 4).xfers.any (·.addr == 0x101000000) = true ∧
    (nth (st fun d => { d with tmb := { d.tmb with cyc := 2048 }, cores := upd d.cores 4 fun c => { c with st := 2, img := { c.img with watchdog := 1 } } } : State).dev.cores 4).live = true ∧ (nth (st fun d => { d with tmb := { d.tmb with cyc := 2048 }, cores := upd d.cores 4 fun c => { c with st := 2, img := { c.img with watchdog := 1 } } } : State).dev.cores 4).img.watchdog ≠ 0 ∧ (nth (st fun d => { d with tmb := { d.tmb with cyc := 2048 }, cores := upd d.cores 4 fun c => { c with st := 2, img := { c.img with watchdog := 1 } } } : State).dev.cores 4).wdtAt + 2048 * (nth (st fun d => { d with tmb := { d.tmb with cyc := 2048 }, cores := upd d.cores 4 fun c => { c with st := 2, img := { c.img with watchdog := 1 } } } : State).dev.cores 4).img.watchdog ≤ (st fun d => { d with tmb := { d.tmb with cyc := 2048 }, cores := upd d.cores 4 fun c => { c with st := 2, img := { c.img with watchdog := 1 } } } : State).dev.now ∧
    (nth unitW.dev.cores 7).img.watchdog = 0 ∧
    (due 0x0E01 (fun e x => domOn e 6 && (nth e.cores (x.stake.target % 8)).startable) ({ coresW 1 with dev := { (coresW 1).dev with tmb := { (coresW 1).dev.tmb with stakes := [{ qD 0x0E01 with stake := { (qD 0x0E01).stake with target := 4 } }] } } } : State).dev ({ qD 0x0E01 with stake := { (qD 0x0E01).stake with target := 4 } } : QStake) = true) ∧
    (due 0x0E02 (fun e x => domOn e 6 && (nth e.cores (x.stake.target % 8)).live) ({ coresW 2 with dev := { (coresW 2).dev with tmb := { (coresW 2).dev.tmb with stakes := [{ qD 0x0E02 with stake := { (qD 0x0E02).stake with target := 4 } }] } } } : State).dev ({ qD 0x0E02 with stake := { (qD 0x0E02).stake with target := 4 } } : QStake) = true) ∧
    6 = 6 ∧ (nth (st fun d => { d with cores := upd d.cores 4 fun c => { c with st := 2, img := { c.img with sports := 1 } } } : State).dev.cores 4).live = true ∧ (nth (st fun d => { d with cores := upd d.cores 4 fun c => { c with st := 2, img := { c.img with sports := 1 } } } : State).dev.cores 4).img.sports.testBit 0 = true ∧ nth (nth (st fun d => { d with cores := upd d.cores 4 fun c => { c with st := 2, img := { c.img with sports := 1 } } } : State).dev.cores 4).mark 0 ≤ (nth (st fun d => { d with cores := upd d.cores 4 fun c => { c with st := 2, img := { c.img with sports := 1 } } } : State).dev.mem.ports 6).fill * 128 ∧
    7 = 7 ∧ (nth (st fun d => { d with cores := upd d.cores 4 fun c => { c with st := 2, img := { c.img with sports := 2 } } } : State).dev.cores 4).live = true ∧ (nth (st fun d => { d with cores := upd d.cores 4 fun c => { c with st := 2, img := { c.img with sports := 2 } } } : State).dev.cores 4).img.sports.testBit 1 = true ∧ (nth (st fun d => { d with cores := upd d.cores 4 fun c => { c with st := 2, img := { c.img with sports := 2 } } } : State).dev.mem.ports 7).fill * 128 ≤ nth (nth (st fun d => { d with cores := upd d.cores 4 fun c => { c with st := 2, img := { c.img with sports := 2 } } } : State).dev.cores 4).mark 1 := by
  and_intros <;> decide +kernel

theorem witness_PowerCommands :
    starts unitW.dev hdrW (ask 0x0F00 [4, 4, 4, 2, 2]) = true ∧
    starts unitW.dev hdrW (cmd 0x0F01 [4]) = true ∧
    pwrStateSetCheck 4 0 (found unitW.dev hdrW) = none ∧
    0 = 0 ∧
    starts unitW.dev hdrW (cmd 0x0F02) = true ∧
    60 ≤ 290 ∧ 290 ≤ 290 ∧
    starts unitW.dev hdrW (ask 0x0F03 [1, 1, 4, 8]) = true ∧
    starts unitW.dev hdrW (askClear 0x0F32 1 (List.replicate 7 4)) = true ∧
    1 ≤ 1 ∧
    starts unitW.dev hdrW (cmd 0x0F10 [8]) = true ∧
    biasSetCheck 133 65535 0xFF (found unitW.dev hdrW) = none ∧
    0xFF = 0xFF ∧
    starts unitW.dev hdrW (cmd 0x0F10 [8]) = true ∧
    biasSetCheck 133 65535 2 (found unitW.dev hdrW) = none ∧
    2 ≠ 0xFF ∧
    starts unitW.dev hdrW (ask 0x0F11 [4, 2, 4, 2]) = true ∧
    135 ≤ 135 ∧
    starts unitW.dev hdrW (cmd 0x0F12) = true ∧
    133 ≤ 133 ∧ ([65535] : List Nat).isEmpty = false ∧ ([65535] : List Nat).length ≤ 32 ∧ ([65535] : List Nat).any (overFloor unitW.dev 133) = false ∧
    ((queued unitW.dev).any (fun q => q.stake.action == 0x0F02 && (biasDacs q.stake.target).contains 133) = false) ∧
    starts unitW.dev hdrW (cmd 0x0F13) = true ∧
    63 ≤ 133 ∧ overFloor unitW.dev 63 54613 = false := by
  and_intros <;> decide +kernel

theorem witness_SupplyAndDomains_2_undervoltage :
    32999 < 33000 ∧ domOn unitW.dev 0 = true ∧ unitW.dev.pwr.failed = false ∧
    ((shutdown ((raiseEv (unitW.dev.onPwr fun p => { p with failSeen := true, ovSeen := p.ovSeen || false, uvSeen := p.uvSeen || true }) EV.pwrFail [a4 32999]).pwrCount 0 1) 3 85 32999 : Dev) = shutdown ((raiseEv (unitW.dev.onPwr fun p => { p with failSeen := true, ovSeen := p.ovSeen || false, uvSeen := p.uvSeen || true }) EV.pwrFail [a4 32999]).pwrCount 0 1) 3 85 32999) := by
  exact ⟨by decide, by decide, by decide, rfl⟩

theorem witness_SupplyAndDomains_4_overvoltage :
    62000 < 62001 ∧ domOn unitW.dev 0 = true ∧ unitW.dev.pwr.failed = false ∧
    ((shutdown ((raiseEv (unitW.dev.onPwr fun p => { p with failSeen := true, ovSeen := p.ovSeen || true, uvSeen := p.uvSeen || false }) EV.pwrFail [a4 62001]).pwrCount 0 1) 3 85 62001 : Dev) = shutdown ((raiseEv (unitW.dev.onPwr fun p => { p with failSeen := true, ovSeen := p.ovSeen || true, uvSeen := p.uvSeen || false }) EV.pwrFail [a4 62001]).pwrCount 0 1) 3 85 62001) := by
  exact ⟨by decide, by decide, by decide, rfl⟩

theorem witness_SupplyAndDomains_12_thermalRestart :
    (st fun d => { d with tmb := { d.tmb with cyc := 10 * tickHz }, pwr := { d.pwr with down := true, record := { d.pwr.record with cause := 1 }, chans := List.replicate 256 { below105 := some 0 } } } : State).dev.pwr.down = true ∧ (st fun d => { d with tmb := { d.tmb with cyc := 10 * tickHz }, pwr := { d.pwr with down := true, record := { d.pwr.record with cause := 1 }, chans := List.replicate 256 { below105 := some 0 } } } : State).dev.pwr.failed = false ∧ (st fun d => { d with tmb := { d.tmb with cyc := 10 * tickHz }, pwr := { d.pwr with down := true, record := { d.pwr.record with cause := 1 }, chans := List.replicate 256 { below105 := some 0 } } } : State).dev.pwr.record.cause = 1 ∧ cooled (st fun d => { d with tmb := { d.tmb with cyc := 10 * tickHz }, pwr := { d.pwr with down := true, record := { d.pwr.record with cause := 1 }, chans := List.replicate 256 { below105 := some 0 } } } : State).dev = true := by decide +kernel

theorem witness_SupplyAndDomains :
    (State.reset : State).dev.pwr.powered = false ∧
    33000 ≤ 33000 ∧
    62000 ≤ 62000 ∧
    (st fun d => { d with tmb := { d.tmb with cyc := tickHz }, pwr := { d.pwr with failed := true } } : State).dev.pwr.failed = true ∧ 36000 ≤ 36000 ∧ 36000 ≤ 60000 ∧ (st fun d => { d with tmb := { d.tmb with cyc := tickHz }, pwr := { d.pwr with failed := true } } : State).dev.pwr.failAt + tickHz ≤ (st fun d => { d with tmb := { d.tmb with cyc := tickHz }, pwr := { d.pwr with failed := true } } : State).dev.now ∧
    domOn (st fun d => { d with tmb := { d.tmb with cyc := tickHz }, pwr := { d.pwr with failed := true } } : State).dev 0 = true ∧
    (st fun d => { d with tmb := { d.tmb with cyc := tickHz }, pwr := { d.pwr with failed := true, domains := [] } } : State).dev.pwr.failed = true ∧ 36000 ≤ 60000 ∧ 60000 ≤ 60000 ∧ (st fun d => { d with tmb := { d.tmb with cyc := tickHz }, pwr := { d.pwr with failed := true, domains := [] } } : State).dev.pwr.failAt + tickHz ≤ (st fun d => { d with tmb := { d.tmb with cyc := tickHz }, pwr := { d.pwr with failed := true, domains := [] } } : State).dev.now ∧
    domOn (st fun d => { d with tmb := { d.tmb with cyc := tickHz }, pwr := { d.pwr with failed := true, domains := [] } } : State).dev 0 = false ∧
    (60001 < 36000 ∨ 60000 < 60001 ∨ unitW.dev.now < unitW.dev.pwr.failAt + tickHz) ∧
    domOn unitW.dev 0 = true ∧
    (st fun d => { d with ctl := { d.ctl with phase := .held, cause := 1 } } : State).dev.ctl.phase = .held ∧ (st fun d => { d with ctl := { d.ctl with phase := .held, cause := 1 } } : State).dev.ctl.cause = 1 ∧ (st fun d => { d with ctl := { d.ctl with phase := .held, cause := 1 } } : State).dev.pwr.failed = false ∧
    unitW.dev.pwr.record.cause ≠ 1 ∧
    (st fun d => { d with pwr := { d.pwr with steps := [(9, true)] } } : State).dev.pwr.steps.head? = some (9, true) ∧
    unitW.dev.pwr.steps.head? ≠ some (9, true) ∧
    10 * unitW.dev.pwr.cap < 2901 ∧ unitW.dev.pwr.capLevel < 8 ∧
    unitW.dev.axis % unitW.dev.tmb.frameLen = 0 ∧ unitW.dev.pwr.capAt ≠ some unitW.dev.axis ∧
    100 * 0 < 950 * (st fun d => { d with pwr := { d.pwr with capLevel := 1 } } : State).dev.pwr.cap ∧ 1 ≤ (st fun d => { d with pwr := { d.pwr with capLevel := 1 } } : State).dev.pwr.capLevel ∧
    (st fun d => { d with pwr := { d.pwr with capLevel := 1 } } : State).dev.axis % (st fun d => { d with pwr := { d.pwr with capLevel := 1 } } : State).dev.tmb.frameLen = 0 ∧ (st fun d => { d with pwr := { d.pwr with capLevel := 1 } } : State).dev.pwr.capAt ≠ some (st fun d => { d with pwr := { d.pwr with capLevel := 1 } } : State).dev.axis ∧
    2900 ≤ 10 * unitW.dev.pwr.cap ∧ 950 * unitW.dev.pwr.cap ≤ 100 * 2900 ∧
    unitW.dev.axis % unitW.dev.tmb.frameLen = 0 ∧ unitW.dev.pwr.capAt ≠ some unitW.dev.axis ∧
    ((st fun d => { d with pwr := { d.pwr with capAt := some 0 } } : State).dev.axis % (st fun d => { d with pwr := { d.pwr with capAt := some 0 } } : State).dev.tmb.frameLen ≠ 0 ∨ (st fun d => { d with pwr := { d.pwr with capAt := some 0 } } : State).dev.pwr.capAt = some (st fun d => { d with pwr := { d.pwr with capAt := some 0 } } : State).dev.axis) ∧
    true = true ∧ false = false ∧ domOn (st fun d => { d with cal := { d.cal with runs := [{ kind := 1, since := 0 }] }, pwr := { d.pwr with domains := [true, true, true, true, false, false, true, true, true, true] } } : State).dev 2 = true ∧ domOn (st fun d => { d with cal := { d.cal with runs := [{ kind := 1, since := 0 }] }, pwr := { d.pwr with domains := [true, true, true, true, false, false, true, true, true, true] } } : State).dev 4 = false ∧ (st fun d => { d with cal := { d.cal with runs := [{ kind := 1, since := 0 }] }, pwr := { d.pwr with domains := [true, true, true, true, false, false, true, true, true, true] } } : State).dev.cal.runs.isEmpty = false ∧
    false = false ∧ false = false ∧ (st fun d => { d with pwr := { d.pwr with borrowed := [4] } } : State).dev.pwr.borrowed = [4] ∧ borrowBusy (st fun d => { d with pwr := { d.pwr with borrowed := [4] } } : State).dev 4 = false ∧
    unitW.dev.axis % 512 = 0 ∧
    (st fun d => { d with tmb := { d.tmb with clock := 3125 } } : State).dev.axis % 512 ≠ 0 ∧
    (stakesInOrder (st fun d => { d with tmb := { d.tmb with stakes := [qD 0x0F01] } } : State).dev ((st fun d => { d with tmb := { d.tmb with stakes := [qD 0x0F01] } } : State).dev.tmb.stakes.filter fun x => x.trig.isSome && (x.stake.action == 0x0F01 || x.stake.action == 0x0F02)) = (qD 0x0F01 : QStake) :: ([] : List QStake)) ∧
    (qD 0x0F01 : QStake).late = false ∧ (qD 0x0F01 : QStake).stake.action = 0x0F01 ∧ bitsOf (qD 0x0F01 : QStake).stake.argument 17 16 = 0 ∧
    ((biasDacs (qD 0x0F01 : QStake).stake.target).any (fun n => decide (32 < (nth (st fun d => { d with tmb := { d.tmb with stakes := [qD 0x0F01] } } : State).dev.pwr.dacs n).queue.length + 1)) = false) ∧
    (stakesInOrder (st fun d => { d with tmb := { d.tmb with stakes := [qD 0x0F02] } } : State).dev ((st fun d => { d with tmb := { d.tmb with stakes := [qD 0x0F02] } } : State).dev.tmb.stakes.filter fun x => x.trig.isSome && (x.stake.action == 0x0F01 || x.stake.action == 0x0F02)) = (qD 0x0F02 : QStake) :: ([] : List QStake)) ∧
    (qD 0x0F02 : QStake).late = false ∧ (qD 0x0F02 : QStake).stake.action = 0x0F02 ∧
    ((biasDacs (qD 0x0F02 : QStake).stake.target).any (fun n => decide (32 < (nth (st fun d => { d with tmb := { d.tmb with stakes := [qD 0x0F02] } } : State).dev.pwr.dacs n).queue.length + (nth (st fun d => { d with tmb := { d.tmb with stakes := [qD 0x0F02] } } : State).dev.pwr.dacs n).ramp.length)) = false) ∧
    (stakesInOrder (st fun d => { d with tmb := { d.tmb with stakes := [{ qD 0x0F01 with late := true }] } } : State).dev ((st fun d => { d with tmb := { d.tmb with stakes := [{ qD 0x0F01 with late := true }] } } : State).dev.tmb.stakes.filter fun x => x.trig.isSome && (x.stake.action == 0x0F01 || x.stake.action == 0x0F02)) = ({ qD 0x0F01 with late := true } : QStake) :: ([] : List QStake)) ∧
    ({ qD 0x0F01 with late := true } : QStake).late = true ∧ ({ qD 0x0F01 with late := true } : QStake).stake.action = 0x0F01 ∧
    (unitW.dev.tmb.stakes.filter (fun x => x.trig.isSome && (x.stake.action == 0x0F01 || x.stake.action == 0x0F02)) = []) ∧
    (stakesInOrder (st fun d => { d with tmb := { d.tmb with stakes := [qD 0x0F02] } } : State).dev ((st fun d => { d with tmb := { d.tmb with stakes := [qD 0x0F02] } } : State).dev.tmb.stakes.filter fun x => x.trig.isSome && (x.stake.action == 0x0F01 || x.stake.action == 0x0F02)) = (qD 0x0F02 : QStake) :: ([] : List QStake)) ∧
    (qD 0x0F02 : QStake).stake.action = 0x0F02 ∧
    (stakesInOrder (st fun d => { d with tmb := { d.tmb with stakes := [{ qD 0x0F02 with late := true }] } } : State).dev ((st fun d => { d with tmb := { d.tmb with stakes := [{ qD 0x0F02 with late := true }] } } : State).dev.tmb.stakes.filter fun x => x.trig.isSome && (x.stake.action == 0x0F01 || x.stake.action == 0x0F02)) = ({ qD 0x0F02 with late := true } : QStake) :: ([] : List QStake)) ∧
    ({ qD 0x0F02 with late := true } : QStake).late = true ∧ ({ qD 0x0F02 with late := true } : QStake).stake.action = 0x0F02 ∧
    (stakesInOrder (st fun d => { d with tmb := { d.tmb with stakes := [qD 0x0F01] } } : State).dev ((st fun d => { d with tmb := { d.tmb with stakes := [qD 0x0F01] } } : State).dev.tmb.stakes.filter fun x => x.trig.isSome && (x.stake.action == 0x0F01 || x.stake.action == 0x0F02)) = (qD 0x0F01 : QStake) :: ([] : List QStake)) ∧
    (qD 0x0F01 : QStake).stake.action = 0x0F01 := by
  and_intros <;> decide +kernel

theorem witness_HousekeepingCommands :
    starts unitW.dev hdrW (askClear 0x0F20 1 (spanWidths 64 64 [4, 4, 4, 4])) = true ∧
    1 ≤ 64 ∧ 64 ≤ 64 ∧ 192 + 64 ≤ 256 ∧ 1 ≤ 1 ∧
    starts unitW.dev hdrW (ask 0x0F21 [4, 4, 8, 4]) = true ∧
    starts unitW.dev hdrW (cmd 0x0F30 [1, 1, 1, 1]) = true ∧
    thermConfigCheck 120 (⟨[default, default, default, default]⟩ : ExtInputs) (found unitW.dev hdrW) = none ∧
    (nth (⟨[default, default, default, default]⟩ : ExtInputs).list 0).enable = 0 ∧ (nth (⟨[default, default, default, default]⟩ : ExtInputs).list 1).enable = 0 ∧ (nth (⟨[default, default, default, default]⟩ : ExtInputs).list 2).enable = 0 ∧ (nth (⟨[default, default, default, default]⟩ : ExtInputs).list 3).enable = 0 ∧
    starts unitW.dev hdrW (ask 0x0F31 [4, 4, 32, 8, 2, 8, 2, 32]) = true := by
  and_intros <;> decide +kernel

theorem witness_HeatHappenings_6_hkRound :
    (domOn (st fun d => { d with pwr := { d.pwr with chans := List.replicate 256 { broken := true } } } : State).dev 0 = true ∧ ((judgeRefs ((st fun d => { d with pwr := { d.pwr with chans := List.replicate 256 { broken := true } } }).dev.onPwr fun p => { p with rounds := p.rounds + 1, roundAt := some 0 })) : Dev) = judgeRefs ((st fun d => { d with pwr := { d.pwr with chans := List.replicate 256 { broken := true } } } : State).dev.onPwr fun p => { p with rounds := p.rounds + 1, roundAt := some (st fun d => { d with pwr := { d.pwr with chans := List.replicate 256 { broken := true } } } : State).dev.now }) ∧ ((st fun d => { d with pwr := { d.pwr with chans := List.replicate 256 { broken := true } } } : State).dev.pwr.roundAt.any (fun t => decide ((st fun d => { d with pwr := { d.pwr with chans := List.replicate 256 { broken := true } } } : State).dev.now < t + 1966080))) = false) ∧
    roundF = (sensors ((sensors ((judgeRefs ((st fun d => { d with pwr := { d.pwr with chans := List.replicate 256 { broken := true } } }).dev.onPwr fun p => { p with rounds := p.rounds + 1, roundAt := some 0 })) : Dev)).foldl (judgeSensor [median2 ((judgeRefs ((st fun d => { d with pwr := { d.pwr with chans := List.replicate 256 { broken := true } } }).dev.onPwr fun p => { p with rounds := p.rounds + 1, roundAt := some 0 })) : Dev) 0, median2 ((judgeRefs ((st fun d => { d with pwr := { d.pwr with chans := List.replicate 256 { broken := true } } }).dev.onPwr fun p => { p with rounds := p.rounds + 1, roundAt := some 0 })) : Dev) 1]) ((judgeRefs ((st fun d => { d with pwr := { d.pwr with chans := List.replicate 256 { broken := true } } }).dev.onPwr fun p => { p with rounds := p.rounds + 1, roundAt := some 0 })) : Dev))).foldl senseLevel ((sensors ((judgeRefs ((st fun d => { d with pwr := { d.pwr with chans := List.replicate 256 { broken := true } } }).dev.onPwr fun p => { p with rounds := p.rounds + 1, roundAt := some 0 })) : Dev)).foldl (judgeSensor [median2 ((judgeRefs ((st fun d => { d with pwr := { d.pwr with chans := List.replicate 256 { broken := true } } }).dev.onPwr fun p => { p with rounds := p.rounds + 1, roundAt := some 0 })) : Dev) 0, median2 ((judgeRefs ((st fun d => { d with pwr := { d.pwr with chans := List.replicate 256 { broken := true } } }).dev.onPwr fun p => { p with rounds := p.rounds + 1, roundAt := some 0 })) : Dev) 1]) ((judgeRefs ((st fun d => { d with pwr := { d.pwr with chans := List.replicate 256 { broken := true } } }).dev.onPwr fun p => { p with rounds := p.rounds + 1, roundAt := some 0 })) : Dev)) ∧
    brokenDie roundF = some 65 := by
  exact ⟨⟨by decide, rfl, by decide⟩, rfl, by decide +kernel⟩

theorem witness_HeatHappenings_7_hkRound :
    (domOn unitW.dev 0 = true ∧ ((judgeRefs (unitW.dev.onPwr fun p => { p with rounds := p.rounds + 1, roundAt := some 0 })) : Dev) = judgeRefs (unitW.dev.onPwr fun p => { p with rounds := p.rounds + 1, roundAt := some unitW.dev.now }) ∧ (unitW.dev.pwr.roundAt.any (fun t => decide (unitW.dev.now < t + 1966080))) = false) ∧
    roundU = (sensors ((sensors ((judgeRefs (unitW.dev.onPwr fun p => { p with rounds := p.rounds + 1, roundAt := some 0 })) : Dev)).foldl (judgeSensor [median2 ((judgeRefs (unitW.dev.onPwr fun p => { p with rounds := p.rounds + 1, roundAt := some 0 })) : Dev) 0, median2 ((judgeRefs (unitW.dev.onPwr fun p => { p with rounds := p.rounds + 1, roundAt := some 0 })) : Dev) 1]) ((judgeRefs (unitW.dev.onPwr fun p => { p with rounds := p.rounds + 1, roundAt := some 0 })) : Dev))).foldl senseLevel ((sensors ((judgeRefs (unitW.dev.onPwr fun p => { p with rounds := p.rounds + 1, roundAt := some 0 })) : Dev)).foldl (judgeSensor [median2 ((judgeRefs (unitW.dev.onPwr fun p => { p with rounds := p.rounds + 1, roundAt := some 0 })) : Dev) 0, median2 ((judgeRefs (unitW.dev.onPwr fun p => { p with rounds := p.rounds + 1, roundAt := some 0 })) : Dev) 1]) ((judgeRefs (unitW.dev.onPwr fun p => { p with rounds := p.rounds + 1, roundAt := some 0 })) : Dev)) ∧
    brokenDie roundU = none := by
  exact ⟨⟨by decide, rfl, by decide⟩, rfl, by decide +kernel⟩

theorem witness_HeatHappenings :
    (due 0x0F03 (fun _ _ => true) (st fun d => { d with tmb := { d.tmb with stakes := [qD 0x0F03] } } : State).dev (qD 0x0F03 : QStake) = true) ∧
    domOn unitW.dev 0 = true ∧ 255 ≤ 255 ∧ internalDiodes.contains 255 = false ∧ conversionDue unitW.dev 255 = true ∧
    domOn (st fun d => { d with pwr := { d.pwr with chans := List.replicate 256 { hotRun := 1 } } } : State).dev 0 = true ∧ 204 ≤ 255 ∧ internalDiodes.contains 204 = true ∧ (st fun d => { d with pwr := { d.pwr with chans := List.replicate 256 { hotRun := 1 } } } : State).dev.pwr.down = false ∧ conversionDue (st fun d => { d with pwr := { d.pwr with chans := List.replicate 256 { hotRun := 1 } } } : State).dev 204 = true ∧
    2 ≤ (nth ((st fun d => { d with pwr := { d.pwr with chans := List.replicate 256 { hotRun := 1 } } } : State).dev.onHk 204 (·.convert (st fun d => { d with pwr := { d.pwr with chans := List.replicate 256 { hotRun := 1 } } } : State).dev.now 12500 0)).pwr.chans 204).hotRun ∧
    conversionDue (st fun d => { d with pwr := { d.pwr with hkAt := [none, some 0] } } : State).dev 255 = false ∧
    domOn (st fun d => { d with pwr := { d.pwr with domains := [] } } : State).dev 0 = false ∧
    (((st fun d => { d with pwr := { d.pwr with roundAt := some 0 } } : State).dev.pwr.roundAt.any (fun t => decide ((st fun d => { d with pwr := { d.pwr with roundAt := some 0 } } : State).dev.now < t + 1966080))) = true) ∧
    (st fun d => { d with tmb := { d.tmb with cyc := tickHz }, pwr := { d.pwr with suspect := true } } : State).dev.pwr.suspect = true ∧ (st fun d => { d with tmb := { d.tmb with cyc := tickHz }, pwr := { d.pwr with suspect := true } } : State).dev.pwr.suspectSince + tickHz ≤ (st fun d => { d with tmb := { d.tmb with cyc := tickHz }, pwr := { d.pwr with suspect := true } } : State).dev.now ∧
    unitW.dev.pwr.suspect = false ∧
    (nth (st fun d => { d with tmb := { d.tmb with cyc := tickHz }, pwr := { d.pwr with exts := List.replicate 4 { enabled := true }, chans := List.replicate 256 { broken := true } } } : State).dev.pwr.exts 3).enabled = true ∧ 3 ≤ 3 ∧ 1 ≤ 3 ∧ 3 ≤ 3 ∧
    (nth (st fun d => { d with tmb := { d.tmb with cyc := tickHz }, pwr := { d.pwr with exts := List.replicate 4 { enabled := true }, chans := List.replicate 256 { broken := true } } } : State).dev.pwr.chans (81 + 3)).broken = true ∧ (nth (st fun d => { d with tmb := { d.tmb with cyc := tickHz }, pwr := { d.pwr with exts := List.replicate 4 { enabled := true }, chans := List.replicate 256 { broken := true } } } : State).dev.pwr.exts 3).typedAt + tickHz ≤ (st fun d => { d with tmb := { d.tmb with cyc := tickHz }, pwr := { d.pwr with exts := List.replicate 4 { enabled := true }, chans := List.replicate 256 { broken := true } } } : State).dev.now ∧
    (nth unitW.dev.pwr.chans (81 + 3)).broken = false ∧
    (nth (st fun d => { d with tmb := { d.tmb with cyc := tickHz }, pwr := { d.pwr with chans := List.replicate 256 { coolSince := some 0, level := 8 } } } : State).dev.pwr.chans 204).coolSince = some 0 ∧ 0 + tickHz ≤ (st fun d => { d with tmb := { d.tmb with cyc := tickHz }, pwr := { d.pwr with chans := List.replicate 256 { coolSince := some 0, level := 8 } } } : State).dev.now ∧ 2 ≤ (nth (st fun d => { d with tmb := { d.tmb with cyc := tickHz }, pwr := { d.pwr with chans := List.replicate 256 { coolSince := some 0, level := 8 } } } : State).dev.pwr.chans 204).level ∧ (sensors (st fun d => { d with tmb := { d.tmb with cyc := tickHz }, pwr := { d.pwr with chans := List.replicate 256 { coolSince := some 0, level := 8 } } } : State).dev).contains 204 = true ∧
    (nth unitW.dev.pwr.chans 204).coolSince = none ∧
    unitW.dev.axis = frameNo unitW.dev unitW.dev.axis * unitW.dev.tmb.frameLen + 0 * (unitW.dev.tmb.frameLen / 16) ∧
    (st fun d => { d with tmb := { d.tmb with clock := 3125 * d.tmb.frameLen } } : State).dev.axis = frameNo (st fun d => { d with tmb := { d.tmb with clock := 3125 * d.tmb.frameLen } } : State).dev ((st fun d => { d with tmb := { d.tmb with clock := 3125 * d.tmb.frameLen } } : State).dev.axis - 1) * (st fun d => { d with tmb := { d.tmb with clock := 3125 * d.tmb.frameLen } } : State).dev.tmb.frameLen + (15 + 1) * ((st fun d => { d with tmb := { d.tmb with clock := 3125 * d.tmb.frameLen } } : State).dev.tmb.frameLen / 16) := by
  and_intros <;> decide +kernel

theorem witness_SecurityCommands_2_keyChange :
    starts keyS.dev hdrW (cmd 0x1001) = true ∧
    keyChangeCheck 1 true (found keyS.dev hdrW) = none := by decide +kernel

theorem witness_SecurityCommands_7_attest :
    starts (st fun d => { d with nvm := { d.nvm with leafReserved := 1024 } } : State).dev hdrW (cmd 0x1005 [2]) = true ∧
    attestCheck (found (st fun d => { d with nvm := { d.nvm with leafReserved := 1024 } } : State).dev hdrW) = none ∧
    leafPending (reserveLeaf (found (st fun d => { d with nvm := { d.nvm with leafReserved := 1024 } } : State).dev hdrW)) = false := by decide +kernel

theorem witness_SecurityCommands_8_attest :
    starts unitW.dev hdrW (cmd 0x1005 [2]) = true ∧
    attestCheck (found unitW.dev hdrW) = none ∧
    leafPending (reserveLeaf (found unitW.dev hdrW)) = true := by decide +kernel

theorem witness_SecurityCommands_9_debugAuth :
    starts debugS.dev hdrW (cmd 0x1006) = true ∧
    debugAuthCheck 1 true (found debugS.dev hdrW) = none := by decide +kernel

theorem witness_SecurityCommands_11_nvmWrite :
    starts unitW.dev hdrW (cmd 0x1021) = true ∧
    nvmWriteCheck 0 ([1] : List Nat) (found unitW.dev hdrW) = none := by decide +kernel

theorem witness_SecurityCommands :
    starts unitW.dev hdrW (ask 0x1000 [4, 8, 4, 8]) = true ∧
    starts unitW.dev hdrW (ask 0x1002 ((List.range 6).flatMap fun _ => [1, 1, 96])) = true ∧
    starts (st fun d => { d with ctl := { d.ctl with secVersion := 255 } } : State).dev hdrW (cmd 0x1003 [1]) = true ∧
    rollbackSetCheck 0 255 (found (st fun d => { d with ctl := { d.ctl with secVersion := 255 } } : State).dev hdrW) = none ∧
    0 = 0 ∧ (st fun d => { d with ctl := { d.ctl with secVersion := 255 } } : State).dev.nvm.fwCounter < 255 ∧
    starts unitW.dev hdrW (cmd 0x1003 [1]) = true ∧
    rollbackSetCheck 1 255 (found unitW.dev hdrW) = none ∧
    1 = 1 ∧ unitW.dev.nvm.appletCounter < 255 ∧
    starts unitW.dev hdrW (ask 0x1004 [2]) = true ∧
    starts unitW.dev hdrW (ask 0x1020 (spanWidths 8192 1 [1])) = true ∧
    1 ≤ 1 ∧ 1 ≤ 8192 ∧ (hostSize - 1 : Nat) + 1 ≤ hostSize ∧
    starts unitW.dev hdrW (cmd 0x1022) = true ∧
    nvmEraseCheck (hostSize - 0x40000 : Nat) (found unitW.dev hdrW) = none := by
  and_intros <;> decide +kernel

theorem witness_FirmwareAndNvm_1_fwLoad :
    starts fwS.dev hdrW ({ cmd 0x1010 [1, 4] with loader := true }) = true ∧
    fwLoadCheck 1 true (found fwS.dev hdrW) = none := by decide +kernel

theorem witness_FirmwareAndNvm_6_appletStore :
    starts imageS.dev hdrW (cmd 0x1014) = true ∧
    appletStoreCheck 1 7 7 1 true (found imageS.dev hdrW) = none := by decide +kernel

theorem witness_FirmwareAndNvm :
    starts (st fun d => { d with nvm := { d.nvm with images := [{ valid := true }, { valid := true }] } } : State).dev hdrW ({ cmd 0x1011 with loader := true }) = true ∧
    fwActivateCheck 1 (found (st fun d => { d with nvm := { d.nvm with images := [{ valid := true }, { valid := true }] } } : State).dev hdrW) = none ∧
    starts (st fun d => { d with ctl := { d.ctl with trial := true } } : State).dev hdrW (cmd 0x1012) = true ∧
    fwCommitCheck 0 (found (st fun d => { d with ctl := { d.ctl with trial := true } } : State).dev hdrW) = none ∧
    0 = 0 ∧
    starts (st fun d => { d with ctl := { d.ctl with trial := true }, nvm := { d.nvm with images := [{ security := 1 }, {}] } } : State).dev hdrW (cmd 0x1012) = true ∧
    fwCommitCheck 1 (found (st fun d => { d with ctl := { d.ctl with trial := true }, nvm := { d.nvm with images := [{ security := 1 }, {}] } } : State).dev hdrW) = none ∧
    1 = 1 ∧ (st fun d => { d with ctl := { d.ctl with trial := true }, nvm := { d.nvm with images := [{ security := 1 }, {}] } } : State).dev.nvm.fwCounter < (nth (st fun d => { d with ctl := { d.ctl with trial := true }, nvm := { d.nvm with images := [{ security := 1 }, {}] } } : State).dev.nvm.images (st fun d => { d with ctl := { d.ctl with trial := true }, nvm := { d.nvm with images := [{ security := 1 }, {}] } } : State).dev.ctl.source).security ∧
    starts unitW.dev hdrW (ask 0x1013 [1, 4, 2, 1, 4, 2, 8, 4]) = true ∧
    starts unitW.dev hdrW (cmd 0x1015) = true ∧
    7 ≤ 7 ∧ areaBusy unitW.dev 2 = none ∧
    nvmNext (st fun d => { d with nvm := { d.nvm with jobs := [{ erases := [0x12800000] }] } } : State).dev = some 0 ∧ (nth (st fun d => { d with nvm := { d.nvm with jobs := [{ erases := [0x12800000] }] } } : State).dev.nvm.jobs 0).erases = 0x12800000 :: ([] : List Nat) ∧ true = true ∧
    nvmNext (st fun d => { d with nvm := { d.nvm with jobs := [{ erases := [0x12800000] }] } } : State).dev = some 0 ∧ (nth (st fun d => { d with nvm := { d.nvm with jobs := [{ erases := [0x12800000] }] } } : State).dev.nvm.jobs 0).erases = 0x12800000 :: ([] : List Nat) ∧ false = false ∧
    nvmNext (st fun d => { d with nvm := { d.nvm with jobs := [{ pages := [(0x12800000, [1])] }] } } : State).dev = some 0 ∧ (nth (st fun d => { d with nvm := { d.nvm with jobs := [{ pages := [(0x12800000, [1])] }] } } : State).dev.nvm.jobs 0).erases = [] ∧ (nth (st fun d => { d with nvm := { d.nvm with jobs := [{ pages := [(0x12800000, [1])] }] } } : State).dev.nvm.jobs 0).pages = (0x12800000, ([1] : List Nat)) :: ([] : List (Nat × List Nat)) ∧ true = true ∧
    ((st fun d => { d with nvm := { d.nvm with jobs := [{ area := 2, goal := .stage 1 { valid := true } }] } } : State).dev.nvm.jobs.findIdx? (fun j => !j.busy && j.stages) = some 0) ∧
    recPending (st fun d => { d with nvm := { d.nvm with jobs := [{ area := 2, goal := .stage 1 { valid := true } }] } } : State).dev 0x0008 = false ∧
    (nth (st fun d => { d with nvm := { d.nvm with jobs := [{ area := 2, goal := .stage 1 { valid := true } }] } } : State).dev.nvm.jobs 0).goal = .stage 1 ({ valid := true } : ImageSlot) ∧
    (st fun d => { d with ctl := { d.ctl with treeGen := some 0, leaf := 1 } } : State).dev.ctl.treeGen.isNone = false ∧
    unitW.dev.ctl.treeGen = none := by
  and_intros <;> decide +kernel

theorem witness_BootAndRestart :
    unitW.dev.ctl.phase = .running ∧ unitW.dev.ctl.lastReload = none ∧
    (st fun d => { d with ctl := { d.ctl with lastReload := some 0 } } : State).dev.ctl.phase = .running ∧ (st fun d => { d with ctl := { d.ctl with lastReload := some 0 } } : State).dev.ctl.lastReload = some 0 ∧ (st fun d => { d with ctl := { d.ctl with lastReload := some 0 } } : State).dev.now < 0 + tickHz ∧
    (st fun d => { d with ctl := { d.ctl with phase := .reload } } : State).dev.ctl.phase = .reload ∧
    unitW.dev.ctl.phase ≠ .rom ∧
    (st fun d => { d with ctl := { d.ctl with phase := .rom } } : State).dev.ctl.phase = .rom ∧ domOn (st fun d => { d with ctl := { d.ctl with phase := .rom } } : State).dev 1 = true ∧ (st fun d => { d with ctl := { d.ctl with phase := .rom } } : State).dev.pwr.steps.isEmpty = true ∧ storeFailed (st fun d => { d with ctl := { d.ctl with phase := .rom } } : State).dev 0 = false ∧ storeFailed (st fun d => { d with ctl := { d.ctl with phase := .rom } } : State).dev 5 = false ∧
    (⟨false, false, [], true, []⟩ : BootCheck).kat = false ∧
    (st fun d => { d with ctl := { d.ctl with phase := .rom } } : State).dev.ctl.phase = .rom ∧ domOn (st fun d => { d with ctl := { d.ctl with phase := .rom } } : State).dev 1 = true ∧ (st fun d => { d with ctl := { d.ctl with phase := .rom } } : State).dev.pwr.steps.isEmpty = true ∧ storeFailed (st fun d => { d with ctl := { d.ctl with phase := .rom } } : State).dev 0 = false ∧ storeFailed (st fun d => { d with ctl := { d.ctl with phase := .rom } } : State).dev 5 = false ∧
    (⟨true, true, [], true, []⟩ : BootCheck).kat = true ∧ (⟨true, true, [], true, []⟩ : BootCheck).bootSel = true ∧
    (st fun d => { d with ctl := { d.ctl with phase := .rom } } : State).dev.ctl.phase = .rom ∧ domOn (st fun d => { d with ctl := { d.ctl with phase := .rom } } : State).dev 1 = true ∧ (st fun d => { d with ctl := { d.ctl with phase := .rom } } : State).dev.pwr.steps.isEmpty = true ∧ storeFailed (st fun d => { d with ctl := { d.ctl with phase := .rom } } : State).dev 0 = false ∧ storeFailed (st fun d => { d with ctl := { d.ctl with phase := .rom } } : State).dev 5 = false ∧
    (⟨true, false, [⟨true, [0], true, true⟩], true, []⟩ : BootCheck).kat = true ∧ (⟨true, false, [⟨true, [0], true, true⟩], true, []⟩ : BootCheck).bootSel = false ∧
    (st fun d => { d with ctl := { d.ctl with phase := .rom } } : State).dev.nvm.trial = none ∧ slotBoots (st fun d => { d with ctl := { d.ctl with phase := .rom } } : State).dev (⟨true, false, [⟨true, [0], true, true⟩], true, []⟩ : BootCheck) (st fun d => { d with ctl := { d.ctl with phase := .rom } } : State).dev.nvm.active = true ∧
    (st fun d => { d with ctl := { d.ctl with phase := .rom } } : State).dev.ctl.phase = .rom ∧ domOn (st fun d => { d with ctl := { d.ctl with phase := .rom } } : State).dev 1 = true ∧ (st fun d => { d with ctl := { d.ctl with phase := .rom } } : State).dev.pwr.steps.isEmpty = true ∧ storeFailed (st fun d => { d with ctl := { d.ctl with phase := .rom } } : State).dev 0 = false ∧ storeFailed (st fun d => { d with ctl := { d.ctl with phase := .rom } } : State).dev 5 = false ∧
    (⟨true, false, [], true, []⟩ : BootCheck).kat = true ∧ (⟨true, false, [], true, []⟩ : BootCheck).bootSel = false ∧
    (st fun d => { d with ctl := { d.ctl with phase := .rom } } : State).dev.nvm.trial = none ∧ slotBoots (st fun d => { d with ctl := { d.ctl with phase := .rom } } : State).dev (⟨true, false, [], true, []⟩ : BootCheck) (st fun d => { d with ctl := { d.ctl with phase := .rom } } : State).dev.nvm.active = false ∧ slotBoots (st fun d => { d with ctl := { d.ctl with phase := .rom } } : State).dev (⟨true, false, [], true, []⟩ : BootCheck) (1 - (st fun d => { d with ctl := { d.ctl with phase := .rom } } : State).dev.nvm.active) = false ∧
    (st fun d => { d with ctl := { d.ctl with activateAt := some 0 } } : State).dev.ctl.activateAt = some 0 ∧ 0 ≤ (st fun d => { d with ctl := { d.ctl with activateAt := some 0 } } : State).dev.axis ∧
    unitW.dev.ctl.activateAt = none ∧
    (st fun d => { d with tmb := { d.tmb with cyc := 600 * tickHz }, ctl := { d.ctl with trial := true } } : State).dev.ctl.trial = true ∧ (st fun d => { d with tmb := { d.tmb with cyc := 600 * tickHz }, ctl := { d.ctl with trial := true } } : State).dev.ctl.trialSince + (st fun d => { d with tmb := { d.tmb with cyc := 600 * tickHz }, ctl := { d.ctl with trial := true } } : State).dev.nvm.trialLimit * tickHz ≤ (st fun d => { d with tmb := { d.tmb with cyc := 600 * tickHz }, ctl := { d.ctl with trial := true } } : State).dev.now ∧
    (st fun d => { d with ctl := { d.ctl with resetAt := some (0, 1, 0, 1) } } : State).dev.ctl.resetAt = some (0, 1, 0, 1) ∧ 0 ≤ (st fun d => { d with ctl := { d.ctl with resetAt := some (0, 1, 0, 1) } } : State).dev.axis ∧ answered (st fun d => { d with ctl := { d.ctl with resetAt := some (0, 1, 0, 1) } } : State).dev 1 0 1 = true ∧
    ((st fun d => { d with ctl := { d.ctl with resetAt := some (1, 1, 0, 1) } } : State).dev.ctl.resetAt = some (1, 1, 0, 1) ∧ ((st fun d => { d with ctl := { d.ctl with resetAt := some (1, 1, 0, 1) } } : State).dev.axis < 1 ∨ answered (st fun d => { d with ctl := { d.ctl with resetAt := some (1, 1, 0, 1) } } : State).dev 1 0 1 = false)) ∧
    unitW.dev.ctl.resetAt = none := by
  and_intros <;> decide +kernel

theorem witness_SystemAndQuickset_9_quicksetExit :
    starts (st fun d => { d with qs := { d.qs with state := 2 }, rx := upd d.rx 0 fun x => { x with sbs := upd x.sbs 0 fun y => { y with on := true } } } : State).dev hdrW (cmd 0x0080) = true ∧
    0 ≤ 3 ∧ (st fun d => { d with qs := { d.qs with state := 2 }, rx := upd d.rx 0 fun x => { x with sbs := upd x.sbs 0 fun y => { y with on := true } } } : State).dev.qs.state ≠ 0 ∧ (st fun d => { d with qs := { d.qs with state := 2 }, rx := upd d.rx 0 fun x => { x with sbs := upd x.sbs 0 fun y => { y with on := true } } } : State).dev.qs.stopping = false ∧
    qsStopped (qsExit (found (st fun d => { d with qs := { d.qs with state := 2 }, rx := upd d.rx 0 fun x => { x with sbs := upd x.sbs 0 fun y => { y with on := true } } } : State).dev hdrW) 0) = false := by decide +kernel

theorem witness_SystemAndQuickset_11_quicksetReport :
    reportDue reportS.dev = some ({ num := 0 } : Integ) ∧ (sendEverywhere (reportFields reportS.dev { num := 0 }).2 0x0080 0 (reportFields reportS.dev { num := 0 }).1 : Dev) = sendEverywhere (reportFields reportS.dev ({ num := 0 } : Integ)).2 0x0080 ({ num := 0 } : Integ).first (reportFields reportS.dev ({ num := 0 } : Integ)).1 := by
  exact ⟨by decide +kernel, rfl⟩

theorem witness_SystemAndQuickset :
    starts unitW.dev hdrW (ask 0x0082 [1, 1, 4, 8]) = true ∧
    starts unitW.dev hdrW (ask 0x0085 [1, 1, 1, 4]) = true ∧
    starts unitW.dev hdrW (cmd 0x0084) = true ∧
    (0 = 0 ∨ unitW.dev.axis < 0) ∧
    starts unitW.dev hdrW (cmd 0x0083) = true ∧
    262143 ≤ 262143 ∧ (unitW.dev.weave.on && !qsHeld unitW.dev) = false ∧ unitW.dev.chains.any (·.on) = false ∧
    unitW.dev.weave.on = false ∧
    starts (st fun d => { d with weave := { d.weave with on := true }, qs := { d.qs with state := 2 } } : State).dev hdrW (cmd 0x0083) = true ∧
    262143 ≤ 262143 ∧ ((st fun d => { d with weave := { d.weave with on := true }, qs := { d.qs with state := 2 } } : State).dev.weave.on && !qsHeld (st fun d => { d with weave := { d.weave with on := true }, qs := { d.qs with state := 2 } } : State).dev) = false ∧ (st fun d => { d with weave := { d.weave with on := true }, qs := { d.qs with state := 2 } } : State).dev.chains.any (·.on) = false ∧
    (st fun d => { d with weave := { d.weave with on := true }, qs := { d.qs with state := 2 } } : State).dev.weave.on = true ∧
    starts unitW.dev hdrW (cmd 0x0081) = true ∧
    quicksetEnterCheck (found unitW.dev hdrW) = none ∧
    unitW.dev.pwr.steps.isEmpty = true ∧ unitW.dev.pwr.state = 4 ∧
    starts (st fun d => { d with pwr := { d.pwr with state := 5 } } : State).dev hdrW (cmd 0x0081) = true ∧
    quicksetEnterCheck (found (st fun d => { d with pwr := { d.pwr with state := 5 } } : State).dev hdrW) = none ∧
    (st fun d => { d with pwr := { d.pwr with state := 5 } } : State).dev.pwr.steps.isEmpty = true ∧ (st fun d => { d with pwr := { d.pwr with state := 5 } } : State).dev.pwr.state ≠ 4 ∧
    starts (st fun d => { d with qs := { d.qs with state := 2 } } : State).dev hdrW (cmd 0x0080) = true ∧
    3 ≤ 3 ∧ (st fun d => { d with qs := { d.qs with state := 2 } } : State).dev.qs.state ≠ 0 ∧ (st fun d => { d with qs := { d.qs with state := 2 } } : State).dev.qs.stopping = false ∧
    qsStopped (qsExit (found (st fun d => { d with qs := { d.qs with state := 2 } } : State).dev hdrW) 3) = true ∧
    reportDue unitW.dev = none := by
  and_intros <;> decide +kernel

theorem witness_StepRunsCommand : ({ State.reset with pending := [.biasStep] } : State).pending = [.biasStep] := rfl
/-- A unit whose urgent class holds a waiting FAB-STATUS. -/
def waitW : State := st fun d => { d with lnk := { d.lnk with mail := upd d.lnk.mail 0 fun c => { c with queue := [⟨hdrW, .biasStep⟩] } } }
theorem witness_StepOnEmptyQueue_1 : waitW.pending = [] ∧ (mailStart waitW.dev).map (·.1) = some .biasStep := by decide
theorem witness_StepOnEmptyQueue_2 : State.reset.pending = [] ∧ mailStart State.reset.dev = none := ⟨rfl, rfl⟩
theorem witness_StepKeepsCanonicalForm : Inv State.reset := by decide
theorem witness_RefusalChangesNothing :
    (noCheck unitW.dev : Option Reply).isSome = true ∨ ({ hdrW with dryRun := true } : Hdr).dryRun = true := by decide
theorem witness_ByteEnablesClear : ({ master := 0, addr := 0x100000000, write := true, data := [1, 2], off := [0, 1] } : FabReq).write = true ∧
    ∀ i, i < [1, 2].length → i ∈ ({ master := 0, addr := 0x100000000, write := true, data := [1, 2], off := [0, 1] } : FabReq).off := by decide
/-- A unit whose DAC 0 has a queue of `n` entries and a ramp of 32 codes, and a prefetched stake of an action. -/
def fullW (n code : Nat) : State := st fun d => { d with
  pwr := { d.pwr with dacs := upd d.pwr.dacs 0 fun x => { x with queue := List.replicate n (512, 7), ramp := List.replicate 32 7 } }
  tmb := { d.tmb with stakes := [qD code] } }
theorem witness_BiasQueueFull_1 : 0 < (fullW 32 0).dev.pwr.dacs.length ∧ 32 ≤ (nth (fullW 32 0).dev.pwr.dacs 0).queue.length := by decide +kernel
theorem witness_BiasQueueFull_2 :
    stakesInOrder (fullW 32 0x0F01).dev ((fullW 32 0x0F01).dev.tmb.stakes.filter fun q => q.trig.isSome && (q.stake.action == 0x0F01 || q.stake.action == 0x0F02)) = [qD 0x0F01] ∧
    (qD 0x0F01).stake.action = 0x0F01 ∧ (qD 0x0F01).late = false ∧ biasDacs (qD 0x0F01).stake.target = [0] ∧ 32 ≤ (nth (fullW 32 0x0F01).dev.pwr.dacs 0).queue.length := by decide
theorem witness_BiasQueueFull_3 :
    stakesInOrder (fullW 1 0x0F02).dev ((fullW 1 0x0F02).dev.tmb.stakes.filter fun q => q.trig.isSome && (q.stake.action == 0x0F01 || q.stake.action == 0x0F02)) = [qD 0x0F02] ∧
    (qD 0x0F02).stake.action = 0x0F02 ∧ (qD 0x0F02).late = false ∧ ((biasDacs (qD 0x0F02).stake.target).any fun n =>
      decide (32 < (nth (fullW 1 0x0F02).dev.pwr.dacs n).queue.length + (nth (fullW 1 0x0F02).dev.pwr.dacs n).ramp.length)) = true := by decide

end Sys2Proof.Tests
end

section
/-! What the power and bias commands, the system commands and quickset (chapters 17 and 19), and a step on an empty queue do. The shape
of each clause about a command is the same: `exec` gives it its meaning, its checks pass on the unit it finds, its effect is the one
stated. -/

namespace Sys2Proof.Machine

/-! ### The ways to answer and to happen -/

/-- A query that starts and passes its checks answers from the unit it finds and leaves it as it is (R124). -/
theorem query_completes {info : CmdInfo} {h : Hdr} {i : Instr} {check : Dev → Option Reply} {reply : Dev → List Field} {s : State}
    (he : exec i s = query info h i check reply s) (hs : starts s.dev h info = true) (ho : info.observer = true)
    (hu : info.unknown = false) (hc : check (found s.dev h) = none) :
    completes i s h info fun d d' fs => d' = d ∧ fs = reply d := by
  have hq : { info with observer := true } = info := by rw [← ho]
  rw [query, hq] at he
  exact completes_eq (F := fun d => d) he hs hu hc rfl

/-- What a meaning that only changes the unit comes to. -/
theorem onDev_happens {i : Instr} {s : State} {f : Dev → Dev} {rel : Dev → Dev → Prop} (he : exec i s = onDev f s)
    (hr : rel s.dev (f s.dev)) : happens i s rel :=
  ⟨f s.dev, he, hr⟩

/-! ### The meaning that `exec` gives each command -/

theorem exec_pwrStatus (h : Hdr) (s : State) : exec (.pwrStatus h) s = execPwrStatus h s := rfl
theorem exec_pwrStateSet (h : Hdr) (state force : Nat) (s : State) :
    exec (.pwrStateSet h state force) s = execPwrStateSet h state force s := rfl
theorem exec_pwrCapSet (h : Hdr) (cap : Nat) (s : State) : exec (.pwrCapSet h cap) s = execPwrCapSet h cap s := rfl
theorem exec_pwrRecordGet (h : Hdr) (s : State) : exec (.pwrRecordGet h) s = execPwrRecordGet h s := rfl
theorem exec_pwrCounters (h : Hdr) (clear : Nat) (s : State) : exec (.pwrCounters h clear) s = execPwrCounters h clear s := rfl
theorem exec_biasSet (h : Hdr) (dac code span : Nat) (s : State) : exec (.biasSet h dac code span) s = execBiasSet h dac code span s := rfl
theorem exec_biasGet (h : Hdr) (dac : Nat) (s : State) : exec (.biasGet h dac) s = execBiasGet h dac s := rfl
theorem exec_biasRampLoad (h : Hdr) (dac : Nat) (codes : List Nat) (s : State) :
    exec (.biasRampLoad h dac codes) s = execBiasRampLoad h dac codes s := rfl
theorem exec_biasSafeSet (h : Hdr) (dac code : Nat) (s : State) : exec (.biasSafeSet h dac code) s = execBiasSafeSet h dac code s := rfl
theorem exec_quicksetStatus (h : Hdr) (s : State) : exec (.quicksetStatus h) s = execQuicksetStatus h s := rfl
theorem exec_sysStatus (h : Hdr) (s : State) : exec (.sysStatus h) s = execSysStatus h s := rfl
theorem exec_sysReset (h : Hdr) (position : Nat) (s : State) : exec (.sysReset h position) s = execSysReset h position s := rfl
theorem exec_unitNumberSet (h : Hdr) (number : Nat) (s : State) : exec (.unitNumberSet h number) s = execUnitNumberSet h number s := rfl
theorem exec_quicksetEnter (h : Hdr) (s : State) : exec (.quicksetEnter h) s = execQuicksetEnter h s := rfl
theorem exec_quicksetExit (h : Hdr) (keep : Nat) (s : State) : exec (.quicksetExit h keep) s = execQuicksetExit h keep s := rfl
theorem exec_quicksetReport (s : State) : exec .quicksetReport s = execQuicksetReport s := rfl

/-! ### What the checks read, the packet steps leave -/

@[simp] theorem found_overFloor (d : Dev) (h : Hdr) (dac : Nat) : overFloor (found d h) dac = overFloor d dac := by
  funext code; simp [overFloor]

@[simp] theorem found_queued (d : Dev) (h : Hdr) : queued (found d h) = queued d := by simp [queued]

@[simp] theorem found_qsHeld (d : Dev) (h : Hdr) : qsHeld (found d h) = qsHeld d := by simp [qsHeld]

@[simp] theorem dacBad_eq_false {dac : Nat} : dacBad dac = false ↔ dac ≤ 133 := by simp [dacBad]

/-- A record kept in NVM leaves the coppice as it is. -/
@[simp] theorem journal_weave (d : Dev) (a type key : Nat) (data : List Nat) (old : NvmOld) (answers : Bool) :
    (journal d a type key data old answers).weave = d.weave := rfl

/-! ### Chapter 17 -/

/-- Settles O46. PWR-STATE-SET turns on `force = 0`, with which nothing is stopped and no time for stops is added; BIAS-SET on
whether the span 0xFF keeps the range. -/
theorem powerCommands : Obligations.PowerCommands := by
  unfold Obligations.PowerCommands
  refine ⟨?pwrStatus, ?pwrStateSet, ?pwrCapSet, ?pwrRecordGet, ?pwrCounters, ?biasSetSpanKept, ?biasSetSpanNew, ?biasGet,
    ?biasRampLoad, ?biasSafeSet⟩
  case pwrStatus =>
    intro s h hs
    exact query_completes (exec_pwrStatus _ _) hs rfl rfl rfl
  case pwrStateSet =>
    intro s h state force hs hc hforce
    subst hforce
    exact completes_eq (exec_pwrStateSet _ _ _ _) hs rfl hc (by simp)
  case pwrCapSet =>
    rintro s h cap hs ⟨hlo, hhi⟩
    exact completes_eq (exec_pwrCapSet _ _ _) hs rfl (by simp [hlo, hhi]) rfl
  case pwrRecordGet =>
    intro s h hs
    exact query_completes (exec_pwrRecordGet _ _) hs rfl rfl rfl
  case pwrCounters =>
    intro s h clear hs hclear
    exact completes_eq (exec_pwrCounters _ _ _) hs rfl (by simp [hclear]) rfl
  case biasSetSpanKept =>
    intro s h dac code span hs hc hspan
    exact completes_eq (exec_biasSet _ _ _ _ _) hs rfl hc (by simp only [if_pos hspan])
  case biasSetSpanNew =>
    intro s h dac code span hs hc hspan
    exact completes_eq (exec_biasSet _ _ _ _ _) hs rfl hc (by simp only [if_neg hspan])
  case biasGet =>
    intro s h dac hs hdac
    exact query_completes (exec_biasGet _ _ _) hs rfl rfl (by simp [hdac])
  case biasRampLoad =>
    rintro s h dac codes hs ⟨hdac, hsome, hlen, hfloor⟩ hfree
    refine completes_eq (exec_biasRampLoad _ _ _ _) hs rfl ?_ rfl
    simp only [found_overFloor, found_queued, hsome, hfloor, hfree]
    simp [hdac, hlen]
  case biasSafeSet =>
    rintro s h dac code hs ⟨hdac, hfloor⟩
    exact completes_eq (exec_biasSafeSet _ _ _ _) hs rfl (by simp [hdac, hfloor]) rfl

/-! ### Chapter 19 -/

/-- Settles O53. UNIT-NUMBER-SET turns on whether quickset's coppice stands, QUICKSET-ENTER on the power state, QUICKSET-EXIT on
whether its last element has stopped, the report on `reportDue`. -/
theorem systemAndQuickset : Obligations.SystemAndQuickset := by
  unfold Obligations.SystemAndQuickset
  refine ⟨?quicksetStatus, ?sysStatus, ?sysReset, ?numberAlone, ?numberInCoppice, ?enterInArray, ?enterElsewhere, ?exitStopped,
    ?exitWaits, ?noReport, ?report⟩
  case quicksetStatus =>
    intro s h hs
    exact query_completes (exec_quicksetStatus _ _) hs rfl rfl rfl
  case sysStatus =>
    intro s h hs
    exact query_completes (exec_sysStatus _ _) hs rfl rfl rfl
  case sysReset =>
    intro s h position hs hpos
    exact completes_eq (exec_sysReset _ _ _) hs rfl (by simp; omega) rfl
  case numberAlone =>
    rintro s h number hs ⟨hn, -, hch⟩ hoff
    exact completes_eq (exec_unitNumberSet _ _ _) hs rfl (by simp [hn, hch, hoff]) (by simp [just, hoff])
  case numberInCoppice =>
    rintro s h number hs ⟨hn, hw, hch⟩ hon
    have hheld : qsHeld s.dev = true := by simpa [hon] using hw
    exact completes_eq (exec_unitNumberSet _ _ _) hs rfl (by simp [hn, hch, hheld]) (by simp [just, hon])
  case enterInArray =>
    rintro s h hs hc ⟨hsteps, harray⟩
    exact completes_eq (exec_quicksetEnter _ _) hs rfl hc (by simp [just, hsteps, harray])
  case enterElsewhere =>
    rintro s h hs hc ⟨hsteps, hother⟩
    exact completes_eq (exec_quicksetEnter _ _) hs rfl hc (by simp [just, hsteps, hother])
  case exitStopped =>
    rintro s h keep hs ⟨hkeep, hon, hnew⟩ hstopped
    exact completes_eq (exec_quicksetExit _ _ _) hs rfl (by simp [hkeep, hon, hnew]) (by simp only [if_pos hstopped])
  case exitWaits =>
    rintro s h keep hs ⟨hkeep, hon, hnew⟩ hrunning
    exact begins_eq (exec_quicksetExit _ _ _) hs rfl (by simp [hkeep, hon, hnew]) (by simp [hrunning])
  case noReport =>
    intro s hnone
    exact onDev_happens (exec_quicksetReport _) (by simp only [hnone])
  case report =>
    rintro s i e ⟨hdue, rfl⟩
    exact onDev_happens (exec_quicksetReport _) (by simp only [hdue])

/-! ### A step on an empty queue -/

/-- With nothing queued, the command that a mailbox class serves next runs on the unit without its entry (R130, R132). -/
theorem step_of_mailStart {s : State} {c : Instr} {d : Dev} (hp : s.pending = []) (hm : mailStart s.dev = some (c, d)) :
    step s = exec c { s with dev := d } := by
  simp only [step, hp, hm]

/-- With nothing queued and no class able to start a command, a tick passes (R22, R37). -/
theorem step_of_idle {s : State} (hp : s.pending = []) (hm : mailStart s.dev = none) : step s = .next { s with dev := idle s.dev } := by
  simp only [step, hp, hm]

/-- Settles O55, by what `mailStart` gives. -/
theorem stepOnEmptyQueue : Obligations.StepOnEmptyQueue := by
  unfold Obligations.StepOnEmptyQueue
  exact ⟨fun _ _ _ hp hm => step_of_mailStart hp hm, fun _ hp hm => step_of_idle hp hm⟩

end Sys2Proof.Machine
end

section
/-! What the time inputs, the stake queue, the launch buffers and MEM-FREQ-SET (chapters 2 and 14) do. A clause about what the unit
notices by itself turns on one branch of its meaning: the clause's conditions choose the branch, and the branch is the unit stated. -/

namespace Sys2Proof.Machine

/-- What a meaning that only changes the unit comes to, where the unit after it is a function of the one before it. -/
theorem happens_eq {i : Instr} {s : State} {f F : Dev → Dev} (he : exec i s = onDev f s) (hf : f s.dev = F s.dev) :
    happens i s fun d d' => d' = F d :=
  onDev_happens he hf

/-! ### The meaning that `exec` gives each command and happening -/

theorem exec_ptpAnnounce (dom port : Nat) (msg : Announce) (s : State) :
    exec (.ptpAnnounce dom port msg) s = execPtpAnnounce dom port msg s := rfl
theorem exec_ptpSync (dom : Nat) (master slave : Int) (corr : PtpCorr) (s : State) :
    exec (.ptpSync dom master slave corr) s = execPtpSync dom master slave corr s := rfl
theorem exec_delayReq (dom : Nat) (s : State) : exec (.delayReq dom) s = execDelayReq dom s := rfl
theorem exec_announceTimeout (dom : Nat) (s : State) : exec (.announceTimeout dom) s = execAnnounceTimeout dom s := rfl
theorem exec_syncLoss (dom : Nat) (s : State) : exec (.syncLoss dom) s = execSyncLoss dom s := rfl
theorem exec_servoQualify (source : Nat) (s : State) : exec (.servoQualify source) s = execServoQualify source s := rfl
theorem exec_holdoverExpiry (source : Nat) (s : State) : exec (.holdoverExpiry source) s = execHoldoverExpiry source s := rfl
theorem exec_revertiveSwitch (source : Nat) (s : State) : exec (.revertiveSwitch source) s = execRevertiveSwitch source s := rfl
theorem exec_slewDone (s : State) : exec .slewDone s = execSlewDone s := rfl
theorem exec_timeBlockSend (lane : Nat) (s : State) : exec (.timeBlockSend lane) s = execTimeBlockSend lane s := rfl
theorem exec_timeBlock (lane code flags ps arrival : Nat) (s : State) :
    exec (.timeBlock lane code flags ps arrival) s = execTimeBlock lane code flags ps arrival s := rfl
theorem exec_timeReply (lane : Nat) (ctl : Bool) (code : Nat) (traced : Bool) (seq hi lo : Nat) (s : State) :
    exec (.timeReply lane ctl code traced seq hi lo) s = execTimeReply lane ctl code traced seq hi lo s := rfl
theorem exec_timeBlockTimeout (s : State) : exec .timeBlockTimeout s = execTimeBlockTimeout s := rfl
theorem exec_laneResidualFault (s : State) : exec .laneResidualFault s = execLaneResidualFault s := rfl
theorem exec_ppsInEdge (offset : Int) (s : State) : exec (.ppsInEdge offset) s = execPpsInEdge offset s := rfl
theorem exec_ppsInTimeout (s : State) : exec .ppsInTimeout s = execPpsInTimeout s := rfl
theorem exec_ppsOutRise (s : State) : exec .ppsOutRise s = execPpsOutRise s := rfl
theorem exec_ppsOutFall (s : State) : exec .ppsOutFall s = execPpsOutFall s := rfl
theorem exec_refInLoss (s : State) : exec .refInLoss s = execRefInLoss s := rfl
theorem exec_refInReturn (ppb : Int) (s : State) : exec (.refInReturn ppb) s = execRefInReturn ppb s := rfl
theorem exec_esmcQuality (lane : Nat) (quality : SyncEQl) (s : State) :
    exec (.esmcQuality lane quality) s = execEsmcQuality lane quality s := rfl
theorem exec_stakeSubmit (h : Hdr) (entries : List Stake) (s : State) :
    exec (.stakeSubmit h entries) s = execStakeSubmit h entries s := rfl
theorem exec_stakeCancel (h : Hdr) (tag mask : Nat) (s : State) :
    exec (.stakeCancel h tag mask) s = execStakeCancel h tag mask s := rfl
theorem exec_stakeList (h : Hdr) (first count : Nat) (s : State) :
    exec (.stakeList h first count) s = execStakeList h first count s := rfl
theorem exec_axisDelays (h : Hdr) (action target : Nat) (s : State) :
    exec (.axisDelays h action target) s = execAxisDelays h action target s := rfl
theorem exec_stakePrefetch (s : State) : exec .stakePrefetch s = execStakePrefetch s := rfl
theorem exec_stakeDeferExpiry (s : State) : exec .stakeDeferExpiry s = execStakeDeferExpiry s := rfl
theorem exec_mark (s : State) : exec .mark s = execMark s := rfl
theorem exec_bankSwap (s : State) : exec .bankSwap s = execBankSwap s := rfl
theorem exec_bankFree (cls inst : Nat) (s : State) : exec (.bankFree cls inst) s = execBankFree cls inst s := rfl
theorem exec_launchQueue (h : Hdr) (lane position : Nat) (frame : List Nat) (s : State) :
    exec (.launchQueue h lane position frame) s = execLaunchQueue h lane position frame s := rfl
theorem exec_launchCancel (h : Hdr) (buffer : Nat) (s : State) : exec (.launchCancel h buffer) s = execLaunchCancel h buffer s := rfl
theorem exec_launchTrigger (buffer : Nat) (s : State) : exec (.launchTrigger buffer) s = execLaunchTrigger buffer s := rfl
theorem exec_memFreqSet (h : Hdr) (setpoint position : Nat) (s : State) :
    exec (.memFreqSet h setpoint position) s = execMemFreqSet h setpoint position s := rfl

/-! ### The servos (R43, R44, R51, R54) -/

@[simp] theorem srcOk_eq_true {c : Nat} : srcOk c = true ↔ 1 ≤ c ∧ c ≤ 4 := by simp [srcOk]

theorem sourceLost_of_acquiring {d : Dev} {c : Nat} (h : (d.tmb.srv c).st = 2) : sourceLost d c = servoTo d c 1 := by
  simp [sourceLost, h]

theorem sourceLost_of_locked {d : Dev} {c : Nat} (h : (d.tmb.srv c).st = 3) : sourceLost d c = servoTo d c 4 := by
  simp [sourceLost, h]

/-- A TRACED partner moves a LISTENING servo only. -/
theorem partnerTraced_of_heard {d : Dev} (h : d.tmb.srvLane.st ≠ 1) :
    partnerTraced d true = d.onTmb fun t => { t with laneTraced := true } := by
  simp [partnerTraced, h]

/-- In TRACED a switch within reach makes the source active. -/
theorem switchTo_of_near {d : Dev} {c : Nat} (htr : d.tmb.traced = true) (hnear : switchTooFar d.tmb c = false) :
    switchTo d c = follow d c := by
  simp [switchTo, htr, hnear]

/-- Settles O6. Each clause chooses one branch: an Announce by the servo's state, a loss by whether the servo is ACQUIRING or LOCKED,
a qualification by whether the unit is TRACED. That an estimate not measured since a slew began moves with the clock at its end is the
model's reading (assumption log, entry 22). -/
theorem servoHappenings : Obligations.ServoHappenings := by
  unfold Obligations.ServoHappenings
  refine ⟨?announceListening, ?announceTracking, ?sync, ?delayReq, ?announceAcquiring, ?announceLocked, ?syncLoss, ?qualifyTraced,
    ?qualifyFree, ?holdoverExpiry, ?revertive, ?slewDone⟩
  case announceListening =>
    rintro s dom port msg ⟨hdom, hst, hport⟩
    exact happens_eq (exec_ptpAnnounce _ _ _ _) (by simp [Nat.not_lt.mpr hdom, hst, hport])
  case announceTracking =>
    rintro s dom port msg ⟨hdom, hst, hport⟩ hgm hclass
    have hon : (s.dev.tmb.srv (dom + 1)).st ≠ 0 := by omega
    have hheard : (s.dev.tmb.srv (dom + 1)).st ≠ 1 := by omega
    have hstay : ¬((s.dev.tmb.srv (dom + 1)).st = 3 ∧ 7 < msg.clockClass) := fun ⟨hl, h7⟩ => absurd (hclass hl) (by omega)
    refine happens_eq (exec_ptpAnnounce _ _ _ _) ?_
    obtain hgm | hgm := hgm <;> simp [Nat.not_lt.mpr hdom, hon, hheard, hport, hgm, hstay]
  case sync =>
    rintro s dom master slave corr a b ⟨hdom, hst⟩ rfl rfl
    exact happens_eq (exec_ptpSync _ _ _ _ _) (by simp [Nat.not_lt.mpr hdom, Nat.not_lt.mpr hst])
  case delayReq =>
    rintro s dom ⟨hdom, hst, hat⟩
    exact happens_eq (exec_delayReq _ _) (by simp [Nat.not_lt.mpr hdom, Nat.not_lt.mpr hst, Nat.not_lt.mpr hat])
  case announceAcquiring =>
    rintro s dom ⟨rfl, hst⟩
    exact happens_eq (exec_announceTimeout _ _) (sourceLost_of_acquiring hst)
  case announceLocked =>
    rintro s dom ⟨rfl, hst⟩
    exact happens_eq (exec_announceTimeout _ _) (sourceLost_of_locked hst)
  case syncLoss =>
    rintro s dom ⟨hdom, hst⟩ hlate
    refine happens_eq (exec_syncLoss _ _) ?_
    simp only [Nat.not_lt.mpr hdom, if_false, if_pos hlate]
    obtain hacq | hlock := hst
    · rw [sourceLost_of_acquiring hacq, if_pos hacq]
    · rw [sourceLost_of_locked hlock, if_neg (by omega)]
  case qualifyTraced =>
    rintro s source e ⟨hlo, hhi, hq⟩ ⟨rfl, htr⟩
    refine happens_eq (exec_servoQualify _ _) ?_
    exact (if_pos (by simp [hlo, hhi, hq])).trans (if_pos htr)
  case qualifyFree =>
    rintro s source e c ⟨hlo, hhi, hq⟩ ⟨rfl, htr, hbest⟩
    refine happens_eq (exec_servoQualify _ _) ?_
    refine (if_pos (by simp [hlo, hhi, hq])).trans ((if_neg (Bool.eq_false_iff.mp htr)).trans ?_)
    simp only [hbest]
  case holdoverExpiry =>
    rintro s source ⟨hlo, hhi, hst, hheld⟩
    exact happens_eq (exec_holdoverExpiry _ _) (by simp [hlo, hhi, hst, hheld])
  case revertive =>
    rintro s source ⟨hlo, hhi, hrev, htr, hact, hother⟩ ⟨hst, hprio, hhigher⟩ ⟨hqual, hnear⟩
    refine happens_eq (exec_revertiveSwitch _ _) ?_
    rw [← switchTo_of_near htr hnear]
    exact if_pos (by simp [hlo, hhi, hrev, htr, hact, hother, hst, hprio, hhigher, hqual])
  case slewDone =>
    rintro s ⟨hslew, hdone⟩
    exact ⟨_, fun _ => rfl, happens_eq (exec_slewDone _) (if_pos (by simp [hslew, hdone]))⟩

/-! ### The direct lane, PPS and the reference (R44, R45, R47, R49, R50) -/

/-- Settles O7. The child's reply finds its servo LOCKED, so that the partner's TRACED flag is noted and nothing else moves before the
measurement; the timeouts take LOCKED to HOLDOVER as every loss of a source does. That the measured offset enters the child's servo with
its sign turned is the model's reading (assumption log, entry 23). -/
theorem timeInputs : Obligations.TimeInputs := by
  unfold Obligations.TimeInputs
  refine ⟨?blockSend, ?block, ?reply, ?blockTimeout, ?residual, ?ppsSecondEdge, ?ppsDisabled, ?ppsTimeout, ?ppsRise, ?ppsFall, ?refLoss,
    ?refReturn, ?esmc⟩
  case blockSend =>
    rintro s lane ⟨hlane, hnext⟩
    exact happens_eq (exec_timeBlockSend _ _) (if_pos (by simp [hlane, hnext]))
  case block =>
    rintro s lane code flags ps arrival ⟨hlane, rfl⟩
    exact happens_eq (exec_timeBlock _ _ _ _ _ _) (if_pos (by simp [hlane]))
  case reply =>
    rintro s lane ctl code traced seq hi lo t1 t3 t4 o ⟨hlane, hrole, hst, rfl, rfl, rfl⟩ ⟨hsent, htimes⟩ rfl
    refine happens_eq (exec_timeReply _ _ _ _ _ _ _ _) ?_
    have hheard : s.dev.tmb.srvLane.st ≠ 1 := by omega
    refine (if_pos (by simp [hlane, hrole, hst])).trans ?_
    simp only [partnerTraced_of_heard hheard, onTmb_tmb, hsent, htimes]
    rfl
  case blockTimeout =>
    rintro s ⟨hlate, hst⟩
    exact happens_eq (exec_timeBlockTimeout _) ((if_pos hlate).trans (sourceLost_of_locked hst))
  case residual =>
    rintro s t ⟨hbad, hst, hlate⟩
    exact happens_eq (exec_laneResidualFault _) (by simp [hbad, hst, hlate])
  case ppsSecondEdge =>
    rintro s offset ⟨hst, -⟩ hnear
    exact happens_eq (exec_ppsInEdge _ _) (by simp [hst, hnear])
  case ppsDisabled =>
    intro s offset hst
    exact happens_eq (exec_ppsInEdge _ _) (if_pos hst)
  case ppsTimeout =>
    rintro s t ⟨hedge, hlate, hst⟩
    exact happens_eq (exec_ppsInTimeout _) (by simp only [hedge, if_pos hlate, sourceLost_of_locked (c := 4) hst])
  case ppsRise =>
    rintro s ⟨hon, hdue⟩
    exact happens_eq (exec_ppsOutRise _) (if_pos (by simp [hon, hdue]))
  case ppsFall =>
    rintro s ⟨hhigh, hwidth⟩
    exact happens_eq (exec_ppsOutFall _) (if_pos (by simp [hhigh, hwidth]))
  case refLoss =>
    intro s
    exact happens_eq (exec_refInLoss _) rfl
  case refReturn =>
    intro s ppb
    exact happens_eq (exec_refInReturn _ _) rfl
  case esmc =>
    intro s lane quality
    exact happens_eq (exec_esmcQuality _ _ _) rfl

/-! ### The stake queue (R61, R64 to R72, R75, R498) -/

/-- A former bank that has freed by an axis position. -/
theorem freed_of_freeAt {α : Type} {b : Banks α} {t axis : Nat} (h : b.freeAt = some t) (ht : t ≤ axis) : b.freed axis = true := by
  simp [Banks.freed, h, ht]

/-- A MARK raises its event by its own action, not by the mark flag. -/
theorem markDone_of_mark {d : Dev} {q : QStake} (h : q.stake.action = 0x0100) : markDone d q = d := by
  simp [markDone, h]

theorem action_of_due {code : Nat} {able : Dev → QStake → Bool} {d : Dev} {q : QStake} (h : due code able d q = true) :
    q.stake.action = code := by
  simp only [due, Bool.and_eq_true, beq_iff_eq] at h
  obtain ⟨⟨⟨-, hcode⟩, -⟩, -⟩ := h
  exact hcode

/-- Settles O8. A stake that is `due` acts and is marked done by `stakeAct_due`, whatever its action; the other clauses choose a branch:
the first stake to prefetch, the first held stake past its limit, a bank whose time has come. What STAKE-CANCEL does inside the prefetch
distance and the delay of an action by stamp are the model's readings (assumption log, entries 27 and 28). -/
theorem stakeQueue : Obligations.StakeQueue := by
  unfold Obligations.StakeQueue
  refine ⟨?submit, ?cancel, ?list, ?delayAtAntenna, ?delayByStamp, ?prefetch, ?deferExpiry, ?mark, ?bankSwap, ?rxBankFree, ?xceBankFree⟩
  case submit =>
    rintro s h entries hs ⟨hlo, hhi, hcheck⟩
    have hsome : entries ≠ [] := List.ne_nil_of_length_pos hlo
    exact completes_eq (exec_stakeSubmit _ _ _) hs rfl (by simp [hsome, hhi, hcheck]) rfl
  case cancel =>
    intro s h tag mask hs hqs
    exact completes_eq (exec_stakeCancel _ _ _ _) hs rfl (by simp [qsHeld, hqs]) rfl
  case list =>
    rintro s h first count hs ⟨hlo, hhi⟩
    have hsome : count ≠ 0 := by omega
    exact query_completes (exec_stakeList _ _ _ _) hs rfl rfl (by simp [hsome, hhi])
  case delayAtAntenna =>
    rintro s h action target k hs ⟨rfl, hknown, htarget, hantenna⟩
    exact completes_eq (exec_axisDelays _ _ _ _) hs rfl (by simp [hknown, htarget]) (by simp [hantenna])
  case delayByStamp =>
    rintro s h action target k hs ⟨rfl, hknown, htarget, hstamp⟩
    exact completes_eq (exec_axisDelays _ _ _ _) hs rfl (by simp [hknown, htarget]) (by simp [hstamp])
  case prefetch =>
    intro s q l hfirst
    exact happens_eq (exec_stakePrefetch _) (by simp only [hfirst])
  case deferExpiry =>
    rintro s q ⟨hpast, haction⟩
    exact happens_eq (exec_stakeDeferExpiry _) (by simp only [hpast, if_neg haction, raiseDropped])
  case mark =>
    intro s q hdue
    exact happens_eq (exec_mark _) ((stakeAct_due hdue).trans (markDone_of_mark (action_of_due hdue)))
  case bankSwap =>
    intro s q hdue
    exact happens_eq (exec_bankSwap _) (stakeAct_due hdue)
  case rxBankFree =>
    rintro s cls inst t ⟨rfl, hinst, hat, hpast⟩
    refine happens_eq (exec_bankFree _ _ _) ?_
    have hfew : ¬bankInstances 1 ≤ inst := Nat.not_le.mpr hinst
    simp only [if_neg hfew, freed, freed_of_freeAt hat hpast, if_true]
  case xceBankFree =>
    rintro s cls inst t ⟨rfl, rfl, hat, hpast⟩
    refine happens_eq (exec_bankFree _ _ _) ?_
    have hfew : ¬bankInstances 8 ≤ 0 := by decide
    simp only [if_neg hfew, freed, freed_of_freeAt hat hpast, if_true]

/-! ### Launches and the memory's set-point (R62, R76 to R78, R512) -/

@[simp] theorem found_launchDelay (d : Dev) (h : Hdr) (lane : Nat) : launchDelay (found d h) lane = launchDelay d lane := by
  simp [launchDelay]

@[simp] theorem found_anyPortOn (d : Dev) (h : Hdr) : anyPortOn (found d h) = anyPortOn d := by
  have hport : portOn (found d h) = portOn d := by funext n; simp [portOn]
  simp only [anyPortOn, hport]

/-- R77, R78: a launch whose trigger has come leaves the queue whether it is sent or not, and its buffer is given on. Sent or discarded
is judged on the unit before, the launches held having no part in the axis, the delay or the state of a lane. -/
theorem launchNow_due {d : Dev} {l : Launch} (send : Dev → Dev) (hdue : l.pos - launchDelay d l.lane ≤ d.axis) :
    launchNow d l send = giveBuffer (if d.axis = l.pos - launchDelay d l.lane ∧ portUp d l.lane = true
      then send (d.onTmb fun t => { t with launches := t.launches.erase l })
      else raiseEv (d.onTmb fun t => { t with launches := t.launches.erase l }) EV.launchMiss [a4 l.buffer, a4 l.lane, a8 l.pos]) l.buffer :=
  if_neg (Nat.not_lt.mpr hdue)

/-- R77, R78: at its trigger, with its lane up, a launch is sent and its buffer given on. -/
theorem launchNow_sends {d : Dev} {l : Launch} (send : Dev → Dev) (hat : d.axis = l.pos - launchDelay d l.lane)
    (hup : portUp d l.lane = true) :
    launchNow d l send = giveBuffer (send (d.onTmb fun t => { t with launches := t.launches.erase l })) l.buffer := by
  rw [launchNow_due send hat.ge, if_pos ⟨hat, hup⟩]

/-- R78: past its trigger, or with its lane down at it, a launch is discarded with EV_LAUNCH_MISS and its buffer given on. -/
theorem launchNow_misses {d : Dev} {l : Launch} (send : Dev → Dev) (hdue : l.pos - launchDelay d l.lane ≤ d.axis)
    (hmiss : d.axis ≠ l.pos - launchDelay d l.lane ∨ portUp d l.lane = false) :
    launchNow d l send = giveBuffer (raiseEv (d.onTmb fun t => { t with launches := t.launches.erase l }) EV.launchMiss
      [a4 l.buffer, a4 l.lane, a8 l.pos]) l.buffer := by
  have hmiss' : ¬(d.axis = l.pos - launchDelay d l.lane ∧ portUp d l.lane = true) := fun ⟨hat, hup⟩ =>
    hmiss.elim (fun hne => hne hat) (fun hdown => by simp [hdown] at hup)
  rw [launchNow_due send hdue, if_neg hmiss']

/-- Settles O9. LAUNCH_TRIGGER turns on `launchNow_due`: sent at the trigger tick on a lane that is up, otherwise discarded. That a launch
found past its trigger is discarded, and that MEM-FREQ-SET is a stake of tag 0, are the model's readings (assumption log, entries 110
and 30). -/
theorem launchesAndFrequencySet : Obligations.LaunchesAndFrequencySet := by
  unfold Obligations.LaunchesAndFrequencySet
  refine ⟨?queue, ?cancelHeld, ?cancelOther, ?frameLeaves, ?frameMissed, ?reportLeaves, ?memFreqSet⟩
  case queue =>
    rintro s h lane position frame b hs ⟨hlane, hlo, hhi, hlead⟩ hfree
    have hsome : frame ≠ [] := List.ne_nil_of_length_pos hlo
    exact completes_eq (exec_launchQueue _ _ _ _ _) hs rfl (by simp [hlane, hsome, hhi, hlead, hfree]) (by simp [hfree])
  case cancelHeld =>
    intro s h buffer hs hheld
    exact completes_eq (exec_launchCancel _ _ _) hs rfl rfl (by simp only [found_tmb, if_pos hheld])
  case cancelOther =>
    intro s h buffer hs hother
    exact completes_eq (F := fun d => d) (exec_launchCancel _ _ _) hs rfl rfl (by simp [hother])
  case frameLeaves =>
    rintro s buffer l f ⟨hl, hwhat⟩ ⟨hat, hup⟩
    exact happens_eq (exec_launchTrigger _ _) (by simp only [hl, hwhat, launchNow_sends _ hat hup])
  case frameMissed =>
    rintro s buffer l f ⟨hl, hwhat⟩ ⟨hdue, hmiss⟩
    exact happens_eq (exec_launchTrigger _ _) (by simp only [hl, hwhat, launchNow_misses _ hdue hmiss])
  case reportLeaves =>
    rintro s buffer l f kind dest part parts axis n body thorn e ⟨hl, hwhat⟩ ⟨hat, hup⟩ hseq rfl
    refine onDev_happens (exec_launchTrigger _ _) ?_
    simp only [hl, hwhat, launchNow_sends _ hat hup, ← hseq]
  case memFreqSet =>
    rintro s h setpoint position k hs ⟨hset, hdom, hports⟩ rfl ⟨hargs, hstate⟩
    exact completes_eq (exec_memFreqSet _ _ _ _) hs rfl (by simp [hset, hdom, hports, hargs, hstate]) rfl

end Sys2Proof.Machine
end

section
/-! What the lanes do (chapter 3): their commands, their bring-up and take-down, the blocks of a direct lane and the pattern checker.
Most clauses turn on one branch of a change of the lane, which `onLane_congr` settles on the lane as it stands. -/

namespace Sys2Proof.Machine

/-! ### The meaning that `exec` gives each command and happening -/

theorem exec_laneConfig (h : Hdr) (lane mode fec unit plane tag force : Nat) (s : State) :
    exec (.laneConfig h lane mode fec unit plane tag force) s = execLaneConfig h lane mode fec unit plane tag force s := rfl
theorem exec_laneStatus (h : Hdr) (lane : Nat) (s : State) : exec (.laneStatus h lane) s = execLaneStatus h lane s := rfl
theorem exec_laneEqGet (h : Hdr) (lane : Nat) (s : State) : exec (.laneEqGet h lane) s = execLaneEqGet h lane s := rfl
theorem exec_laneEqSet (h : Hdr) (lane freeze : Nat) (s : State) : exec (.laneEqSet h lane freeze) s = execLaneEqSet h lane freeze s := rfl
theorem exec_lanePrbs (h : Hdr) (lane pattern gen chk force : Nat) (s : State) :
    exec (.lanePrbs h lane pattern gen chk force) s = execLanePrbs h lane pattern gen chk force s := rfl
theorem exec_lanePrbsRead (h : Hdr) (lane clear : Nat) (s : State) :
    exec (.lanePrbsRead h lane clear) s = execLanePrbsRead h lane clear s := rfl
theorem exec_laneLoopback (h : Hdr) (lane kind force : Nat) (s : State) :
    exec (.laneLoopback h lane kind force) s = execLaneLoopback h lane kind force s := rfl
theorem exec_laneReset (h : Hdr) (lane : Nat) (s : State) : exec (.laneReset h lane) s = execLaneReset h lane s := rfl
theorem exec_quadPower (h : Hdr) (quad on force : Nat) (s : State) :
    exec (.quadPower h quad on force) s = execQuadPower h quad on force s := rfl
theorem exec_laneCounters (h : Hdr) (lane clear : Nat) (s : State) :
    exec (.laneCounters h lane clear) s = execLaneCounters h lane clear s := rfl
theorem exec_laserStable (reading : LaserReading) (s : State) : exec (.laserStable reading) s = execLaserStable reading s := rfl
theorem exec_lossOfSignalClear (lane : Nat) (power : Int) (s : State) :
    exec (.lossOfSignalClear lane power) s = execLossOfSignalClear lane power s := rfl
theorem exec_lossOfSignal (lane : Nat) (power : Int) (s : State) : exec (.lossOfSignal lane power) s = execLossOfSignal lane power s := rfl
theorem exec_clockRecoveryLock (lane : Nat) (s : State) : exec (.clockRecoveryLock lane) s = execClockRecoveryLock lane s := rfl
theorem exec_equaliserAdapted (lane : Nat) (eq : EqState) (s : State) :
    exec (.equaliserAdapted lane eq) s = execEqualiserAdapted lane eq s := rfl
theorem exec_blockLock (found : LockAt) (s : State) : exec (.blockLock found) s = execBlockLock found s := rfl
theorem exec_noAlignment (lane : Nat) (s : State) : exec (.noAlignment lane) s = execNoAlignment lane s := rfl
theorem exec_lockLost (lane : Nat) (window : LockWindow) (s : State) : exec (.lockLost lane window) s = execLockLost lane window s := rfl
theorem exec_laneTakeDown (lane : Nat) (s : State) : exec (.laneTakeDown lane) s = execLaneTakeDown lane s := rfl
theorem exec_identSend (lane : Nat) (s : State) : exec (.identSend lane) s = execIdentSend lane s := rfl
theorem exec_fillSend (lane : Nat) (s : State) : exec (.fillSend lane) s = execFillSend lane s := rfl
theorem exec_ident (lane code unit plane tag crc : Nat) (s : State) :
    exec (.ident lane code unit plane tag crc) s = execIdent lane code unit plane tag crc s := rfl
theorem exec_fill (lane : Nat) (s : State) : exec (.fill lane) s = execFill lane s := rfl
theorem exec_fillInsertion (lane : Nat) (s : State) : exec (.fillInsertion lane) s = execFillInsertion lane s := rfl
theorem exec_elasticSlip (lane : Nat) (s : State) : exec (.elasticSlip lane) s = execElasticSlip lane s := rfl
theorem exec_prbsLock (found : PrbsRun) (s : State) : exec (.prbsLock found) s = execPrbsLock found s := rfl
theorem exec_prbsLockLoss (lane window errs syms : Nat) (s : State) :
    exec (.prbsLockLoss lane window errs syms) s = execPrbsLockLoss lane window errs syms s := rfl

/-- What happens stands in every relation that the unit after it implies, on the unit before it. -/
theorem happens.imp {i : Instr} {s : State} {rel rel' : Dev → Dev → Prop} (h : happens i s rel)
    (hr : ∀ d, rel s.dev d → rel' s.dev d) : happens i s rel' := by
  obtain ⟨d, he, hd⟩ := h
  exact ⟨d, he, hr d hd⟩

/-! ### Changes of a lane -/

/-- Two changes of one lane are one change. -/
theorem onLane_onLane (d : Dev) (n : Nat) (f g : Lane → Lane) : (d.onLane n f).onLane n g = d.onLane n fun l => g (f l) := by
  simp only [Dev.onLane, upd_upd]
  rfl

/-- What a change of a lane keeps of it, the unit keeps of every lane. -/
theorem onLane_keep {β : Type} (g : Lane → β) {f : Lane → Lane} (hf : ∀ l, g (f l) = g l) (d : Dev) (n m : Nat) :
    g (nth (d.onLane n f).lanes m) = g (nth d.lanes m) :=
  nth_upd_keep g d.lanes n m f hf

/-- A lane is DIRECT by its mode alone. -/
theorem laneDirect_onLane {f : Lane → Lane} (hf : ∀ l, (f l).mode = l.mode) (d : Dev) (n m : Nat) :
    laneDirect (d.onLane n f) m = laneDirect d m := by
  simp only [laneDirect, onLane_keep Lane.mode hf]

/-! ### Lane commands (R94, R99, R102, R103, R105 to R111) -/

/-- R111: into and out of every mode but 2, a lane is configured alone. -/
theorem configLanes_single {d : Dev} {lane mode : Nat} (hmode : mode ≠ 2) (hquad : (nth d.lanes (quadFirst lane)).mode ≠ 2) :
    configLanes d lane mode = [lane] := by
  simp [configLanes, hmode, hquad]

/-- R111: LANE-CONFIG of one lane, forced, starts the bring-up in the new mode of a lane that is OFF and marks any other to be taken down
into it. -/
theorem laneConfig_completes {s : State} {h : Hdr} {lane mode fec unit plane tag force : Nat} (hs : starts s.dev h (cmd 0x0200) = true)
    (hargs : lane ≤ 31 ∧ plane ≤ 31 ∧ mode ≤ 5 ∧ fec ≤ 1 ∧ mode ≠ 2 ∧ (mode = 1 → fec = 1))
    (hrest : (unit ≤ 262143 ∨ unit = 0xFFFFF) ∧ nth s.dev.quads (lane / 4) = true ∧ force = 1)
    (hquad : (nth s.dev.lanes (quadFirst lane)).mode ≠ 2) :
    completes (.laneConfig h lane mode fec unit plane tag force) s h (cmd 0x0200) fun d d' fs =>
      d' = (let e := d.onLane lane fun l => { l with expUnit := unit, expLane := plane, expTag := tag }
        if (nth s.dev.lanes lane).st = 0 then startLane e lane mode fec else markDown e h lane (.mode mode fec)) ∧ fs = [] := by
  obtain ⟨hlane, hplane, hmode, hfec, hne, hfec1⟩ := hargs
  obtain ⟨hunit, hon, rfl⟩ := hrest
  have hsingle : configLanes (found s.dev h) lane mode = [lane] := configLanes_single hne (by simpa using hquad)
  refine completes_eq (exec_laneConfig _ _ _ _ _ _ _ _ _) hs rfl ?_ ?_
  · simp [hlane, hplane, hmode, hfec, hne, hquad, hon]
    omega
  · have hst := onLane_keep Lane.st (f := fun l => { l with expUnit := unit, expLane := plane, expTag := tag }) (fun _ => rfl)
      (found s.dev h) lane lane
    simp only [found_lanes] at hst
    simp only [just, hsingle, List.foldl_cons, List.foldl_nil, if_neg hne, if_true, hst]

/-- R109: the check of LANE-PRBS and LANE-LOOPBACK that a lane is not in use passes with `force`, and on a lane that is neither UP nor
configured for use. -/
theorem testAllowed {force st : Nat} {configured : Bool} (h : force = 1 ∨ (st ≠ 5 ∧ configured = false)) :
    (force == 0 && (st == 5 || configured)) = false := by
  obtain rfl | ⟨hst, rfl⟩ := h <;> simp [*]

/-- Settles O10. LANE-CONFIG turns on whether the lane is OFF, which `laneConfig_completes` leaves to the lane; LANE-PRBS and
LANE-LOOPBACK with a generator, checker or loop switched on enter TEST; QUAD-POWER turns on the quad's present state. -/
theorem laneCommands : Obligations.LaneCommands := by
  unfold Obligations.LaneCommands
  refine ⟨?configOff, ?configOther, ?status, ?eqGet, ?eqSet, ?prbs, ?prbsRead, ?loopback, ?reset, ?quadOn, ?quadOff, ?counters⟩
  case configOff =>
    rintro s h lane mode fec unit plane tag force hs hargs hrest ⟨hquad, hoff⟩
    simpa only [if_pos hoff] using laneConfig_completes (tag := tag) hs hargs hrest hquad
  case configOther =>
    rintro s h lane mode fec unit plane tag force hs hargs hrest ⟨hquad, hlit⟩
    simpa only [if_neg hlit, markDown] using laneConfig_completes (tag := tag) hs hargs hrest hquad
  case status =>
    intro s h lane hs hlane
    exact query_completes (exec_laneStatus _ _ _) hs rfl rfl (by simp [hlane])
  case eqGet =>
    intro s h lane hs hlane
    exact query_completes (exec_laneEqGet _ _ _) hs rfl rfl (by simp [hlane])
  case eqSet =>
    rintro s h lane freeze hs ⟨hlane, hfreeze, hon, hup⟩
    exact completes_eq (exec_laneEqSet _ _ _ _) hs rfl (by simp [hlane, hfreeze, hon]; omega) (by simp [just, Lane.setFreeze])
  case prbs =>
    rintro s h lane pattern gen chk force hs ⟨hlane, hpat, hgen, hchk, hforce, hsome⟩ ⟨hsuits, hst, hon⟩ hfree
    refine completes_eq (exec_lanePrbs _ _ _ _ _ _ _) hs rfl ?_ ?_
    · have hpattern : ((nth s.dev.lanes lane).mode != 0 && !patternOk (nth s.dev.lanes lane).mode pattern) = false := by
        obtain hm | hm := hsuits <;> simp [hm]
      simp [hlane, hpat, hgen, hchk, hforce, hpattern, hon, hst, testAllowed hfree]
    · have hone : ¬(gen = 0 ∧ chk = 0) := by omega
      simp only [just, if_neg hone]
  case prbsRead =>
    rintro s h lane clear e hs ⟨hlane, hclear, rfl⟩
    exact completes_eq (exec_lanePrbsRead _ _ _ _) hs rfl (by simp [hlane, hclear]) rfl
  case loopback =>
    rintro s h lane kind force hs ⟨hlane, hlo, hhi, hforce, hst, hon⟩ hfree
    refine completes_eq (exec_laneLoopback _ _ _ _ _) hs rfl ?_ ?_
    · simp [hlane, hhi, hforce, hon, hst, testAllowed hfree]
    · have hkind : kind ≠ 0 := by omega
      simp only [just, if_neg hkind]
  case reset =>
    rintro s h lane hs ⟨hlane, hon⟩
    exact completes_eq (exec_laneReset _ _ _) hs rfl (by simp [hlane, hon]) (by simp only [just, markDown, onLane_onLane])
  case quadOn =>
    rintro s h quad on force hs ⟨hquad, rfl, hforce, hgated⟩
    exact completes_eq (exec_quadPower _ _ _ _ _) hs rfl (by simp [hquad, hforce]) (by simp [just, hgated])
  case quadOff =>
    rintro s h quad on force hs ⟨hquad, rfl, rfl, hdown⟩
    exact completes_eq (exec_quadPower _ _ _ _ _) hs rfl (by simp [hquad])
      (by simp only [just, zero_ne_one, if_false, found_lanes, if_pos hdown])
  case counters =>
    rintro s h lane clear hs ⟨hlane, hclear⟩
    exact completes_eq (exec_laneCounters _ _ _ _) hs rfl (by simp [hlane, hclear]) rfl

/-! ### Bring-up, loss and take-down (R94 to R103) -/

/-- R95, R99: block lock found in ALIGN takes a DIRECT lane to IDENTIFY and any other UP. -/
theorem blockLock_happens {s : State} {found : LockAt} (hst : (nth s.dev.lanes found.lane).st = 3) :
    happens (.blockLock found) s fun d d' => d' =
      if laneDirect d found.lane then
        d.onLane found.lane fun l => { l with blk := true, offset := found.offset % 66, identRun := 0, st := 4 }
      else qsPorts (raiseEv (d.onLane found.lane fun l => { l with blk := true, offset := found.offset % 66, identRun := 0, st := 5 })
        EV.laneUp [a4 found.lane, a4 0, a4 0, a4 0]) := by
  refine happens_eq (exec_blockLock _ _) ((if_pos hst).trans ?_)
  simp only [laneDirect_onLane, implies_true, onLane_onLane]

/-- R96: where the sync headers, or with FEC its codewords, end the lock, LOCK_LOST does not pass them over. -/
theorem lockBroken {l : Lane} {window : LockWindow} (h : if l.fec = 0 then 16 ≤ window.invalid else window.codewords = true) :
    (if l.fec = 0 then decide (window.invalid < 16) else !window.codewords) = false := by
  by_cases hfec : l.fec = 0
  · simpa [hfec] using h
  · simpa [hfec] using h

/-- R95, R96: a lane with block lock loses it: the search starts again where the lane was, and an UP lane leaves UP. -/
theorem lockLost_happens {s : State} {lane : Nat} {window : LockWindow} (hblk : (nth s.dev.lanes lane).blk = true)
    (hrule : if (nth s.dev.lanes lane).fec = 0 then 16 ≤ window.invalid else window.codewords = true) :
    happens (.lockLost lane window) s fun d d' => d' =
      (let e := d.onLane lane fun l => { l with
        blk := false, lockLost := true, lockLosses := sat32 (l.lockLosses + 1), identRun := 0, searchAt := d.now, noAlign := false }
      if (nth d.lanes lane).st = 5 then leaveUp e lane 3 2 true
      else if (nth d.lanes lane).st = 4 ∨ (nth d.lanes lane).st = 6 then e.onLane lane fun l => { l with st := 3 } else e) :=
  happens_eq (exec_lockLost _ _ _) (if_neg (by simp [hblk, lockBroken hrule]))

/-- Settles O11. A change that the clause's conditions select on the lane as it stands is the change stated (`onLane_congr`); the loss
of the signal and of block lock turn on whether the lane is UP, block lock on whether its mode is DIRECT. That a loss of signal ends a
loopback or pattern is the model's reading (assumption log, entry 108). -/
theorem laneBringUp : Obligations.LaneBringUp := by
  unfold Obligations.LaneBringUp
  refine ⟨?laserStable, ?signalBack, ?signalLost, ?signalLostUp, ?clock, ?adapted, ?tracks, ?lockDirect, ?lockEth, ?noAlignment,
    ?lockLostUp, ?lockLost, ?takeDown⟩
  case laserStable =>
    rintro s reading ⟨hlit, hnew, hdark, hsignal⟩
    exact happens_eq (exec_laserStable _ _) (onLane_congr _ _ _ _ (by simp [hlit, hnew, hdark, hsignal]))
  case signalBack =>
    rintro s lane power ⟨hdark, hlos, hstable, hpower⟩
    exact happens_eq (exec_lossOfSignalClear _ _ _) (onLane_congr _ _ _ _ (by simp [hdark, hlos, hstable, hpower]))
  case signalLost =>
    rintro s lane power ⟨hon, hup⟩ ⟨hsignal, hpower⟩
    exact happens_eq (exec_lossOfSignal _ _ _) (by simp [hon, hup, hsignal, Int.not_le.mpr hpower])
  case signalLostUp =>
    rintro s lane power ⟨hup, hsignal, hpower⟩
    exact happens_eq (exec_lossOfSignal _ _ _) (by simp [hup, hsignal, Int.not_le.mpr hpower])
  case clock =>
    rintro s lane ⟨hst, hcdr⟩
    exact happens_eq (exec_clockRecoveryLock _ _) (onLane_congr _ _ _ _ (by simp [hst, hcdr]))
  case adapted =>
    rintro s lane eq ⟨hst, hcdr, hfreeze⟩
    exact happens_eq (exec_equaliserAdapted _ _ _) (onLane_congr _ _ _ _ (by simp [hst, hcdr, hfreeze, Lane.search]))
  case tracks =>
    rintro s lane eq ⟨hst, hcdr⟩
    have hsome : 2 ≤ (nth s.dev.lanes lane).st := by omega
    have hpast : (nth s.dev.lanes lane).st ≠ 2 := by omega
    exact happens_eq (exec_equaliserAdapted _ _ _) (onLane_congr _ _ _ _ (by simp [hsome, hpast, hcdr]))
  case lockDirect =>
    rintro s found ⟨hst, hdirect⟩
    exact (blockLock_happens hst).imp fun _ h => h.trans (if_pos hdirect)
  case lockEth =>
    rintro s found ⟨hst, heth⟩
    exact (blockLock_happens hst).imp fun _ h => h.trans (if_neg (Bool.eq_false_iff.mp heth))
  case noAlignment =>
    rintro s lane ⟨hst, hmode⟩ ⟨hnew, hlong⟩
    exact happens_eq (exec_noAlignment _ _) (if_pos ⟨hst, hmode, hnew, hlong⟩)
  case lockLostUp =>
    rintro s lane window ⟨hblk, hup⟩ hrule
    exact (lockLost_happens hblk hrule).imp fun _ h => h.trans (if_pos hup)
  case lockLost =>
    rintro s lane window ⟨hblk, hst⟩ hrule
    have hnotUp : (nth s.dev.lanes lane).st ≠ 5 := by omega
    exact (lockLost_happens hblk hrule).imp fun _ h => by simpa only [if_neg hnotUp, if_pos hst, onLane_onLane] using h
  case takeDown =>
    rintro s lane x ⟨hdown, hstop⟩
    exact happens_eq (exec_laneTakeDown _ _) (by simp only [hdown, if_pos hstop])

/-! ### Blocks of a direct lane and the pattern checker (R88, R89, R92, R93, R97, R98, R107) -/

/-- R88, R97: a DIRECT lane with block lock in IDENTIFY, UP or MISWIRED does not pass over an IDENT block. -/
theorem identHeard {d : Dev} {lane : Nat} (hlane : laneDirect d lane = true ∧ (nth d.lanes lane).blk = true)
    (hst : (nth d.lanes lane).st = 4 ∨ (nth d.lanes lane).st = 5 ∨ (nth d.lanes lane).st = 6) :
    ¬(!laneDirect d lane || !(nth d.lanes lane).blk
      || !((nth d.lanes lane).st == 4 || (nth d.lanes lane).st == 5 || (nth d.lanes lane).st == 6) || 0xD2 != 0xD2) = true := by
  obtain ⟨hdirect, hblk⟩ := hlane
  obtain hst | hst | hst := hst <;> simp [hdirect, hblk, hst]

/-- Settles O12. A run of three equal IDENT blocks makes the arriving one the fourth, which is accepted; a CRC-8 that fails ends the
run. The fills of the elastic buffer are the free values drawn next (assumption log, entry 35). -/
theorem laneBlocks : Obligations.LaneBlocks := by
  unfold Obligations.LaneBlocks
  refine ⟨?identSend, ?fillSend, ?identAccepted, ?identWrong, ?fill, ?fillInsertion, ?slip, ?prbsLock, ?prbsLockLoss⟩
  case identSend =>
    intro s lane hsends
    exact happens_eq (exec_identSend _ _) (if_pos hsends)
  case fillSend =>
    intro s lane hsends
    exact happens_eq (exec_fillSend _ _) (if_pos hsends)
  case identAccepted =>
    rintro s lane code unit plane tag crc hlane hst ⟨rfl, hcrc, hsame, hrun⟩
    have hfourth : (if (nth s.dev.lanes lane).ident = bytesOf [fld 3 unit, fld 1 plane, fld 1 tag] ∧ (nth s.dev.lanes lane).identRun ≠ 0
        then min 4 ((nth s.dev.lanes lane).identRun + 1) else 1) = 4 := by
      rw [if_pos ⟨hsame.symm, by omega⟩]
      omega
    refine happens_eq (exec_ident _ _ _ _ _ _ _) ((if_neg (identHeard hlane hst)).trans ((if_neg (not_not.mpr hcrc)).trans ?_))
    simp only [hfourth, if_true, onLane_onLane, Lane.accept]
  case identWrong =>
    rintro s lane code unit plane tag crc hlane hst ⟨rfl, hcrc⟩
    exact happens_eq (exec_ident _ _ _ _ _ _ _) ((if_neg (identHeard hlane hst)).trans (if_pos hcrc))
  case fill =>
    rintro s lane ⟨hdirect, hblk⟩
    exact onDev_happens (exec_fill _ _) ⟨(s.dev.fresh 4).1 % 17, by omega, if_pos (by simp [hdirect, hblk])⟩
  case fillInsertion =>
    rintro s lane ⟨hdirect, hblk⟩
    exact onDev_happens (exec_fillInsertion _ _) ⟨(s.dev.fresh 4).1, if_pos (by simp [hdirect, hblk])⟩
  case slip =>
    rintro s lane ⟨hdirect, hblk⟩
    exact happens_eq (exec_elasticSlip _ _) (if_pos (by simp [hdirect, hblk]))
  case prbsLock =>
    rintro s found ⟨hst, hchk, hfree, hrun⟩
    exact happens_eq (exec_prbsLock _ _) (onLane_congr _ _ _ _ (by simp [hst, hchk, hfree, hrun]))
  case prbsLockLoss =>
    rintro s lane window errs syms bits ⟨hlock, hwindow⟩ rfl
    refine happens_eq (exec_prbsLockLoss _ _ _ _ _) ?_
    simp only [hlock, hwindow, decide_true, Bool.and_self, if_true, prbsAdd, onLane_onLane, sat48]

end Sys2Proof.Machine
end

section
/-! What the link does (chapter 4): its sessions, its bulk objects, what happens on it by itself, its destinations, report slots and
counters. The checks that several clauses share are lemmas about the unit a command finds; what remains of a clause is the branch that
its conditions choose. -/

namespace Sys2Proof.Machine

/-! ### The meaning that `exec` gives each command and happening -/

theorem exec_discover (h : Hdr) (s : State) : exec (.discover h) s = execDiscover h s := rfl
theorem exec_sessionOpen (h : Hdr) (role takeover keepalive maxPayload : Nat) (s : State) :
    exec (.sessionOpen h role takeover keepalive maxPayload) s = execSessionOpen h role takeover keepalive maxPayload s := rfl
theorem exec_sessionAuth (h : Hdr) (key : Nat) (sig : EcdsaSig) (s : State) :
    exec (.sessionAuth h key sig) s = execSessionAuth h key sig s := rfl
theorem exec_sessionClose (h : Hdr) (s : State) : exec (.sessionClose h) s = execSessionClose h s := rfl
theorem exec_sessionKeepalive (h : Hdr) (s : State) : exec (.sessionKeepalive h) s = execSessionKeepalive h s := rfl
theorem exec_sessionStatus (h : Hdr) (s : State) : exec (.sessionStatus h) s = execSessionStatus h s := rfl
theorem exec_sessionList (h : Hdr) (s : State) : exec (.sessionList h) s = execSessionList h s := rfl
theorem exec_sessionEvict (h : Hdr) (target : Nat) (s : State) : exec (.sessionEvict h target) s = execSessionEvict h target s := rfl
theorem exec_eventSubscribe (h : Hdr) (mask minSev : Nat) (s : State) :
    exec (.eventSubscribe h mask minSev) s = execEventSubscribe h mask minSev s := rfl
theorem exec_bulkOpen (h : Hdr) (kind len crc : Nat) (s : State) :
    exec (.bulkOpen h kind len crc) s = execBulkOpen h kind len crc s := rfl
theorem exec_bulkStatus (h : Hdr) (handle : Nat) (s : State) : exec (.bulkStatus h handle) s = execBulkStatus h handle s := rfl
theorem exec_bulkClose (h : Hdr) (handle : Nat) (s : State) : exec (.bulkClose h handle) s = execBulkClose h handle s := rfl
theorem exec_bulkAbort (h : Hdr) (handle : Nat) (s : State) : exec (.bulkAbort h handle) s = execBulkAbort h handle s := rfl
theorem exec_bulkRead (h : Hdr) (handle offset len pace : Nat) (s : State) :
    exec (.bulkRead h handle offset len pace) s = execBulkRead h handle offset len pace s := rfl
theorem exec_bulkResend (h : Hdr) (handle offset len : Nat) (s : State) :
    exec (.bulkResend h handle offset len) s = execBulkResend h handle offset len s := rfl
theorem exec_bulkDone (handle : Nat) (s : State) : exec (.bulkDone handle) s = execBulkDone handle s := rfl
theorem exec_bulkFragment (session : Nat) (rx : PktIn) (handle offset : Nat) (data thorn : List Nat) (s : State) :
    exec (.bulkFragment session rx handle offset data thorn) s = execBulkFragment session rx handle offset data thorn s := rfl
theorem exec_eventGet (h : Hdr) (first count : Nat) (s : State) : exec (.eventGet h first count) s = execEventGet h first count s := rfl
theorem exec_evtPacketSend (session : Nat) (s : State) : exec (.evtPacketSend session) s = execEvtPacketSend session s := rfl
theorem exec_sessionTimeout (session : Nat) (s : State) : exec (.sessionTimeout session) s = execSessionTimeout session s := rfl
theorem exec_swiosPacketDropped (port : Nat) (fcsOk : Bool) (pkt : RawPkt) (s : State) :
    exec (.swiosPacketDropped port fcsOk pkt) s = execSwiosPacketDropped port fcsOk pkt s := rfl
theorem exec_reportSlot (kind : Nat) (s : State) : exec (.reportSlot kind) s = execReportSlot kind s := rfl
theorem exec_spreadResponse (buffer : Nat) (s : State) : exec (.spreadResponse buffer) s = execSpreadResponse buffer s := rfl
theorem exec_priorityFlowControl (port prio : Nat) (pause : Bool) (s : State) :
    exec (.priorityFlowControl port prio pause) s = execPriorityFlowControl port prio pause s := rfl
theorem exec_linkEncapApply (s : State) : exec .linkEncapApply s = execLinkEncapApply s := rfl
theorem exec_dhcpReply (addr : Nat) (s : State) : exec (.dhcpReply addr) s = execDhcpReply addr s := rfl
theorem exec_servicePortLink (up : Bool) (s : State) : exec (.servicePortLink up) s = execServicePortLink up s := rfl
theorem exec_undefinedOpcode (h : Hdr) (op : Nat) (s : State) : exec (.undefinedOpcode h op) s = execUndefinedOpcode h op s := rfl
theorem exec_destSet (h : Hdr) (index eth ipv ip udp maxPayload : Nat) (s : State) :
    exec (.destSet h index eth ipv ip udp maxPayload) s = execDestSet h index eth ipv ip udp maxPayload s := rfl
theorem exec_reportSlotSet (h : Hdr) (kind dest lane period offset window : Nat) (s : State) :
    exec (.reportSlotSet h kind dest lane period offset window) s = execReportSlotSet h kind dest lane period offset window s := rfl
theorem exec_reportSlotGet (h : Hdr) (kind : Nat) (s : State) : exec (.reportSlotGet h kind) s = execReportSlotGet h kind s := rfl
theorem exec_linkEncapSet (h : Hdr) (enc : Encap) (s : State) : exec (.linkEncapSet h enc) s = execLinkEncapSet h enc s := rfl
theorem exec_linkEncapGet (h : Hdr) (s : State) : exec (.linkEncapGet h) s = execLinkEncapGet h s := rfl
theorem exec_linkCounters (h : Hdr) (port clear : Nat) (s : State) :
    exec (.linkCounters h port clear) s = execLinkCounters h port clear s := rfl

/-! ### Sessions (R123 to R129, R153) -/

/-- R116: the limits of a `max_payload` argument are checked as they are stated. -/
theorem payloadArg_ok {n : Nat} (h : n = 0 ∨ (512 ≤ n ∧ n ≤ 8960 ∧ n % 64 = 0)) :
    (n != 0 && (decide (n < 512) || decide (8960 < n) || n % 64 != 0)) = false := by
  obtain rfl | ⟨hlo, hhi, hmul⟩ := h
  · rfl
  · simp [hlo, hhi, hmul]

/-- R125: while no key is enrolled, SESSION-OPEN gives no nonce. -/
theorem noNonce {d : Dev} {role : Nat} (h : role = 1 → d.nvm.owners.any (·.enrolled) = false) :
    (role == 1 && keysEnrolled d) = false := by
  by_cases h1 : role = 1
  · simp [keysEnrolled, h1, h h1]
  · simp [h1]

/-- R125: on a unit without an owner, SESSION-OPEN passes the check that no owner is present. -/
theorem noOwnerPresent {d : Dev} {role takeover : Nat} (h : role = 1 → d.owner? = none) :
    (role == 1 && takeover == 0 && d.owner?.isSome) = false := by
  by_cases h1 : role = 1
  · simp [h h1]
  · simp [h1]

/-- Settles O1. SESSION-OPEN turns on whether an owner or an observer asks: with no key enrolled the owner draws no nonce, and without an
owner it closes no session. That a new session takes the lowest free number and that an observer may send SESSION-AUTH are the model's
readings (assumption log, entries 111 and 16). -/
theorem sessionCommands : Obligations.SessionCommands := by
  unfold Obligations.SessionCommands
  refine ⟨?discover, ?opens, ?auth, ?close, ?keepalive, ?status, ?list, ?evict, ?subscribe⟩
  case discover =>
    intro s h hs
    exact completes_of (exec_discover _ _) hs rfl rfl _ _ rfl ⟨rfl, rfl⟩
  case opens =>
    intro s h role takeover keepalive maxPayload hs hargs hpay hroom hfree
    obtain ⟨hrole, htake, hkeep⟩ := hargs
    have howner : role = 1 → (found s.dev h).owner? = none := fun h1 => (hfree h1).2
    have hnonce : (role == 1 && keysEnrolled (found s.dev h)) = false := noNonce fun h1 => by simpa using (hfree h1).1
    refine ⟨_, rfl, ?_⟩
    rw [exec_sessionOpen, execSessionOpen, hostCmd_starts _ _ _ _ _ _ hs rfl]
    · simp only [hnonce]
      by_cases h1 : role = 1
      · simp [h1, howner h1, conclude, b2n]
      · simp [h1, conclude, b2n]
    · simp [hrole, htake, hkeep, payloadArg_ok hpay, noOwnerPresent howner, hroom]
  case auth =>
    rintro s h key sig x n hs ⟨hkey, henrolled⟩ hsig ⟨hx, hnonce, howner⟩
    refine completes_eq (exec_sessionAuth _ _ _ _) hs rfl ?_ ?_
    · simp [hkey, henrolled, hx, hnonce, hsig, howner]
    · simp [henrolled, hx, hnonce, hsig, howner]
  case close =>
    intro s h hs
    exact completes_eq (exec_sessionClose _ _) hs rfl rfl rfl
  case keepalive =>
    intro s h hs
    exact query_completes (exec_sessionKeepalive _ _) hs rfl rfl rfl
  case status =>
    intro s h x hs hx
    exact completes_eq (F := fun d => d) (exec_sessionStatus _ _) hs rfl rfl (by simp only [hx])
  case list =>
    intro s h hs
    exact completes_of (exec_sessionList _ _) hs rfl rfl _ _ rfl ⟨rfl, rfl, by simp [List.length_flatMap]; omega⟩
  case evict =>
    rintro s h target x hs ⟨hx, hobs⟩
    exact completes_eq (exec_sessionEvict _ _ _) hs rfl (by simp [hx, hobs]) rfl
  case subscribe =>
    rintro s h mask minSev hs ⟨hmask, hsev⟩
    exact completes_eq (exec_eventSubscribe _ _ _ _) hs rfl (by simp [hsev]; omega) rfl

/-! ### Bulk objects (R140 to R144) -/

/-- R140, R144: an object that the session may name is held by it on the unit a command finds. -/
theorem heldObj_found {d : Dev} {h : Hdr} {handle : Nat} {o : BulkObj}
    (ho : d.obj? handle = some o ∧ (o.session = h.session ∨ o.session = 0)) : heldObj (found d h) h handle = some o := by
  obtain ⟨hobj, hsession⟩ := ho
  simp [heldObj, hobj, hsession]

/-- R144: a range inside a closed object that the session may name can be read. -/
theorem readCheck_found {d : Dev} {h : Hdr} {handle offset len : Nat} {o : BulkObj}
    (ho : d.obj? handle = some o ∧ (o.session = h.session ∨ o.session = 0)) (hr : 0 < len ∧ offset + len ≤ o.len ∧ o.closed = true) :
    readCheck (found d h) h handle offset len = none := by
  obtain ⟨hlen, hinside, hclosed⟩ := hr
  simp [readCheck, heldObj_found ho, hlen.ne', Nat.not_lt.mpr hinside, hclosed]

/-- The arrival of a BULK or STREAM packet leaves the objects as they are. -/
@[simp] theorem dataIn_obj (d : Dev) (session : Nat) (rx : PktIn) (n handle : Nat) :
    (dataIn d session rx n).1.obj? handle = d.obj? handle := by
  unfold dataIn
  repeat' split
  all_goals rfl

/-- R625: a command that starts finds the unit running, not in the recovery loader. -/
theorem running_of_starts {d : Dev} {h : Hdr} {info : CmdInfo} (hs : starts d h info = true) : d.ctl.phase = .running := by
  simp only [starts, Bool.and_eq_true, beq_iff_eq] at hs
  obtain ⟨⟨⟨⟨⟨⟨hrun, -⟩, -⟩, -⟩, -⟩, -⟩, -⟩ := hs
  exact hrun

/-- Settles O2. Every command but BULK-OPEN turns on `heldObj`: the session may name the object. The arrival of a fragment leaves the objects
as they are, so that the rules of R142 hold of the object it finds. The number of a new handle and the end of an aborted object's
transfers are the model's readings (assumption log, entries 18 and 40). -/
theorem bulkCommands : Obligations.BulkCommands := by
  unfold Obligations.BulkCommands
  refine ⟨?opens, ?status, ?close, ?abort, ?read, ?resend, ?done, ?fragment⟩
  case opens =>
    rintro s h kind len crc hs ⟨hkind, hlen⟩ hfits
    exact completes_eq (exec_bulkOpen _ _ _ _ _) hs rfl (by simp [hkind, hlen.ne', hfits, running_of_starts hs]) rfl
  case status =>
    intro s h handle o hs ho
    exact completes_eq (F := fun d => d) (exec_bulkStatus _ _ _) hs rfl (by simp [heldObj_found ho]) (by simp only [found_obj, ho.1])
  case close =>
    intro s h handle o hs ho hwhole
    refine completes_eq (exec_bulkClose _ _ _) hs rfl ?_ rfl
    obtain hclosed | ⟨hall, hcrc⟩ := hwhole
    · simp only [heldObj_found ho, if_pos hclosed]
    · simp only [heldObj_found ho, Nat.not_lt.mpr hall, if_false, if_pos hcrc, ite_self]
  case abort =>
    intro s h handle o hs ho
    exact completes_eq (exec_bulkAbort _ _ _) hs rfl (by simp [heldObj_found ho]) rfl
  case read =>
    intro s h handle offset len pace o hs ho hrange
    exact completes_eq (exec_bulkRead _ _ _ _ _ _) hs rfl (readCheck_found ho hrange) rfl
  case resend =>
    intro s h handle offset len o hs ho hrange
    exact completes_eq (exec_bulkResend _ _ _ _ _) hs rfl (readCheck_found ho hrange) (by simp only [just, found_obj, ho.1])
  case done =>
    intro s handle t hleft ht
    exact happens_eq (exec_bulkDone _ _) (by simp only [ht, if_neg (Bool.eq_false_iff.mp hleft)])
  case fragment =>
    rintro s session rx handle offset data thorn o hin ⟨ho, hses, hout, hopen⟩ ⟨hrules, hnew⟩
    exact onDev_happens (exec_bulkFragment _ _ _ _ _ _ _) (by simp [hin, ho, hses, hout, hopen, hrules, hnew])

/-! ### What happens on the link by itself (R121, R129, R138, R155 to R160, R164, R169) -/

/-- R159: a slot whose start is within reach and not yet served does not wait. -/
theorem slotDue {axis start : Nat} {served : Option Nat} (h : start ≤ axis + minLead ∧ served ≠ some start) :
    ¬(axis + minLead < start ∨ served = some start) :=
  not_or.mpr ⟨Nat.not_lt.mpr h.1, h.2⟩

/-- Settles O3. A received packet chooses its branch by the steps of R121; a report slot that is due turns on the report that is ready; a
spread response leaves or is missed as every launch does (`launchNow_sends`, `launchNow_misses`). That one found past its trigger is
discarded, and that a report takes its launch buffers 7,865 ticks ahead, are the model's readings (assumption log, entries 110 and 39). -/
theorem linkEvents : Obligations.LinkEvents := by
  unfold Obligations.LinkEvents
  refine ⟨?eventGet, ?evtPacket, ?timeout, ?badFcs, ?dropped, ?passes, ?slotTaken, ?slotMissed, ?spreadLeaves, ?spreadMissed, ?pause,
    ?encap, ?dhcp, ?service, ?undefined⟩
  case eventGet =>
    rintro s h first count hs ⟨hlo, hhi⟩
    exact completes_eq (exec_eventGet _ _ _ _) hs rfl (by simp [Nat.ne_of_gt hlo, hhi]) rfl
  case evtPacket =>
    rintro s session x l ⟨hx, -, hup⟩ ⟨rfl, hsome⟩
    refine happens_eq (exec_evtPacketSend _ _) ?_
    simp only [hx, sendEvt]
    exact if_neg (by simp [hsome, hup])
  case timeout =>
    rintro s session x ⟨hx, hlate⟩
    exact happens_eq (exec_sessionTimeout _ _) (by simp only [hx, if_pos hlate])
  case badFcs =>
    rintro s port fcsOk pkt ⟨hup, rfl⟩
    exact happens_eq (exec_swiosPacketDropped _ _ _ _) (by simp [hup])
  case dropped =>
    rintro s port fcsOk pkt n ⟨hup, rfl, hcarried, hstep⟩
    exact happens_eq (exec_swiosPacketDropped _ _ _ _) (by simp [hup, hcarried, hstep])
  case passes =>
    rintro s port fcsOk pkt ⟨hup, rfl, hpass⟩
    refine happens_eq (F := fun d => d) (exec_swiosPacketDropped _ _ _ _) ?_
    obtain hother | hnone := hpass
    · simp [hup, hother]
    · simp [hup, hnone]
  case slotTaken =>
    rintro s kind x r b ⟨hx, hdue⟩ hready ⟨hroom, hbuffer⟩
    have hfits : ¬(64 ≤ reportLaunches s.dev ∨ (freeBuffer s.dev.tmb.launches).isNone = true) := by
      simp [hbuffer, hroom]
    refine ⟨_, rfl, onDev_happens (exec_reportSlot _ _) ?_⟩
    simp only [hx, if_neg (slotDue hdue), onLnk_lnk, hready]
    exact if_neg hfits
  case slotMissed =>
    rintro s kind x ⟨hx, hdue⟩ hnone
    exact happens_eq (exec_reportSlot _ _) (by simp only [hx, if_neg (slotDue hdue), onLnk_lnk, hnone])
  case spreadLeaves =>
    rintro s buffer l r ⟨hl, hwhat⟩ ⟨hat, hup⟩
    exact ⟨_, rfl, onDev_happens (exec_spreadResponse _ _) (by simp only [hl, hwhat, launchNow_sends _ hat hup])⟩
  case spreadMissed =>
    rintro s buffer l r ⟨hl, hwhat⟩ ⟨hdue, hmiss⟩
    exact happens_eq (exec_spreadResponse _ _) (by simp only [hl, hwhat, launchNow_misses _ hdue hmiss])
  case pause =>
    intro s port prio pause hprio
    exact happens_eq (exec_priorityFlowControl _ _ _ _) (if_pos hprio)
  case encap =>
    rintro s e ses ch q ⟨hnew, hleft⟩
    exact onDev_happens (exec_linkEncapApply _) (by simp only [hnew, if_pos hleft])
  case dhcp =>
    intro s addr hmode
    exact happens_eq (exec_dhcpReply _ _) (if_pos hmode)
  case service =>
    intro s up
    exact happens_eq (exec_servicePortLink _ _) rfl
  case undefined =>
    rintro s h op ⟨hrun, harrives⟩
    refine ⟨_, (exec_undefinedOpcode _ _ _).trans (hostCmd_runs _ _ _ _ _ _ hrun harrives), ?_⟩
    simp [hostRun]

/-! ### Destinations, report slots, the encapsulation and the counters (R115, R157 to R159, R168, R169) -/

/-- Settles O4. Each command passes its one check of arguments, REPORT-SLOT-SET that of its window too, and its effect is the one stated. -/
theorem reportsAndCounters : Obligations.ReportsAndCounters := by
  unfold Obligations.ReportsAndCounters
  refine ⟨?destSet, ?slotSet, ?slotGet, ?encapSet, ?encapGet, ?counters⟩
  case destSet =>
    rintro s h index eth ipv ip udp maxPayload hs ⟨hindex, hipv⟩ hpay
    refine completes_eq (exec_destSet _ _ _ _ _ _ _ _) hs rfl ?_ rfl
    simp [hindex, payloadArg_ok hpay]
    omega
  case slotSet =>
    rintro s h kind dest lane period offset window n hs ⟨hkind, hdest, hlane, hoffset⟩ hwindow
    refine completes_eq (exec_reportSlotSet _ _ _ _ _ _ _ _) hs rfl ?_ rfl
    have hperiod : period ≠ 0 := by omega
    simp [hkind, hdest, hlane, hperiod, hoffset, hwindow]
  case slotGet =>
    rintro s h kind x hs ⟨hkind, hx⟩
    exact completes_eq (F := fun d => d) (exec_reportSlotGet _ _ _) hs rfl (by simpa [Option.isSome_iff_ne_none] using hkind)
      (by simp only [found_slots, hx])
  case encapSet =>
    rintro s h enc hs ⟨hvlan, hmode, hprefix⟩
    exact completes_eq (exec_linkEncapSet _ _ _) hs rfl (by simp [hvlan, hmode, hprefix]) rfl
  case encapGet =>
    intro s h hs
    exact query_completes (exec_linkEncapGet _ _) hs rfl rfl rfl
  case counters =>
    rintro s h port clear hs ⟨hport, hclear⟩
    refine completes_eq (exec_linkCounters _ _ _ _) hs rfl ?_ rfl
    simp [hclear]
    omega

end Sys2Proof.Machine
end

section
/-! What the raw streams, cut-through, meters and counters of the receive paths do (chapter 5), and a step with a command queued. -/

namespace Sys2Proof.Machine

/-! ### The meaning that `exec` gives each command and happening -/

theorem exec_rxStreamSet (h : Hdr) (stream sb mask format dest lane groups : Nat) (s : State) :
    exec (.rxStreamSet h stream sb mask format dest lane groups) s = execRxStreamSet h stream sb mask format dest lane groups s := rfl
theorem exec_rxStreamStop (h : Hdr) (stream : Nat) (s : State) : exec (.rxStreamStop h stream) s = execRxStreamStop h stream s := rfl
theorem exec_rxCutSet (h : Hdr) (path sb lane ctFrame on : Nat) (s : State) :
    exec (.rxCutSet h path sb lane ctFrame on) s = execRxCutSet h path sb lane ctFrame on s := rfl
theorem exec_rxMeterGet (h : Hdr) (path meter clear : Nat) (s : State) :
    exec (.rxMeterGet h path meter clear) s = execRxMeterGet h path meter clear s := rfl
theorem exec_rxCounters (h : Hdr) (path clear : Nat) (s : State) : exec (.rxCounters h path clear) s = execRxCounters h path clear s := rfl
theorem exec_streamPacketSend (req : StreamSend) (s : State) : exec (.streamPacketSend req) s = execStreamPacketSend req s := rfl

/-! ### Raw streams, cut-through, meters and counters of the receive paths (R145 to R148, R201 to R211) -/

/-- Settles O14. The next groups of a stream leave or are discarded by whether their packets fit what is left of the egress buffer. The
decibel is a free function, and the correction of a meter the path's gain trim (assumption log, entries 41 and 113). -/
theorem receiveStreams : Obligations.ReceiveStreams := by
  unfold Obligations.ReceiveStreams
  refine ⟨?set, ?stop, ?cut, ?meter, ?counters, ?sent, ?discarded⟩
  case set =>
    intro s h stream sb mask format dest lane groups hs hc
    exact completes_eq (exec_rxStreamSet _ _ _ _ _ _ _ _ _) hs rfl hc rfl
  case stop =>
    intro s h stream hs hopen
    exact completes_eq (exec_rxStreamStop _ _ _) hs rfl (by simp only [found_outs, hopen]; rfl) rfl
  case cut =>
    intro s h path sb lane ctFrame on hs hc
    exact completes_eq (exec_rxCutSet _ _ _ _ _ _ _) hs rfl hc rfl
  case meter =>
    rintro s h path meter clear w mean hs ⟨hpath, hmeter, hclear⟩ rfl rfl
    exact completes_eq (exec_rxMeterGet _ _ _ _ _) hs rfl (by simp [hpath, hmeter, hclear]) (by simp only [Dev.rxPath, found_rx])
  case counters =>
    rintro s h path clear hs ⟨hpath, hclear⟩
    exact completes_eq (exec_rxCounters _ _ _ _) hs rfl (by simp [hpath, hclear]) rfl
  case sent =>
    rintro s req o c after jumped l ps ⟨ho, hup, hnext⟩ ⟨hgather, hsome⟩ rfl hroom
    have hsends : ¬(l.isEmpty = true ∨ portUp s.dev o.port = false) := by simp [hsome, hup]
    refine happens_eq (exec_streamPacketSend _ _) ?_
    simp only [ho, hnext, hgather]
    exact (if_neg hsends).trans (if_neg (Nat.not_lt.mpr hroom))
  case discarded =>
    rintro s req o c after jumped l ps ⟨ho, hup, hnext⟩ ⟨hgather, hsome⟩ rfl hfull
    have hsends : ¬(l.isEmpty = true ∨ portUp s.dev o.port = false) := by simp [hsome, hup]
    refine happens_eq (exec_streamPacketSend _ _) ?_
    simp only [ho, hnext, hgather]
    exact (if_neg hsends).trans (if_pos hfull)

/-! ### A step with a command queued -/

/-- Settles O54, by the step's first branch. -/
theorem stepRunsCommand : Obligations.StepRunsCommand := by
  unfold Obligations.StepRunsCommand
  intro c rest s hp
  simp only [step, hp]

end Sys2Proof.Machine
end

section
/-! What the commands of a receive path and its sub-bands do (chapter 5). -/

namespace Sys2Proof.Machine

/-! ### The meaning that `exec` gives each command -/

theorem exec_rxPathSet (h : Hdr) (mask band atten bias overload : Nat) (s : State) :
    exec (.rxPathSet h mask band atten bias overload) s = execRxPathSet h mask band atten bias overload s := rfl
theorem exec_rxPathGet (h : Hdr) (path : Nat) (s : State) : exec (.rxPathGet h path) s = execRxPathGet h path s := rfl
theorem exec_rxSubbandSet (h : Hdr) (mask sb : Nat) (cfg : RxCfg) (s : State) :
    exec (.rxSubbandSet h mask sb cfg) s = execRxSubbandSet h mask sb cfg s := rfl
theorem exec_rxSubbandGet (h : Hdr) (path sb bank : Nat) (s : State) :
    exec (.rxSubbandGet h path sb bank) s = execRxSubbandGet h path sb bank s := rfl
theorem exec_rxSubbandDisable (h : Hdr) (mask sbMask : Nat) (s : State) :
    exec (.rxSubbandDisable h mask sbMask) s = execRxSubbandDisable h mask sbMask s := rfl
theorem exec_rxCoefLoad (h : Hdr) (handle mask sb : Nat) (s : State) :
    exec (.rxCoefLoad h handle mask sb) s = execRxCoefLoad h handle mask sb s := rfl
theorem exec_portCheck (h : Hdr) (mask position : Nat) (s : State) :
    exec (.portCheck h mask position) s = execPortCheck h mask position s := rfl

/-! ### What the checks and the effects read, the packet steps leave -/

@[simp] theorem found_rxPath (d : Dev) (h : Hdr) (p : Nat) : (found d h).rxPath p = d.rxPath p := by simp [Dev.rxPath]

/-- The bytes of a staged object are the object's. -/
theorem objBytes_of_obj {d : Dev} {handle : Nat} {o : BulkObj} (ho : d.obj? handle = some o) : objBytes d handle = o.bytes := by
  simp [objBytes, ho]

/-! ### The commands of a receive path and its sub-bands (R172 to R178, R182 to R194, R205 to R214) -/

/-- Settles O13. RX-PATH-SET with the band 0xFF moves no path, so that nothing is replaced and no calibration noted; RX-SUBBAND-DISABLE
turns on whether a named sub-band runs, PORT-CHECK on whether it names a port. That a queued swap holds back RX-SUBBAND-SET of an enabled
sub-band alone is the model's reading (assumption log, entry 119). -/
theorem receiveCommands : Obligations.ReceiveCommands := by
  unfold Obligations.ReceiveCommands
  refine ⟨?pathSet, ?pathGet, ?sbSet, ?sbGet, ?noneRuns, ?flushes, ?coefLoad, ?noPort, ?measures⟩
  case pathSet =>
    rintro s h mask band atten bias overload hs ⟨rfl, hatten, hbias, hover, hdom⟩
    refine completes_eq (exec_rxPathSet _ _ _ _ _ _ _) hs rfl ?_ (by simp [just])
    simp [hdom]
    omega
  case pathGet =>
    intro s h path hs hpath
    exact query_completes (exec_rxPathGet _ _ _) hs rfl rfl (by simp [hpath])
  case sbSet =>
    intro s h mask sb cfg hs hc
    exact completes_eq (exec_rxSubbandSet _ _ _ _ _) hs rfl hc rfl
  case sbGet =>
    rintro s h path sb bank hs ⟨hpath, hsb, hbank⟩
    exact query_completes (exec_rxSubbandGet _ _ _ _ _) hs rfl rfl (by simp [hpath, hsb, hbank])
  case noneRuns =>
    rintro s h mask sbMask hs ⟨hsb, hqs⟩ hnone
    refine completes_eq (F := fun d => d) (exec_rxSubbandDisable _ _ _ _) hs rfl (by simp [hsb, qsHeld, hqs]) ?_
    simp only [found_rxPath, hnone]
    rfl
  case flushes =>
    rintro s h mask sbMask l hs ⟨hsb, hqs⟩ ⟨hl, hsome⟩
    refine begins_eq (exec_rxSubbandDisable _ _ _ _) hs rfl (by simp [hsb, qsHeld, hqs]) ?_
    simp only [found_rxPath, ← hl]
    exact if_neg (by simpa using hsome)
  case coefLoad =>
    rintro s h handle mask sb o stage n vals hs hc ⟨ho, hcoef⟩
    have hbytes : objBytes (found s.dev h) handle = o.bytes := objBytes_of_obj (by simpa using ho)
    exact completes_eq (exec_rxCoefLoad _ _ _ _ _) hs rfl hc (by simp only [just, hbytes, hcoef])
  case noPort =>
    intro s h mask position hs hc hmask
    exact completes_eq (F := fun d => d) (exec_portCheck _ _ _ _) hs rfl hc (if_pos hmask)
  case measures =>
    intro s h mask position hs hc hmask
    exact begins_eq (F := fun d => d) (exec_portCheck _ _ _ _) hs rfl hc (if_neg hmask)

end Sys2Proof.Machine
end

section
/-! What the transmit paths and the energy governor do (chapter 6). -/

namespace Sys2Proof.Machine

/-! ### The meaning that `exec` gives each command and happening -/

theorem exec_txPathSet (h : Hdr) (mask : Nat) (fsPower : Int) (dacCentre sumShift ramp gateMode : Nat) (s : State) :
    exec (.txPathSet h mask fsPower dacCentre sumShift ramp gateMode) s =
      execTxPathSet h mask fsPower dacCentre sumShift ramp gateMode s := rfl
theorem exec_txPathGet (h : Hdr) (path : Nat) (s : State) : exec (.txPathGet h path) s = execTxPathGet h path s := rfl
theorem exec_txSubbandSet (h : Hdr) (mask sb : Nat) (cfg : TxCfg) (s : State) :
    exec (.txSubbandSet h mask sb cfg) s = execTxSubbandSet h mask sb cfg s := rfl
theorem exec_txSubbandGet (h : Hdr) (path sb bank : Nat) (s : State) :
    exec (.txSubbandGet h path sb bank) s = execTxSubbandGet h path sb bank s := rfl
theorem exec_txSubbandDisable (h : Hdr) (mask sbMask : Nat) (s : State) :
    exec (.txSubbandDisable h mask sbMask) s = execTxSubbandDisable h mask sbMask s := rfl
theorem exec_txCoefLoad (h : Hdr) (handle mask sb : Nat) (s : State) :
    exec (.txCoefLoad h handle mask sb) s = execTxCoefLoad h handle mask sb s := rfl
theorem exec_txStreamSet (h : Hdr) (stream sb mask format : Nat) (s : State) :
    exec (.txStreamSet h stream sb mask format) s = execTxStreamSet h stream sb mask format s := rfl
theorem exec_txStreamStop (h : Hdr) (stream : Nat) (s : State) : exec (.txStreamStop h stream) s = execTxStreamStop h stream s := rfl
theorem exec_txCutSet (h : Hdr) (lane path sb on : Nat) (s : State) :
    exec (.txCutSet h lane path sb on) s = execTxCutSet h lane path sb on s := rfl
theorem exec_txMute (h : Hdr) (mask mute immediate : Nat) (s : State) :
    exec (.txMute h mask mute immediate) s = execTxMute h mask mute immediate s := rfl
theorem exec_txProtectClear (h : Hdr) (mask : Nat) (s : State) : exec (.txProtectClear h mask) s = execTxProtectClear h mask s := rfl
theorem exec_txCompLoad (h : Hdr) (handle : Nat) (s : State) : exec (.txCompLoad h handle) s = execTxCompLoad h handle s := rfl
theorem exec_txCounters (h : Hdr) (path clear : Nat) (s : State) : exec (.txCounters h path clear) s = execTxCounters h path clear s := rfl
theorem exec_txFlushDone (path sb : Nat) (s : State) : exec (.txFlushDone path sb) s = execTxFlushDone path sb s := rfl
theorem exec_compensationStep (path : Nat) (s : State) : exec (.compensationStep path) s = execCompensationStep path s := rfl
theorem exec_hostStreamPacket (session : Nat) (rx : PktIn) (pkt : StreamPkt) (s : State) :
    exec (.hostStreamPacket session rx pkt) s = execHostStreamPacket session rx pkt s := rfl
theorem exec_cutThroughFrame (lane : Nat) (frame : DirectFrame) (s : State) :
    exec (.cutThroughFrame lane frame) s = execCutThroughFrame lane frame s := rfl
theorem exec_inhibitLoopOpen (ohms : Nat) (s : State) : exec (.inhibitLoopOpen ohms) s = execInhibitLoopOpen ohms s := rfl
theorem exec_inhibitLoopClosed (ohms : Nat) (s : State) : exec (.inhibitLoopClosed ohms) s = execInhibitLoopClosed ohms s := rfl
theorem exec_portFault (path : Nat) (s : State) : exec (.portFault path) s = execPortFault path s := rfl
theorem exec_txOpen (s : State) : exec .txOpen s = execTxOpen s := rfl
theorem exec_txClose (s : State) : exec .txClose s = execTxClose s := rfl
theorem exec_txSwap (s : State) : exec .txSwap s = execTxSwap s := rfl
theorem exec_txNcoReset (s : State) : exec .txNcoReset s = execTxNcoReset s := rfl
theorem exec_txTone (s : State) : exec .txTone s = execTxTone s := rfl
theorem exec_govClassSet (h : Hdr) (group cls p w e margin soft release : Nat) (s : State) :
    exec (.govClassSet h group cls p w e margin soft release) s = execGovClassSet h group cls p w e margin soft release s := rfl
theorem exec_govStatus (h : Hdr) (s : State) : exec (.govStatus h) s = execGovStatus h s := rfl
theorem exec_govLogRead (h : Hdr) (first count : Nat) (s : State) :
    exec (.govLogRead h first count) s = execGovLogRead h first count s := rfl
theorem exec_governorStep (pos : Nat) (s : State) : exec (.governorStep pos) s = execGovernorStep pos s := rfl
theorem exec_adaptationResume (path : Nat) (s : State) : exec (.adaptationResume path) s = execAdaptationResume path s := rfl
theorem exec_govMismatch (path : Nat) (s : State) : exec (.govMismatch path) s = execGovMismatch path s := rfl
theorem exec_govLogRecord (s : State) : exec .govLogRecord s = execGovLogRecord s := rfl

/-! ### What the checks and the effects read, the packet steps and the arrival of data leave -/

@[simp] theorem found_txPath (d : Dev) (h : Hdr) (p : Nat) : (found d h).txPath p = d.txPath p := by simp [Dev.txPath]

/-- The arrival of a BULK or STREAM packet leaves the incoming streams as they are. -/
@[simp] theorem dataIn_ins (d : Dev) (session : Nat) (rx : PktIn) (n : Nat) : (dataIn d session rx n).1.ins = d.ins := by
  obtain ⟨l, hl⟩ := dataIn_eq d session rx n
  rw [hl]

@[simp] theorem dataIn_axis (d : Dev) (session : Nat) (rx : PktIn) (n : Nat) : (dataIn d session rx n).1.axis = d.axis := by
  obtain ⟨l, hl⟩ := dataIn_eq d session rx n
  rw [hl, Dev.axis, Dev.axis]

@[simp] theorem dataIn_streamTiming (d : Dev) (session : Nat) (rx : PktIn) (n : Nat) :
    streamTiming (dataIn d session rx n).1 = streamTiming d := by
  obtain ⟨l, hl⟩ := dataIn_eq d session rx n
  rw [hl]
  rfl

/-! ### The commands of a transmit path and its sub-bands (R216 to R240) -/

/-- Settles O16. Each command passes its checks on the unit it finds. TX-SUBBAND-GET turns on the configuration's having a rate;
TX-COEF-LOAD on its object, which the packet steps leave staged. That streams of one number or one sub-band conflict is the model's reading
(assumption log, entry 43). -/
theorem transmitCommands : Obligations.TransmitCommands := by
  unfold Obligations.TransmitCommands
  refine ⟨?pathSet, ?pathGet, ?sbSet, ?sbGet, ?sbDisable, ?coefLoad, ?streamSet, ?streamStop, ?cut, ?mute, ?protectClear,
    ?compLoad, ?counters⟩
  case pathSet =>
    intro s h mask fsPower dacCentre sumShift ramp gateMode hs hc
    exact completes_eq (exec_txPathSet _ _ _ _ _ _ _ _) hs rfl hc rfl
  case pathGet =>
    intro s h path hs hpath
    exact query_completes (exec_txPathGet _ _ _) hs rfl rfl (by simp [hpath])
  case sbSet =>
    intro s h mask sb cfg hs hc
    exact completes_eq (exec_txSubbandSet _ _ _ _ _) hs rfl hc rfl
  case sbGet =>
    rintro s h path sb bank c hs ⟨hpath, hsb, hbank, hcfg⟩ ⟨ha, hb, hrate⟩
    refine completes_eq (F := fun d => d) (exec_txSubbandGet _ _ _ _ _) hs rfl (by simp [hpath, hsb, hbank]) ?_
    have hfactors : ¬(c.chain.aFactor = 0 ∨ c.chain.bFactor = 0) := not_or.mpr ⟨ha, hb⟩
    simp only [found_txPath, ← hcfg, if_neg hrate, if_neg hfactors]
  case sbDisable =>
    intro s h mask sbMask hs hsb
    exact completes_eq (exec_txSubbandDisable _ _ _ _) hs rfl (by simp [hsb]) rfl
  case coefLoad =>
    rintro s h handle mask sb o stage n vals hs hc ⟨ho, hcoef⟩
    have hbytes : objBytes (found s.dev h) handle = o.bytes := objBytes_of_obj (by simpa using ho)
    exact completes_eq (exec_txCoefLoad _ _ _ _ _) hs rfl hc (by simp only [just, hbytes, hcoef])
  case streamSet =>
    intro s h stream sb mask format hs hc
    exact completes_eq (exec_txStreamSet _ _ _ _ _ _) hs rfl hc rfl
  case streamStop =>
    intro s h stream hs hopen
    exact completes_eq (exec_txStreamStop _ _ _) hs rfl (by simp only [found_ins, hopen]; rfl) rfl
  case cut =>
    intro s h lane path sb on hs hc
    exact completes_eq (exec_txCutSet _ _ _ _ _ _) hs rfl hc rfl
  case mute =>
    rintro s h mask mute immediate hs ⟨hmute, himm⟩
    exact completes_eq (exec_txMute _ _ _ _ _) hs rfl (by simp [hmute, himm]) rfl
  case protectClear =>
    intro s h mask hs hports
    exact completes_eq (exec_txProtectClear _ _ _) hs rfl (by simp only [found_rxPath, hports]; rfl) rfl
  case compLoad =>
    intro s h handle hs hc
    exact completes_eq (exec_txCompLoad _ _ _) hs rfl hc rfl
  case counters =>
    rintro s h path clear hs ⟨hpath, hclear⟩
    exact completes_eq (exec_txCounters _ _ _ _) hs rfl (by simp [hpath, hclear]) rfl

/-! ### What happens on a transmit path, and the transmit stakes (R217 to R239) -/

/-- R217: a host's stream packet that suits its stream, and adds no late and no zero-filled group to it, is taken into its buffer and
changes nothing else but the link. -/
theorem hostStream_takes {layer : Bool} {session : Nat} {rx : PktIn} {pkt : StreamPkt} {ev : EvCode} {timing : Dev → InStream → Timing}
    {d : Dev} {o b : InStream} (hin : (dataIn d session rx (20 + pkt.data.length)).2 = true)
    (ht : timing (dataIn d session rx (20 + pkt.data.length)).1 = timing d)
    (ho : d.ins.find? (fun y => y.num == pkt.num && y.layer == layer) = some o)
    (hsuits : pkt.format = o.format ∧ pkt.groups ≠ 0 ∧ pkt.data.length = pkt.groups * pkt.elements * elementBytes pkt.format)
    (hb : b = (o.play d.axis (timing d o)).take d.axis (timing d o) pkt) (hlate : b.late = o.late) (hzero : b.zeroFilled = o.zeroFilled) :
    hostStream layer session rx pkt ev timing d =
      let e := (dataIn d session rx (20 + pkt.data.length)).1
      { e with ins := e.ins.map fun x => if x.num == o.num then b else x } := by
  obtain ⟨hformat, hgroups, hlen⟩ := hsuits
  have htaken : ¬(!(dataIn d session rx (20 + pkt.data.length)).2 || pkt.format != o.format || pkt.groups == 0
      || pkt.data.length != pkt.groups * pkt.elements * elementBytes pkt.format) = true := by
    rw [hin, ← hlen]
    simp [hformat, hgroups]
  have hgood : b.late - o.late + (b.zeroFilled - o.zeroFilled) = 0 := by omega
  simp only [hostStream, dataIn_ins, dataIn_axis, ht, ho, if_neg htaken, ← hb, if_pos hgood]

/-- R218: a direct frame of class 4 that arrives on a DIRECT lane that is up is taken. -/
theorem cutFrame_fed {d : Dev} {lane cls : Nat} (hup : laneUp d lane = true) (hdirect : laneDirect d lane = true) (hcls : cls = 4) :
    ¬(!laneUp d lane || !laneDirect d lane || cls != 4) = true := by
  simp [hup, hdirect, hcls]

/-- Settles O17. What is noticed turns on one branch of its meaning: a cut-through frame on its lane and its CRC-32C, the INHIBIT loop on
its threshold. A stake that is `due` acts by `stakeAct_due`; a tone in time begins at its stake's position. That a reading of the loop between
its thresholds changes the reading alone is the model's reading (assumption log, entry 47). -/
theorem transmitHappenings : Obligations.TransmitHappenings := by
  unfold Obligations.TransmitHappenings
  refine ⟨?flushed, ?compensation, ?streamPacket, ?cutGood, ?cutBad, ?loopOpens, ?loopRead, ?loopCloses, ?portFault, ?opens,
    ?closes, ?swap, ?ncoReset, ?tone⟩
  case flushed =>
    rintro s path sb ⟨hflush, hdom, hended⟩
    exact happens_eq (exec_txFlushDone _ _ _) (by simp only [hflush, hended, hdom, Bool.and_self, if_true])
  case compensation =>
    intro s path hclosed
    exact happens_eq (exec_compensationStep _ _) (if_pos hclosed)
  case streamPacket =>
    rintro s session rx pkt o a b hin ho hsuits ⟨rfl, rfl, hlate, hzero⟩
    exact onDev_happens (exec_hostStreamPacket _ _ _ _) (hostStream_takes hin (by simp) ho hsuits rfl hlate hzero)
  case cutGood =>
    rintro s lane frame l ⟨hup, hdirect, hcls, hcrc⟩ rfl
    refine happens_eq (exec_cutThroughFrame _ _ _) ((if_neg (cutFrame_fed hup hdirect hcls)).trans ?_)
    simp only [beq_iff_eq, hcrc, if_true]
  case cutBad =>
    rintro s lane frame l ⟨hup, hdirect, hcls, hcrc⟩ rfl
    refine happens_eq (exec_cutThroughFrame _ _ _) ((if_neg (cutFrame_fed hup hdirect hcls)).trans ?_)
    simp only [beq_iff_eq, hcrc, if_false]
  case loopOpens =>
    rintro s ohms ⟨habove, hclosed⟩
    exact happens_eq (exec_inhibitLoopOpen _ _) (if_neg (by simp [habove, hclosed]))
  case loopRead =>
    intro s ohms hbelow
    exact happens_eq (exec_inhibitLoopOpen _ _) (if_pos (.inl hbelow))
  case loopCloses =>
    rintro s ohms ⟨hbelow, hopen⟩
    exact happens_eq (exec_inhibitLoopClosed _ _) (if_neg (by simp [hbelow, hopen]))
  case portFault =>
    intro s path hrad
    exact happens_eq (exec_portFault _ _) (if_pos hrad)
  case opens =>
    intro s q hdue
    exact happens_eq (exec_txOpen _) (stakeAct_due hdue)
  case closes =>
    intro s q hdue
    exact happens_eq (exec_txClose _) (stakeAct_due hdue)
  case swap =>
    intro s q hdue
    exact happens_eq (exec_txSwap _) (stakeAct_due hdue)
  case ncoReset =>
    intro s q hdue
    exact happens_eq (exec_txNcoReset _) (stakeAct_due hdue)
  case tone =>
    rintro s q ⟨hdue, hlen, hintime⟩
    refine ⟨_, _, rfl, rfl, onDev_happens (exec_txTone _) ((stakeAct_due hdue).trans ?_)⟩
    have haxis : (s.dev.onTmb (·.advance q)).axis = s.dev.axis := rfl
    have hlong : bitsOf q.stake.argument 23 8 * 512 ≠ 0 := by omega
    simp only [haxis, if_pos hintime, Nat.max_zero, if_neg hlong, if_true]

/-! ### The energy governor (R241 to R249) -/

/-- R244: the thresholds H, S and L of a group, or of the sum, as GOV-STATUS answers them, in nJ: 0 with no ceiling. -/
def govThresholds (d : Dev) (n : Nat) : List Field :=
  match ceilPar d.ident.variant d.gov.sets (fsPowers d) (64 + n) with
  | some c => [fld 4 (c.hard / 1000000), fld 4 (c.softAt / 1000000), fld 4 (c.releaseAt / 1000000)]
  | none => [fld 4 0, fld 4 0, fld 4 0]

@[simp] theorem govThresholds_length (d : Dev) (n : Nat) : (govThresholds d n).length = 3 := by
  unfold govThresholds
  split <;> rfl

/-- The answer of GOV-STATUS by its parts. -/
theorem execGovStatus_eq (h : Hdr) : execGovStatus h =
    query (ask 0x0411 (List.replicate 12 4 ++ [2])) h (.govStatus h) noCheck fun d =>
      [0, 1, 2].map (fun n => fld 4 (govGroup d n)) ++ [0, 1, 2].flatMap (govThresholds d) ++ [fld 2 (min 65535 d.gov.loopOhms)] := rfl

/-- Settles O18. GOV-CLASS-SET answers R under the settings it leaves; GOV-STATUS puts twelve fields before the loop's resistance; the step,
the end of a hold, a mismatch and the log record each turn on one condition. The attenuation per step and the layouts of the log and the
journal are the model's readings (assumption log, entries 48 and 49). -/
theorem governor : Obligations.Governor := by
  unfold Obligations.Governor
  refine ⟨?classSet, ?status, ?logRead, ?step, ?resume, ?mismatch, ?record⟩
  case classSet =>
    rintro s h group cls p w e margin soft release new hs hc rfl
    exact completes_of (exec_govClassSet _ _ _ _ _ _ _ _ _ _) hs rfl hc _ _ rfl ⟨rfl, rfl⟩
  case status =>
    intro s h hs
    refine completes_of ((exec_govStatus _ _).trans (congrFun (execGovStatus_eq h) s)) hs rfl rfl _ _ rfl ⟨rfl, rfl, ?_⟩
    exact List.drop_left' (by simp)
  case logRead =>
    intro s h first count hs
    exact completes_eq (exec_govLogRead _ _ _ _) hs rfl rfl rfl
  case step =>
    rintro s pos energy ⟨rfl, hmul, hnew⟩ rfl
    exact happens_eq (exec_governorStep _ _) (if_neg (by simp [hmul, hnew]))
  case resume =>
    rintro s path t ⟨hheld, hpast, hfull⟩
    exact happens_eq (exec_adaptationResume _ _) (by simp only [hheld, hpast, hfull, and_self, if_true])
  case mismatch =>
    intro s path hrad
    exact happens_eq (exec_govMismatch _ _) (if_pos hrad)
  case record =>
    intro s hsecond
    exact happens_eq (exec_govLogRecord _) (if_neg (Nat.not_lt.mpr hsecond))

end Sys2Proof.Machine
end

section
/-! What the frequency engine's slots, its topiaries, its beams and its streams do (chapter 7). -/

namespace Sys2Proof.Machine

/-! ### The meaning that `exec` gives each command and happening -/

theorem exec_freSet (h : Hdr) (dir sb : Nat) (cfg : FreCfg) (s : State) : exec (.freSet h dir sb cfg) s = execFreSet h dir sb cfg s := rfl
theorem exec_freGet (h : Hdr) (dir sb bank : Nat) (s : State) : exec (.freGet h dir sb bank) s = execFreGet h dir sb bank s := rfl
theorem exec_freDisable (h : Hdr) (dir sbMask : Nat) (s : State) :
    exec (.freDisable h dir sbMask) s = execFreDisable h dir sbMask s := rfl
theorem exec_freEqLoad (h : Hdr) (handle : Nat) (s : State) : exec (.freEqLoad h handle) s = execFreEqLoad h handle s := rfl
theorem exec_freWindowLoad (h : Hdr) (handle dir sb : Nat) (s : State) :
    exec (.freWindowLoad h handle dir sb) s = execFreWindowLoad h handle dir sb s := rfl
theorem exec_freLevelGet (h : Hdr) (dir sb path first count : Nat) (s : State) :
    exec (.freLevelGet h dir sb path first count) s = execFreLevelGet h dir sb path first count s := rfl
theorem exec_freCounters (h : Hdr) (dir sb path clear : Nat) (s : State) :
    exec (.freCounters h dir sb path clear) s = execFreCounters h dir sb path clear s := rfl
theorem exec_freFlushDone (dir sb groups : Nat) (s : State) :
    exec (.freFlushDone dir sb groups) s = execFreFlushDone dir sb groups s := rfl
theorem exec_freSwap (s : State) : exec .freSwap s = execFreSwap s := rfl
theorem exec_topiaryAlloc (h : Hdr) (caps : List Nat) (s : State) : exec (.topiaryAlloc h caps) s = execTopiaryAlloc h caps s := rfl
theorem exec_topiaryLoad (h : Hdr) (handle : Nat) (s : State) : exec (.topiaryLoad h handle) s = execTopiaryLoad h handle s := rfl
theorem exec_topiaryGet (h : Hdr) (dir sb : Nat) (s : State) : exec (.topiaryGet h dir sb) s = execTopiaryGet h dir sb s := rfl
theorem exec_beamSet (h : Hdr) (dir sb on beams bmShift beamOut : Nat) (s : State) :
    exec (.beamSet h dir sb on beams bmShift beamOut) s = execBeamSet h dir sb on beams bmShift beamOut s := rfl
theorem exec_freStreamSet (h : Hdr) (base sb mask format dest lane : Nat) (s : State) :
    exec (.freStreamSet h base sb mask format dest lane) s = execFreStreamSet h base sb mask format dest lane s := rfl
theorem exec_freStreamStop (h : Hdr) (base : Nat) (s : State) : exec (.freStreamStop h base) s = execFreStreamStop h base s := rfl
theorem exec_beamStreamSet (h : Hdr) (base sb firstBeam count format dest lane : Nat) (s : State) :
    exec (.beamStreamSet h base sb firstBeam count format dest lane) s =
      execBeamStreamSet h base sb firstBeam count format dest lane s := rfl
theorem exec_beamStreamStop (h : Hdr) (base : Nat) (s : State) : exec (.beamStreamStop h base) s = execBeamStreamStop h base s := rfl
theorem exec_layerStreamSet (h : Hdr) (base sb count format : Nat) (s : State) :
    exec (.layerStreamSet h base sb count format) s = execLayerStreamSet h base sb count format s := rfl
theorem exec_layerStreamStop (h : Hdr) (base : Nat) (s : State) : exec (.layerStreamStop h base) s = execLayerStreamStop h base s := rfl
theorem exec_layerStreamPacket (session : Nat) (rx : PktIn) (pkt : StreamPkt) (s : State) :
    exec (.layerStreamPacket session rx pkt) s = execLayerStreamPacket session rx pkt s := rfl
theorem exec_topSwap (s : State) : exec .topSwap s = execTopSwap s := rfl

/-! ### What the checks and the effects read, the packet steps and the arrival of data leave -/

@[simp] theorem found_objBytes (d : Dev) (h : Hdr) (handle : Nat) : objBytes (found d h) handle = objBytes d handle := by
  simp [objBytes]

@[simp] theorem found_noBase (d : Dev) (h : Hdr) (kind : StreamKind) (base : Nat) : noBase (found d h) kind base = noBase d kind base := by
  simp [noBase]

@[simp] theorem dataIn_chains (d : Dev) (session : Nat) (rx : PktIn) (n : Nat) : (dataIn d session rx n).1.chains = d.chains := by
  obtain ⟨l, hl⟩ := dataIn_eq d session rx n
  rw [hl]

@[simp] theorem dataIn_layerTiming (d : Dev) (session : Nat) (rx : PktIn) (n : Nat) :
    layerTiming (dataIn d session rx n).1 = layerTiming d := by
  obtain ⟨l, hl⟩ := dataIn_eq d session rx n
  rw [hl]
  rfl

/-! ### The slots (R253 to R271, R289, R290, R497) -/

/-- Settles O19. FRE-DISABLE turns on whether a named slot runs, FRE-LEVEL-GET on the direction, FRE_FLUSH_DONE on whether the slot flushes;
FRE_SWAP that is `due` acts by `stakeAct_due`. That receive levels are those of the last group formed, and transmit levels free values, is
the model's reading (assumption log, entries 114 and 41). -/
theorem frequencySlots : Obligations.FrequencySlots := by
  unfold Obligations.FrequencySlots
  refine ⟨?set, ?get, ?noneRuns, ?flushes, ?eqLoad, ?windowLoad, ?txLevels, ?rxLevels, ?counters, ?notFlushing, ?flushed, ?swap⟩
  case set =>
    intro s h dir sb cfg hs hc
    exact completes_eq (exec_freSet _ _ _ _ _) hs rfl hc rfl
  case get =>
    rintro s h dir sb bank hs ⟨hdir, hsb, hbank⟩
    exact query_completes (exec_freGet _ _ _ _ _) hs rfl rfl (by simp [hdir, hsb, hbank])
  case noneRuns =>
    rintro s h dir sbMask hs ⟨hdir, hmask, hqs⟩ hnone
    refine completes_eq (F := fun d => d) (exec_freDisable _ _ _ _) hs rfl (by simp [hdir, hmask, qsHeld, hqs]) ?_
    simp only [found_fre, hnone]
    rfl
  case flushes =>
    rintro s h dir sbMask l hs ⟨hdir, hmask, hqs⟩ ⟨hl, hsome⟩
    refine begins_eq (exec_freDisable _ _ _ _) hs rfl (by simp [hdir, hmask, qsHeld, hqs]) ?_
    simp only [found_fre, ← hl]
    exact if_neg (by simpa using hsome)
  case eqLoad =>
    intro s h handle hs hc
    exact completes_eq (exec_freEqLoad _ _ _) hs rfl hc rfl
  case windowLoad =>
    rintro s h handle dir sb o stage n vals hs hc ⟨ho, hcoef⟩
    have hbytes : objBytes (found s.dev h) handle = o.bytes := objBytes_of_obj (by simpa using ho)
    exact completes_eq (exec_freWindowLoad _ _ _ _ _) hs rfl hc (by simp only [just, hbytes, hcoef])
  case txLevels =>
    rintro s h sb path first count hs ⟨hsb, hpath, hlo, hhi, hgroups, hon⟩
    have hsome : count ≠ 0 := by omega
    exact completes_eq (exec_freLevelGet _ _ _ _ _ _ _) hs rfl (by simp [hsb, hpath, hsome, hhi, hgroups, hon]) rfl
  case rxLevels =>
    rintro s h sb path first count hs ⟨hsb, hpath, hlo, hhi, hgroups, hon⟩
    have hsome : count ≠ 0 := by omega
    exact completes_eq (F := fun d => d) (exec_freLevelGet _ _ _ _ _ _ _) hs rfl (by simp [hsb, hpath, hsome, hhi, hgroups, hon]) rfl
  case counters =>
    rintro s h dir sb path clear hs ⟨hdir, hsb, hpath, hclear⟩
    exact completes_eq (exec_freCounters _ _ _ _ _ _) hs rfl (by simp [hdir, hsb, hpath, hclear]) rfl
  case notFlushing =>
    intro s dir sb groups hstill
    exact happens_eq (F := fun d => d) (exec_freFlushDone _ _ _ _) (if_neg (by simp [hstill]))
  case flushed =>
    intro s dir sb groups hflush
    exact happens_eq (exec_freFlushDone _ _ _ _) (if_pos hflush)
  case swap =>
    intro s q hdue
    exact happens_eq (exec_freSwap _) (stakeAct_due hdue)

/-! ### Topiaries, beams and streams (R272 to R286, R291) -/

/-- R310: the layers of a slot whose chain is off go to no member. -/
theorem rootBroadcast_of_off {d : Dev} {sb : Nat} (h : (nth d.chains sb).on = false) (g : Nat) : rootBroadcast d sb g = d := by
  unfold rootBroadcast
  exact if_neg (by simp [h])

/-- R280, R310: on a slot without a chain, a layer packet is taken as a host's stream packet is, and goes no further. -/
theorem layerPacket_of_off {s : State} {session : Nat} {rx : PktIn} {pkt : StreamPkt} {o : InStream} {e : Dev}
    (ho : s.dev.ins.find? (fun y => y.num == pkt.num && y.layer) = some o)
    (he : hostStream true session rx pkt EV.layerUnderrun layerTiming s.dev = e) (hoff : (nth e.chains o.sb).on = false) :
    execLayerStreamPacket session rx pkt s = .next { s with dev := e } := by
  simp only [execLayerStreamPacket, onDev, he, ho, Option.map_some, Option.getD_some]
  rw [List.foldl_fixed' (rootBroadcast_of_off hoff)]

/-- R282 to R285: without a thorn in the incoming bank, the topiaries swap with the stake's crossfade. -/
theorem topSwap_swaps {d : Dev} {q : QStake}
    (h : topThorns d (nth d.fre (stakeSlot q)) (1 - (nth d.fre (stakeSlot q)).top.index) (nth d.fre (stakeSlot q)).top.shd = 0) (x : Nat) :
    topSwap x d q = raiseEv (d.onFre (stakeSlot q) fun f => { f with
      top := f.top.swap (freFrees d (stakeSlot q) q.pos), crossfade := if x = 0 then none else some (q.pos, x) }) EV.topSwap [a4 q.stake.tag] :=
  if_neg (not_not.mpr h)

/-- R286: a thorn in the incoming bank refuses the swap. -/
theorem topSwap_refused {d : Dev} {q : QStake}
    (h : topThorns d (nth d.fre (stakeSlot q)) (1 - (nth d.fre (stakeSlot q)).top.index) (nth d.fre (stakeSlot q)).top.shd ≠ 0) (x : Nat) :
    topSwap x d q = swapRefused (d.onFre (stakeSlot q) fun f => { f with swapRefused := true }) EV.topRefused q :=
  if_pos h

/-- Settles O20. TOPIARY-LOAD turns on whether its slot is enabled, TOPIARY-GET on the bank in force, BEAM-SET on which way it turns
the beams, TOP_SWAP on a thorn in the incoming bank; a layer packet of a slot without a chain is a host stream's packet. That a slot whose
capacity changes holds no topiary, and which pages it takes, is the model's reading (assumption log, entries 50 and 121). -/
theorem beamsAndStreams : Obligations.BeamsAndStreams := by
  unfold Obligations.BeamsAndStreams
  refine ⟨?alloc, ?loadBoth, ?loadShadow, ?getFirst, ?getSecond, ?beamsOn, ?beamsOff, ?freStream, ?freStop, ?beamStream, ?beamStop,
    ?layerStream, ?layerStop, ?layerPacket, ?topSwap, ?topRefused⟩
  case alloc =>
    intro s h caps hs hc
    exact completes_eq (exec_topiaryAlloc _ _ _) hs rfl hc rfl
  case loadBoth =>
    rintro s h handle n t hs hc ⟨hslot, htop, hoff⟩
    refine completes_eq (exec_topiaryLoad _ _ _) hs rfl hc ?_
    simp only [found_objBytes, found_fre, hslot, htop, hoff, Option.getD_some, Bool.false_eq_true, if_false]
  case loadShadow =>
    rintro s h handle n t hs hc ⟨hslot, htop, hon⟩
    refine completes_eq (exec_topiaryLoad _ _ _) hs rfl hc ?_
    simp only [found_objBytes, found_fre, hslot, htop, hon, Option.getD_some, if_true]
  case getFirst =>
    rintro s h dir sb hs ⟨hdir, hsb, hfirst⟩
    refine completes_eq (F := fun d => d) (exec_topiaryGet _ _ _ _) hs rfl (by simp [hdir, hsb]) ?_
    simp only [found_fre, if_pos hfirst]
  case getSecond =>
    rintro s h dir sb hs ⟨hdir, hsb, hsecond⟩
    refine completes_eq (F := fun d => d) (exec_topiaryGet _ _ _ _) hs rfl (by simp [hdir, hsb]) ?_
    simp only [found_fre, hsecond, one_ne_zero, if_false]
  case beamsOn =>
    rintro s h dir sb on beams bmShift beamOut hs hc rfl
    exact completes_eq (exec_beamSet _ _ _ _ _ _ _ _) hs rfl hc rfl
  case beamsOff =>
    rintro s h dir sb on beams bmShift beamOut hs hc rfl
    exact completes_eq (exec_beamSet _ _ _ _ _ _ _ _) hs rfl hc rfl
  case freStream =>
    intro s h base sb mask format dest lane hs hc
    exact completes_eq (exec_freStreamSet _ _ _ _ _ _ _ _) hs rfl hc rfl
  case freStop =>
    intro s h base hs hopen
    exact completes_eq (exec_freStreamStop _ _ _) hs rfl (by simp [hopen]) rfl
  case beamStream =>
    intro s h base sb firstBeam count format dest lane hs hc
    exact completes_eq (exec_beamStreamSet _ _ _ _ _ _ _ _ _) hs rfl hc rfl
  case beamStop =>
    intro s h base hs hopen
    exact completes_eq (exec_beamStreamStop _ _ _) hs rfl (by simp [hopen]) rfl
  case layerStream =>
    intro s h base sb count format hs hc
    exact completes_eq (exec_layerStreamSet _ _ _ _ _ _) hs rfl hc rfl
  case layerStop =>
    intro s h base hs hopen
    exact completes_eq (exec_layerStreamStop _ _ _) hs rfl (by simp only [found_ins, hopen]; rfl) rfl
  case layerPacket =>
    rintro s session rx pkt o a b hin ho ⟨hformat, hgroups, hlen, hoff⟩ ⟨rfl, hb, hlate, hzero⟩
    have ho' : s.dev.ins.find? (fun y => y.num == pkt.num && y.layer == true) = some o := by simpa using ho
    have htaken := hostStream_takes (ev := EV.layerUnderrun) hin (by simp) ho' ⟨hformat, hgroups, hlen⟩ hb hlate hzero
    exact ⟨_, (exec_layerStreamPacket _ _ _ _).trans (layerPacket_of_off ho htaken (by simpa using hoff)), rfl⟩
  case topSwap =>
    rintro s q ⟨hdue, hclean⟩
    refine happens_eq (exec_topSwap _) ((stakeAct_due hdue).trans ?_)
    rw [topSwap_swaps (d := s.dev.onTmb (·.advance q)) hclean]
  case topRefused =>
    rintro s q ⟨hdue, hthorn⟩
    refine happens_eq (exec_topSwap _) ((stakeAct_due hdue).trans ?_)
    rw [topSwap_refused (d := s.dev.onTmb (·.advance q)) hthorn]

end Sys2Proof.Machine
end

section
/-! What the beam chains do (chapter 8). -/

namespace Sys2Proof.Machine

/-! ### The meaning that `exec` gives each command and happening -/

theorem exec_chainSet (h : Hdr) (cfg : ChainCfg) (s : State) : exec (.chainSet h cfg) s = execChainSet h cfg s := rfl
theorem exec_chainGet (h : Hdr) (sb bank : Nat) (s : State) : exec (.chainGet h sb bank) s = execChainGet h sb bank s := rfl
theorem exec_chainLeave (h : Hdr) (sb : Nat) (s : State) : exec (.chainLeave h sb) s = execChainLeave h sb s := rfl
theorem exec_chainDeliverSet (h : Hdr) (sb base format rootShift dest lane : Nat) (s : State) :
    exec (.chainDeliverSet h sb base format rootShift dest lane) s = execChainDeliverSet h sb base format rootShift dest lane s := rfl
theorem exec_chainDeliverStop (h : Hdr) (sb : Nat) (s : State) : exec (.chainDeliverStop h sb) s = execChainDeliverStop h sb s := rfl
theorem exec_chainStatus (h : Hdr) (sb : Nat) (s : State) : exec (.chainStatus h sb) s = execChainStatus h sb s := rfl
theorem exec_chainCounters (h : Hdr) (sb clear : Nat) (s : State) :
    exec (.chainCounters h sb clear) s = execChainCounters h sb clear s := rfl
theorem exec_chainSwap (s : State) : exec .chainSwap s = execChainSwap s := rfl
theorem exec_chainSumFrame (lane : Nat) (frame : DirectFrame) (s : State) :
    exec (.chainSumFrame lane frame) s = execChainSumFrame lane frame s := rfl
theorem exec_chainFrameStart (sb group index : Nat) (s : State) :
    exec (.chainFrameStart sb group index) s = execChainFrameStart sb group index s := rfl
theorem exec_chainStall (sb child block : Nat) (s : State) : exec (.chainStall sb child block) s = execChainStall sb child block s := rfl
theorem exec_chainBroadcastFrame (lane : Nat) (frame : DirectFrame) (s : State) :
    exec (.chainBroadcastFrame lane frame) s = execChainBroadcastFrame lane frame s := rfl
theorem exec_chainReport (sb : Nat) (s : State) : exec (.chainReport sb) s = execChainReport sb s := rfl

/-! ### Leaving and swapping (R295, R314) -/

/-- R314: a node of a chain leaves it. -/
theorem chainLeave_of_on {d : Dev} {sb : Nat} (h : (nth d.chains sb).on = true) :
    chainLeave d sb = raiseEv (d.onChain sb fun n => { n with
      on := false, kids := n.kids.map fun k => { k with frames := [] }, reportClose := n.deliver.isSome }) EV.chainLeft [a4 sb] :=
  if_pos h

/-- R295: without a thorn in the shadow bank, the banks swap at the stake's stamp. -/
theorem chainSwap_swaps {d : Dev} {q : QStake} (h : (nth d.chains (q.stake.target / 64 % 4)).banks.thornShd = 0) :
    chainSwap d q = d.onChain (q.stake.target / 64 % 4) fun n => { n with
      banks := n.banks.swap (q.pos + n.banks.cur.offset + (nth d.fre (q.stake.target / 64 % 4)).cfg.longSymbol), swapAt := q.pos } :=
  if_neg (not_not.mpr h)

/-! ### Frames from the children (R301, R304, R306) -/

/-- R301: a frame of the chain that a lane's child belongs to reaches that child's node. -/
theorem execChainSumFrame_of_child {s : State} {lane : Nat} {frame : DirectFrame} {x : Delivered} {sb child : Nat}
    (hx : deliver s.dev lane frame = some x)
    (hkid : (childOf s.dev lane).find? (fun y => y.1 == (readSum x).sb && (nth s.dev.chains y.1).banks.cur.chainId == (readSum x).chainId)
      = some (sb, child)) :
    execChainSumFrame lane frame s = .next { s with dev := sumArrive s.dev sb child (readSum x) } := by
  simp only [execChainSumFrame, onDev, hx, hkid]

/-- R301: a frame suits its node: its chain, shape, beams and depth are those of the node's configuration `c` for its group, and its
stamp names a group that the node forms. -/
structure SuitsNode (d : Dev) (c : ChainCfg) (f : ChainFrame) : Prop where
  cfg : c = (nth d.chains f.sb).cfgFor d.axis f.axis
  chain : f.chainId = c.chainId
  group : formsGroup d f.sb f.axis = true
  shape : ¬((nth d.fre f.sb).on = true ∧ f.shapeCrc ≠ shapeCrc d f.sb)
  firstBeam : f.firstBeam = c.firstBeam
  beams : f.beams = c.beams
  depth : f.depth = c.depth + 1
  started : (nth d.chains f.sb).startAt ≤ f.axis

/-- R304: a frame that suits but has been begun already is late. -/
theorem sumArrive_late {d : Dev} {c : ChainCfg} {f : ChainFrame} (hf : SuitsNode d c f)
    (hbegun : (nth d.chains f.sb).begun f.axis f.index = true) (child : Nat) :
    sumArrive d f.sb child f = raiseLimited (d.onChain f.sb fun n => { n.onKid child (fun k => { k with late := sat32 (k.late + 1) }) with
      lateSeen := true }) EV.chainLate (f.sb * 4 + child) [a4 f.sb, a4 child] := by
  obtain ⟨rfl, hchain, hgroup, hshape, hfirst, hbeams, hdepth, hstart⟩ := hf
  unfold sumArrive
  rw [if_neg (by simpa [hchain, hfirst, hbeams, hdepth] using hshape), if_neg (by simp [hgroup, hstart]), if_pos hbegun]

/-- R301, R306: a frame that suits, is not yet begun and finds room enters its child's buffer; a group's first frame leaves its slack. -/
theorem sumArrive_enters {d : Dev} {c : ChainCfg} {f : ChainFrame} (hf : SuitsNode d c f)
    (hbegun : (nth d.chains f.sb).begun f.axis f.index = false) {child : Nat}
    (hroom : ((nth (nth d.chains f.sb).kids child).frames.map ChainFrame.bytes).sum + f.bytes ≤ 262144) :
    sumArrive d f.sb child f = d.onChain f.sb fun n => n.onKid child fun k => { k with
      frames := k.frames ++ [f]
      slacks := if f.index = 0 then (k.slacks.filter fun x => decide (d.now < x.1 + tickHz)) ++ [(d.now, (f.axis + c.offset : Nat) - (d.axis : Int))]
        else k.slacks } := by
  obtain ⟨rfl, hchain, hgroup, hshape, hfirst, hbeams, hdepth, hstart⟩ := hf
  unfold sumArrive
  rw [if_neg (by simpa [hchain, hfirst, hbeams, hdepth] using hshape), if_neg (by simp [hgroup, hstart]), if_neg (by simp [hbegun]),
    if_neg (Nat.not_lt.mpr hroom)]

/-! ### The chains (R294 to R310, R314) -/

/-- Settles O21. CHAIN-LEAVE turns on whether the node is in a chain, CHAIN_SWAP on a thorn in the shadow bank; a child's frame that suits
its node turns on whether it has been begun and on the room in its buffer; the frame begun is the node's next of the group and one that
may begin; a report goes out on 1,024 groups. When the former bank of a chain frees is the model's reading (assumption log, entry 53). -/
theorem beamChains : Obligations.BeamChains := by
  unfold Obligations.BeamChains
  refine ⟨?set, ?get, ?leave, ?deliverSet, ?deliverStop, ?status, ?counters, ?swap, ?enters, ?late, ?frameStart, ?stall, ?broadcast,
    ?report⟩
  case set =>
    intro s h cfg hs hc
    exact completes_eq (exec_chainSet _ _ _) hs rfl hc rfl
  case get =>
    rintro s h sb bank hs ⟨hsb, hbank⟩
    exact query_completes (exec_chainGet _ _ _ _) hs rfl rfl (by simp [hsb, hbank])
  case leave =>
    rintro s h sb hs ⟨hsb, hon⟩
    exact completes_eq (exec_chainLeave _ _ _) hs rfl (by simp [hsb]) (by rw [chainLeave_of_on (by simpa using hon)])
  case deliverSet =>
    intro s h sb base format rootShift dest lane hs hc
    exact completes_eq (exec_chainDeliverSet _ _ _ _ _ _ _ _) hs rfl hc rfl
  case deliverStop =>
    rintro s h sb hs ⟨hsb, hon, hroot⟩
    exact completes_eq (exec_chainDeliverStop _ _ _) hs rfl (by simp [hsb, hon, hroot]) rfl
  case status =>
    intro s h sb hs hsb
    exact query_completes (exec_chainStatus _ _ _) hs rfl rfl (by simp [hsb])
  case counters =>
    rintro s h sb clear hs ⟨hsb, hclear⟩
    exact completes_eq (exec_chainCounters _ _ _ _) hs rfl (by simp [hsb, hclear]) rfl
  case swap =>
    rintro s q ⟨hdue, hclean⟩
    refine happens_eq (exec_chainSwap _) ((stakeAct_due hdue).trans ?_)
    rw [chainSwap_swaps (d := s.dev.onTmb (·.advance q)) hclean]
    rfl
  case enters =>
    rintro s lane frame child c x f ⟨hx, rfl⟩ hkid ⟨hcfg, hchain, hgroup, hshape, hfirst, hbeams, hdepth⟩ ⟨hstart, hbegun⟩ hroom
    have hsuits : SuitsNode s.dev c (readSum x) := ⟨hcfg, hchain, hgroup, hshape, hfirst, hbeams, hdepth, hstart⟩
    exact ⟨_, (exec_chainSumFrame _ _ _).trans (execChainSumFrame_of_child hx hkid), sumArrive_enters hsuits hbegun hroom⟩
  case late =>
    rintro s lane frame child c x f ⟨hx, rfl⟩ hkid ⟨hcfg, hchain, hgroup, hshape, hfirst, hbeams, hdepth⟩ ⟨hstart, hbegun⟩
    have hsuits : SuitsNode s.dev c (readSum x) := ⟨hcfg, hchain, hgroup, hshape, hfirst, hbeams, hdepth, hstart⟩
    exact ⟨_, (exec_chainSumFrame _ _ _).trans (execChainSumFrame_of_child hx hkid), sumArrive_late hsuits hbegun child⟩
  case frameStart =>
    rintro s sb group index c kids ⟨rfl, hnext⟩ ⟨rfl, hmay⟩
    exact happens_eq (exec_chainFrameStart _ _ _ _) (by simp only [hnext]; exact if_pos ⟨trivial, hmay⟩)
  case stall =>
    rintro s sb child block x ⟨hcur, hon, hkid, hblock⟩
    exact happens_eq (exec_chainStall _ _ _ _) (by simp only [hcur]; exact if_pos (by simp [hon, hkid, hblock]))
  case broadcast =>
    rintro s lane frame c x f ⟨hx, rfl⟩ ⟨rfl, hon, htx, hroot, hparent, hchain, hup⟩
    exact happens_eq (exec_chainBroadcastFrame _ _ _)
      (by simp only [hx]; exact if_pos (by simp [hon, htx, hroot, hparent, hchain, hup]))
  case report =>
    rintro s sb x ⟨hdeliver, hfull⟩
    have hlen : ((nth s.dev.chains sb).reportCounts.take 1024).length = 1024 := List.length_take_of_le hfull
    have hsome : ((nth s.dev.chains sb).reportCounts.take 1024).isEmpty = false :=
      List.isEmpty_eq_false_iff.mpr (List.ne_nil_of_length_pos (by omega))
    have hhead : ((nth s.dev.chains sb).reportCounts.take 1024).headD (0, 0) = (nth s.dev.chains sb).reportCounts.headD (0, 0) := by
      rw [List.headD_eq_head?_getD, List.headD_eq_head?_getD, List.head?_take, if_neg (by decide)]
    refine happens_eq (exec_chainReport _ _) ?_
    simp only [hdeliver, hlen, hsome, hhead, true_or, if_true]
    rfl

end Sys2Proof.Machine
end

section
/-! What the weave's commands and stakes do (chapter 9). -/

namespace Sys2Proof.Machine

/-! ### The meaning that `exec` gives each command and happening -/

theorem exec_weaveMembers (h : Hdr) (first : Nat) (entries : Members) (s : State) :
    exec (.weaveMembers h first entries) s = execWeaveMembers h first entries s := rfl
theorem exec_weaveSet (h : Hdr) (hdr : WeaveHdr) (laneMap : LaneMaps) (s : State) :
    exec (.weaveSet h hdr laneMap) s = execWeaveSet h hdr laneMap s := rfl
theorem exec_weaveGet (h : Hdr) (bank : Nat) (s : State) : exec (.weaveGet h bank) s = execWeaveGet h bank s := rfl
theorem exec_weaveMembersGet (h : Hdr) (bank first count : Nat) (s : State) :
    exec (.weaveMembersGet h bank first count) s = execWeaveMembersGet h bank first count s := rfl
theorem exec_weaveStatus (h : Hdr) (first count : Nat) (s : State) :
    exec (.weaveStatus h first count) s = execWeaveStatus h first count s := rfl
theorem exec_weaveCounters (h : Hdr) (clear : Nat) (s : State) : exec (.weaveCounters h clear) s = execWeaveCounters h clear s := rfl
theorem exec_weaveLeave (h : Hdr) (s : State) : exec (.weaveLeave h) s = execWeaveLeave h s := rfl
theorem exec_weaveSwap (s : State) : exec .weaveSwap s = execWeaveSwap s := rfl
theorem exec_covCut (s : State) : exec .covCut s = execCovCut s := rfl

/-! ### Leaving and swapping (R342, R343, R345) -/

/-- R345: a unit in a coppice leaves it: the correlator's work stops, and the region in force frees. -/
theorem weaveLeave_of_on {d : Dev} (h : d.weave.on = true) :
    weaveLeave d = raiseEv (((regionFrees (xceHalt d false)).onWeave fun w => { w with on := false, arrived := [] }).onXce fun x => { x with
      on := false }) EV.weaveLeft [] :=
  if_pos h

/-- R363, R378: what a WEAVE_SWAP at `pos` does to the correlator: the integration is cut there, and a configuration written comes into
force. -/
def Xce.swapWithWeave (free pos : Nat) (x : Xce) : Xce :=
  { x with
    cuts := x.cuts ++ [pos], banks := if x.shdNew then x.banks.swap free else x.banks, shdNew := false,
    swapAt := if x.shdNew then pos else x.swapAt }

section
variable {d : Dev} {q : QStake} (hclean : d.weave.banks.thornShd = 0)
include hclean

/-- R342: a shadow of members comes into force; the correlator need not stop where it is off or the shadow gives the unit channels. -/
theorem weaveSwap_weaves (hmembers : d.weave.banks.shd.hdr.members ≠ 0) (hnoStop : (d.xce.on && d.weave.banks.shd.ownEntry.count == 0) = false) :
    weaveSwap d q = raiseEv ((d.onXce (·.swapWithWeave (weaveFrees d q.pos) q.pos)).onWeave fun w => { w with
      on := true, banks := w.banks.swap (weaveFrees d q.pos), swapAt := q.pos }) EV.weaveSwap [a4 q.stake.tag] := by
  unfold weaveSwap
  rw [if_neg (not_not.mpr hclean), if_neg (by simpa using hmembers)]
  simp only [hnoStop, Bool.false_eq_true, if_false]
  rfl

/-- R343: a shadow of no members takes the unit out of its coppice before the banks swap. -/
theorem weaveSwap_leaves (hnone : d.weave.banks.shd.hdr.members = 0) :
    weaveSwap d q = (weaveLeave (raiseEv (d.onXce (·.swapWithWeave (weaveFrees d q.pos) q.pos)) EV.weaveSwap [a4 q.stake.tag])).onWeave fun w => { w with
      banks := w.banks.swap (weaveFrees d q.pos), swapAt := q.pos } := by
  unfold weaveSwap
  rw [if_neg (not_not.mpr hclean), if_pos (by simpa using hnone)]
  rfl

end

/-! ### The weave (R318 to R345) -/

/-- Settles O22. WEAVE-LEAVE turns on whether the unit is in a coppice, WEAVE_SWAP on whether the shadow has members and whether the
correlator must stop; COV_CUT that is `due` acts by `stakeAct_due`. That WEAVE-MEMBERS makes the shadow incomplete, and that WEAVE_SWAP
swaps the correlator's banks only if their shadow was written, is the model's reading (assumption log, entries 59 and 60). -/
theorem weaveCommands : Obligations.WeaveCommands := by
  unfold Obligations.WeaveCommands
  refine ⟨?members, ?set, ?get, ?membersGet, ?status, ?counters, ?leave, ?swap, ?swapOut, ?cut⟩
  case members =>
    intro s h first entries hs hc
    exact completes_eq (exec_weaveMembers _ _ _ _) hs rfl hc rfl
  case set =>
    intro s h hdr laneMap hs hc
    exact completes_eq (exec_weaveSet _ _ _ _) hs rfl hc rfl
  case get =>
    intro s h bank hs hbank
    exact query_completes (exec_weaveGet _ _ _) hs rfl rfl (by simp [hbank])
  case membersGet =>
    rintro s h bank first count hs ⟨hbank, hrange⟩
    exact query_completes (exec_weaveMembersGet _ _ _ _ _) hs rfl rfl (by simp [hbank, hrange])
  case status =>
    intro s h first count hs hrange
    exact query_completes (exec_weaveStatus _ _ _ _) hs rfl rfl (by simp [hrange])
  case counters =>
    intro s h clear hs hclear
    exact completes_eq (exec_weaveCounters _ _ _) hs rfl (by simp [hclear]) rfl
  case leave =>
    rintro s h hs ⟨hqs, hon⟩
    exact completes_eq (exec_weaveLeave _ _) hs rfl (by simp [qsHeld, hqs, hon]) (by rw [weaveLeave_of_on (by simpa using hon)])
  case swap =>
    rintro s q ⟨hdue, hclean, hmembers, hnoStop⟩
    refine happens_eq (exec_weaveSwap _) ((stakeAct_due hdue).trans ?_)
    rw [weaveSwap_weaves (d := s.dev.onTmb (·.advance q)) hclean hmembers hnoStop]
    rfl
  case swapOut =>
    rintro s q ⟨hdue, hclean, hnone⟩
    refine happens_eq (exec_weaveSwap _) ((stakeAct_due hdue).trans ?_)
    rw [weaveSwap_leaves (d := s.dev.onTmb (·.advance q)) hclean hnone]
    rfl
  case cut =>
    intro s q hdue
    exact happens_eq (exec_covCut _) (stakeAct_due hdue)

end Sys2Proof.Machine
end

section
/-! What the correlator's commands, stakes, passes, drains and integrations do (chapter 10). -/

namespace Sys2Proof.Machine

/-! ### The meaning that `exec` gives each command and happening -/

theorem exec_xceSet (h : Hdr) (cfg : XceCfg) (s : State) : exec (.xceSet h cfg) s = execXceSet h cfg s := rfl
theorem exec_xceGet (h : Hdr) (bank : Nat) (s : State) : exec (.xceGet h bank) s = execXceGet h bank s := rfl
theorem exec_xceStop (h : Hdr) (s : State) : exec (.xceStop h) s = execXceStop h s := rfl
theorem exec_xceIntGet (h : Hdr) (number : Nat) (s : State) : exec (.xceIntGet h number) s = execXceIntGet h number s := rfl
theorem exec_xceInputsGet (h : Hdr) (first count : Nat) (s : State) :
    exec (.xceInputsGet h first count) s = execXceInputsGet h first count s := rfl
theorem exec_xceCounters (h : Hdr) (clear : Nat) (s : State) : exec (.xceCounters h clear) s = execXceCounters h clear s := rfl
theorem exec_intCut (s : State) : exec .intCut s = execIntCut s := rfl
theorem exec_xceSwap (s : State) : exec .xceSwap s = execXceSwap s := rfl
theorem exec_passStart (s : State) : exec .passStart s = execPassStart s := rfl
theorem exec_roundEnd (s : State) : exec .roundEnd s = execRoundEnd s := rfl
theorem exec_collectorDrain (dump : TileDump) (s : State) : exec (.collectorDrain dump) s = execCollectorDrain dump s := rfl
theorem exec_integrationClose (s : State) : exec .integrationClose s = execIntegrationClose s := rfl
theorem exec_integrationReadout (s : State) : exec .integrationReadout s = execIntegrationReadout s := rfl

/-! ### Stopping (R376) -/

/-- R376: whether a tile that stops during a pass is left without samples: no bank was full, and the one that accumulated took none. -/
def Tile.stopsEmpty (pass : Option XcePass) (now : Nat) (t : Tile) : Bool :=
  t.fulls.isEmpty && match t.job, pass with
    | some j, some p => decide (min j.samples ((now - p.began) / (2 * xceCycles j.mode)) = 0)
    | _, _ => true

/-- R376: nothing is left to drain after a stop where every tile stops empty, whether or not a pass is in progress or an integration is
open. -/
theorem drained_xceHalt (d : Dev) : drained (xceHalt d false).xce = d.xce.tiles.all (·.stopsEmpty d.xce.pass d.now) := by
  have hfulls (l : List TileJob) (j : TileJob) (n : Nat) : (if n = 0 then l else l ++ [j]).isEmpty = (l.isEmpty && decide (n = 0)) := by
    split <;> simp [*]
  unfold xceHalt
  simp only [onXce_xce, drained, Bool.false_eq_true, if_false]
  split <;> split <;>
    · simp only [Xce.onInt, List.all_map]
      congr 1
      funext t
      cases ht : t.job <;> cases d.xce.pass <;> simp only [Function.comp, Tile.stopsEmpty, ht, hfulls, Bool.and_true]

theorem drained_xceHalt_found (d : Dev) (h : Hdr) : drained (xceHalt (found d h) false).xce = drained (xceHalt d false).xce := by
  simp only [drained_xceHalt, found_xce, found_now]

/-! ### The commands and stakes (R350 to R378, R497) -/

/-- Settles O24. XCE-STOP turns on whether anything is left to drain on the unit it finds, which `drained_xceHalt_found` takes back to the
unit before; XCE-INT-GET on the integration of its number; XCE_SWAP on a thorn in the shadow bank. -/
theorem correlatorCommands : Obligations.CorrelatorCommands := by
  unfold Obligations.CorrelatorCommands
  refine ⟨?set, ?get, ?stop, ?stopWaits, ?intGet, ?inputsGet, ?counters, ?cut, ?swap⟩
  case set =>
    intro s h cfg hs hc
    exact completes_eq (exec_xceSet _ _ _) hs rfl hc rfl
  case get =>
    intro s h bank hs hbank
    exact query_completes (exec_xceGet _ _ _) hs rfl rfl (by simp [hbank])
  case stop =>
    rintro s h hs ⟨hqs, hon, hdrained⟩
    rw [← drained_xceHalt_found _ h] at hdrained
    exact completes_eq (exec_xceStop _ _) hs rfl (by simp [qsHeld, hqs, hon]) (if_pos hdrained)
  case stopWaits =>
    rintro s h hs ⟨hqs, hon, hleft⟩
    rw [← drained_xceHalt_found _ h] at hleft
    exact begins_eq (exec_xceStop _ _) hs rfl (by simp [qsHeld, hqs, hon]) (if_neg (Bool.eq_false_iff.mp hleft))
  case intGet =>
    intro s h number x hs hx
    have hany : s.dev.xce.integs.any (·.num == number) = true := List.any_eq_true.mpr (List.find?_isSome.mp (by rw [hx]; rfl))
    refine completes_of (exec_xceIntGet _ _ _) hs rfl (by simp [hany]) _ _ rfl ⟨rfl, ?_⟩
    simp only [found_xce, hx]
  case inputsGet =>
    rintro s h first count hs ⟨hone, hmax, hend⟩
    exact query_completes (exec_xceInputsGet _ _ _ _) hs rfl rfl (by simp [Nat.ne_of_gt hone, hmax, hend])
  case counters =>
    intro s h clear hs hclear
    exact completes_eq (exec_xceCounters _ _ _) hs rfl (by simp [hclear]) rfl
  case cut =>
    intro s q hdue
    exact happens_eq (exec_intCut _) (stakeAct_due hdue)
  case swap =>
    rintro s q ⟨hdue, hclean⟩
    refine happens_eq (exec_xceSwap _) ((stakeAct_due hdue).trans ?_)
    exact congrArg (markDone · q) (if_neg (not_not.mpr hclean))

/-! ### Passes, rounds, drains and integrations (R351 to R369) -/

/-- R351: counting a pass of the set in front neither enables nor disables the correlator. -/
theorem tookPass_on (x : Xce) : x.tookPass.on = x.on := by
  unfold Xce.tookPass
  split <;> rfl

theorem unitGap_onXce (d : Dev) (f : Xce → Xce) : unitGap (d.onXce f) (d.onXce f).axis = unitGap d d.axis := rfl

/-- Settles O25. PASS_START turns on the throttle gap once the set in front has counted its pass; ROUND_END on the round's last cycle and on
whether another round follows; an accumulated dump without parity errors and thorns raises nothing and forwards nothing; an integration
of the unit outside quickset becomes an object; a record before the last leaves the readout open. That the input counts of an object's
integration follow as reports is the model's reading (assumption log, entry 122). -/
theorem correlatorWork : Obligations.CorrelatorWork := by
  unfold Obligations.CorrelatorWork
  refine ⟨?passBegins, ?passSkipped, ?roundNext, ?roundStays, ?drain, ?close, ?readout⟩
  case passBegins =>
    rintro s x i ⟨hpass, hdom, hnext, hmode, hon, hgap⟩
    refine happens_eq (exec_passStart _) ?_
    simp only [hpass, hdom, hnext, hmode, unitGap_onXce, hgap, onXce_xce, tookPass_on, hon, zero_ne_one, if_false]
    rfl
  case passSkipped =>
    rintro s x i ⟨hpass, hdom, hnext, hgap⟩
    refine happens_eq (exec_passStart _) ?_
    simp only [hpass, hdom, hnext, unitGap_onXce, hgap]
    rfl
  case roundNext =>
    rintro s p ⟨hpass, hends, hmore⟩
    refine happens_eq (exec_roundEnd _) ?_
    simp only [hpass]
    exact (if_neg (Nat.not_lt.mpr hends)).trans (if_pos hmore)
  case roundStays =>
    rintro s p ⟨hpass, hearly⟩
    exact happens_eq (F := id) (exec_roundEnd _) (by simp only [hpass]; exact if_pos hearly)
  case drain =>
    rintro s dump j rest x e F ⟨rfl, hnext, hx, hmode, hover⟩ ⟨hparity, hthorn, hmarks⟩ ⟨rfl, hdom⟩
    refine onDev_happens (exec_collectorDrain _ _) ⟨_, rfl, ?_⟩
    have haccumulates : (x.cfg.outMode == 0 || (x.cfg.outMode == 2 && decide (j.block < x.cfg.dramBlocks))) = true := by simp [hmode]
    have hkept : (x.cfg.outMode != 0) = false := by simp [hmode]
    simp only [hnext, hx, Option.map_some, Option.getD_some, haccumulates, hkept]
    rw [if_neg (by simp [hover])]
    simp only [hparity, hthorn, hmarks, List.isEmpty_nil, List.map_nil, List.append_nil, Bool.true_or, Bool.and_self, Bool.not_true, Bool.false_and,
      Bool.false_eq_true, if_true, if_false, hdom]
  case close =>
    rintro s x e n f ⟨hx, hmode, hout⟩ ⟨he, hqs⟩ hadd
    refine onDev_happens (exec_integrationClose _) ?_
    have hobject : x.cfg.outMode ≠ 1 ∧ x.cfg.intOut = 0 ∧ e.qs.state ≠ 2 := by omega
    have hfwd : (n = 0 ∨ x.cfg.outMode ≠ 0) = (n = 0) := by simp [hmode]
    simp only [hx, ← he]
    rw [if_neg (show ¬e.qs.state = 2 by omega)]
    simp only [if_pos hobject, hadd, hfwd]
  case readout =>
    rintro s x a l ⟨hx, hrecords, hmore, hready⟩
    refine happens_eq (exec_integrationReadout _) ?_
    simp only [hx, if_neg (Nat.not_lt.mpr hready), hrecords]
    exact if_neg (by simpa using hmore)

end Sys2Proof.Machine
end

section
/-! What the predistortion commands do (chapter 11). -/

namespace Sys2Proof.Machine

/-! ### The meaning that `exec` gives each command -/

theorem exec_dpdSet (h : Hdr) (mask : Nat) (cfg : DpdCfg) (s : State) : exec (.dpdSet h mask cfg) s = execDpdSet h mask cfg s := rfl
theorem exec_dpdGet (h : Hdr) (path : Nat) (s : State) : exec (.dpdGet h path) s = execDpdGet h path s := rfl
theorem exec_dpdCoefLoad (h : Hdr) (handle apply : Nat) (s : State) :
    exec (.dpdCoefLoad h handle apply) s = execDpdCoefLoad h handle apply s := rfl
theorem exec_dpdCoefRead (h : Hdr) (mask bank : Nat) (s : State) : exec (.dpdCoefRead h mask bank) s = execDpdCoefRead h mask bank s := rfl
theorem exec_dpdRequest (h : Hdr) (mask overBound : Nat) (s : State) :
    exec (.dpdRequest h mask overBound) s = execDpdRequest h mask overBound s := rfl
theorem exec_dpdMetricGet (h : Hdr) (path : Nat) (s : State) : exec (.dpdMetricGet h path) s = execDpdMetricGet h path s := rfl
theorem exec_dpdObsStatus (h : Hdr) (s : State) : exec (.dpdObsStatus h) s = execDpdObsStatus h s := rfl
theorem exec_dpdCounters (h : Hdr) (path clear : Nat) (s : State) :
    exec (.dpdCounters h path clear) s = execDpdCounters h path clear s := rfl
theorem exec_dpdReset (h : Hdr) (mask : Nat) (s : State) : exec (.dpdReset h mask) s = execDpdReset h mask s := rfl
theorem exec_dpdSave (h : Hdr) (mask : Nat) (s : State) : exec (.dpdSave h mask) s = execDpdSave h mask s := rfl

/-! ### What the checks read, the packet steps leave -/

@[simp] theorem found_dpdPath (d : Dev) (h : Hdr) (p : Nat) : (found d h).dpdPath p = d.dpdPath p := by simp [Dev.dpdPath]

@[simp] theorem found_dpdCfgOk (d : Dev) (h : Hdr) (c : DpdCfg) (p : Nat) : dpdCfgOk (found d h) c p = dpdCfgOk d c p := by
  simp [dpdCfgOk]

/-! ### The commands (R386 to R388, R392, R399, R404 to R407) -/

/-- Settles O26. The checks of DPD-SET and DPD-REQUEST read the paths as the packet steps leave them; DPD-COEF-LOAD turns on the header of
its object, which is staged before and after them; DPD-METRIC-GET on whether the path has an estimate. That DPD-RESET ends the back-off at
the command and that the estimates read 0 before the first metrics are the model's readings (assumption log, entry 63). -/
theorem predistortionCommands : Obligations.PredistortionCommands := by
  unfold Obligations.PredistortionCommands
  refine ⟨?set, ?get, ?coefLoad, ?coefRead, ?request, ?metricGet, ?obsStatus, ?counters, ?reset, ?save⟩
  case set =>
    rintro s h mask cfg hs ⟨hcfg, hon⟩
    refine completes_eq (exec_dpdSet _ _ _ _) hs rfl ?_ rfl
    simp only [found_dpdCfgOk, found_domOn, hcfg, hon]
    rfl
  case get =>
    intro s h path hs hpath
    exact query_completes (exec_dpdGet _ _ _) hs rfl rfl (by simp [hpath])
  case coefLoad =>
    intro s h handle apply o m n mask hs hc hheader
    refine completes_of (exec_dpdCoefLoad _ _ _ _) hs rfl hc _ _ rfl ⟨?_, rfl⟩
    simp only [found_objBytes, hheader]
  case coefRead =>
    intro s h mask bank hs hc
    exact completes_eq (exec_dpdCoefRead _ _ _ _) hs rfl hc rfl
  case request =>
    rintro s h mask overBound hs ⟨hover, hadapt, hon⟩
    refine completes_eq (exec_dpdRequest _ _ _ _) hs rfl ?_ rfl
    simp only [found_dpdPath, found_domOn, hadapt, hon]
    simp [hover]
  case metricGet =>
    intro s h path hs hpath
    refine completes_of (exec_dpdMetricGet _ _ _) hs rfl (by simp [hpath]) _ _ rfl ⟨rfl, ?_⟩
    cases hest : dpdEstimate (found s.dev h) path <;> simp only [hest]
  case obsStatus =>
    intro s h hs
    exact query_completes (exec_dpdObsStatus _ _) hs rfl rfl rfl
  case counters =>
    rintro s h path clear hs ⟨hpath, hclear⟩
    exact completes_eq (exec_dpdCounters _ _ _ _) hs rfl (by simp [hpath, hclear]) rfl
  case reset =>
    intro s h mask hs hon
    exact completes_eq (exec_dpdReset _ _ _) hs rfl (by simp [hon]) rfl
  case save =>
    intro s h mask hs hon
    exact completes_eq (exec_dpdSave _ _ _) hs rfl (by simp [hon]) rfl

end Sys2Proof.Machine
end

section
/-! What every step keeps: the canonical form of the stores, from every state that stands in it, and at reset. -/

namespace Sys2Proof.Machine

/-- Every command answers a next state and keeps the canonical form: one arm of the dispatch each. -/
theorem keeps_exec : ∀ i : Instr, Keeps (exec i)
  | .discover .. => keeps_discover | .sessionOpen .. => keeps_sessionOpen | .sessionAuth .. => keeps_sessionAuth
  | .sessionClose .. => keeps_sessionClose | .sessionKeepalive .. => keeps_sessionKeepalive | .sessionStatus .. => keeps_sessionStatus
  | .sessionList .. => keeps_sessionList | .sessionEvict .. => keeps_sessionEvict | .eventSubscribe .. => keeps_eventSubscribe
  | .eventGet .. => keeps_eventGet | .bulkOpen .. => keeps_bulkOpen | .bulkStatus .. => keeps_bulkStatus | .bulkClose .. => keeps_bulkClose
  | .bulkAbort .. => keeps_bulkAbort | .bulkRead .. => keeps_bulkRead | .bulkResend .. => keeps_bulkResend | .destSet .. => keeps_destSet
  | .reportSlotSet .. => keeps_reportSlotSet | .reportSlotGet .. => keeps_reportSlotGet | .linkEncapSet .. => keeps_linkEncapSet
  | .linkEncapGet .. => keeps_linkEncapGet | .linkCounters .. => keeps_linkCounters | .quicksetExit .. => keeps_quicksetExit
  | .quicksetEnter .. => keeps_quicksetEnter | .quicksetStatus .. => keeps_quicksetStatus | .unitNumberSet .. => keeps_unitNumberSet
  | .sysReset .. => keeps_sysReset | .sysStatus .. => keeps_sysStatus | .timeGet .. => keeps_timeGet | .timeSourceSet .. => keeps_timeSourceSet
  | .ptpConfig .. => keeps_ptpConfig | .ptpStatus .. => keeps_ptpStatus | .timeSwitch .. => keeps_timeSwitch
  | .timeSlewSet .. => keeps_timeSlewSet | .timeStep .. => keeps_timeStep | .laneTimeConfig .. => keeps_laneTimeConfig
  | .laneTimeStatus .. => keeps_laneTimeStatus | .ppsConfig .. => keeps_ppsConfig | .refConfig .. => keeps_refConfig
  | .axisSet .. => keeps_axisSet | .axisGet .. => keeps_axisGet | .axisDelays .. => keeps_axisDelays | .stakeSubmit .. => keeps_stakeSubmit
  | .stakeCancel .. => keeps_stakeCancel | .stakeList .. => keeps_stakeList | .launchQueue .. => keeps_launchQueue
  | .launchCancel .. => keeps_launchCancel | .laneConfig .. => keeps_laneConfig | .laneStatus .. => keeps_laneStatus
  | .laneEqGet .. => keeps_laneEqGet | .laneEqSet .. => keeps_laneEqSet | .lanePrbs .. => keeps_lanePrbs
  | .lanePrbsRead .. => keeps_lanePrbsRead | .laneLoopback .. => keeps_laneLoopback | .laneReset .. => keeps_laneReset
  | .quadPower .. => keeps_quadPower | .laneCounters .. => keeps_laneCounters | .rxPathSet .. => keeps_rxPathSet
  | .rxPathGet .. => keeps_rxPathGet | .rxSubbandSet .. => keeps_rxSubbandSet | .rxSubbandGet .. => keeps_rxSubbandGet
  | .rxSubbandDisable .. => keeps_rxSubbandDisable | .rxCoefLoad .. => keeps_rxCoefLoad | .rxStreamSet .. => keeps_rxStreamSet
  | .rxStreamStop .. => keeps_rxStreamStop | .rxCutSet .. => keeps_rxCutSet | .rxMeterGet .. => keeps_rxMeterGet
  | .rxCounters .. => keeps_rxCounters | .portCheck .. => keeps_portCheck | .txPathSet .. => keeps_txPathSet | .txPathGet .. => keeps_txPathGet
  | .txSubbandSet .. => keeps_txSubbandSet | .txSubbandGet .. => keeps_txSubbandGet | .txSubbandDisable .. => keeps_txSubbandDisable
  | .txCoefLoad .. => keeps_txCoefLoad | .txStreamSet .. => keeps_txStreamSet | .txStreamStop .. => keeps_txStreamStop
  | .txCutSet .. => keeps_txCutSet | .txMute .. => keeps_txMute | .txCompLoad .. => keeps_txCompLoad
  | .txProtectClear .. => keeps_txProtectClear | .txCounters .. => keeps_txCounters | .govClassSet .. => keeps_govClassSet
  | .govStatus .. => keeps_govStatus | .govLogRead .. => keeps_govLogRead | .freSet .. => keeps_freSet | .freGet .. => keeps_freGet
  | .freDisable .. => keeps_freDisable | .freEqLoad .. => keeps_freEqLoad | .freWindowLoad .. => keeps_freWindowLoad
  | .freLevelGet .. => keeps_freLevelGet | .freCounters .. => keeps_freCounters | .freStreamSet .. => keeps_freStreamSet
  | .freStreamStop .. => keeps_freStreamStop | .topiaryAlloc .. => keeps_topiaryAlloc | .topiaryLoad .. => keeps_topiaryLoad
  | .topiaryGet .. => keeps_topiaryGet | .beamSet .. => keeps_beamSet | .beamStreamSet .. => keeps_beamStreamSet
  | .beamStreamStop .. => keeps_beamStreamStop | .layerStreamSet .. => keeps_layerStreamSet | .layerStreamStop .. => keeps_layerStreamStop
  | .chainSet .. => keeps_chainSet | .chainGet .. => keeps_chainGet | .chainLeave .. => keeps_chainLeave
  | .chainDeliverSet .. => keeps_chainDeliverSet | .chainDeliverStop .. => keeps_chainDeliverStop | .chainStatus .. => keeps_chainStatus
  | .chainCounters .. => keeps_chainCounters | .weaveSet .. => keeps_weaveSet | .weaveMembers .. => keeps_weaveMembers
  | .weaveGet .. => keeps_weaveGet | .weaveMembersGet .. => keeps_weaveMembersGet | .weaveLeave .. => keeps_weaveLeave
  | .weaveStatus .. => keeps_weaveStatus | .weaveCounters .. => keeps_weaveCounters | .xceSet .. => keeps_xceSet | .xceGet .. => keeps_xceGet
  | .xceStop .. => keeps_xceStop | .xceIntGet .. => keeps_xceIntGet | .xceInputsGet .. => keeps_xceInputsGet
  | .xceCounters .. => keeps_xceCounters | .dpdSet .. => keeps_dpdSet | .dpdGet .. => keeps_dpdGet | .dpdCoefLoad .. => keeps_dpdCoefLoad
  | .dpdCoefRead .. => keeps_dpdCoefRead | .dpdRequest .. => keeps_dpdRequest | .dpdMetricGet .. => keeps_dpdMetricGet
  | .dpdObsStatus .. => keeps_dpdObsStatus | .dpdCounters .. => keeps_dpdCounters | .dpdReset .. => keeps_dpdReset
  | .dpdSave .. => keeps_dpdSave | .calConfig .. => keeps_calConfig | .calRun .. => keeps_calRun | .calStatus .. => keeps_calStatus
  | .calAbort .. => keeps_calAbort | .calTrimGet .. => keeps_calTrimGet | .calTableRead .. => keeps_calTableRead
  | .calTableLoad .. => keeps_calTableLoad | .calSave .. => keeps_calSave | .otaSet .. => keeps_otaSet | .otaGet .. => keeps_otaGet
  | .calCounters .. => keeps_calCounters | .synStatus .. => keeps_synStatus | .profileDefine .. => keeps_profileDefine
  | .profileSet .. => keeps_profileSet | .synPrelock .. => keeps_synPrelock | .synCal .. => keeps_synCal | .feStateGet .. => keeps_feStateGet
  | .bcnSet .. => keeps_bcnSet | .bcnGet .. => keeps_bcnGet | .bcnDataSet .. => keeps_bcnDataSet | .bcnStatus .. => keeps_bcnStatus
  | .bcnCounters .. => keeps_bcnCounters | .memStatus .. => keeps_memStatus | .memRegionSet .. => keeps_memRegionSet
  | .memRegionGet .. => keeps_memRegionGet | .memScrubSet .. => keeps_memScrubSet | .memScrubRange .. => keeps_memScrubRange
  | .memInject .. => keeps_memInject | .memPortSet .. => keeps_memPortSet | .memPortStatus .. => keeps_memPortStatus
  | .memFreqSet .. => keeps_memFreqSet | .memSelfrefresh .. => keeps_memSelfrefresh | .memRowdisturbSet .. => keeps_memRowdisturbSet
  | .memCounters .. => keeps_memCounters | .memSelftestGet .. => keeps_memSelftestGet | .fabStatus .. => keeps_fabStatus
  | .fabHoldGet .. => keeps_fabHoldGet | .fabPrioSet .. => keeps_fabPrioSet | .fabTimingSet .. => keeps_fabTimingSet
  | .fabTargetReset .. => keeps_fabTargetReset | .fabRecover .. => keeps_fabRecover | .fabCounters .. => keeps_fabCounters
  | .dmaRun .. => keeps_dmaRun | .dmaChStatus .. => keeps_dmaChStatus | .dmaChStop .. => keeps_dmaChStop | .dmaChAssign .. => keeps_dmaChAssign
  | .appletLoad .. => keeps_appletLoad | .appletStart .. => keeps_appletStart | .appletStop .. => keeps_appletStop
  | .appletUnload .. => keeps_appletUnload | .appletStatus .. => keeps_appletStatus | .appletMsg .. => keeps_appletMsg
  | .appletMemRead .. => keeps_appletMemRead | .appletMemWrite .. => keeps_appletMemWrite | .coreStatus .. => keeps_coreStatus
  | .appletCounters .. => keeps_appletCounters | .pwrStatus .. => keeps_pwrStatus | .pwrStateSet .. => keeps_pwrStateSet
  | .pwrCapSet .. => keeps_pwrCapSet | .pwrRecordGet .. => keeps_pwrRecordGet | .biasSet .. => keeps_biasSet | .biasGet .. => keeps_biasGet
  | .biasRampLoad .. => keeps_biasRampLoad | .biasSafeSet .. => keeps_biasSafeSet | .hkRead .. => keeps_hkRead | .hkStatus .. => keeps_hkStatus
  | .thermConfig .. => keeps_thermConfig | .thermStatus .. => keeps_thermStatus | .pwrCounters .. => keeps_pwrCounters
  | .secStatus .. => keeps_secStatus | .keyChange .. => keeps_keyChange | .keyList .. => keeps_keyList | .rollbackSet .. => keeps_rollbackSet
  | .certRead .. => keeps_certRead | .attest .. => keeps_attest | .debugAuth .. => keeps_debugAuth | .fwLoad .. => keeps_fwLoad
  | .fwActivate .. => keeps_fwActivate | .fwCommit .. => keeps_fwCommit | .fwStatus .. => keeps_fwStatus | .appletStore .. => keeps_appletStore
  | .appletStoreErase .. => keeps_appletStoreErase | .nvmRead .. => keeps_nvmRead | .nvmWrite .. => keeps_nvmWrite
  | .nvmErase .. => keeps_nvmErase | .undefinedOpcode .. => keeps_undefinedOpcode | .linkEncapApply .. => keeps_linkEncapApply
  | .sysResetAfterResponse .. => keeps_sysResetAfterResponse | .portMeasurement .. => keeps_portMeasurement
  | .swiosPacketDropped .. => keeps_swiosPacketDropped | .bulkFragment .. => keeps_bulkFragment | .hostStreamPacket .. => keeps_hostStreamPacket
  | .layerStreamPacket .. => keeps_layerStreamPacket | .priorityFlowControl .. => keeps_priorityFlowControl
  | .sessionTimeout .. => keeps_sessionTimeout | .evtPacketSend .. => keeps_evtPacketSend | .spreadResponse .. => keeps_spreadResponse
  | .reportSlot .. => keeps_reportSlot | .streamPacketSend .. => keeps_streamPacketSend | .bulkDone .. => keeps_bulkDone
  | .ptpAnnounce .. => keeps_ptpAnnounce | .ptpSync .. => keeps_ptpSync | .delayReq .. => keeps_delayReq
  | .announceTimeout .. => keeps_announceTimeout | .syncLoss .. => keeps_syncLoss | .servoQualify .. => keeps_servoQualify
  | .holdoverExpiry .. => keeps_holdoverExpiry | .timeBlockSend .. => keeps_timeBlockSend | .timeBlock .. => keeps_timeBlock
  | .timeReply .. => keeps_timeReply | .timeBlockTimeout .. => keeps_timeBlockTimeout | .laneResidualFault .. => keeps_laneResidualFault
  | .ppsInEdge .. => keeps_ppsInEdge | .ppsInTimeout .. => keeps_ppsInTimeout | .ppsOutRise .. => keeps_ppsOutRise
  | .ppsOutFall .. => keeps_ppsOutFall | .refInLoss .. => keeps_refInLoss | .esmcQuality .. => keeps_esmcQuality
  | .revertiveSwitch .. => keeps_revertiveSwitch | .slewDone .. => keeps_slewDone | .stakePrefetch .. => keeps_stakePrefetch
  | .stakeDeferExpiry .. => keeps_stakeDeferExpiry | .mark .. => keeps_mark | .bankSwap .. => keeps_bankSwap
  | .launchTrigger .. => keeps_launchTrigger | .bankFree .. => keeps_bankFree | .identSend .. => keeps_identSend
  | .fillSend .. => keeps_fillSend | .ident .. => keeps_ident | .fill .. => keeps_fill | .fillInsertion .. => keeps_fillInsertion
  | .elasticSlip .. => keeps_elasticSlip | .laserStable .. => keeps_laserStable | .clockRecoveryLock .. => keeps_clockRecoveryLock
  | .equaliserAdapted .. => keeps_equaliserAdapted | .blockLock .. => keeps_blockLock | .noAlignment .. => keeps_noAlignment
  | .lockLost .. => keeps_lockLost | .lossOfSignal .. => keeps_lossOfSignal | .lossOfSignalClear .. => keeps_lossOfSignalClear
  | .laneTakeDown .. => keeps_laneTakeDown | .prbsLock .. => keeps_prbsLock | .prbsLockLoss .. => keeps_prbsLockLoss
  | .adcOverload .. => keeps_adcOverload | .rxProtectEntry .. => keeps_rxProtectEntry | .rxProtectExit .. => keeps_rxProtectExit
  | .biasFoldback .. => keeps_biasFoldback | .biasRetry .. => keeps_biasRetry | .rxFlushDone .. => keeps_rxFlushDone
  | .rxOpen .. => keeps_rxOpen | .rxClose .. => keeps_rxClose | .rxSwap .. => keeps_rxSwap | .ncoReset .. => keeps_ncoReset
  | .attenStep .. => keeps_attenStep | .meterLatch .. => keeps_meterLatch | .cutThroughFrame .. => keeps_cutThroughFrame
  | .txOpen .. => keeps_txOpen | .txClose .. => keeps_txClose | .txSwap .. => keeps_txSwap | .txNcoReset .. => keeps_txNcoReset
  | .txTone .. => keeps_txTone | .inhibitLoopOpen .. => keeps_inhibitLoopOpen | .inhibitLoopClosed .. => keeps_inhibitLoopClosed
  | .portFault .. => keeps_portFault | .governorStep .. => keeps_governorStep | .adaptationResume .. => keeps_adaptationResume
  | .govMismatch .. => keeps_govMismatch | .govLogRecord .. => keeps_govLogRecord | .compensationStep .. => keeps_compensationStep
  | .txFlushDone .. => keeps_txFlushDone | .topSwap .. => keeps_topSwap | .freSwap .. => keeps_freSwap | .freFlushDone .. => keeps_freFlushDone
  | .chainSwap .. => keeps_chainSwap | .chainSumFrame .. => keeps_chainSumFrame | .chainFrameStart .. => keeps_chainFrameStart
  | .chainStall .. => keeps_chainStall | .chainBroadcastFrame .. => keeps_chainBroadcastFrame | .chainReport .. => keeps_chainReport
  | .weaveSwap .. => keeps_weaveSwap | .covCut .. => keeps_covCut | .weaveFrameSend .. => keeps_weaveFrameSend
  | .weaveFrame .. => keeps_weaveFrame | .weaveDeadline .. => keeps_weaveDeadline | .passStart .. => keeps_passStart
  | .roundEnd .. => keeps_roundEnd | .collectorDrain .. => keeps_collectorDrain | .intCut .. => keeps_intCut | .xceSwap .. => keeps_xceSwap
  | .integrationClose .. => keeps_integrationClose | .integrationReadout .. => keeps_integrationReadout | .dpdSwap .. => keeps_dpdSwap
  | .dpdSlotStart .. => keeps_dpdSlotStart | .captureComplete .. => keeps_captureComplete | .noCapture .. => keeps_noCapture
  | .solveComplete .. => keeps_solveComplete | .captureAgeExpiry .. => keeps_captureAgeExpiry | .dpdThorn .. => keeps_dpdThorn
  | .dpdAutosave .. => keeps_dpdAutosave | .calInterval .. => keeps_calInterval | .calStep .. => keeps_calStep | .calHold .. => keeps_calHold
  | .calSolveComplete .. => keeps_calSolveComplete | .calTrimWrite .. => keeps_calTrimWrite | .calRunTimeout .. => keeps_calRunTimeout
  | .calStarved .. => keeps_calStarved | .synLock .. => keeps_synLock | .settlingEnd .. => keeps_settlingEnd
  | .lossOfLock .. => keeps_lossOfLock | .synHop .. => keeps_synHop | .synRecalibration .. => keeps_synRecalibration
  | .synSwap .. => keeps_synSwap | .bcnTx .. => keeps_bcnTx | .beaconEnd .. => keeps_beaconEnd | .bcnListenOpen .. => keeps_bcnListenOpen
  | .bcnListenClose .. => keeps_bcnListenClose | .preambleDetect .. => keeps_preambleDetect | .syncWordTimeout .. => keeps_syncWordTimeout
  | .beaconHeader .. => keeps_beaconHeader | .beaconPacketEnd .. => keeps_beaconPacketEnd | .noiseFloorReport .. => keeps_noiseFloorReport
  | .scrub .. => keeps_scrub | .scrubRangeDone .. => keeps_scrubRangeDone | .regionInitDone .. => keeps_regionInitDone
  | .refresh .. => keeps_refresh | .rowDisturb .. => keeps_rowDisturb | .coolDownEnd .. => keeps_coolDownEnd
  | .streamPortPanic .. => keeps_streamPortPanic | .memFreq .. => keeps_memFreq | .selfRefreshExit .. => keeps_selfRefreshExit
  | .fabricRequest .. => keeps_fabricRequest | .ageLimit .. => keeps_ageLimit | .lockTimeout .. => keeps_lockTimeout
  | .targetTimeout .. => keeps_targetTimeout | .matrixHang .. => keeps_matrixHang | .recoveryExit .. => keeps_recoveryExit
  | .fabMode .. => keeps_fabMode | .masterReset .. => keeps_masterReset | .fabricDrainComplete .. => keeps_fabricDrainComplete
  | .drainLimit .. => keeps_drainLimit | .dmaChDoorbell .. => keeps_dmaChDoorbell | .channelEnable .. => keeps_channelEnable
  | .channelDisable .. => keeps_channelDisable | .descriptorFetch .. => keeps_descriptorFetch | .dmaBurst .. => keeps_dmaBurst
  | .descriptorComplete .. => keeps_descriptorComplete | .registerWrite .. => keeps_registerWrite | .macNop .. => keeps_macNop
  | .mul .. => keeps_mul | .mac .. => keeps_mac | .msu .. => keeps_msu | .aclr .. => keeps_aclr | .amov .. => keeps_amov
  | .aadd .. => keeps_aadd | .ashr .. => keeps_ashr | .ashl .. => keeps_ashl | .ald .. => keeps_ald | .rnd .. => keeps_rnd
  | .anorm .. => keeps_anorm | .aexp .. => keeps_aexp | .aluNop .. => keeps_aluNop | .addl .. => keeps_addl | .subl .. => keeps_subl
  | .negl .. => keeps_negl | .conj .. => keeps_conj | .swap .. => keeps_swap | .shrl .. => keeps_shrl | .shll .. => keeps_shll
  | .shrv .. => keeps_shrv | .addw .. => keeps_addw | .subw .. => keeps_subw | .and .. => keeps_and | .or .. => keeps_or | .xor .. => keeps_xor
  | .mov .. => keeps_mov | .norm .. => keeps_norm | .exp .. => keeps_exp | .expc .. => keeps_expc | .cmplt .. => keeps_cmplt
  | .cmpeq .. => keeps_cmpeq | .lil .. => keeps_lil | .lis .. => keeps_lis | .addi .. => keeps_addi | .mvts .. => keeps_mvts
  | .mvfs .. => keeps_mvfs | .jmp .. => keeps_jmp | .jf .. => keeps_jf | .jnf .. => keeps_jnf | .call .. => keeps_call | .ret .. => keeps_ret
  | .reti .. => keeps_reti | .loop .. => keeps_loop | .loopx .. => keeps_loopx | .ei .. => keeps_ei | .di .. => keeps_di
  | .wait .. => keeps_wait | .waitx .. => keeps_waitx | .halt .. => keeps_halt | .trap .. => keeps_trap | .lsNop .. => keeps_lsNop
  | .ldz .. => keeps_ldz | .ldd .. => keeps_ldd | .stz .. => keeps_stz | .std .. => keeps_std | .ldh .. => keeps_ldh | .sth .. => keeps_sth
  | .ld4 .. => keeps_ld4 | .ld8 .. => keeps_ld8 | .ld12 .. => keeps_ld12 | .st12 .. => keeps_st12 | .iord .. => keeps_iord
  | .iowr .. => keeps_iowr | .xrd .. => keeps_xrd | .xwr .. => keeps_xwr | .transferDone .. => keeps_transferDone
  | .transferError .. => keeps_transferError | .watchdogExpiry .. => keeps_watchdogExpiry | .interruptEntry .. => keeps_interruptEntry
  | .wdt .. => keeps_wdt | .msgSend .. => keeps_msgSend | .axisLo .. => keeps_axisLo | .cycLo .. => keeps_cycLo
  | .sportDataPop .. => keeps_sportDataPop | .sportDataPush .. => keeps_sportDataPush | .appletGo .. => keeps_appletGo
  | .appletTick .. => keeps_appletTick | .powerGood .. => keeps_powerGood | .undervoltage .. => keeps_undervoltage
  | .overvoltage .. => keeps_overvoltage | .supplyRecovery .. => keeps_supplyRecovery | .reversePolarity .. => keeps_reversePolarity
  | .powerCap .. => keeps_powerCap | .domainReady .. => keeps_domainReady | .biasQueueStep .. => keeps_biasQueueStep
  | .biasStep .. => keeps_biasStep | .biasRamp .. => keeps_biasRamp | .hkLatch .. => keeps_hkLatch | .hkConversion .. => keeps_hkConversion
  | .hkRound .. => keeps_hkRound | .hkSuspectTimeout .. => keeps_hkSuspectTimeout | .sensorTyping .. => keeps_sensorTyping
  | .thermalRestart .. => keeps_thermalRestart | .throttleRelease .. => keeps_throttleRelease | .throttleGapStart .. => keeps_throttleGapStart
  | .throttleGapEnd .. => keeps_throttleGapEnd | .ppsFight .. => keeps_ppsFight | .resetPin .. => keeps_resetPin
  | .resetRelease .. => keeps_resetRelease | .boot .. => keeps_boot | .lockstepMismatch .. => keeps_lockstepMismatch
  | .reloadComplete .. => keeps_reloadComplete | .lmsTreeReady .. => keeps_lmsTreeReady | .nvmPageProgram .. => keeps_nvmPageProgram
  | .fwStaged .. => keeps_fwStaged | .fwActivationRestart .. => keeps_fwActivationRestart | .trialLimit .. => keeps_trialLimit
  | .quicksetReport .. => keeps_quicksetReport | .servicePortLink .. => keeps_servicePortLink | .dhcpReply .. => keeps_dhcpReply
  | .refInReturn .. => keeps_refInReturn | .observerFault .. => keeps_observerFault | .eraseComplete .. => keeps_eraseComplete
  | .domainBorrow .. => keeps_domainBorrow | .sportMark .. => keeps_sportMark

/-- A step answers a next state that stands in canonical form, and takes what stands in front of the queue off it. -/
theorem step_keeps (s : State) (h : Canon s.dev) : ∃ s', step s = .next s' ∧ Canon s'.dev ∧ s'.pending = s.pending.tail := by
  cases hp : s.pending with
  | cons c rest =>
    obtain ⟨d, hd, hc⟩ := keeps_exec c { s with pending := rest } h
    exact ⟨{ s with pending := rest, dev := d }, (stepRunsCommand c rest s hp).trans hd, hc, rfl⟩
  | nil =>
    obtain ⟨d, hd, hc⟩ : ∃ d, step s = .next { s with dev := d } ∧ Canon d := by
      cases hm : mailStart s.dev with
      | none => exact ⟨_, step_of_idle hp hm, canon_idle h⟩
      | some next =>
        obtain ⟨d, hd, hc⟩ := keeps_exec next.1 { s with dev := next.2 } (canon_mailStart h hm)
        exact ⟨d, (step_of_mailStart hp hm).trans hd, hc⟩
    exact ⟨{ s with dev := d }, hd, hc, hp⟩

/-- Settles O57, by the canonical form that each command, the start of a waiting command and a tick keep. -/
theorem stepKeepsCanonicalForm : Obligations.StepKeepsCanonicalForm := by
  unfold Obligations.StepKeepsCanonicalForm
  exact step_keeps

/-- Settles O56: no store holds anything yet. -/
theorem resetIsCanonical : Obligations.ResetIsCanonical := by
  unfold Obligations.ResetIsCanonical
  exact ⟨wf_reset, rfl, rfl⟩

end Sys2Proof.Machine
end

section
/-! What the calibration commands and runs do (chapter 12). -/

namespace Sys2Proof.Machine

/-! ### The meaning that `exec` gives each command and happening -/

theorem exec_calConfig (h : Hdr) (kinds dT maxInterval runLimit starveLimit : Nat) (s : State) :
    exec (.calConfig h kinds dT maxInterval runLimit starveLimit) s = execCalConfig h kinds dT maxInterval runLimit starveLimit s := rfl
theorem exec_calRun (h : Hdr) (kinds position : Nat) (s : State) : exec (.calRun h kinds position) s = execCalRun h kinds position s := rfl
theorem exec_calStatus (h : Hdr) (s : State) : exec (.calStatus h) s = execCalStatus h s := rfl
theorem exec_calAbort (h : Hdr) (s : State) : exec (.calAbort h) s = execCalAbort h s := rfl
theorem exec_calTrimGet (h : Hdr) (dir path : Nat) (s : State) : exec (.calTrimGet h dir path) s = execCalTrimGet h dir path s := rfl
theorem exec_calCounters (h : Hdr) (clear : Nat) (s : State) : exec (.calCounters h clear) s = execCalCounters h clear s := rfl
theorem exec_calTableRead (h : Hdr) (profile band : Nat) (s : State) :
    exec (.calTableRead h profile band) s = execCalTableRead h profile band s := rfl
theorem exec_calTableLoad (h : Hdr) (handle : Nat) (s : State) : exec (.calTableLoad h handle) s = execCalTableLoad h handle s := rfl
theorem exec_calSave (h : Hdr) (s : State) : exec (.calSave h) s = execCalSave h s := rfl
theorem exec_otaSet (h : Hdr) (partners : Partners) (s : State) : exec (.otaSet h partners) s = execOtaSet h partners s := rfl
theorem exec_otaGet (h : Hdr) (index : Nat) (s : State) : exec (.otaGet h index) s = execOtaGet h index s := rfl
theorem exec_calStep (s : State) : exec .calStep s = execCalStep s := rfl
theorem exec_calHold (s : State) : exec .calHold s = execCalHold s := rfl
theorem exec_calSolveComplete (results : CalResults) (s : State) :
    exec (.calSolveComplete results) s = execCalSolveComplete results s := rfl
theorem exec_calTrimWrite (s : State) : exec .calTrimWrite s = execCalTrimWrite s := rfl
theorem exec_calRunTimeout (s : State) : exec .calRunTimeout s = execCalRunTimeout s := rfl
theorem exec_calStarved (s : State) : exec .calStarved s = execCalStarved s := rfl
theorem exec_calInterval (s : State) : exec .calInterval s = execCalInterval s := rfl

/-! ### What the checks and the effects read, the packet steps leave -/

@[simp] theorem found_newKinds (d : Dev) (h : Hdr) (mask : Nat) : newKinds (found d h) mask = newKinds d mask := by simp [newKinds]

@[simp] theorem found_runNow (d : Dev) (h : Hdr) : runNow (found d h) = runNow d := by simp [runNow]

/-! ### The commands (R412, R414, R429, R432 to R444) -/

/-- Settles O28. CAL-ABORT turns on whether a run is in progress and on its step, CAL-TABLE-LOAD on its object, which is staged before and
after the packet steps. That a planned step is discarded at once and that an age of never reads all ones are the model's readings
(assumption log, entries 64 and 65). -/
theorem calibrationCommands : Obligations.CalibrationCommands := by
  unfold Obligations.CalibrationCommands
  refine ⟨?config, ?run, ?status, ?abortNone, ?abortPlanned, ?abortBegun, ?trimGet, ?counters, ?tableRead, ?tableLoad, ?save, ?otaSet, ?otaGet⟩
  case config =>
    rintro s h kinds dT maxInterval runLimit starveLimit hs ⟨heven, hkinds, hdT, hdT', hmax, hmax', hrun, hrun', hstarve, hstarve'⟩
    refine completes_eq (exec_calConfig _ _ _ _ _ _ _) hs rfl ?_ rfl
    simp [heven, hkinds, hdT', hmax, hmax', hrun', hstarve', Nat.ne_of_gt hdT, Nat.ne_of_gt hrun, Nat.ne_of_gt hstarve]
  case run =>
    rintro s h kinds position hs ⟨hsome, heven, hkinds, hd3, hd6, hroom⟩
    exact completes_eq (exec_calRun _ _ _ _) hs rfl (by simp [hsome, heven, hkinds, hd3, hd6, hroom]) rfl
  case status =>
    intro s h hs
    exact query_completes (exec_calStatus _ _) hs rfl rfl rfl
  case abortNone =>
    intro s h hs hnone
    exact completes_of (exec_calAbort _ _) hs rfl rfl _ _ (by simp only [found_runNow, hnone]) ⟨rfl, rfl⟩
  case abortPlanned =>
    rintro s h r a hs ⟨hrun, hstep⟩
    exact completes_of (exec_calAbort _ _) hs rfl rfl _ _ (by simp only [found_runNow, found_cal, hrun, hstep]) ⟨rfl, rfl⟩
  case abortBegun =>
    rintro s h r a hs ⟨hrun, hstep⟩
    exact begins_of (exec_calAbort _ _) hs rfl rfl _ { fields := [fld 2 (r.done + 1)] } (by simp only [found_runNow, found_cal, hrun, hstep]) rfl
  case trimGet =>
    rintro s h dir path hs ⟨hdir, hpath⟩
    exact query_completes (exec_calTrimGet _ _ _ _) hs rfl rfl (by simp [hdir, hpath])
  case counters =>
    intro s h clear hs hclear
    exact completes_eq (exec_calCounters _ _ _) hs rfl (by simp [hclear]) rfl
  case tableRead =>
    rintro s h profile band hs ⟨hprofile, hband⟩
    exact completes_eq (exec_calTableRead _ _ _ _) hs rfl (by simp [hprofile, hband]) rfl
  case tableLoad =>
    rintro s h handle o key hs hc ⟨ho, rfl⟩
    have hbytes : objBytes (found s.dev h) handle = o.bytes := objBytes_of_obj (by simpa using ho)
    refine completes_of (exec_calTableLoad _ _ _) hs rfl hc _ _ rfl ⟨?_, rfl⟩
    simp only [hbytes]
  case save =>
    intro s h hs
    exact completes_eq (exec_calSave _ _) hs rfl rfl rfl
  case otaSet =>
    intro s h partners hs hc
    exact completes_eq (exec_otaSet _ _ _) hs rfl hc rfl
  case otaGet =>
    rintro s h index p hs ⟨hindex, rfl⟩
    refine completes_of (exec_otaGet _ _ _) hs rfl (by simp [hindex]) _ _ rfl ⟨rfl, ?_⟩
    simp only [found_cal]
    cases (nth s.dev.cal.partners index).ours <;> cases (nth s.dev.cal.partners index).theirs <;> rfl

/-! ### Steps, results, writes and limits (R415 to R434, R440, R444) -/

/-- A first result without a jump, of which every path was usable, waits for its write and marks no path (R431). -/
theorem settle_of_clean {d : Dev} {results : CalResults} (hjumps : jumpsOf d results = []) (husable : results.unusable = []) :
    execCalSolveComplete.settle d results []
      = onRun (d.onCal fun c => { c with fails := updAll (fun _ b => b) 0 c.fails }) fun r => { r with write := some (results, 1, []) } := by
  simp [execCalSolveComplete.settle, hjumps, husable]

/-- Without a loaded table waiting, none comes into force (R444). -/
theorem useLoaded_of_none {d : Dev} (hload : d.cal.load = none) : useLoaded d = d := by
  simp only [useLoaded, hload]

@[simp] theorem keepTx_runs (d : Dev) (ps : List Nat) : (keepTx d ps).cal.runs = d.cal.runs := by
  unfold keepTx
  induction ps generalizing d with
  | nil => rfl
  | cons p ps ih =>
    rw [List.foldl_cons, ih]
    dsimp only
    split <;> rfl

@[simp] theorem useLoaded_runs (d : Dev) : (useLoaded d).cal.runs = d.cal.runs := by
  unfold useLoaded
  split
  · exact keepTx_runs _ _
  · rfl

/-- Settles O29. CAL_STEP turns on the step planned or begun and on its position; CAL_SOLVE_COMPLETE on whether the first result jumps;
CAL_TRIM_WRITE on what waits for the free span. That a write may fall on any tick with a free span ahead, that a time-out drops a run at once
and that every completed run raises EV_CAL_DONE are the model's readings (assumption log, entries 123, 64 and 65). -/
theorem calibrationRuns : Obligations.CalibrationRuns := by
  unfold Obligations.CalibrationRuns
  refine ⟨?planned, ?begun, ?givenUp, ?ended, ?hold, ?jumped, ?stands, ?written, ?loaded, ?timeout, ?starved, ?interval⟩
  case planned =>
    intro s hstep
    exact happens_eq (exec_calStep _) (by simp only [hstep])
  case begun =>
    rintro s a ⟨hstep, hdue, hopen, hsettled, hgap, hgaps⟩ ⟨hfree, hd3, hd6, hd4⟩
    refine happens_eq (exec_calStep _) ?_
    simp only [hstep, if_neg (Nat.not_lt.mpr hdue)]
    exact if_neg (by simp only [hsettled, hgap, hgaps, hfree, hd3, hd6, hd4]; simpa using hopen)
  case givenUp =>
    rintro s a ⟨hstep, hdue, htaken⟩
    refine happens_eq (exec_calStep _) ?_
    simp only [hstep, if_neg (Nat.not_lt.mpr hdue)]
    exact if_pos (by simp [htaken])
  case ended =>
    rintro s a ⟨hstep, hover⟩
    refine happens_eq (exec_calStep _) ?_
    simp only [hstep, if_neg (Nat.not_lt.mpr hover)]
  case hold =>
    intro s q hdue
    exact happens_eq (exec_calHold _) (stakeAct_due hdue)
  case jumped =>
    rintro s results r l res ⟨hruns, hdone, hwrite, hformer, hd6⟩ rfl hjumps
    refine happens_eq (exec_calSolveComplete _ _) ?_
    have hready : ¬(r.done < stepsOf r.kind ∨ r.write.isSome ∨ domOn s.dev 6 = false) := by simp [hdone, hwrite, hd6]
    simp only [hruns, if_neg hready, hformer]
    exact if_neg (by simpa using hjumps)
  case stands =>
    rintro s results r l res ⟨hruns, hdone, hwrite, hformer, hd6⟩ rfl ⟨hjumps, husable⟩
    refine happens_eq (exec_calSolveComplete _ _) ?_
    have hready : ¬(r.done < stepsOf r.kind ∨ r.write.isSome ∨ domOn s.dev 6 = false) := by simp [hdone, hwrite, hd6]
    simp only [hruns, if_neg hready, hformer]
    exact (if_pos (by simp [hjumps])).trans (settle_of_clean hjumps husable)
  case written =>
    rintro s r l res outcome fails ⟨hidle, hspan, hstep, hload, hruns, hwrite⟩
    refine happens_eq (exec_calTrimWrite _) ((if_neg (by simp [hidle, hspan, hstep])).trans ?_)
    simp only [useLoaded_of_none hload, hruns, hwrite]
    rfl
  case loaded =>
    rintro s key t ⟨hidle, hspan, hstep, hload, hruns⟩
    refine happens_eq (exec_calTrimWrite _) ((if_neg (by simp [hidle, hspan, hstep])).trans ?_)
    have hused : (useLoaded s.dev).cal.runs = [] := by simp [useLoaded_runs, hruns]
    simp only [hused]
    simp only [useLoaded, hload]
  case timeout =>
    rintro s r ⟨hrun, hover, hstep⟩
    refine happens_eq (exec_calRunTimeout _) ?_
    simp only [hrun, if_neg (Nat.not_le.mpr hover), hstep]
  case starved =>
    rintro s r l ⟨hruns, hnew, hstep, hwrite, hleft, hlate⟩
    refine happens_eq (exec_calStarved _) ?_
    simp only [hruns]
    exact if_neg (by simp [hnew, hstep, hwrite, Nat.not_le.mpr hleft, Nat.not_lt.mpr hlate])
  case interval =>
    rintro s t ⟨hsome, hover⟩
    exact happens_eq (exec_calInterval _) (if_pos ⟨by simp [hsome], hover⟩)

end Sys2Proof.Machine
end

section
/-! What the synthesisers' commands (chapter 13) and the memory's commands (chapter 14) do. -/

namespace Sys2Proof.Machine

/-! ### The meaning that `exec` gives each command -/

theorem exec_synStatus (h : Hdr) (s : State) : exec (.synStatus h) s = execSynStatus h s := rfl
theorem exec_profileDefine (h : Hdr) (slot k : Nat) (s : State) : exec (.profileDefine h slot k) s = execProfileDefine h slot k s := rfl
theorem exec_profileSet (h : Hdr) (profile : Nat) (s : State) : exec (.profileSet h profile) s = execProfileSet h profile s := rfl
theorem exec_synPrelock (h : Hdr) (profile : Nat) (s : State) : exec (.synPrelock h profile) s = execSynPrelock h profile s := rfl
theorem exec_synCal (h : Hdr) (mask : Nat) (s : State) : exec (.synCal h mask) s = execSynCal h mask s := rfl
theorem exec_feStateGet (h : Hdr) (path : Nat) (s : State) : exec (.feStateGet h path) s = execFeStateGet h path s := rfl
theorem exec_memStatus (h : Hdr) (s : State) : exec (.memStatus h) s = execMemStatus h s := rfl
theorem exec_memRegionSet (h : Hdr) (region prot : Nat) (s : State) :
    exec (.memRegionSet h region prot) s = execMemRegionSet h region prot s := rfl
theorem exec_memRegionGet (h : Hdr) (s : State) : exec (.memRegionGet h) s = execMemRegionGet h s := rfl
theorem exec_memScrubSet (h : Hdr) (store period : Nat) (s : State) :
    exec (.memScrubSet h store period) s = execMemScrubSet h store period s := rfl
theorem exec_memScrubRange (h : Hdr) (start len : Nat) (s : State) :
    exec (.memScrubRange h start len) s = execMemScrubRange h start len s := rfl
theorem exec_memInject (h : Hdr) (addr kind bit : Nat) (s : State) :
    exec (.memInject h addr kind bit) s = execMemInject h addr kind bit s := rfl
theorem exec_memPortSet (h : Hdr) (port weight assign chan : Nat) (s : State) :
    exec (.memPortSet h port weight assign chan) s = execMemPortSet h port weight assign chan s := rfl
theorem exec_memPortStatus (h : Hdr) (port : Nat) (s : State) : exec (.memPortStatus h port) s = execMemPortStatus h port s := rfl
theorem exec_memSelfrefresh (h : Hdr) (enter autoExit : Nat) (s : State) :
    exec (.memSelfrefresh h enter autoExit) s = execMemSelfrefresh h enter autoExit s := rfl
theorem exec_memRowdisturbSet (h : Hdr) (limit gap cool : Nat) (s : State) :
    exec (.memRowdisturbSet h limit gap cool) s = execMemRowdisturbSet h limit gap cool s := rfl
theorem exec_memCounters (h : Hdr) (store clear : Nat) (s : State) :
    exec (.memCounters h store clear) s = execMemCounters h store clear s := rfl
theorem exec_memSelftestGet (h : Hdr) (s : State) : exec (.memSelftestGet h) s = execMemSelftestGet h s := rfl

/-! ### What the checks and the effects read, the packet steps leave -/

@[simp] theorem found_hopTo (d : Dev) (h : Hdr) (p : Nat) : hopTo (found d h) p = hopTo d p := by simp [hopTo]

@[simp] theorem found_profileNamed (d : Dev) (h : Hdr) (p : Nat) : profileNamed (found d h) p = profileNamed d p := by simp [profileNamed]

/-! ### The synthesisers (R450 to R455, R459, R480) -/

/-- Settles O30. SYN-PRELOCK turns on whether it names a profile, SYN-CAL on the first profile of its mask. That SYN-CAL of no profile
answers 0 is the model's reading (assumption log, entry 66). -/
theorem synthesisCommands : Obligations.SynthesisCommands := by
  unfold Obligations.SynthesisCommands
  refine ⟨?status, ?profileDefine, ?profileSet, ?prelockRelease, ?prelock, ?calNone, ?calFirst, ?feStateGet⟩
  case status =>
    intro s h hs
    exact query_completes (exec_synStatus _ _) hs rfl rfl rfl
  case profileDefine =>
    rintro s h slot k hs ⟨hlo, hhi, hk, hk'⟩ ⟨hactive, hstandby, hhop, hnamed⟩
    refine completes_eq (exec_profileDefine _ _ _ _) hs rfl ?_ rfl
    have hfree : (decide (2 ≤ s.dev.syn.sbState) && s.dev.syn.sbProfile == slot) = false := by
      simpa [Nat.not_le, imp_iff_not_or] using hstandby
    simp only [found_syn, found_hopTo, found_profileNamed, hfree, hhop, hnamed]
    simp [hlo, hhi, hk', Nat.ne_of_gt hk, hactive]
  case profileSet =>
    intro s h profile hs hc
    exact completes_eq (exec_profileSet _ _ _) hs rfl hc rfl
  case prelockRelease =>
    intro s h profile hs hc hoff
    exact completes_eq (exec_synPrelock _ _ _) hs rfl hc (if_pos hoff)
  case prelock =>
    intro s h profile hs hc hnamed
    exact begins_of (exec_synPrelock _ _ _) hs rfl hc _ _ (if_neg hnamed) rfl
  case calNone =>
    intro s h mask hs hc hnone
    exact completes_eq (exec_synCal _ _ _) hs rfl hc (by simp only [hnone])
  case calFirst =>
    intro s h mask p l hs hc hfirst
    exact begins_of (exec_synCal _ _ _) hs rfl hc _ { fields := [fld 1 (l.length + 1)] } (by simp only [hfirst]) rfl
  case feStateGet =>
    intro s h path hs hpath
    exact query_completes (exec_feStateGet _ _ _) hs rfl rfl (by simp [hpath])

/-! ### The memory (R485 to R488, R499 to R514) -/

/-- Settles O34. MEM-REGION-SET turns on whether the region has its protection, loses it or gains it; MEM-INJECT on the kind of failure.
That a double error flips the bit 9 above and that MEM-SCRUB-SET begins the pass anew are the model's readings (assumption log, entries 70
and 71). -/
theorem memoryCommands : Obligations.MemoryCommands := by
  unfold Obligations.MemoryCommands
  refine ⟨?status, ?regionKept, ?regionOpened, ?regionProtected, ?regionGet, ?scrubSet, ?scrubRange, ?inject, ?portSet, ?portStatus,
    ?selfrefresh, ?rowdisturb, ?counters, ?selftest⟩
  case status =>
    intro s h hs
    exact query_completes (exec_memStatus _ _) hs rfl rfl rfl
  case regionKept =>
    intro s h region prot hs hc hsame
    exact completes_eq (F := id) (exec_memRegionSet _ _ _ _) hs rfl hc (if_pos (by rwa [found_mem]))
  case regionOpened =>
    rintro s h region prot hs hc ⟨hprot, rfl⟩
    refine completes_of (exec_memRegionSet _ _ _ _) hs rfl hc _ _ (if_neg (by simp [hprot, b2n])) ⟨rfl, rfl⟩
  case regionProtected =>
    rintro s h region prot hs hc ⟨hprot, rfl⟩
    refine begins_of (exec_memRegionSet _ _ _ _) hs rfl hc _ _ (if_neg (by simp [hprot, b2n])) rfl
  case regionGet =>
    intro s h hs
    exact query_completes (exec_memRegionGet _ _) hs rfl rfl rfl
  case scrubSet =>
    intro s h store period hs hstore
    exact completes_eq (exec_memScrubSet _ _ _ _) hs rfl (by simp [hstore]) rfl
  case scrubRange =>
    intro s h start len n hs hc hstore
    exact begins_eq (exec_memScrubRange _ _ _ _) hs rfl hc (by simp only [hstore])
  case inject =>
    intro s h addr kind bit hs hc
    refine completes_of (exec_memInject _ _ _ _ _) hs rfl hc _ _ rfl ⟨congrArg (Dev.onMem _) (funext fun m => ?_), rfl⟩
    match kind with
    | 0 | 1 | 2 | 3 | _ + 4 => rfl
  case portSet =>
    intro s h port weight assign chan hs hc
    exact completes_eq (exec_memPortSet _ _ _ _ _ _) hs rfl hc rfl
  case portStatus =>
    intro s h port hs hport
    exact completes_eq (exec_memPortStatus _ _ _) hs rfl (by simp [hport]) rfl
  case selfrefresh =>
    rintro s h enter autoExit hs ⟨henter, hexit, hon, hfree⟩
    refine completes_eq (exec_memSelfrefresh _ _ _ _) hs rfl ?_ rfl
    obtain hstay | hidle := hfree
    · simp [hstay, hexit, hon]
    · simp [henter, hexit, hon, hidle]
  case rowdisturb =>
    rintro s h limit gap cool hs ⟨hlimit, hlimit', hgap, hgap', hcool, hcool'⟩
    refine completes_eq (exec_memRowdisturbSet _ _ _ _ _) hs rfl ?_ rfl
    simp [hlimit, hlimit', hgap', hcool', Nat.ne_of_gt hgap, Nat.ne_of_gt hcool]
  case counters =>
    rintro s h store clear hs ⟨hstore, hclear⟩
    exact completes_eq (exec_memCounters _ _ _ _) hs rfl (by simp [hstore, hclear]) rfl
  case selftest =>
    intro s h hs
    exact query_completes (exec_memSelftestGet _ _) hs rfl rfl rfl

end Sys2Proof.Machine
end

section
/-! What the bus matrix and the DMA engine do (chapter 15). -/

namespace Sys2Proof.Machine

/-! ### The meaning that `exec` gives each command and happening -/

theorem exec_fabStatus (h : Hdr) (s : State) : exec (.fabStatus h) s = execFabStatus h s := rfl
theorem exec_fabHoldGet (h : Hdr) (s : State) : exec (.fabHoldGet h) s = execFabHoldGet h s := rfl
theorem exec_fabPrioSet (h : Hdr) (master prio age : Nat) (s : State) :
    exec (.fabPrioSet h master prio age) s = execFabPrioSet h master prio age s := rfl
theorem exec_fabTimingSet (h : Hdr) (target timeout drain : Nat) (s : State) :
    exec (.fabTimingSet h target timeout drain) s = execFabTimingSet h target timeout drain s := rfl
theorem exec_fabTargetReset (h : Hdr) (target : Nat) (s : State) : exec (.fabTargetReset h target) s = execFabTargetReset h target s := rfl
theorem exec_fabRecover (h : Hdr) (s : State) : exec (.fabRecover h) s = execFabRecover h s := rfl
theorem exec_fabCounters (h : Hdr) (clear : Nat) (s : State) : exec (.fabCounters h clear) s = execFabCounters h clear s := rfl
theorem exec_fabricRequest (req : FabReq) (s : State) : exec (.fabricRequest req) s = execFabricRequest req s := rfl
theorem exec_ageLimit (master : Nat) (s : State) : exec (.ageLimit master) s = execAgeLimit master s := rfl
theorem exec_lockTimeout (target : Nat) (s : State) : exec (.lockTimeout target) s = execLockTimeout target s := rfl
theorem exec_targetTimeout (target master : Nat) (s : State) :
    exec (.targetTimeout target master) s = execTargetTimeout target master s := rfl
theorem exec_matrixHang (s : State) : exec .matrixHang s = execMatrixHang s := rfl
theorem exec_recoveryExit (pass : Bool) (s : State) : exec (.recoveryExit pass) s = execRecoveryExit pass s := rfl
theorem exec_fabMode (s : State) : exec .fabMode s = execFabMode s := rfl
theorem exec_masterReset (master : Nat) (inProgress : Bool) (s : State) :
    exec (.masterReset master inProgress) s = execMasterReset master inProgress s := rfl
theorem exec_fabricDrainComplete (dom : Nat) (s : State) : exec (.fabricDrainComplete dom) s = execFabricDrainComplete dom s := rfl
theorem exec_drainLimit (dom writes first : Nat) (s : State) :
    exec (.drainLimit dom writes first) s = execDrainLimit dom writes first s := rfl
theorem exec_dmaRun (h : Hdr) (chan : Nat) (descs : Descs) (s : State) : exec (.dmaRun h chan descs) s = execDmaRun h chan descs s := rfl
theorem exec_dmaChStatus (h : Hdr) (chan : Nat) (s : State) : exec (.dmaChStatus h chan) s = execDmaChStatus h chan s := rfl
theorem exec_dmaChStop (h : Hdr) (chan : Nat) (s : State) : exec (.dmaChStop h chan) s = execDmaChStop h chan s := rfl
theorem exec_dmaChAssign (h : Hdr) (chan core : Nat) (s : State) : exec (.dmaChAssign h chan core) s = execDmaChAssign h chan core s := rfl
theorem exec_dmaChDoorbell (chan : Nat) (s : State) : exec (.dmaChDoorbell chan) s = execDmaChDoorbell chan s := rfl
theorem exec_channelEnable (chan : Nat) (s : State) : exec (.channelEnable chan) s = execChannelEnable chan s := rfl
theorem exec_channelDisable (chan : Nat) (s : State) : exec (.channelDisable chan) s = execChannelDisable chan s := rfl
theorem exec_descriptorFetch (chan : Nat) (s : State) : exec (.descriptorFetch chan) s = execDescriptorFetch chan s := rfl
theorem exec_dmaBurst (chan : Nat) (s : State) : exec (.dmaBurst chan) s = execDmaBurst chan s := rfl
theorem exec_descriptorComplete (chan : Nat) (s : State) : exec (.descriptorComplete chan) s = execDescriptorComplete chan s := rfl
theorem exec_registerWrite (addr value : Nat) (s : State) : exec (.registerWrite addr value) s = execRegisterWrite addr value s := rfl

/-! ### The commands of the matrix (R523 to R534, R551) -/

/-- Settles O36. Each command's checks are on its arguments, and FAB-RECOVER's on the layer in force. -/
theorem matrixCommands : Obligations.MatrixCommands := by
  unfold Obligations.MatrixCommands
  refine ⟨?status, ?holdGet, ?prioSet, ?timingSet, ?targetReset, ?recover, ?counters⟩
  case status =>
    intro s h hs
    exact query_completes (exec_fabStatus _ _) hs rfl rfl rfl
  case holdGet =>
    intro s h hs
    exact query_completes (exec_fabHoldGet _ _) hs rfl rfl rfl
  case prioSet =>
    rintro s h master prio age hs ⟨hmaster, hage, hage'⟩
    exact completes_eq (exec_fabPrioSet _ _ _ _ _) hs rfl (by simp [hmaster, hage, hage']) rfl
  case timingSet =>
    rintro s h target timeout drain hs ⟨htarget, htimeout, htimeout', hdrain, hdrain'⟩
    refine completes_eq (exec_fabTimingSet _ _ _ _ _) hs rfl ?_ rfl
    simp [htarget, htimeout', hdrain', Nat.ne_of_gt htimeout, Nat.ne_of_gt hdrain]
  case targetReset =>
    intro s h target hs htarget
    exact completes_eq (exec_fabTargetReset _ _ _) hs rfl (by simp [htarget]) rfl
  case recover =>
    intro s h hs hlayer
    exact begins_eq (exec_fabRecover _ _) hs rfl (by simp [hlayer]) rfl
  case counters =>
    intro s h clear hs hclear
    exact completes_eq (exec_fabCounters _ _ _) hs rfl (by simp [hclear]) rfl

/-! ### Requests, locks, recovery and drains (R519 to R535, R594) -/

/-- A request that its master may issue, and that none held back stands for, enters the matrix (R519, R534). -/
theorem fabricRequest_issues {s : State} {req : FabReq} {F : Dev → Dev}
    (hmay : 0 < req.len ∧ req.len ≤ 4096 ∧ req.master ≤ 14 ∧ domOn s.dev (masterDomain req.master) = true ∧ closed s.dev (masterDomain req.master) = false)
    (hnew : (s.dev.fab.waiting.any fun w => w.imposed && w.req == { req with hold := w.req.hold }) = false)
    (hf : fabIssue s.dev req = F s.dev) : happens (.fabricRequest req) s fun d d' => d' = F d := by
  obtain ⟨hsome, hlen, hmaster, hon, hopen⟩ := hmay
  refine happens_eq (exec_fabricRequest _ _) ((if_neg ?_).trans ((if_neg ?_).trans hf))
  · simp [Nat.ne_of_gt hsome, Nat.not_lt.mpr hlen, Nat.not_lt.mpr hmaster, hon, hopen]
  · simp [hnew]

/-- A domain's step at hand, drained, is cut; with D1 the unit goes to HOLD (R32, R594). -/
theorem cutStep_of_closed {d : Dev} {dom : Nat} (hstep : d.pwr.steps.head? = some (dom, false)) (hclosed : closed d dom = true) :
    cutStep d dom = if dom = 1 then toHold d else stepDone (cutDomain d dom) :=
  if_pos ⟨hstep, hclosed⟩

/-- Settles O37. A request turns on how the matrix takes it: with an error, held, or served; the others on the one condition that each
looks at. -/
theorem matrixRequests : Obligations.MatrixRequests := by
  unfold Obligations.MatrixRequests
  refine ⟨?refused, ?held, ?served, ?age, ?lockTimeout, ?targetTimeout, ?hang, ?exit, ?mode, ?reset, ?cut, ?cutAll, ?cutOther, ?limit⟩
  case refused =>
    intro s req k hmay hnew htake
    exact fabricRequest_issues hmay hnew (by simp only [fabIssue, htake]; rfl)
  case held =>
    intro s req k t hmay hnew htake
    exact fabricRequest_issues hmay hnew (by simp only [fabIssue, htake])
  case served =>
    rintro s req t hmay hnew ⟨htake, hlock⟩
    refine fabricRequest_issues hmay hnew ?_
    simp only [fabIssue, htake, answer, hlock]
    rfl
  case age =>
    intro s master
    exact happens_eq (exec_ageLimit _ _) rfl
  case lockTimeout =>
    rintro s target m b since ⟨hlock, hover⟩
    refine happens_eq (exec_lockTimeout _ _) ?_
    simp only [hlock]
    exact if_neg (Nat.not_lt.mpr hover)
  case targetTimeout =>
    rintro s target master w ⟨htarget, hwell⟩ hwaits
    refine happens_eq (exec_targetTimeout _ _ _) ((if_neg (by simp [htarget, hwell])).trans ?_)
    simp only [hwaits]
  case hang =>
    rintro s ⟨hlayer, hgrant, hwaits⟩
    exact happens_eq (exec_matrixHang _) (if_pos ⟨hlayer, hgrant, hwaits⟩)
  case exit =>
    rintro s pass ⟨hlayer, rfl⟩
    exact happens_eq (exec_recoveryExit _ _) (if_neg (by simp [hlayer]))
  case mode =>
    intro s
    exact happens_eq (exec_fabMode _) (by simp [writeFabMode])
  case reset =>
    intro s master inProgress hmaster
    exact happens_eq (exec_masterReset _ _ _) (if_neg (Nat.not_lt.mpr hmaster))
  case cut =>
    rintro s dom ⟨hstep, hclosed, hother⟩
    exact happens_eq (exec_fabricDrainComplete _ _) ((cutStep_of_closed hstep hclosed).trans (if_neg hother))
  case cutAll =>
    rintro s dom ⟨hstep, hclosed, hd1⟩
    exact happens_eq (exec_fabricDrainComplete _ _) ((cutStep_of_closed hstep hclosed).trans (if_pos hd1))
  case cutOther =>
    intro s dom hstep
    exact happens_eq (F := id) (exec_fabricDrainComplete _ _) (if_neg fun h => hstep h.1)
  case limit =>
    intro s dom writes first hover
    exact happens_eq (exec_drainLimit _ _ _ _) (if_pos hover)

/-! ### Writes with every byte enable clear (R522) -/

/-- The mask of enabled bytes where none is enabled. -/
theorem mask_of_all_off {on : Nat → Bool} {n : Nat} (hoff : ∀ i, on i = false) :
    ((List.range n).map fun i => if on i then 2 ^ i else 0).sum = 0 := by
  simp [hoff]

/-- A fold whose every step keeps the unit keeps it. -/
theorem foldl_fixed {α β : Type} {f : α → β → α} {l : List β} {a : α} (hf : ∀ b, f a b = a) : l.foldl f a = a := by
  induction l with
  | nil => rfl
  | cons b l ih => rw [List.foldl_cons, hf, ih]

theorem writeWord_mask_zero (d : Dev) (a w : Nat) (thorn : Bool) : writeWord d a w 0 thorn = d := by
  unfold writeWord
  split
  · rfl
  · simp

theorem writeReg_mask_zero (d : Dev) (a v : Nat) : writeReg d a v 0 = d := by
  unfold writeReg
  split <;> simp

/-- A span of which no byte is enabled is not written. -/
theorem writeSpan_all_off (d : Dev) (a : Nat) (bytes th off : List Nat) (hoff : ∀ i, i < bytes.length → i ∈ off) :
    writeSpan d a bytes th off = d := by
  refine foldl_fixed fun k => ?_
  dsimp only
  rw [mask_of_all_off fun i => ?_]
  · exact writeWord_mask_zero _ _ _ _
  · simpa using fun _ h => hoff _ h

/-- Settles O59: in a store each word's mask is empty, in the register window each register's, and the other targets take no writes. -/
theorem byteEnablesClear : Obligations.ByteEnablesClear := by
  unfold Obligations.ByteEnablesClear
  intro d t r hwrite hoff
  unfold perform
  rw [hwrite]
  split
  case h_1 =>
    refine Prod.ext rfl (foldl_fixed fun w => ?_)
    dsimp only
    rw [mask_of_all_off fun i => ?_]
    · exact writeReg_mask_zero _ _ _
    · simpa using fun _ h => hoff _ (by omega)
  case h_6 => exact Prod.ext rfl (writeSpan_all_off _ _ _ _ _ hoff)
  all_goals simp_all

/-! ### The DMA engine (R536 to R552) -/

/-- A descriptor on a channel without interrupts, whose write-back it does not ask for, leaves the unit as it is (R543). -/
theorem writeBack_of_unasked {d : Dev} {n code : Nat} {done : Bool} {x : Desc} (hx : (nth d.dma n).fetched = some x)
    (hunasked : x.ctl.testBit 16 = false) : writeBack d n code done = d := by
  simp [writeBack, hx, hunasked]

/-- A channel that runs and waits for its next descriptor fetches it (R546). -/
theorem descriptorFetch_fetches {s : State} {chan : Nat} {rel : Dev → Dev → Prop}
    (hwaits : (nth s.dev.dma chan).enable = true ∧ (nth s.dev.dma chan).st = 1 ∧ (nth s.dev.dma chan).reread = false)
    (hr : rel s.dev (fetchDesc s.dev chan)) : happens (.descriptorFetch chan) s rel := by
  obtain ⟨hon, hst, hlink⟩ := hwaits
  refine onDev_happens (exec_descriptorFetch _ _) ?_
  simpa [hon, hst, hlink] using hr

/-- A descriptor that asks for no checksum to be stored completes (R542, R545). -/
theorem descriptorComplete_completes {s : State} {chan : Nat} {x : Desc} {F : Dev → Dev}
    (hdone : (nth s.dev.dma chan).fetched = some x ∧ (nth s.dev.dma chan).enable = true ∧ (nth s.dev.dma chan).st = 2 ∧ x.n2 ≤ (nth s.dev.dma chan).i2)
    (hsum : x.ctl.testBit 18 = false) (hirq : x.ctl.testBit 23 = false)
    (hf : descNext ((writeBack s.dev chan 0 true).onChan chan fun c => { c with
      last := 0, descCount := (c.descCount + 1) % 65536, full := c.full || false }) chan (nth s.dev.dma chan) x = F s.dev) :
    happens (.descriptorComplete chan) s fun d d' => d' = F d := by
  obtain ⟨hx, hon, hst, hmoved⟩ := hdone
  refine happens_eq (exec_descriptorComplete _ _) (Eq.trans ?_ hf)
  simp only [hx, hon, hst, hsum, hirq]
  simp [Nat.not_lt.mpr hmoved]

/-- Settles O38. DMA-RUN turns on whether a host channel is free, a fetch on where the channel may read and on whether the descriptor is
valid, a completion on the link. Where Ribel holds a host's descriptors and the free time to retry are the model's (assumption log, entries 77
and 76). -/
theorem dmaChannels : Obligations.DmaChannels := by
  unfold Obligations.DmaChannels
  refine ⟨?run, ?runBusy, ?status, ?stop, ?assign, ?doorbell, ?enable, ?disable, ?fetchForbidden, ?fetchInvalid, ?fetchValid, ?burst,
    ?completeLinked, ?completeParks, ?write, ?writeOff⟩
  case run =>
    rintro s h chan descs hs ⟨hlo, hhi, hsome, hlen, hok, hlayer⟩ ⟨hfree, hany⟩
    refine completes_eq (exec_dmaRun _ _ _ _) hs rfl ?_ ?_
    · simp only [found_fab, found_dma, hsome, hok, hlayer, hfree, hany]
      simp [hlo, hhi, hlen]
    · simp only [found_dma, hany]
      rfl
  case runBusy =>
    rintro s h chan descs hs ⟨hlo, hhi, hsome, hlen, hok, hlayer⟩ hbusy
    rw [exec_dmaRun]
    refine (hostCmd_starts _ _ _ _ _ _ hs rfl ?_).trans ?_
    · simp only [found_fab, found_dma, hsome, hok, hlayer, hbusy]
      simp [hlo, hhi, hlen]
    · simp only [found_dma, hbusy, Dev.fresh, found_free]
      rfl
  case status =>
    intro s h chan hs hchan
    exact query_completes (exec_dmaChStatus _ _ _) hs rfl rfl (by simp [hchan])
  case stop =>
    rintro s h chan hs ⟨hchan, hhost⟩
    exact completes_eq (exec_dmaChStop _ _ _) hs rfl (by simp [hchan, hhost]) rfl
  case assign =>
    rintro s h chan core hs ⟨hlo, hhi, hcore, hoff⟩
    refine completes_eq (exec_dmaChAssign _ _ _ _) hs rfl ?_ rfl
    obtain rfl | ⟨hcore, hcore'⟩ := hcore
    · simp [hlo, hhi, hoff]
    · simp [hlo, hhi, hoff, hcore, hcore']
  case doorbell =>
    intro s chan
    exact happens_eq (exec_dmaChDoorbell _ _) rfl
  case enable =>
    intro s chan hoff
    exact happens_eq (exec_channelEnable _ _) (if_neg (by simp [hoff]))
  case disable =>
    rintro s chan ⟨hon, hidle, hhost⟩
    refine happens_eq (exec_channelDisable _ _) ?_
    simp only [chanDisable, hon, if_neg hidle, if_pos hhost]
    rfl
  case fetchForbidden =>
    intro s chan hwaits hforbidden
    exact descriptorFetch_fetches hwaits (by simp [fetchDesc, hforbidden])
  case fetchInvalid =>
    rintro s chan r e hwaits hmay ⟨hread, hinvalid, hclean⟩
    exact descriptorFetch_fetches hwaits (by simp [fetchDesc, hmay, hread, hinvalid, hclean])
  case fetchValid =>
    rintro s chan r e hwaits hmay ⟨hread, hvalid, hclean⟩
    exact descriptorFetch_fetches hwaits (by simp [fetchDesc, hmay, hread, hvalid, hclean])
  case burst =>
    rintro s chan x a b n r w e f g ⟨hx, hon, hst, hleft, hturn⟩ hburst ⟨hmayRead, hmayWrite⟩ ⟨rfl, hread, hclean⟩ hwrite hirq
    refine onDev_happens (exec_dmaBurst _ _) ?_
    simp only [hx, hburst]
    rw [if_neg (by simp [hon, hst, hturn, Nat.not_le.mpr hleft]), if_neg (by simp [hmayRead, hmayWrite])]
    simp only [hread, hclean]
    simp [hwrite, hirq]
  case completeLinked =>
    rintro s chan x hdone ⟨hsum, hirq, hlink⟩
    exact descriptorComplete_completes hdone hsum hirq (if_pos hlink)
  case completeParks =>
    rintro s chan x hdone ⟨hsum, hirq, hlast⟩ ⟨hhost, hunasked, hrung⟩
    refine descriptorComplete_completes hdone hsum hirq ?_
    rw [writeBack_of_unasked hdone.1 hunasked]
    simp [descNext, hlast, hhost, hrung]
  case write =>
    intro s addr value hon
    exact happens_eq (exec_registerWrite _ _ _) (if_pos hon)
  case writeOff =>
    intro s addr value hoff
    exact happens_eq (F := id) (exec_registerWrite _ _ _) (if_neg (Bool.eq_false_iff.mp hoff))

end Sys2Proof.Machine
end

section
/-! What the operations of a bundle's MAC and ALU slots do (chapter 16). -/

namespace Sys2Proof.Machine

/-! ### The meaning that `exec` gives each operation -/

theorem exec_macNop (core : Nat) (s : State) : exec (.macNop core) s = execMacNop core s := rfl
theorem exec_mul (core a x y cj : Nat) (s : State) : exec (.mul core a x y cj) s = execMul core a x y cj s := rfl
theorem exec_mac (core a x y cj : Nat) (s : State) : exec (.mac core a x y cj) s = execMac core a x y cj s := rfl
theorem exec_msu (core a x y cj : Nat) (s : State) : exec (.msu core a x y cj) s = execMsu core a x y cj s := rfl
theorem exec_aclr (core a : Nat) (s : State) : exec (.aclr core a) s = execAclr core a s := rfl
theorem exec_amov (core a y : Nat) (s : State) : exec (.amov core a y) s = execAmov core a y s := rfl
theorem exec_aadd (core a y : Nat) (s : State) : exec (.aadd core a y) s = execAadd core a y s := rfl
theorem exec_ashr (core a k : Nat) (s : State) : exec (.ashr core a k) s = execAshr core a k s := rfl
theorem exec_ashl (core a k : Nat) (s : State) : exec (.ashl core a k) s = execAshl core a k s := rfl
theorem exec_ald (core a x k : Nat) (s : State) : exec (.ald core a x k) s = execAld core a x k s := rfl
theorem exec_rnd (core a x k : Nat) (s : State) : exec (.rnd core a x k) s = execRnd core a x k s := rfl
theorem exec_anorm (core a x : Nat) (s : State) : exec (.anorm core a x) s = execAnorm core a x s := rfl
theorem exec_aexp (core a : Nat) (s : State) : exec (.aexp core a) s = execAexp core a s := rfl
theorem exec_aluNop (core : Nat) (s : State) : exec (.aluNop core) s = execAluNop core s := rfl
theorem exec_addl (core d ra rb : Nat) (s : State) : exec (.addl core d ra rb) s = execAddl core d ra rb s := rfl
theorem exec_subl (core d ra rb : Nat) (s : State) : exec (.subl core d ra rb) s = execSubl core d ra rb s := rfl
theorem exec_negl (core d ra : Nat) (s : State) : exec (.negl core d ra) s = execNegl core d ra s := rfl
theorem exec_conj (core d ra : Nat) (s : State) : exec (.conj core d ra) s = execConj core d ra s := rfl
theorem exec_swap (core d ra : Nat) (s : State) : exec (.swap core d ra) s = execSwap core d ra s := rfl
theorem exec_shrl (core d ra k : Nat) (s : State) : exec (.shrl core d ra k) s = execShrl core d ra k s := rfl
theorem exec_shll (core d ra k : Nat) (s : State) : exec (.shll core d ra k) s = execShll core d ra k s := rfl
theorem exec_shrv (core d ra rb : Nat) (s : State) : exec (.shrv core d ra rb) s = execShrv core d ra rb s := rfl
theorem exec_addw (core d ra rb : Nat) (s : State) : exec (.addw core d ra rb) s = execAddw core d ra rb s := rfl
theorem exec_subw (core d ra rb : Nat) (s : State) : exec (.subw core d ra rb) s = execSubw core d ra rb s := rfl
theorem exec_and (core d ra rb : Nat) (s : State) : exec (.and core d ra rb) s = execAnd core d ra rb s := rfl
theorem exec_or (core d ra rb : Nat) (s : State) : exec (.or core d ra rb) s = execOr core d ra rb s := rfl
theorem exec_xor (core d ra rb : Nat) (s : State) : exec (.xor core d ra rb) s = execXor core d ra rb s := rfl
theorem exec_mov (core d ra : Nat) (s : State) : exec (.mov core d ra) s = execMov core d ra s := rfl
theorem exec_norm (core d ra : Nat) (s : State) : exec (.norm core d ra) s = execNorm core d ra s := rfl
theorem exec_exp (core ra : Nat) (s : State) : exec (.exp core ra) s = execExp core ra s := rfl
theorem exec_expc (core : Nat) (s : State) : exec (.expc core) s = execExpc core s := rfl
theorem exec_cmplt (core ra rb : Nat) (s : State) : exec (.cmplt core ra rb) s = execCmplt core ra rb s := rfl
theorem exec_cmpeq (core ra rb : Nat) (s : State) : exec (.cmpeq core ra rb) s = execCmpeq core ra rb s := rfl
theorem exec_lil (core d : Nat) (imm : Int) (s : State) : exec (.lil core d imm) s = execLil core d imm s := rfl
theorem exec_lis (core d : Nat) (imm : Int) (s : State) : exec (.lis core d imm) s = execLis core d imm s := rfl
theorem exec_addi (core d : Nat) (imm : Int) (s : State) : exec (.addi core d imm) s = execAddi core d imm s := rfl
theorem exec_mvts (core ra sr : Nat) (s : State) : exec (.mvts core ra sr) s = execMvts core ra sr s := rfl
theorem exec_mvfs (core d sr : Nat) (s : State) : exec (.mvfs core d sr) s = execMvfs core d sr s := rfl
theorem exec_jmp (core tgt : Nat) (s : State) : exec (.jmp core tgt) s = execJmp core tgt s := rfl
theorem exec_jf (core tgt : Nat) (s : State) : exec (.jf core tgt) s = execJf core tgt s := rfl
theorem exec_jnf (core tgt : Nat) (s : State) : exec (.jnf core tgt) s = execJnf core tgt s := rfl
theorem exec_call (core tgt : Nat) (s : State) : exec (.call core tgt) s = execCall core tgt s := rfl
theorem exec_ret (core : Nat) (s : State) : exec (.ret core) s = execRet core s := rfl
theorem exec_reti (core : Nat) (s : State) : exec (.reti core) s = execReti core s := rfl
theorem exec_loop (core level tgt : Nat) (s : State) : exec (.loop core level tgt) s = execLoop core level tgt s := rfl
theorem exec_loopx (core level : Nat) (s : State) : exec (.loopx core level) s = execLoopx core level s := rfl
theorem exec_ei (core : Nat) (s : State) : exec (.ei core) s = execEi core s := rfl
theorem exec_di (core : Nat) (s : State) : exec (.di core) s = execDi core s := rfl
theorem exec_wait (core : Nat) (s : State) : exec (.wait core) s = execWait core s := rfl
theorem exec_waitx (core : Nat) (s : State) : exec (.waitx core) s = execWaitx core s := rfl
theorem exec_halt (core : Nat) (s : State) : exec (.halt core) s = execHalt core s := rfl
theorem exec_trap (core : Nat) (imm : Int) (s : State) : exec (.trap core imm) s = execTrap core imm s := rfl
theorem exec_interruptEntry (core : Nat) (s : State) : exec (.interruptEntry core) s = execInterruptEntry core s := rfl

/-! ### The MAC slot (R563, R566 to R570, R572) -/

/-- Settles O39. What an operation stages depends on no part of the core that the fetch of its bundle changes. That ACLR's result takes 3
bundles is the model's reading (R572 names no latency for it), and a shift beyond the width gives what the exact arithmetic gives (assumption
log, entry 125). -/
theorem macSlotOperations : Obligations.MacSlotOperations := by
  unfold Obligations.MacSlotOperations
  exact ⟨
    fun _ _ h => happens_mac (exec_macNop _ _) (fun _ _ => rfl) h,
    fun _ _ _ _ _ _ h => happens_mac (exec_mul _ _ _ _ _ _) (fun _ _ => rfl) h,
    fun _ _ _ _ _ _ h => happens_mac (exec_mac _ _ _ _ _ _) (fun _ _ => rfl) h,
    fun _ _ _ _ _ _ h => happens_mac (exec_msu _ _ _ _ _ _) (fun _ _ => rfl) h,
    fun _ _ _ h => happens_mac (exec_aclr _ _ _) (fun _ _ => rfl) h,
    fun _ _ _ _ h => happens_mac (exec_amov _ _ _ _) (fun _ _ => rfl) h,
    fun _ _ _ _ h => happens_mac (exec_aadd _ _ _ _) (fun _ _ => rfl) h,
    fun _ _ _ _ h => happens_mac (exec_ashr _ _ _ _) (fun _ _ => rfl) h,
    fun _ _ _ _ h => happens_mac (exec_ashl _ _ _ _) (fun _ _ => rfl) h,
    fun _ _ _ _ _ h => happens_mac (exec_ald _ _ _ _ _) (fun _ _ => rfl) h,
    fun _ _ _ _ _ h => happens_mac (exec_rnd _ _ _ _ _) (fun _ _ => rfl) h,
    fun _ _ _ _ h => happens_mac (exec_anorm _ _ _ _) (fun _ _ => rfl) h,
    fun _ _ _ h => happens_mac (exec_aexp _ _ _) (fun _ _ => rfl) h⟩

/-! ### The ALU slot (R564, R569, R570, R572, R574 to R579) -/

/-- Settles O40: each operation stages what its row gives. The latency of a move to LNK and shifts by 16 to 31 are the model's readings
(assumption log, entries 81 and 82). -/
theorem aluArithmetic : Obligations.AluArithmetic := by
  unfold Obligations.AluArithmetic
  exact ⟨
    fun _ _ h => happens_alu (exec_aluNop _ _) h,
    fun _ _ _ _ _ h => happens_alu (exec_addl _ _ _ _ _) h,
    fun _ _ _ _ _ h => happens_alu (exec_subl _ _ _ _ _) h,
    fun _ _ _ _ h => happens_alu (exec_negl _ _ _ _) h,
    fun _ _ _ _ h => happens_alu (exec_conj _ _ _ _) h,
    fun _ _ _ _ h => happens_alu (exec_swap _ _ _ _) h,
    fun _ _ _ _ _ h => happens_alu (exec_shrl _ _ _ _ _) h,
    fun _ _ _ _ _ h => happens_alu (exec_shll _ _ _ _ _) h,
    fun _ _ _ _ _ h => happens_alu (exec_shrv _ _ _ _ _) h,
    fun _ _ _ _ _ h => happens_alu (exec_addw _ _ _ _ _) h,
    fun _ _ _ _ _ h => happens_alu (exec_subw _ _ _ _ _) h,
    fun _ _ _ _ _ h => happens_alu (exec_and _ _ _ _ _) h,
    fun _ _ _ _ _ h => happens_alu (exec_or _ _ _ _ _) h,
    fun _ _ _ _ _ h => happens_alu (exec_xor _ _ _ _ _) h,
    fun _ _ _ _ h => happens_alu (exec_mov _ _ _ _) h,
    fun _ _ _ _ h => happens_alu (exec_norm _ _ _ _) h,
    fun _ _ _ h => happens_alu (exec_exp _ _ _) h,
    fun _ _ h => happens_alu (exec_expc _ _) h,
    fun _ _ _ _ h => happens_alu (exec_cmplt _ _ _ _) h,
    fun _ _ _ _ h => happens_alu (exec_cmpeq _ _ _ _) h,
    fun _ _ _ _ h => happens_alu (exec_lil _ _ _ _) h,
    fun _ _ _ _ h => happens_alu (exec_lis _ _ _ _) h,
    fun _ _ _ _ h => happens_alu (exec_addi _ _ _ _) h,
    fun _ _ _ _ h => happens_alu (exec_mvts _ _ _ _) h,
    fun _ _ _ _ h => happens_alu (exec_mvfs _ _ _ _) h⟩

/-- Settles O41: each operation stages its branch or its flags; TRAP and the entry of an interrupt act at once. When CALL's LNK is seen and
when EI and DI act are the model's readings (assumption log, entry 81). -/
theorem aluControl : Obligations.AluControl := by
  unfold Obligations.AluControl
  refine ⟨
    fun _ _ _ h => happens_alu (exec_jmp _ _ _) h,
    fun _ _ _ h => happens_alu (exec_jf _ _ _) h,
    fun _ _ _ h => happens_alu (exec_jnf _ _ _) h,
    fun _ _ _ h => happens_alu (exec_call _ _ _) h,
    fun _ _ h => happens_alu (exec_ret _ _) h,
    fun _ _ h => happens_alu (exec_reti _ _) h,
    fun _ _ _ _ h => happens_alu (exec_loop _ _ _ _) h,
    fun _ _ _ h => happens_alu (exec_loopx _ _ _) h,
    fun _ _ h => happens_alu (exec_ei _ _) h,
    fun _ _ h => happens_alu (exec_di _ _) h,
    fun _ _ h => happens_alu (exec_wait _ _) h,
    fun _ _ h => happens_alu (exec_waitx _ _) h,
    fun _ _ h => happens_alu (exec_halt _ _) h,
    ?trap, ?entry⟩
  case trap =>
    intro s core imm h
    obtain ⟨htakes, hslot⟩ := Bool.and_eq_true_iff.mp h
    exact happens_eq (exec_trap _ _ _) (if_neg (by simp [htakes, hslot]))
  case entry =>
    rintro s core ⟨htakes, hdue⟩
    exact happens_eq (exec_interruptEntry _ _) (if_pos (by simp [htakes, hdue]))

end Sys2Proof.Machine
end

section
/-! What the I/O space of a core and the applet commands do (chapter 16). -/

namespace Sys2Proof.Machine

/-! ### The meaning that `exec` gives each operation and command -/

theorem exec_iord (core z : Nat) (off : Int) (s : State) : exec (.iord core z off) s = execIord core z off s := rfl
theorem exec_iowr (core z : Nat) (off : Int) (s : State) : exec (.iowr core z off) s = execIowr core z off s := rfl
theorem exec_axisLo (core z : Nat) (s : State) : exec (.axisLo core z) s = execAxisLo core z s := rfl
theorem exec_cycLo (core z : Nat) (s : State) : exec (.cycLo core z) s = execCycLo core z s := rfl
theorem exec_sportDataPop (core z : Nat) (s : State) : exec (.sportDataPop core z) s = execSportDataPop core z s := rfl
theorem exec_wdt (core value : Nat) (s : State) : exec (.wdt core value) s = execWdt core value s := rfl
theorem exec_msgSend (core value : Nat) (s : State) : exec (.msgSend core value) s = execMsgSend core value s := rfl
theorem exec_sportDataPush (core value : Nat) (s : State) : exec (.sportDataPush core value) s = execSportDataPush core value s := rfl
theorem exec_appletLoad (h : Hdr) (handle core : Nat) (bases : List Nat) (hss : Bool) (s : State) :
    exec (.appletLoad h handle core bases hss) s = execAppletLoad h handle core bases hss s := rfl
theorem exec_appletStart (h : Hdr) (core : Nat) (s : State) : exec (.appletStart h core) s = execAppletStart h core s := rfl
theorem exec_appletStop (h : Hdr) (core : Nat) (s : State) : exec (.appletStop h core) s = execAppletStop h core s := rfl
theorem exec_appletUnload (h : Hdr) (core : Nat) (s : State) : exec (.appletUnload h core) s = execAppletUnload h core s := rfl
theorem exec_appletStatus (h : Hdr) (core : Nat) (s : State) : exec (.appletStatus h core) s = execAppletStatus h core s := rfl
theorem exec_appletMsg (h : Hdr) (core : Nat) (msg : List Nat) (s : State) :
    exec (.appletMsg h core msg) s = execAppletMsg h core msg s := rfl
theorem exec_appletMemRead (h : Hdr) (core offset len : Nat) (s : State) :
    exec (.appletMemRead h core offset len) s = execAppletMemRead h core offset len s := rfl
theorem exec_appletMemWrite (h : Hdr) (core offset : Nat) (data : List Nat) (s : State) :
    exec (.appletMemWrite h core offset data) s = execAppletMemWrite h core offset data s := rfl
theorem exec_coreStatus (h : Hdr) (s : State) : exec (.coreStatus h) s = execCoreStatus h s := rfl
theorem exec_appletCounters (h : Hdr) (core clear : Nat) (s : State) :
    exec (.appletCounters h core clear) s = execAppletCounters h core clear s := rfl

/-! ### The I/O space (R555, R565, R576, R578, R583) -/

/-- An I/O read of a register outside the windows of the channels returns its word (R578). -/
theorem happens_ioRead {i : Instr} {s : State} {core z : Nat} {o : Int} {v : Dev → Nat} {e : Dev → Dev}
    (he : exec i s = runIoRead core z o (fun _ => true) s) (h : lsNext s.dev core [(18, 4, 0xB), (13, 5, z), (0, 9, ofSigned 9 o)] = true)
    (ho : 0 ≤ o) (hchan : ¬(0x100 ≤ o.toNat * 4 ∧ o.toNat * 4 < 0x180)) (hr : ioRead s.dev core (o.toNat * 4) = some (v s.dev, e s.dev)) :
    happens i s fun d d' => d' = closeBundle ((e d).onCore core fun c => c.stage { res := [(4, .z z (v d))] } 0) core :=
  ⟨_, exec_ioRead he h (fun hin => absurd hin hchan) ho hr, rfl⟩

/-- An I/O write of a value, held in a Z register, to a register outside the windows of the channels does what the register's write does
(R578). -/
theorem happens_ioWrite {i : Instr} {s : State} {core z value : Nat} {o : Int} {e : Dev → Dev}
    (he : exec i s = runIoWrite core o (fun c b => c.zr (bitsOf b 17 13) == value) s)
    (h : lsNext s.dev core [(18, 4, 0xC), (13, 5, z), (0, 9, ofSigned 9 o)] = true) (hz : (nth s.dev.cores core).zr z = value)
    (ho : 0 ≤ o) (hchan : ¬(0x100 ≤ o.toNat * 4 ∧ o.toNat * 4 < 0x180)) (hr : ioWrite s.dev core (o.toNat * 4) value = some (e s.dev)) :
    happens i s fun d d' => d' = closeBundle ((e d).onCore core fun c => c.stage {} 0) core :=
  ⟨_, exec_ioWrite_of he h (fun _ hb => by simp [hb, hz]) (fun hin => absurd hin hchan) ho (by rw [hz]; exact hr), rfl⟩

/-- A stream port that is not assigned gives 0 (R578). -/
theorem sportPop_of_unassigned {d : Dev} {n : Nat} (hport : (nth d.cores n).img.sports.testBit 0 = false) : sportPop d n = (0, d) :=
  if_pos (by simp [hport])

/-- Settles O43. An access turns on the register at its offset, MSG_SEND on the time of the last send, a pop on whether the port is assigned.
That an unassigned port reads 0 is the model's reading (assumption log, entry 83). -/
theorem coreIoSpace : Obligations.CoreIoSpace := by
  unfold Obligations.CoreIoSpace
  refine ⟨?read, ?readNone, ?write, ?axisLo, ?cycLo, ?popUnassigned, ?pop, ?push, ?wdt, ?send, ?sendCounted⟩
  case read =>
    rintro s core z off v e h ⟨ho, hr⟩ hx
    exact ⟨_, exec_ioRead (exec_iord _ _ _ _) h hx ho hr, rfl⟩
  case readNone =>
    rintro s core z off h ⟨ho, hr⟩ hx
    exact ⟨_, exec_ioRead_none (exec_iord _ _ _ _) h hx ho hr, rfl⟩
  case write =>
    rintro s core z off e h ⟨ho, hr⟩ hx
    exact ⟨_, exec_ioWrite_of (exec_iowr _ _ _ _) h (fun hslot _ => hslot) hx ho hr, rfl⟩
  case axisLo =>
    intro s core z h
    exact happens_ioRead (exec_axisLo _ _ _) h (by decide) (by decide) rfl
  case cycLo =>
    intro s core z h
    exact happens_ioRead (exec_cycLo _ _ _) h (by decide) (by decide) rfl
  case popUnassigned =>
    intro s core z h hport
    exact happens_ioRead (v := fun _ => 0) (e := id) (exec_sportDataPop _ _ _) h (by decide) (by decide)
      (congrArg some (sportPop_of_unassigned hport))
  case pop =>
    rintro s core z k h ⟨hport, hring, hon, hdram⟩
    refine happens_ioRead (exec_sportDataPop _ _ _) h (by decide) (by decide) (congrArg some ?_)
    simp [sportPop, hport, hring, hon, hdram]
  case push =>
    intro s core value z h hz
    exact happens_ioWrite (exec_sportDataPush _ _ _) h hz (by decide) (by decide) rfl
  case wdt =>
    intro s core value z h hz
    exact happens_ioWrite (exec_wdt _ _ _) h hz (by decide) (by decide) rfl
  case send =>
    rintro s core value z h ⟨hz, hnever⟩
    exact happens_ioWrite (exec_msgSend _ _ _) h hz (by decide) (by decide) (congrArg some (if_neg (by simp [hnever])))
  case sendCounted =>
    rintro s core value z t h ⟨hz, hlast, hsoon⟩
    exact happens_ioWrite (exec_msgSend _ _ _) h hz (by decide) (by decide) (congrArg some (if_pos (by simp [hlast, hsoon])))

/-! ### The applet commands (R554, R559, R579 to R586) -/

@[simp] theorem coreBad_eq_false {core : Nat} : coreBad core = false ↔ 4 ≤ core ∧ core ≤ 7 := by simp [coreBad]

@[simp] theorem memArgBad_eq_false {core offset len : Nat} :
    memArgBad core offset len = false ↔ (4 ≤ core ∧ core ≤ 7) ∧ offset % 8 = 0 ∧ 1 ≤ len ∧ len ≤ 8192 ∧ offset + len ≤ 0x80000 := by
  simp [memArgBad, and_assoc, Nat.one_le_iff_ne_zero]

/-- Settles O44. A command on a core passes where the core is one of C4 to C7 and in a state that allows it; a read of data memory turns on
its thorns. -/
theorem appletCommands : Obligations.AppletCommands := by
  unfold Obligations.AppletCommands
  refine ⟨?load, ?start, ?stop, ?unload, ?status, ?msg, ?memRead, ?memWrite, ?coreStatus, ?counters⟩
  case load =>
    intro s h handle core bases sig hs hc
    exact completes_of (exec_appletLoad _ _ _ _ _ _) hs rfl hc _ _ rfl ⟨rfl, rfl⟩
  case start =>
    rintro s h core hs ⟨hlo, hhi, hready⟩
    exact completes_eq (exec_appletStart _ _ _) hs rfl (by simp [hlo, hhi, hready]) rfl
  case stop =>
    rintro s h core hs ⟨hlo, hhi, hlive⟩
    exact completes_of (exec_appletStop _ _ _) hs rfl (by simp [hlo, hhi, hlive]) _ _ rfl ⟨rfl, rfl⟩
  case unload =>
    rintro s h core hs ⟨hlo, hhi, hloaded⟩
    exact completes_eq (exec_appletUnload _ _ _) hs rfl (by simp [hlo, hhi, hloaded]) rfl
  case status =>
    rintro s h core hs ⟨hlo, hhi⟩
    exact query_completes (exec_appletStatus _ _ _) hs rfl rfl (by simp [hlo, hhi])
  case msg =>
    rintro s h core msg hs ⟨hlo, hhi, hlive⟩
    exact completes_eq (exec_appletMsg _ _ _ _) hs rfl (by simp [hlo, hhi, hlive]) rfl
  case memRead =>
    rintro s h core offset len hs ⟨hlo, hhi, halign, hsome, hlen, hend⟩ ⟨hhalted, hon, hclean⟩
    refine completes_of (exec_appletMemRead _ _ _ _ _) hs rfl ?_ _ _ ?_ ⟨rfl, rfl⟩
    · simp [hlo, hhi, halign, hsome, hlen, hend, hhalted, hon]
    · simp only [memReadOut, hclean]
      rfl
  case memWrite =>
    rintro s h core offset data hs ⟨hlo, hhi, halign, hsome, hlen, hend⟩ ⟨hhalted, hon⟩
    exact completes_eq (exec_appletMemWrite _ _ _ _ _) hs rfl (by simp [hlo, hhi, halign, hsome, hlen, hend, hhalted, hon]) rfl
  case coreStatus =>
    intro s h hs
    exact completes_eq (exec_coreStatus _ _) hs rfl rfl rfl
  case counters =>
    rintro s h core clear hs ⟨hlo, hhi, hclear⟩
    exact completes_eq (exec_appletCounters _ _ _ _) hs rfl (by simp [hlo, hhi, hclear]) rfl

end Sys2Proof.Machine
end

section
/-! What supply, domains, bias queues, sensors and throttling do by themselves (chapter 17). -/

namespace Sys2Proof.Machine

/-! ### The meaning that `exec` gives each happening -/

theorem exec_powerGood (s : State) : exec .powerGood s = execPowerGood s := rfl
theorem exec_undervoltage (mv : Nat) (s : State) : exec (.undervoltage mv) s = execUndervoltage mv s := rfl
theorem exec_overvoltage (mv : Nat) (s : State) : exec (.overvoltage mv) s = execOvervoltage mv s := rfl
theorem exec_supplyRecovery (mv : Nat) (s : State) : exec (.supplyRecovery mv) s = execSupplyRecovery mv s := rfl
theorem exec_reversePolarity (s : State) : exec .reversePolarity s = execReversePolarity s := rfl
theorem exec_resetPin (s : State) : exec .resetPin s = execResetPin s := rfl
theorem exec_resetRelease (s : State) : exec .resetRelease s = execResetRelease s := rfl
theorem exec_thermalRestart (s : State) : exec .thermalRestart s = execThermalRestart s := rfl
theorem exec_domainReady (dom : Nat) (fails : List Nat) (s : State) : exec (.domainReady dom fails) s = execDomainReady dom fails s := rfl
theorem exec_powerCap (mean : Nat) (s : State) : exec (.powerCap mean) s = execPowerCap mean s := rfl
theorem exec_domainBorrow (on beacon : Bool) (s : State) : exec (.domainBorrow on beacon) s = execDomainBorrow on beacon s := rfl
theorem exec_ppsFight (s : State) : exec .ppsFight s = execPpsFight s := rfl
theorem exec_biasQueueStep (s : State) : exec .biasQueueStep s = execBiasQueueStep s := rfl
theorem exec_biasStep (s : State) : exec .biasStep s = execBiasStep s := rfl
theorem exec_biasRamp (s : State) : exec .biasRamp s = execBiasRamp s := rfl
theorem exec_hkLatch (s : State) : exec .hkLatch s = execHkLatch s := rfl
theorem exec_hkConversion (chan : Nat) (reading : Int) (openShort : Nat) (s : State) :
    exec (.hkConversion chan reading openShort) s = execHkConversion chan reading openShort s := rfl
theorem exec_hkRound (s : State) : exec .hkRound s = execHkRound s := rfl
theorem exec_hkSuspectTimeout (s : State) : exec .hkSuspectTimeout s = execHkSuspectTimeout s := rfl
theorem exec_sensorTyping (input kind : Nat) (s : State) : exec (.sensorTyping input kind) s = execSensorTyping input kind s := rfl
theorem exec_throttleRelease (chan : Nat) (s : State) : exec (.throttleRelease chan) s = execThrottleRelease chan s := rfl
theorem exec_throttleGapStart (part : Nat) (s : State) : exec (.throttleGapStart part) s = execThrottleGapStart part s := rfl
theorem exec_throttleGapEnd (part : Nat) (s : State) : exec (.throttleGapEnd part) s = execThrottleGapEnd part s := rfl

/-! ### Bias stakes (R598, R599) -/

/-- The bias stakes prefetched, in the order of the queue. -/
def biasQueue (d : Dev) : List QStake :=
  stakesInOrder d (d.tmb.stakes.filter fun q => q.trig.isSome && (q.stake.action == 0x0F01 || q.stake.action == 0x0F02))

/-- The codes of a bias stake placed in the queues of its DACs, one per queue step from the stake's own. -/
def biasEnter (codes : Dev → QStake → Nat → List Nat) (d : Dev) (q : QStake) : Dev :=
  (biasDacs q.stake.target).foldl (fun d n =>
    (codes d q n).zipIdx.foldl (fun d x => biasPlace d n (q.trig.getD 0 + 512 * x.2) x.1) d) d

section
variable {code : Nat} {codes : Dev → QStake → Nat → List Nat} {d : Dev} {q : QStake} {l : List QStake}

theorem biasStake_empty (h : biasQueue d = []) : biasStake code codes d = d := by
  unfold biasQueue at h
  unfold biasStake
  rw [h]

/-- The first bias stake of the queue decides what BIAS_STEP and BIAS_RAMP do. -/
theorem biasStake_cons (h : biasQueue d = q :: l) :
    biasStake code codes d = if q.stake.action ≠ code then d else
      if q.late then raiseLate (d.onTmb (·.advance q)) q else
        if (biasDacs q.stake.target).any
            (fun n => decide (32 < (nth d.pwr.dacs n).queue.length + (codes (d.onTmb (·.advance q)) q n).length)) then
          raiseLate (biasEnter codes (d.onTmb (·.advance q)) q) q
        else markDone (biasEnter codes (d.onTmb (·.advance q)) q) q := by
  unfold biasQueue at h
  unfold biasStake
  rw [h]
  rfl

theorem biasStake_other (h : biasQueue d = q :: l) (hc : q.stake.action ≠ code) : biasStake code codes d = d := by
  rw [biasStake_cons h, if_pos hc]

theorem biasStake_late (h : biasQueue d = q :: l) (hc : q.stake.action = code) (hl : q.late = true) :
    biasStake code codes d = raiseLate (d.onTmb (·.advance q)) q := by
  rw [biasStake_cons h, if_neg (not_not.mpr hc), if_pos hl]

theorem biasStake_fits (h : biasQueue d = q :: l) (hc : q.stake.action = code) (hl : q.late = false)
    (hf : (biasDacs q.stake.target).any
      (fun n => decide (32 < (nth d.pwr.dacs n).queue.length + (codes (d.onTmb (·.advance q)) q n).length)) = false) :
    biasStake code codes d = markDone (biasEnter codes (d.onTmb (·.advance q)) q) q := by
  simp only [biasStake_cons h, hc, hl, hf, ne_eq, not_true_eq_false, if_false, Bool.false_eq_true]

theorem biasStake_full (h : biasQueue d = q :: l) (hc : q.stake.action = code) (hl : q.late = false)
    (hf : (biasDacs q.stake.target).any
      (fun n => decide (32 < (nth d.pwr.dacs n).queue.length + (codes (d.onTmb (·.advance q)) q n).length)) = true) :
    biasStake code codes d = raiseLate (biasEnter codes (d.onTmb (·.advance q)) q) q := by
  simp only [biasStake_cons h, hc, hl, hf, ne_eq, not_true_eq_false, if_false, Bool.false_eq_true, if_true]

end

/-- The codes of BIAS_STEP: the one given, the path's gate on code, or the safe code. -/
def stepCode (d : Dev) (q : QStake) (n : Nat) : Nat :=
  match bitsOf q.stake.argument 17 16 with
  | 0 => q.stake.argument % 65536
  | 1 => gateOnCode d n
  | _ => (nth d.pwr.dacs n).safe

/-- BIAS_STEP places one code in each of its DACs' queues. -/
theorem execBiasStep_eq : execBiasStep = onDev (biasStake 0x0F01 fun d q n => [stepCode d q n]) := by
  unfold execBiasStep
  congr 2
  funext d q n
  unfold stepCode
  generalize bitsOf q.stake.argument 17 16 = source
  match source with
  | 0 | 1 | _ + 2 => rfl

theorem stepCode_given {q : QStake} (h : bitsOf q.stake.argument 17 16 = 0) (d : Dev) (n : Nat) :
    stepCode d q n = q.stake.argument % 65536 := by
  unfold stepCode
  rw [h]
  rfl

/-! ### A full bias queue (R599) -/

theorem biasPlace_full {d : Dev} {dac : Nat} (h : 32 ≤ (nth d.pwr.dacs dac).queue.length) (step code : Nat) :
    biasPlace d dac step code =
      raiseEv ((d.onDac dac fun x => { x with overflow := true }).pwrCount 4 1) EV.biasQueue [a4 dac] :=
  if_pos h

/-- Settles O60. A code that finds its queue full changes the DAC's `overflow_seen` alone, and the stake takes R70; that
EV_STAKE_LATE is raised once for the stake, however many of its codes are dropped, is the model's reading (log 86). -/
theorem biasQueueFull : Obligations.BiasQueueFull := by
  unfold Obligations.BiasQueueFull
  refine ⟨?entry, ?step, ?ramp⟩
  case entry =>
    intro d dac step code hdac hfull
    rw [biasPlace_full hfull]
    refine ⟨fun n => nth_upd_keep Dac.queue _ _ _ _ fun _ => rfl, ?_, _, rfl, rfl, rfl⟩
    exact congrArg Dac.overflow (nth_upd_same _ _ _ hdac)
  case step =>
    intro s q rest dac hq hact hlate hdacs hfull
    have hover : (biasDacs q.stake.target).any (fun n => decide (32 < (nth s.dev.pwr.dacs n).queue.length + 1)) = true := by
      simpa [hdacs] using hfull
    refine ⟨stepCode (s.dev.onTmb (·.advance q)) q dac, ?_⟩
    rw [exec_biasStep, execBiasStep_eq, onDev, biasStake_full (codes := fun d q n => [stepCode d q n]) hq hact hlate hover, biasEnter, hdacs]
    rfl
  case ramp =>
    intro s q rest hq hact hlate hfull
    refine ⟨biasEnter (fun d _ n => (nth d.pwr.dacs n).ramp) (s.dev.onTmb (·.advance q)) q, ?_⟩
    rw [exec_biasRamp, execBiasRamp, onDev, biasStake_full hq hact hlate hfull]
    rfl

/-! ### Supply, domains, the cap and the bias queues (R588 to R599, R607, R613, R646) -/

theorem capAfter_rises {cap level mean : Nat} (h : 10 * cap < mean) (hl : level < 8) : capAfter cap level mean = level + 1 := by
  rw [capAfter, if_pos h, Nat.min_eq_right hl]

theorem capAfter_falls {cap level mean : Nat} (h : 100 * mean < 950 * cap) : capAfter cap level mean = level - 1 := by
  rw [capAfter, if_neg (by omega), if_pos h]

theorem capAfter_stays {cap level mean : Nat} (h : mean ≤ 10 * cap) (h' : 950 * cap ≤ 100 * mean) : capAfter cap level mean = level := by
  rw [capAfter, if_neg (Nat.not_lt.mpr h), if_neg (Nat.not_lt.mpr h')]

/-- D4 holds no bias DAC. -/
theorem placeSafe_four (d : Dev) : placeSafe d 4 = d := rfl

theorem restore_ident (o : NvmOld) (d : Dev) : (o.restore d).ident = d.ident := by cases o <;> rfl

/-- What a shutdown does to the NVM leaves the unit's identity. -/
theorem nvmStop_ident (d : Dev) : (nvmStop d).ident = d.ident := by
  unfold nvmStop
  refine List.foldlRecOn (motive := fun e : Dev => e.ident = d.ident) _ _ rfl fun e he j _ => ?_
  split
  · exact (restore_ident _ e).trans he
  · exact he

/-- Settles O47. The supply and restart clauses turn on the conditions under which each happening acts; the cap's on the level
that the frame's mean gives; the bias stakes' on the first of the queue. That POWER_GOOD keeps NVM and fuses only, that
REVERSE_POLARITY clears the domains and that DOMAIN_BORROW off cuts at once is the model's reading (log 91). -/
theorem supplyAndDomains : Obligations.SupplyAndDomains := by
  unfold Obligations.SupplyAndDomains
  refine ⟨?powerGood, ?low, ?lowNot, ?high, ?highNot, ?recovers, ?recoversOff, ?recoversNot, ?reverse, ?pin, ?release, ?thermal,
    ?thermalNot, ?ready, ?readyNot, ?capRises, ?capFalls, ?capStays, ?capNot, ?borrow, ?borrowEnds, ?fight, ?queueStep, ?queueStepNot,
    ?step, ?ramp, ?stepLate, ?stepEmpty, ?stepOther, ?rampLate, ?rampOther⟩
  case powerGood =>
    intro s hoff
    exact happens_eq (exec_powerGood _) (if_neg (by simp [hoff]))
  case low =>
    rintro s mv e hfails rfl
    exact happens_eq (F := fun _ => _) (exec_undervoltage _ _) (if_pos hfails)
  case lowNot =>
    intro s mv hmv
    exact happens_eq (F := id) (exec_undervoltage _ _) (if_neg fun h => absurd h.1 (Nat.not_lt.mpr hmv))
  case high =>
    rintro s mv e hfails rfl
    exact happens_eq (F := fun _ => _) (exec_overvoltage _ _) (if_pos hfails)
  case highNot =>
    intro s mv hmv
    exact happens_eq (F := id) (exec_overvoltage _ _) (if_neg fun h => absurd h.1 (Nat.not_lt.mpr hmv))
  case recovers =>
    intro s mv hrange hon
    exact happens_eq (exec_supplyRecovery _ _) ((if_pos hrange).trans (if_pos hon))
  case recoversOff =>
    intro s mv hrange hoff
    exact happens_eq (exec_supplyRecovery _ _) ((if_pos hrange).trans (if_neg (by simp [hoff])))
  case recoversNot =>
    intro s mv hout
    refine happens_eq (F := id) (exec_supplyRecovery _ _) (if_neg ?_)
    rintro ⟨-, hlo, hhi, hsince⟩
    omega
  case reverse =>
    intro s
    exact onDev_happens (exec_reversePolarity _) ⟨rfl, rfl, rfl, nvmStop_ident _⟩
  case pin =>
    intro s hon
    exact happens_eq (exec_resetPin _) (if_pos hon)
  case release =>
    intro s hheld
    exact happens_eq (exec_resetRelease _) (if_pos hheld)
  case thermal =>
    rintro s ⟨hdown, hfailed, hcause, hcooled⟩
    exact happens_eq (exec_thermalRestart _) (if_pos (by simp [hdown, hfailed, hcause, hcooled]))
  case thermalNot =>
    intro s hcause
    exact happens_eq (F := id) (exec_thermalRestart _) (if_neg (by simp [hcause]))
  case ready =>
    intro s dom fails hstep
    exact happens_eq (exec_domainReady _ _ _) (if_pos hstep)
  case readyNot =>
    intro s dom fails hstep
    exact happens_eq (F := id) (exec_domainReady _ _ _) (if_neg hstep)
  case capRises =>
    rintro s mean ⟨hmean, hlevel⟩ ⟨hframe, hnew⟩
    refine happens_eq (exec_powerCap _ _) ((if_neg (by simp [hframe, hnew])).trans ?_)
    simp only [capAfter_rises hmean hlevel, Nat.succ_ne_self, Nat.lt_succ_self, if_false, if_true]
    rfl
  case capFalls =>
    rintro s mean ⟨hmean, hlevel⟩ ⟨hframe, hnew⟩
    refine happens_eq (exec_powerCap _ _) ((if_neg (by simp [hframe, hnew])).trans ?_)
    have hless : s.dev.pwr.capLevel - 1 ≠ s.dev.pwr.capLevel := by omega
    have hnot : ¬s.dev.pwr.capLevel < s.dev.pwr.capLevel - 1 := by omega
    simp only [capAfter_falls hmean, hless, hnot, if_false]
    rfl
  case capStays =>
    rintro s mean ⟨hmean, hmean'⟩ ⟨hframe, hnew⟩
    refine happens_eq (exec_powerCap _ _) ((if_neg (by simp [hframe, hnew])).trans ?_)
    simp only [capAfter_stays hmean hmean', if_true]
  case capNot =>
    rintro s mean hnot
    exact happens_eq (F := id) (exec_powerCap _ _) (if_pos hnot)
  case borrow =>
    rintro s on beacon ⟨rfl, rfl, hd2, hd4, hruns⟩
    refine happens_eq (exec_domainBorrow _ _ _) ?_
    simp [hd2, hd4, borrowFor, hruns]
  case borrowEnds =>
    rintro s on beacon ⟨rfl, rfl, hborrowed, hbusy⟩
    refine happens_eq (exec_domainBorrow _ _ _) ?_
    simp [hborrowed, hbusy, placeSafe_four]
  case fight =>
    intro s
    exact happens_eq (exec_ppsFight _) rfl
  case queueStep =>
    intro s haxis
    exact happens_eq (exec_biasQueueStep _) (if_neg (not_not.mpr haxis))
  case queueStepNot =>
    intro s haxis
    exact happens_eq (F := id) (exec_biasQueueStep _) (if_pos haxis)
  case step =>
    rintro s q l hq ⟨hlate, hact, hgiven⟩ hfits
    refine happens_eq ((exec_biasStep _).trans (by rw [execBiasStep_eq]))
      ((biasStake_fits (codes := fun d q n => [stepCode d q n]) hq hact hlate hfits).trans ?_)
    simp only [biasEnter, stepCode_given hgiven]
    rfl
  case ramp =>
    rintro s q l hq ⟨hlate, hact⟩ hfits
    exact happens_eq (exec_biasRamp _) (biasStake_fits hq hact hlate hfits)
  case stepLate =>
    rintro s q l hq ⟨hlate, hact⟩
    exact happens_eq (exec_biasStep _) (biasStake_late hq hact hlate)
  case stepEmpty =>
    intro s hnone
    exact happens_eq (F := id) (exec_biasStep _) (biasStake_empty (by rw [biasQueue, hnone]; rfl))
  case stepOther =>
    intro s q l hq hact
    exact happens_eq (F := id) (exec_biasStep _) (biasStake_other hq (by simp [hact]))
  case rampLate =>
    rintro s q l hq ⟨hlate, hact⟩
    exact happens_eq (exec_biasRamp _) (biasStake_late hq hact hlate)
  case rampOther =>
    intro s q l hq hact
    exact happens_eq (F := id) (exec_biasRamp _) (biasStake_other hq (by simp [hact]))

/-! ### Conversions, rounds, sensors and throttling (R598 to R612) -/

/-- A conversion as R604 and R607 give it, with what counts towards 125 °C and 105 °C written out. -/
theorem convert_eq (now : Nat) (reading : Int) (openShort : Nat) (c : Chan) :
    c.convert now reading openShort = { c with
      last := reading, fault := openShort, sum := c.sum + reading, count := sat32 (c.count + 1)
      lo := if c.count = 0 then reading else min c.lo reading
      hi := if c.count = 0 then reading else max c.hi reading
      hotRun := if openShort = 0 ∧ reading ≤ 15000 then (if 12500 ≤ reading then c.hotRun + 1 else 0) else c.hotRun
      below105 := if openShort = 0 ∧ reading ≤ 15000 then (if 10500 ≤ reading then none else some (c.below105.getD now)) else c.below105 } := by
  by_cases hok : openShort = 0 ∧ reading ≤ 15000
  · have hcounted : counted reading openShort = true := by simpa [counted] using hok
    cases hsince : c.below105 <;>
      simp only [Chan.convert, hcounted, hsince, if_pos hok, Bool.not_true, Bool.false_eq_true, if_false, Option.getD]
  · have hcounted : counted reading openShort = false := by simpa [counted] using hok
    simp only [Chan.convert, hcounted, if_neg hok, Bool.not_false, if_true]

/-- Counting a frame with gaps changes no plan. -/
theorem gapPaths_counted (d : Dev) (c : Prop) [Decidable c] (frame part : Nat) :
    gapPaths (if c then d.pwrCount 3 1 else d) frame part = gapPaths d frame part := by
  split <;> rfl

/-- Settles O49. A conversion and a round act while D0 is on and their time has come; a level falls and a gap starts or ends
where its condition holds. That a level falls one step at a time, its 1 s counted anew after each fall, is the model's reading
(log 88). -/
theorem heatHappenings : Obligations.HeatHappenings := by
  unfold Obligations.HeatHappenings
  refine ⟨?latch, ?conversion, ?hot, ?conversionEarly, ?roundOff, ?roundBroken, ?round, ?roundEarly, ?suspect, ?suspectNot, ?typing,
    ?typingNot, ?release, ?releaseNot, ?gapStart, ?gapEnd⟩
  case latch =>
    intro s q hdue
    exact happens_eq (exec_hkLatch _) (stakeAct_due hdue)
  case conversion =>
    rintro s chan reading openShort ⟨hon, hchan, hint, hdue⟩
    have hnotInternal : ¬(internalDiodes.contains chan = true) := by simp only [hint]; decide
    refine happens_eq (exec_hkConversion _ _ _ _)
      ((if_neg (by simp [hon, hchan, hdue])).trans ((if_neg fun h => hnotInternal h.1).trans ?_))
    simp only [Dev.onHk, convert_eq]
  case hot =>
    rintro s chan reading openShort ⟨hon, hchan, hint, hdown, hdue⟩ hrun
    refine happens_eq (exec_hkConversion _ _ _ _) ((if_neg (by simp [hon, hchan, hdue])).trans ((if_pos ⟨hint, hrun⟩).trans ?_))
    exact if_neg (by simp [hdown])
  case conversionEarly =>
    intro s chan reading openShort hdue
    exact happens_eq (F := id) (exec_hkConversion _ _ _ _) (if_pos (by simp [hdue]))
  case roundOff =>
    intro s n hoff
    exact happens_eq (F := id) (exec_hkRound _) (if_pos (Or.inl hoff))
  case roundBroken =>
    rintro s e f n ⟨hon, rfl, hat⟩ hf hbroken
    refine happens_eq (F := fun _ => heatShutdown f 2 n (nth f.pwr.chans n).last) (exec_hkRound _) ((if_neg (by simp [hon, hat])).trans ?_)
    simp only [← hf, hbroken]
  case round =>
    rintro s e f ⟨hon, rfl, hat⟩ hf hbroken
    refine happens_eq (F := fun _ => _) (exec_hkRound _) ((if_neg (by simp [hon, hat])).trans ?_)
    simp only [← hf, hbroken]
  case roundEarly =>
    intro s n hat
    exact happens_eq (F := id) (exec_hkRound _) (if_pos (Or.inr hat))
  case suspect =>
    intro s hsince
    exact happens_eq (exec_hkSuspectTimeout _) (if_pos hsince)
  case suspectNot =>
    intro s hnot
    exact happens_eq (F := id) (exec_hkSuspectTimeout _) (if_neg (by simp [hnot]))
  case typing =>
    rintro s input kind ⟨hon, hinput, hkind, hkind'⟩ ⟨hbroken, hat⟩
    refine happens_eq (exec_sensorTyping _ _ _) ((if_neg ?_).trans (if_neg (Nat.ne_of_gt hkind)))
    simp [hon, hinput, hkind', hbroken, hat]
  case typingNot =>
    intro s input kind hbroken
    exact happens_eq (F := id) (exec_sensorTyping _ _ _) (if_pos (by simp [hbroken]))
  case release =>
    rintro s chan t ⟨hcool, hat, hlevel, hsensor⟩
    refine happens_eq (exec_throttleRelease _ _) ?_
    simp only [hcool]
    refine if_neg ?_
    rintro (h | h | ⟨h, -⟩ | h)
    · omega
    · omega
    · omega
    · simp only [hsensor, Bool.not_true, Bool.false_eq_true] at h
  case releaseNot =>
    intro s chan hcool
    exact happens_eq (F := id) (exec_throttleRelease _ _) (by simp only [hcool]; rfl)
  case gapStart =>
    intro s part hat
    refine happens_eq (exec_throttleGapStart _ _) ?_
    simp only [if_neg (not_not.mpr hat), gapPaths_counted]
  case gapEnd =>
    intro s part hat
    refine happens_eq (exec_throttleGapEnd _ _) ((if_neg (not_not.mpr hat)).trans ?_)
    simp [and_assoc]

end Sys2Proof.Machine
end

section
/-! What the control complex does: keys, attestation, firmware, the NVM's work and the boot chain (chapters 18 and 19). -/

namespace Sys2Proof.Machine

/-! ### The meaning that `exec` gives each command and happening -/

theorem exec_secStatus (h : Hdr) (s : State) : exec (.secStatus h) s = execSecStatus h s := rfl
theorem exec_keyChange (h : Hdr) (handle : Nat) (hss : Bool) (s : State) :
    exec (.keyChange h handle hss) s = execKeyChange h handle hss s := rfl
theorem exec_keyList (h : Hdr) (s : State) : exec (.keyList h) s = execKeyList h s := rfl
theorem exec_rollbackSet (h : Hdr) (counter value : Nat) (s : State) :
    exec (.rollbackSet h counter value) s = execRollbackSet h counter value s := rfl
theorem exec_certRead (h : Hdr) (s : State) : exec (.certRead h) s = execCertRead h s := rfl
theorem exec_attest (h : Hdr) (nonce : Nat) (s : State) : exec (.attest h nonce) s = execAttest h nonce s := rfl
theorem exec_debugAuth (h : Hdr) (handle : Nat) (hss : Bool) (s : State) :
    exec (.debugAuth h handle hss) s = execDebugAuth h handle hss s := rfl
theorem exec_nvmRead (h : Hdr) (offset len : Nat) (s : State) : exec (.nvmRead h offset len) s = execNvmRead h offset len s := rfl
theorem exec_nvmWrite (h : Hdr) (offset : Nat) (data : List Nat) (s : State) :
    exec (.nvmWrite h offset data) s = execNvmWrite h offset data s := rfl
theorem exec_nvmErase (h : Hdr) (offset : Nat) (s : State) : exec (.nvmErase h offset) s = execNvmErase h offset s := rfl
theorem exec_fwLoad (h : Hdr) (handle : Nat) (hss : Bool) (s : State) : exec (.fwLoad h handle hss) s = execFwLoad h handle hss s := rfl
theorem exec_fwActivate (h : Hdr) (position : Nat) (s : State) : exec (.fwActivate h position) s = execFwActivate h position s := rfl
theorem exec_fwCommit (h : Hdr) (raise : Nat) (s : State) : exec (.fwCommit h raise) s = execFwCommit h raise s := rfl
theorem exec_fwStatus (h : Hdr) (s : State) : exec (.fwStatus h) s = execFwStatus h s := rfl
theorem exec_appletStore (h : Hdr) (handle entry core autostart : Nat) (bases : List Nat) (hss : Bool) (s : State) :
    exec (.appletStore h handle entry core autostart bases hss) s = execAppletStore h handle entry core autostart bases hss s := rfl
theorem exec_appletStoreErase (h : Hdr) (entry : Nat) (s : State) :
    exec (.appletStoreErase h entry) s = execAppletStoreErase h entry s := rfl
theorem exec_eraseComplete (ok : Bool) (s : State) : exec (.eraseComplete ok) s = execEraseComplete ok s := rfl
theorem exec_nvmPageProgram (ok : Bool) (s : State) : exec (.nvmPageProgram ok) s = execNvmPageProgram ok s := rfl
theorem exec_fwStaged (s : State) : exec .fwStaged s = execFwStaged s := rfl
theorem exec_lmsTreeReady (s : State) : exec .lmsTreeReady s = execLmsTreeReady s := rfl
theorem exec_lockstepMismatch (s : State) : exec .lockstepMismatch s = execLockstepMismatch s := rfl
theorem exec_reloadComplete (s : State) : exec .reloadComplete s = execReloadComplete s := rfl
theorem exec_boot (chk : BootCheck) (s : State) : exec (.boot chk) s = execBoot chk s := rfl
theorem exec_fwActivationRestart (s : State) : exec .fwActivationRestart s = execFwActivationRestart s := rfl
theorem exec_trialLimit (s : State) : exec .trialLimit s = execTrialLimit s := rfl
theorem exec_sysResetAfterResponse (s : State) : exec .sysResetAfterResponse s = execSysResetAfterResponse s := rfl

/-! ### Keys, counters, certificate, attestation, debug and the host area (R620 to R633, R641) -/

/-- Settles O50. Each command's checks are those the statement names; ROLLBACK-SET reports a value that differs from the
counter's, and ATTEST waits where its leaf's reservation is not committed. KEY-LIST's codes (log 94), and the public points that
KEY-CHANGE's record keeps beside the slot table (logs 111 and 120), are the model's reading. -/
theorem securityCommands : Obligations.SecurityCommands := by
  unfold Obligations.SecurityCommands
  refine ⟨?status, ?keyChange, ?keyList, ?firmwareCounter, ?appletCounter, ?certificate, ?attest, ?attestWaits, ?debug, ?read, ?write,
    ?erase⟩
  case status =>
    intro s h hs
    exact query_completes (exec_secStatus _ _) hs rfl rfl rfl
  case keyChange =>
    intro s h handle sig hs hc
    exact completes_of (exec_keyChange _ _ _ _) hs rfl hc _ _ rfl ⟨_, _, rfl, rfl, rfl, rfl⟩
  case keyList =>
    intro s h hs
    exact query_completes (exec_keyList _ _) hs rfl rfl rfl
  case firmwareCounter =>
    rintro s h counter value hs hc ⟨rfl, hmore⟩
    refine completes_eq (exec_rollbackSet _ _ _ _) hs rfl hc ?_
    simp [Nat.ne_of_gt hmore]
  case appletCounter =>
    rintro s h counter value hs hc ⟨rfl, hmore⟩
    refine completes_eq (exec_rollbackSet _ _ _ _) hs rfl hc ?_
    simp [Nat.ne_of_gt hmore]
  case certificate =>
    intro s h hs
    exact completes_eq (exec_certRead _ _) hs rfl rfl rfl
  case attest =>
    intro s h nonce hs hc hready
    refine completes_of (exec_attest _ _ _) hs rfl hc _ _ (if_neg ?_) ⟨_, _, rfl, rfl, rfl⟩
    simp [hready]
  case attestWaits =>
    intro s h nonce hs hc hpending
    exact begins_eq (exec_attest _ _ _) hs rfl hc (if_pos hpending)
  case debug =>
    intro s h handle sig hs hc
    exact completes_eq (exec_debugAuth _ _ _ _) hs rfl hc rfl
  case read =>
    rintro s h offset len hs ⟨hsome, hlen, hend⟩
    exact query_completes (exec_nvmRead _ _ _ _) hs rfl rfl (by simp [hlen, hend]; omega)
  case write =>
    intro s h offset data hs hc
    exact begins_eq (exec_nvmWrite _ _ _ _) hs rfl hc rfl
  case erase =>
    intro s h offset hs hc
    exact begins_eq (exec_nvmErase _ _ _) hs rfl hc rfl

/-! ### Firmware, stored applets and the NVM's work (R627, R635, R639, R640) -/

@[simp] theorem found_areaBusy (d : Dev) (h : Hdr) (area : Nat) : areaBusy (found d h) area = areaBusy d area := by
  simp [areaBusy, nvmLeft]

/-- Settles O51. The commands' checks are those the statement names; an erase and a page turn on the work that comes next, the
slot-valid record on no other record of its type waiting. That FW-STATUS packs the boot record in fields of 1, 1, 2 and 4 bytes
(log 97), and that the next tree is in use at once (log 95), is the model's reading. -/
theorem firmwareAndNvm : Obligations.FirmwareAndNvm := by
  unfold Obligations.FirmwareAndNvm
  refine ⟨?load, ?activate, ?commit, ?commitRaise, ?status, ?store, ?storeErase, ?erased, ?eraseFails, ?programmed, ?staged, ?tree,
    ?treeNot⟩
  case load =>
    intro s h handle sig hs hc
    exact completes_of (exec_fwLoad _ _ _ _) hs rfl hc _ _ rfl ⟨_, rfl, rfl, rfl⟩
  case activate =>
    intro s h position hs hc
    exact completes_eq (exec_fwActivate _ _ _) hs rfl hc rfl
  case commit =>
    rintro s h raise hs hc rfl
    exact completes_eq (exec_fwCommit _ _ _) hs rfl hc rfl
  case commitRaise =>
    rintro s h raise hs hc ⟨rfl, hmore⟩
    refine completes_eq (exec_fwCommit _ _ _) hs rfl hc ?_
    simp [just, hmore]
  case status =>
    intro s h hs
    exact completes_of (exec_fwStatus _ _) hs rfl rfl _ _ rfl ⟨rfl, _, rfl, rfl⟩
  case store =>
    intro s h handle entry core autostart bases sig hs hc
    exact begins_eq (exec_appletStore _ _ _ _ _ _ _ _) hs rfl hc rfl
  case storeErase =>
    rintro s h entry hs ⟨hentry, hfree⟩
    exact begins_eq (exec_appletStoreErase _ _ _) hs rfl (by simp [hentry, hfree]) rfl
  case erased =>
    rintro s ok k b l ⟨hnext, herase, rfl⟩
    refine happens_eq (exec_eraseComplete _ _) ?_
    simp only [hnext, herase]
    rfl
  case eraseFails =>
    rintro s ok k b l ⟨hnext, herase, rfl⟩
    refine happens_eq (exec_eraseComplete _ _) ?_
    simp only [hnext, herase]
    rfl
  case programmed =>
    rintro s ok k o b l ⟨hnext, herase, hpage, rfl⟩
    refine happens_eq (exec_nvmPageProgram _ _) ?_
    simp only [hnext, herase, hpage]
    rfl
  case staged =>
    intro s k slot img hfirst hpending hgoal
    refine happens_eq (exec_fwStaged _) ?_
    simp [hfirst, hgoal, hpending]
  case tree =>
    intro s hgen
    exact onDev_happens (exec_lmsTreeReady _) ⟨_, _, rfl, rfl, if_neg (by simp [hgen])⟩
  case treeNot =>
    intro s hgen
    exact happens_eq (F := id) (exec_lmsTreeReady _) (if_pos (by simp [hgen]))

/-! ### Reloads, the boot chain and restarts (R618, R624, R625, R639, R646) -/

/-- What BOOT turns on: the boot ROM with D1 on and no step of a transition left. -/
theorem boot_of_rom {d : Dev} {chk : BootCheck} {s : State} (hd : s.dev = d)
    (hrom : d.ctl.phase = .rom ∧ domOn d 1 = true ∧ d.pwr.steps.isEmpty = true ∧ storeFailed d 0 = false ∧ storeFailed d 5 = false) :
    exec (.boot chk) s = onDev (fun d => if !chk.kat then toHold d else if chk.bootSel then startLoader d else bootSlots d chk) s := by
  subst hd
  obtain ⟨hphase, hd1, hsteps, hrom, hsram⟩ := hrom
  simp only [exec_boot, execBoot, onDev]
  rw [if_neg (by simp [hphase, hd1, hsteps]), if_neg (by simp [hrom, hsram])]

/-- Settles O52. A boot acts in the ROM alone, with D1 on and its stores sound, and then turns on the known-answer test, on
BOOT_SEL and on which slot boots. That a failed known-answer test takes the unit to HOLD is the model's reading (log 97). -/
theorem bootAndRestart : Obligations.BootAndRestart := by
  unfold Obligations.BootAndRestart
  refine ⟨?reload, ?reloadAgain, ?reloadEnds, ?bootNot, ?bootHalts, ?loader, ?slot, ?noSlot, ?activation, ?activationNot, ?trial, ?reset,
    ?resetWaits, ?resetNot⟩
  case reload =>
    rintro s ⟨hphase, hnever⟩
    refine happens_eq (exec_lockstepMismatch _) ?_
    simp [hphase, hnever]
  case reloadAgain =>
    rintro s t ⟨hphase, hlast, hsoon⟩
    refine happens_eq (exec_lockstepMismatch _) ?_
    simp [hphase, hlast, hsoon, resetBoot]
  case reloadEnds =>
    intro s hphase
    exact happens_eq (exec_reloadComplete _) (if_pos hphase)
  case bootNot =>
    intro s chk hphase
    exact happens_eq (F := id) (exec_boot _ _) (if_pos (Or.inl hphase))
  case bootHalts =>
    intro s chk hrom hkat
    exact happens_eq (boot_of_rom rfl hrom) (if_pos (by simp [hkat]))
  case loader =>
    rintro s chk hrom ⟨hkat, hsel⟩
    exact happens_eq (boot_of_rom rfl hrom) ((if_neg (by simp [hkat])).trans (if_pos hsel))
  case slot =>
    rintro s chk hrom ⟨hkat, hsel⟩ ⟨htrial, hboots⟩
    refine happens_eq (boot_of_rom rfl hrom) ((if_neg (by simp [hkat])).trans ((if_neg (by simp [hsel])).trans ?_))
    simp [bootSlots, htrial, hboots]
  case noSlot =>
    rintro s chk hrom ⟨hkat, hsel⟩ ⟨htrial, hnamed, hother⟩
    refine happens_eq (boot_of_rom rfl hrom) ((if_neg (by simp [hkat])).trans ((if_neg (by simp [hsel])).trans ?_))
    simp [bootSlots, htrial, hnamed, hother, startLoader]
  case activation =>
    rintro s p ⟨hat, hcome⟩
    refine happens_eq (exec_fwActivationRestart _) ?_
    simp only [hat, if_pos hcome]
    rfl
  case activationNot =>
    intro s hnone
    exact happens_eq (F := id) (exec_fwActivationRestart _) (by simp only [hnone]; rfl)
  case trial =>
    intro s hover
    exact happens_eq (exec_trialLimit _) (if_pos hover)
  case reset =>
    rintro s p x c q ⟨hat, hcome⟩
    refine happens_eq (exec_sysResetAfterResponse _) ?_
    simp only [hat, if_pos hcome]
    rfl
  case resetWaits =>
    rintro s p x c q ⟨hat, hnot⟩
    refine happens_eq (F := id) (exec_sysResetAfterResponse _) ?_
    simp only [hat]
    refine if_neg ?_
    rintro ⟨hcome, hanswered⟩
    rcases hnot with h | h
    · exact absurd hcome (Nat.not_le.mpr h)
    · simp [h] at hanswered
  case resetNot =>
    intro s hnone
    exact happens_eq (F := id) (exec_sysResetAfterResponse _) (by simp only [hnone]; rfl)

end Sys2Proof.Machine
end
